-- ==== Sys2Proof/Word.lean ====
section
/-! DEFINITION. The machine's words, and the plain-data sparse map that registers, memories and tables are held in. -/

namespace Sys2Proof

/-- A byte of memory or of scratchpad. -/
abbrev Byte := BitVec 8

/-- A halfword of the instruction stream (02 R55). -/
abbrev Half := BitVec 16

/-- A 32-bit register value, lane mask or memory word. -/
abbrev Word := BitVec 32

/-- A 64-bit value: a register pair, an address before its range check, a queue register. -/
abbrev DWord := BitVec 64

/-- The 32 bytes of a coherence sector, byte `i` in bits `8i+7..8i` (00 R7, 09 R266). -/
abbrev SectorData := BitVec 256

/-- A table from natural-number keys to values, held as a list in one canonical form: keys strictly rising.
The operations are in `Sys2Proof/Machine/Map.lean`. -/
abbrev SMap (α : Type) := List (Nat × α)

end Sys2Proof
end

