-- ==== Sys2Proof/Machine/Map.lean ====
section
/-! DEFINITION. The operations of the sparse map: lookup, insertion in key order, removal, and the canonical update that
removes an entry whose value is what an unlisted key reads as. -/

namespace Sys2Proof

/-- The value listed for a key. -/
def SMap.find {α : Type} : SMap α → Nat → Option α
  | [], _ => none
  | (k, v) :: m, j => if j = k then some v else SMap.find m j

/-- The value of a key, or what an unlisted key reads as. -/
def SMap.getD {α : Type} (m : SMap α) (j : Nat) (d : α) : α :=
  match SMap.find m j with
  | some v => v
  | none => d

/-- List a value for a key, in key order. -/
def SMap.insert {α : Type} : SMap α → Nat → α → SMap α
  | [], j, x => [(j, x)]
  | (k, v) :: m, j, x =>
    if j < k then (j, x) :: (k, v) :: m
    else if j = k then (j, x) :: m
    else (k, v) :: SMap.insert m j x

/-- Unlist a key. -/
def SMap.erase {α : Type} : SMap α → Nat → SMap α
  | [], _ => []
  | (k, v) :: m, j => if j = k then SMap.erase m j else (k, v) :: SMap.erase m j

/-- Give a key a value, keeping the canonical form in which no entry equals the default. -/
def SMap.put {α : Type} [DecidableEq α] (d : α) (m : SMap α) (j : Nat) (x : α) : SMap α :=
  if x = d then SMap.erase m j else SMap.insert m j x

/-- Give several keys values, in order. -/
def SMap.putAll {α : Type} [DecidableEq α] (d : α) (m : SMap α) : List (Nat × α) → SMap α
  | [] => m
  | (j, x) :: r => SMap.putAll d (SMap.put d m j x) r

/-- Keys strictly rise. -/
def SMap.sorted {α : Type} : SMap α → Bool
  | [] => true
  | [_] => true
  | (j, _) :: (k, y) :: m => decide (j < k) && SMap.sorted ((k, y) :: m)

/-- The canonical form for the default `d`: keys strictly rise and no listed value is `d`. -/
def SMap.canonical {α : Type} [DecidableEq α] (d : α) (m : SMap α) : Bool :=
  SMap.sorted m && m.all fun e => decide (e.2 ≠ d)

/-- The listed keys. -/
def SMap.keys {α : Type} (m : SMap α) : List Nat := m.map Prod.fst

/-- Is the key listed? -/
def SMap.has {α : Type} (m : SMap α) (j : Nat) : Bool := (SMap.find m j).isSome

/-- The numbers `lo, lo + 1, …` of a run of `n`. -/
def run (lo : Nat) : Nat → List Nat
  | 0 => []
  | n + 1 => lo :: run (lo + 1) n

/-- Bits `lo .. lo + n - 1` of a number. -/
def bits (x lo n : Nat) : Nat := x / 2 ^ lo % 2 ^ n

/-- Bit `i` of a number. -/
def bit (x i : Nat) : Bool := x / 2 ^ i % 2 == 1

/-- The two's-complement value of the low `n` bits (02 R64). -/
def signed (n x : Nat) : Int :=
  if x % 2 ^ n < 2 ^ (n - 1) then (x % 2 ^ n : Nat) else (x % 2 ^ n : Nat) - (2 ^ n : Nat)

/-- An integer reduced to the unsigned value of `n` bits. -/
def wrap (n : Nat) (x : Int) : Nat := (x % ((2 ^ n : Nat) : Int)).toNat

/-- A little-endian number from its bytes (00 R7). -/
def ofBytes : List Byte → Nat
  | [] => 0
  | b :: r => b.toNat + 256 * ofBytes r

/-- The `n` little-endian bytes of a number (00 R7). -/
def toBytes : Nat → Nat → List Byte
  | 0, _ => []
  | n + 1, x => BitVec.ofNat 8 x :: toBytes n (x / 256)

/-- Bit `i` of a lane mask: is the lane in it? -/
def lane (m : Word) (l : Nat) : Bool := m.getLsbD l

/-- The lanes of a mask, ascending. -/
def lanesOf (m : Word) : List Nat := (run 0 32).filter (lane m)

/-- The mask of the lanes for which a predicate holds. -/
def maskOf (f : Nat → Bool) : Word :=
  BitVec.ofNat 32 ((run 0 32).foldr (fun l acc => (if f l then 2 ^ l else 0) + acc) 0)

/-- The mask of the lanes in a list. -/
def maskOfList (ls : List Nat) : Word := maskOf fun l => ls.contains l

/-- Remove the first element that satisfies a predicate, with what it was. -/
def takeFirst {α : Type} (f : α → Bool) : List α → Option (α × List α)
  | [] => none
  | x :: r => if f x then some (x, r) else
    match takeFirst f r with
    | some (y, r') => some (y, x :: r')
    | none => none

/-- Remove the `n`-th element that satisfies a predicate, with what it was. -/
def takeNth {α : Type} (f : α → Bool) : Nat → List α → Option (α × List α)
  | _, [] => none
  | 0, x :: r => if f x then some (x, r) else
    match takeNth f 0 r with
    | some (y, r') => some (y, x :: r')
    | none => none
  | n + 1, x :: r =>
    match takeNth f (if f x then n else n + 1) r with
    | some (y, r') => some (y, x :: r')
    | none => none

/-- Replace the element at a position. -/
def setAt {α : Type} : List α → Nat → α → List α
  | [], _, _ => []
  | _ :: r, 0, y => y :: r
  | x :: r, n + 1, y => x :: setAt r n y

end Sys2Proof
end

