-- ==== Sys2Proof/Syntax.lean ====
section
/-! DEFINITION. The abstract syntax: one constructor for every row of spec/opcode_table.json, in the table's order.
An encoded instruction carries the raw fields of its row, each at its width; an event carries what says which agent it
concerns. -/

namespace Sys2Proof

/-- Where an uncorrectable error strikes (12 Table 12-8). -/
inductive ErrSite where
  /-- data returned to a load or atomic of the group in this core and slot, from this address -/
  | loadData (core slot addr : Nat)
  /-- a vector register of a lane -/
  | vreg (core slot reg lane : Nat)
  /-- a scratchpad word of a segment -/
  | spad (team seg word : Nat)
  /-- an accumulator element of a segment's tile -/
  | tile (team seg index : Nat)
  /-- a barrier of a team: the damaged arrival word of this group -/
  | barrier (team bar grp : Nat)
  /-- a dirty line found on eviction or by patrol scrub -/
  | dirtyLine (asid va : Nat)
  /-- a U copy in a cache -/
  | uCopy (cache asid va : Nat)
  /-- a parked copy -/
  | parked (cache asid va : Nat)
  /-- tags, directory, translation or subscription tables -/
  | tables
deriving DecidableEq, Repr

/-- A writable field of a context descriptor (12 Table 12-4). -/
inductive DescField where
  | asid | dctag | flags | ptroot | divbase | divslots | saveslotsz | trbase | savebase | saveslots
  | mclogsz | mclogbase | tsvc | htb | htsize | devset
deriving DecidableEq, Repr

/-- An instruction of the opcode map (02 Table 2-10) or an indivisible event of one of the machine's other agents. -/
inductive Instr where
  /-- IADD: Adds two vector registers in each active lane, modulo 2^32 (R116) -/
  | iadd (b : BitVec 7) (a : BitVec 7) (w : BitVec 1) (d : BitVec 7)
  /-- ISUB: Subtracts vb from va in each active lane, modulo 2^32 (R116) -/
  | isub (b : BitVec 7) (a : BitVec 7) (w : BitVec 1) (d : BitVec 7)
  /-- IMUL: Writes the low 32 bits of va times vb in each active lane (R116) -/
  | imul (b : BitVec 7) (a : BitVec 7) (w : BitVec 1) (d : BitVec 7)
  /-- IMAD: Writes the low 32 bits of va times vb plus vd in each active lane (R116) -/
  | imad (b : BitVec 7) (a : BitVec 7) (w : BitVec 1) (d : BitVec 7)
  /-- IMULH_S32: Writes bits [63:32] of the signed 64-bit product in each active lane (R116) -/
  | imulhS32 (b : BitVec 7) (a : BitVec 7) (w : BitVec 1) (d : BitVec 7)
  /-- IMULH_W32: Writes bits [63:32] of the unsigned 64-bit product in each active lane (R116) -/
  | imulhW32 (b : BitVec 7) (a : BitVec 7) (w : BitVec 1) (d : BitVec 7)
  /-- IMIN_S32: Writes the lesser of va and vb under signed order in each active lane (R116) -/
  | iminS32 (b : BitVec 7) (a : BitVec 7) (w : BitVec 1) (d : BitVec 7)
  /-- IMIN_W32: Writes the lesser of va and vb under unsigned order in each active lane (R116) -/
  | iminW32 (b : BitVec 7) (a : BitVec 7) (w : BitVec 1) (d : BitVec 7)
  /-- IMAX_S32: Writes the greater of va and vb under signed order in each active lane (R116) -/
  | imaxS32 (b : BitVec 7) (a : BitVec 7) (w : BitVec 1) (d : BitVec 7)
  /-- IMAX_W32: Writes the greater of va and vb under unsigned order in each active lane (R116) -/
  | imaxW32 (b : BitVec 7) (a : BitVec 7) (w : BitVec 1) (d : BitVec 7)
  /-- IABS: Writes the signed absolute value of va in each active lane (R116) -/
  | iabs (a : BitVec 7) (w : BitVec 1) (d : BitVec 7)
  /-- INEG: Writes 0 minus va in each active lane (R116) -/
  | ineg (a : BitVec 7) (w : BitVec 1) (d : BitVec 7)
  /-- POPC: Writes the number of one bits of va in each active lane (R116) -/
  | popc (a : BitVec 7) (w : BitVec 1) (d : BitVec 7)
  /-- CLZ: Writes the count of leading zero bits of va in each active lane (R116) -/
  | clz (a : BitVec 7) (w : BitVec 1) (d : BitVec 7)
  /-- AND: Writes the bitwise AND of va and vb in each active lane (R116) -/
  | and (b : BitVec 7) (a : BitVec 7) (w : BitVec 1) (d : BitVec 7)
  /-- OR: Writes the bitwise OR of va and vb in each active lane (R116) -/
  | or (b : BitVec 7) (a : BitVec 7) (w : BitVec 1) (d : BitVec 7)
  /-- XOR: Writes the bitwise exclusive-or of va and vb in each active lane (R116) -/
  | xor (b : BitVec 7) (a : BitVec 7) (w : BitVec 1) (d : BitVec 7)
  /-- NOT: Writes the bitwise complement of va in each active lane (R116) -/
  | not (a : BitVec 7) (w : BitVec 1) (d : BitVec 7)
  /-- SHL: Shifts va left by vb, giving 0 for shifts of 32 or more (R116) -/
  | shl (b : BitVec 7) (a : BitVec 7) (w : BitVec 1) (d : BitVec 7)
  /-- SHR: Shifts va right logically by vb, giving 0 for shifts of 32 or more (R116) -/
  | shr (b : BitVec 7) (a : BitVec 7) (w : BitVec 1) (d : BitVec 7)
  /-- SAR: Shifts va right arithmetically by vb (R116) -/
  | sar (b : BitVec 7) (a : BitVec 7) (w : BitVec 1) (d : BitVec 7)
  /-- BREV: Reverses the bit order of va in each active lane (R116) -/
  | brev (a : BitVec 7) (w : BitVec 1) (d : BitVec 7)
  /-- BFE_W32: Extracts a bit field of va, zero-extended, with position and length from vb (R117) -/
  | bfeW32 (b : BitVec 7) (a : BitVec 7) (w : BitVec 1) (d : BitVec 7)
  /-- BFE_S32: Extracts a bit field of va, sign-extended, with position and length from vb (R117) -/
  | bfeS32 (b : BitVec 7) (a : BitVec 7) (w : BitVec 1) (d : BitVec 7)
  /-- BFI: Inserts the low bits of va into a field of vd described by vb (R117) -/
  | bfi (b : BitVec 7) (a : BitVec 7) (w : BitVec 1) (d : BitVec 7)
  /-- MOV: Copies va to vd in each active lane (R116) -/
  | mov (a : BitVec 7) (w : BitVec 1) (d : BitVec 7)
  /-- SEL: Selects va or vb by predicate p0..p7 in each active lane (R120) -/
  | sel (p : BitVec 3) (b : BitVec 7) (a : BitVec 7) (w : BitVec 1) (d : BitVec 7)
  /-- IADDC: Adds va, vb and a carry predicate, writing the sum and the carry out (R118) -/
  | iaddc (p : BitVec 3) (b : BitVec 7) (a : BitVec 7) (d : BitVec 7)
  /-- LEA64: Adds a sign-extended shifted index to a 64-bit register pair (R119) -/
  | lea64 (k : BitVec 3) (b : BitVec 7) (a : BitVec 7) (d : BitVec 7)
  /-- ICMP: Compares two integer operands under a condition and writes a predicate per lane (R121) -/
  | icmp (c : BitVec 3) (b : BitVec 7) (a : BitVec 7) (t : BitVec 2) (p : BitVec 5)
  /-- CVT: Converts between integer types with saturation (R122) -/
  | cvt (t : BitVec 4) (s : BitVec 4) (a : BitVec 7) (w : BitVec 1) (d : BitVec 7)
  /-- MOVI: Writes a sign-extended 16-bit immediate to vd (R64) -/
  | movi (i : BitVec 16) (w : BitVec 1) (d : BitVec 7)
  /-- MOVH: Writes a 16-bit immediate to the high half of vd (R64) -/
  | movh (i : BitVec 16) (w : BitVec 1) (d : BitVec 7)
  /-- IADD_IMM: Adds a sign-extended immediate to vd (R64) -/
  | iaddImm (i : BitVec 16) (w : BitVec 1) (d : BitVec 7)
  /-- AND_IMM: ANDs vd with a zero-extended immediate (R64) -/
  | andImm (i : BitVec 16) (w : BitVec 1) (d : BitVec 7)
  /-- SHFL_IDX: Reads va from the lane given by vb (R137) -/
  | shflIdx (b : BitVec 7) (a : BitVec 7) (d : BitVec 7)
  /-- SHFL_UP: Reads va from lane l minus n (R137) -/
  | shflUp (b : BitVec 7) (a : BitVec 7) (d : BitVec 7)
  /-- SHFL_DN: Reads va from lane l plus n (R137) -/
  | shflDn (b : BitVec 7) (a : BitVec 7) (d : BitVec 7)
  /-- SHFL_XOR: Reads va from lane l XOR n (R137) -/
  | shflXor (b : BitVec 7) (a : BitVec 7) (d : BitVec 7)
  /-- REDL: Folds va over the active lanes in lane order and gives every lane the result (R138) -/
  | redl (o : BitVec 4) (a : BitVec 7) (d : BitVec 7)
  /-- SCANL_INC: Gives each active lane the inclusive prefix fold of va (R138) -/
  | scanlInc (o : BitVec 4) (a : BitVec 7) (d : BitVec 7)
  /-- SCANL_EXC: Gives each active lane the exclusive prefix fold of va (R138) -/
  | scanlExc (o : BitVec 4) (a : BitVec 7) (d : BitVec 7)
  /-- BCAST: Copies a scalar into vd in each active lane (R128) -/
  | bcast (s : BitVec 8) (d : BitVec 7)
  /-- RDLANE: Writes va of one selected lane to a scalar register (R128) -/
  | rdlane (i : BitVec 7) (s : BitVec 8) (a : BitVec 7)
  /-- VOTE_BALLOT: Writes the active lanes' predicate bits to a scalar register (R128) -/
  | voteBallot (s : BitVec 8) (n : BitVec 7)
  /-- ACTMASK: Writes the active mask to a scalar register (R128) -/
  | actmask (s : BitVec 8)
  /-- MATCH: Gives each active lane the mask of active lanes holding an equal value (R128) -/
  | matchLanes (a : BitVec 7) (d : BitVec 7)
  /-- PAND: ANDs two optionally negated predicates (R140) -/
  | pand (y : BitVec 1) (b : BitVec 5) (x : BitVec 1) (a : BitVec 5) (d : BitVec 5)
  /-- POR: ORs two optionally negated predicates (R140) -/
  | por (y : BitVec 1) (b : BitVec 5) (x : BitVec 1) (a : BitVec 5) (d : BitVec 5)
  /-- PXOR: Exclusive-ORs two optionally negated predicates (R140) -/
  | pxor (y : BitVec 1) (b : BitVec 5) (x : BitVec 1) (a : BitVec 5) (d : BitVec 5)
  /-- PNOT: Writes the complement of an optionally negated predicate (R140) -/
  | pnot (x : BitVec 1) (a : BitVec 5) (d : BitVec 5)
  /-- PMOV: Copies an optionally negated predicate (R140) -/
  | pmov (x : BitVec 1) (a : BitVec 5) (d : BitVec 5)
  /-- VOTE_ALL: Writes to every active lane the AND of a predicate over the active lanes (R139) -/
  | voteAll (x : BitVec 1) (a : BitVec 5) (d : BitVec 5)
  /-- VOTE_ANY: Writes to every active lane the OR of a predicate over the active lanes (R139) -/
  | voteAny (x : BitVec 1) (a : BitVec 5) (d : BitVec 5)
  /-- VOTE_UNI: Writes to every active lane whether a predicate is uniform over the active lanes (R139) -/
  | voteUni (x : BitVec 1) (a : BitVec 5) (d : BitVec 5)
  /-- GRD: Guards the next one to four instructions of the path with a predicate mask (R68) -/
  | grd (c : BitVec 2) (n : BitVec 1) (p : BitVec 5)
  /-- FADD: Adds two F32 values under the encoded rounding mode (R129) -/
  | fadd (r : BitVec 3) (b : BitVec 7) (a : BitVec 7) (w : BitVec 1) (d : BitVec 7)
  /-- FSUB: Subtracts two F32 values under the encoded rounding mode (R129) -/
  | fsub (r : BitVec 3) (b : BitVec 7) (a : BitVec 7) (w : BitVec 1) (d : BitVec 7)
  /-- FMUL: Multiplies two F32 values under the encoded rounding mode (R129) -/
  | fmul (r : BitVec 3) (b : BitVec 7) (a : BitVec 7) (w : BitVec 1) (d : BitVec 7)
  /-- FFMA: Computes va times vb plus vd with one rounding (R129) -/
  | ffma (r : BitVec 3) (b : BitVec 7) (a : BitVec 7) (w : BitVec 1) (d : BitVec 7)
  /-- FMIN: Writes the lesser F32 value, ordering -0 below +0 (R130) -/
  | fmin (b : BitVec 7) (a : BitVec 7) (w : BitVec 1) (d : BitVec 7)
  /-- FMAX: Writes the greater F32 value, ordering -0 below +0 (R130) -/
  | fmax (b : BitVec 7) (a : BitVec 7) (w : BitVec 1) (d : BitVec 7)
  /-- FRCP: Writes the correctly rounded reciprocal of va (R133) -/
  | frcp (a : BitVec 7) (w : BitVec 1) (d : BitVec 7)
  /-- FRSQ: Writes the correctly rounded reciprocal square root of va (R133) -/
  | frsq (a : BitVec 7) (w : BitVec 1) (d : BitVec 7)
  /-- FSQRT: Writes the correctly rounded square root of va (R133) -/
  | fsqrt (a : BitVec 7) (w : BitVec 1) (d : BitVec 7)
  /-- FEXP2: Writes the correctly rounded value of 2 to the power va (R133) -/
  | fexp2 (a : BitVec 7) (w : BitVec 1) (d : BitVec 7)
  /-- FLOG2: Writes the correctly rounded base-2 logarithm of va (R133) -/
  | flog2 (a : BitVec 7) (w : BitVec 1) (d : BitVec 7)
  /-- FSIN: Writes the correctly rounded sine of va in radians (R133) -/
  | fsin (a : BitVec 7) (w : BitVec 1) (d : BitVec 7)
  /-- FCOS: Writes the correctly rounded cosine of va in radians (R133) -/
  | fcos (a : BitVec 7) (w : BitVec 1) (d : BitVec 7)
  /-- FCMP: Compares two float operands under a condition and writes a predicate per lane (R131) -/
  | fcmp (c : BitVec 3) (b : BitVec 7) (a : BitVec 7) (t : BitVec 2) (p : BitVec 5)
  /-- FCVT: Converts to or from a float type under the encoded rounding mode (R132) -/
  | fcvt (t : BitVec 4) (s : BitVec 4) (r : BitVec 2) (a : BitVec 7) (w : BitVec 1) (d : BitVec 7)
  /-- HADD2: Adds two pairs of BF16 values element by element (R134) -/
  | hadd2 (b : BitVec 7) (a : BitVec 7) (w : BitVec 1) (d : BitVec 7)
  /-- HMUL2: Multiplies two pairs of BF16 values element by element (R134) -/
  | hmul2 (b : BitVec 7) (a : BitVec 7) (w : BitVec 1) (d : BitVec 7)
  /-- HFMA2: Fused multiply-adds pairs of BF16 values element by element (R134) -/
  | hfma2 (b : BitVec 7) (a : BitVec 7) (w : BitVec 1) (d : BitVec 7)
  /-- FADD_IMM: Adds a BF16 immediate widened to F32 to vd (R64) -/
  | faddImm (i : BitVec 16) (w : BitVec 1) (d : BitVec 7)
  /-- FMUL_IMM: Multiplies vd by a BF16 immediate widened to F32 (R64) -/
  | fmulImm (i : BitVec 16) (w : BitVec 1) (d : BitVec 7)
  /-- MOVI_F32: Writes a BF16 immediate widened to F32 (R64) -/
  | moviF32 (i : BitVec 16) (w : BitVec 1) (d : BitVec 7)
  /-- MOVI_F16: Writes a BF16 immediate converted to F16 (R64) -/
  | moviF16 (i : BitVec 16) (w : BitVec 1) (d : BitVec 7)
  /-- QCVT_Q: Converts an F32 value to a narrow code under the lane's format word (R135) -/
  | qcvtQ (f : BitVec 7) (a : BitVec 7) (d : BitVec 7)
  /-- QCVT_F32: Decodes a narrow code to F32 under the lane's format word (R135) -/
  | qcvtF32 (f : BitVec 7) (a : BitVec 7) (d : BitVec 7)
  /-- QPACK: Converts four F32 values and packs the codes into containers (R135) -/
  | qpack (f : BitVec 7) (a : BitVec 7) (d : BitVec 7)
  /-- QUNPK: Decodes four packed narrow codes to four F32 registers (R135) -/
  | qunpk (f : BitVec 7) (a : BitVec 7) (d : BitVec 7)
  /-- TUNPK: Decodes a ternary byte into five 4-bit trits (R136) -/
  | tunpk (a : BitVec 7) (d : BitVec 7)
  /-- SADD: Adds two scalar registers once per issue (R124) -/
  | sadd (b : BitVec 8) (a : BitVec 8) (d : BitVec 8)
  /-- SSUB: Subtracts two scalar registers once per issue (R124) -/
  | ssub (b : BitVec 8) (a : BitVec 8) (d : BitVec 8)
  /-- SMUL: Writes the low 32 bits of a scalar product (R124) -/
  | smul (b : BitVec 8) (a : BitVec 8) (d : BitVec 8)
  /-- SMOV: Copies a scalar register or system value (R124) -/
  | smov (a : BitVec 8) (d : BitVec 8)
  /-- SAND: ANDs two scalar registers (R124) -/
  | sand (b : BitVec 8) (a : BitVec 8) (d : BitVec 8)
  /-- SOR: ORs two scalar registers (R124) -/
  | sor (b : BitVec 8) (a : BitVec 8) (d : BitVec 8)
  /-- SXOR: Exclusive-ORs two scalar registers (R124) -/
  | sxor (b : BitVec 8) (a : BitVec 8) (d : BitVec 8)
  /-- SLEA64: Adds a sign-extended scalar to a 64-bit scalar pair (R124) -/
  | slea64 (b : BitVec 8) (a : BitVec 8) (d : BitVec 8)
  /-- SSHL: Shifts a scalar left logically (R124) -/
  | sshl (b : BitVec 8) (a : BitVec 8) (d : BitVec 8)
  /-- SSHR: Shifts a scalar right logically (R124) -/
  | sshr (b : BitVec 8) (a : BitVec 8) (d : BitVec 8)
  /-- SCMP: Compares two scalars once and writes the result to a predicate of every active lane (R125) -/
  | scmp (t : BitVec 1) (b : BitVec 8) (a : BitVec 8) (c : BitVec 3) (p : BitVec 5)
  /-- SMOVI: Writes a sign-extended immediate to a scalar register (R64) -/
  | smovi (i : BitVec 16) (d : BitVec 8)
  /-- SMOVI_H: Writes an immediate to the high half of a scalar register (R64) -/
  | smoviH (i : BitVec 16) (d : BitVec 8)
  /-- SLD: Loads a 32-bit word into a scalar register as a one-lane plain load (R126) -/
  | sld (o : BitVec 9) (a : BitVec 8) (d : BitVec 8)
  /-- BRA: Branches the path by predicate, splitting it when its lanes disagree (R141) -/
  | bra (o : BitVec 18) (p : BitVec 5) (n : BitVec 1) (u : BitVec 1)
  /-- JMP: Jumps the whole path to a PC-relative target (R142) -/
  | jmp (o : BitVec 18)
  /-- CALL: Writes the return address, increments DEPTH and jumps (R142) -/
  | call (o : BitVec 18) (l : BitVec 5)
  /-- JOINPT: Spills the sibling path if any and pushes a join record for the target (R34) -/
  | joinpt (o : BitVec 18)
  /-- BRX: Jumps the path to the address in a scalar pair (R143) -/
  | brx (a : BitVec 8)
  /-- RET: Decrements DEPTH and jumps to the address in a scalar pair (R143) -/
  | ret (a : BitVec 8)
  /-- EXIT: Adds the path's lanes to EX, empties the slot and reconciles the divergence stack (R38) -/
  | exit
  /-- YIELD: Ends the group's current turn on its scheduler (R143) -/
  | yield
  /-- NOP: Does nothing (R143) -/
  | nop
  /-- BAR_ARV: Makes an arrival of the path's lanes at a team barrier and checks completion (R227) -/
  | barArv (n : BitVec 4)
  /-- BAR_WAIT: Holds the path until every arrival of its lanes belongs to a completed phase (R228) -/
  | barWait (n : BitVec 4)
  /-- BAR_SYNC: Arrives at a team barrier and then waits for the phase (R228) -/
  | barSync (n : BitVec 4)
  /-- LD_REG: Loads from global memory at base plus a register index (R151) -/
  | ldReg (x : BitVec 7) (b : BitVec 7) (k : BitVec 1) (z : BitVec 3) (d : BitVec 7)
  /-- LD_IMM: Loads from global memory at base plus a scaled immediate offset (R151) -/
  | ldImm (x : BitVec 7) (b : BitVec 7) (k : BitVec 1) (z : BitVec 3) (d : BitVec 7)
  /-- ST_REG: Stores to global memory at base plus a register index through the store queue (R151) -/
  | stReg (x : BitVec 7) (b : BitVec 7) (k : BitVec 1) (z : BitVec 3) (d : BitVec 7)
  /-- ST_IMM: Stores to global memory at base plus a scaled immediate offset (R151) -/
  | stImm (x : BitVec 7) (b : BitVec 7) (k : BitVec 1) (z : BitVec 3) (d : BitVec 7)
  /-- LD_STRONG: Performs a strong load with an order and a scope (R154) -/
  | ldStrong (o : BitVec 3) (s : BitVec 3) (b : BitVec 7) (k : BitVec 1) (z : BitVec 3) (d : BitVec 7)
  /-- ST_STRONG: Performs a strong store with an order and a scope (R154) -/
  | stStrong (o : BitVec 3) (s : BitVec 3) (b : BitVec 7) (k : BitVec 1) (z : BitVec 3) (d : BitVec 7)
  /-- ATOM: Performs an atomic read-modify-write per lane and returns the old value (R160) -/
  | atom (e : BitVec 1) (o : BitVec 2) (s : BitVec 3) (b : BitVec 7) (k : BitVec 1) (p : BitVec 4) (d : BitVec 7)
  /-- UPD_SCALAR_BASE: Folds each lane's value into an update-only copy at scalar base plus index (R167) -/
  | updScalarBase (i : BitVec 7) (b : BitVec 7) (p : BitVec 4) (d : BitVec 7)
  /-- UPD_VECTOR_BASE: Folds each lane's value into an update-only copy at a vector-pair address (R167) -/
  | updVectorBase (b : BitVec 7) (p : BitVec 4) (d : BitVec 7)
  /-- PREF_L1: Prefetches each lane's line into the issuing L1 (R176) -/
  | prefL1 (b : BitVec 7) (k : BitVec 1)
  /-- PREF_L2: Prefetches each lane's line into its home slice (R176) -/
  | prefL2 (b : BitVec 7) (k : BitVec 1)
  /-- COLLAPSE: Requests the collapse of each lane's sector held in U (R170) -/
  | collapse (b : BitVec 7) (k : BitVec 1)
  /-- CCTL_CLEAN: Writes back M copies of each lane's line in the named caches (R177) -/
  | cctlClean (s : BitVec 3) (b : BitVec 7) (k : BitVec 1)
  /-- CCTL_INV: Removes each lane's line from the named caches after any write-back (R177) -/
  | cctlInv (s : BitVec 3) (b : BitVec 7) (k : BitVec 1)
  /-- CCTL_CLINV: Invalidates the line as INV and at device scope also writes it to its vault (R177) -/
  | cctlClinv (s : BitVec 3) (b : BitVec 7) (k : BitVec 1)
  /-- FENCE: Holds the path until the earlier accesses of its kind are ordered at its scope (R175) -/
  | fence (o : BitVec 3) (s : BitVec 3) (k : BitVec 3)
  /-- WAITA: Parks the path until a watched word differs from a value or a timeout expires (R172) -/
  | waita (b : BitVec 8) (a : BitVec 8) (d : BitVec 8)
  /-- LDS: Loads from scratchpad once every named line is full (R156) -/
  | lds (x : BitVec 7) (w : BitVec 1) (i : BitVec 7) (z : BitVec 3) (d : BitVec 7)
  /-- STS: Stores to scratchpad without changing full/empty bits (R156) -/
  | sts (x : BitVec 7) (w : BitVec 1) (i : BitVec 7) (z : BitVec 3) (d : BitVec 7)
  /-- LDS_TAKE: Waits for full lines, reads them and empties them in one step as an acquire (R156) -/
  | ldsTake (x : BitVec 7) (w : BitVec 1) (i : BitVec 7) (z : BitVec 3) (d : BitVec 7)
  /-- SPFILL: Marks each named scratchpad line full as a release (R157) -/
  | spfill (x : BitVec 7) (w : BitVec 1) (i : BitVec 7)
  /-- SPCLEAR: Marks each named scratchpad line empty (R156) -/
  | spclear (x : BitVec 7) (w : BitVec 1) (i : BitVec 7)
  /-- SUBSCR: Subscribes a block into a scratchpad slot line at the block's home (R179) -/
  | subscr (l : BitVec 8) (b : BitVec 7) (z : BitVec 2) (m : BitVec 1) (d : BitVec 7)
  /-- MXLOOP: Queues a K-step matrix multiply-accumulate into a tile (R200) -/
  | mxloop (f : BitVec 7) (s : BitVec 8) (t : BitVec 2)
  /-- MXZERO: Queues the zeroing of every element of a tile (R207) -/
  | mxzero (t : BitVec 2)
  /-- MXRD: Queues a read of tile rows into vector registers (R208) -/
  | mxrd (f : BitVec 7) (s : BitVec 8) (t : BitVec 2)
  /-- MXEPI: Queues the epilogue that scales, converts and stores or sends a tile (R209) -/
  | mxepi (f : BitVec 7) (s : BitVec 8) (t : BitVec 2)
  /-- MXCFG: Queues the unfold configuration of a tile (R199) -/
  | mxcfg (s : BitVec 8) (t : BitVec 2)
  /-- OPFENCE: Holds the path until earlier scratchpad accesses have performed at their segments (R195) -/
  | opfence
  /-- STINIT: Empties a statistics view and accumulates one value into it (R213) -/
  | stinit (a : BitVec 7) (d : BitVec 7)
  /-- STACC: Accumulates a value of weight 1 into a statistics view (R107) -/
  | stacc (a : BitVec 7) (d : BitVec 7)
  /-- STWACC: Accumulates a weighted value into a statistics view (R107) -/
  | stwacc (b : BitVec 7) (a : BitVec 7) (d : BitVec 7)
  /-- STMERGE: Merges two statistics triples into a view (R108) -/
  | stmerge (b : BitVec 7) (a : BitVec 7) (d : BitVec 7)
  /-- STXL: Folds a statistics view across the active lanes in lane order (R213) -/
  | stxl (a : BitVec 7) (d : BitVec 7)
  /-- STDRAIN_MEAN: Writes the mean of a statistics triple (R111) -/
  | stdrainMean (a : BitVec 7) (d : BitVec 7)
  /-- STDRAIN_PVAR: Writes the population variance of a statistics triple (R111) -/
  | stdrainPvar (a : BitVec 7) (d : BitVec 7)
  /-- STDRAIN_SVAR: Writes the sample variance of a statistics triple (R111) -/
  | stdrainSvar (a : BitVec 7) (d : BitVec 7)
  /-- STDRAIN_RDEV: Writes the reciprocal deviation of a triple with an epsilon (R214) -/
  | stdrainRdev (e : BitVec 8) (z : BitVec 4) (d : BitVec 7)
  /-- STDRAIN_NORM: Normalises vd by the mean and reciprocal deviation of a triple (R214) -/
  | stdrainNorm (e : BitVec 8) (z : BitVec 4) (d : BitVec 7)
  /-- STLD: Loads a statistics slot from memory into a view (R215) -/
  | stld (x : BitVec 7) (b : BitVec 7) (k : BitVec 1) (d : BitVec 7)
  /-- STST: Stores a view into a statistics slot with a zero pad word (R215) -/
  | stst (x : BitVec 7) (b : BitVec 7) (k : BitVec 1) (d : BitVec 7)
  /-- TCOPY_IN: Starts a tensor box copy from memory into scratchpad (R220) -/
  | tcopyIn (x : BitVec 8) (r : BitVec 8) (l : BitVec 8)
  /-- TCOPY_OUT: Starts a tensor box copy from scratchpad to memory (R221) -/
  | tcopyOut (x : BitVec 8) (r : BitVec 8) (l : BitVec 8)
  /-- BCLOSE: Closes and numbers the open batch of an engine class (R191) -/
  | bclose (c : BitVec 6) (d : BitVec 8)
  /-- BWAIT: Holds the path until every closed batch up to a number has completed (R192) -/
  | bwait (c : BitVec 6) (a : BitVec 8)
  /-- UNSUB: Removes a subscription named by a handle (R185) -/
  | unsub (a : BitVec 8)
  /-- SUBST: Queries the status of a subscription at its home (R186) -/
  | subst (a : BitVec 8) (d : BitVec 8)
  /-- EVSET: Sets an event of the context after a system-scope release (R231) -/
  | evset (a : BitVec 8)
  /-- EVCLR: Clears an event of the context (R231) -/
  | evclr (a : BitVec 8)
  /-- LAUNCH: Reads a launch packet and submits it to the device launch queue (R233) -/
  | launch (a : BitVec 8) (d : BitVec 8)
  /-- SENDAM: Sends an active message to a handler on a target core (R235) -/
  | sendam (n : BitVec 3) (a : BitVec 8) (d : BitVec 8)
  /-- TRAP: Raises a software trap with a number (R239) -/
  | trap (n : BitVec 6)
  /-- BKPT: Raises a breakpoint trap with a number (R239) -/
  | bkpt (n : BitVec 6)
  /-- ERET: Reloads a trapped group's paths from its record and makes it Ready (R241) -/
  | eret (a : BitVec 8)
  /-- TLBSD: Shoots down translations and cached state of a range of pages (R245) -/
  | tlbsd (z : BitVec 2) (a : BitVec 8)
  /-- HALT: Freezes every team of the context on the device and sends a halt notice (R246) -/
  | halt
  /-- WRPEER: Writes a peer routing register from four scalars (R243) -/
  | wrpeer (n : BitVec 2) (a : BitVec 8)
  /-- RDSYS: Reads a system register into a scalar register (R242) -/
  | rdsys (r : BitVec 12) (d : BitVec 8)
  /-- WRSYS: Writes a scalar register to a system register (R242) -/
  | wrsys (r : BitVec 12) (d : BitVec 8)
  /-- MOV_16: 16-bit form of MOV (R57) -/
  | mov16 (s : BitVec 5) (d : BitVec 6)
  /-- IADD_16: 16-bit form of IADD with the destination as first source (R57) -/
  | iadd16 (s : BitVec 5) (d : BitVec 6)
  /-- ISUB_16: 16-bit form of ISUB (R57) -/
  | isub16 (s : BitVec 5) (d : BitVec 6)
  /-- AND_16: 16-bit form of AND (R57) -/
  | and16 (s : BitVec 5) (d : BitVec 6)
  /-- OR_16: 16-bit form of OR (R57) -/
  | or16 (s : BitVec 5) (d : BitVec 6)
  /-- XOR_16: 16-bit form of XOR (R57) -/
  | xor16 (s : BitVec 5) (d : BitVec 6)
  /-- SHL_16: 16-bit form of SHL (R57) -/
  | shl16 (s : BitVec 5) (d : BitVec 6)
  /-- SHR_16: 16-bit form of SHR (R57) -/
  | shr16 (s : BitVec 5) (d : BitVec 6)
  /-- SAR_16: 16-bit form of SAR (R57) -/
  | sar16 (s : BitVec 5) (d : BitVec 6)
  /-- IMIN_16: 16-bit form of IMIN.S32 (R57) -/
  | imin16 (s : BitVec 5) (d : BitVec 6)
  /-- IMAX_16: 16-bit form of IMAX.S32 (R57) -/
  | imax16 (s : BitVec 5) (d : BitVec 6)
  /-- FADD_16: 16-bit form of FADD.RN (R57) -/
  | fadd16 (s : BitVec 5) (d : BitVec 6)
  /-- FMUL_16: 16-bit form of FMUL.RN (R57) -/
  | fmul16 (s : BitVec 5) (d : BitVec 6)
  /-- FMIN_16: 16-bit form of FMIN (R57) -/
  | fmin16 (s : BitVec 5) (d : BitVec 6)
  /-- FMAX_16: 16-bit form of FMAX (R57) -/
  | fmax16 (s : BitVec 5) (d : BitVec 6)
  /-- FFMA_16: 16-bit form of FFMA.RN squaring SRC into vDST (R57) -/
  | ffma16 (s : BitVec 5) (d : BitVec 6)
  /-- OPERAND_ARRIVAL: A scoreboarded operand or store-queue entry arrives and the slot may issue (R44) -/
  | operandArrival (core slot : Nat)
  /-- LOAD_DATA_RETURN: Load data returns and is written to the destination registers (R152) -/
  | loadDataReturn (core slot : Nat)
  /-- TRANSLATION_ACK: The last translation acknowledgement of a may-fault instruction arrives, resuming fetch or trapping (R307) -/
  | translationAck (core slot : Nat)
  /-- STORE_QUEUE_DRAIN: A store-queue entry performs at its first cache level and frees its entry (R31) -/
  | storeQueueDrain (core slot : Nat)
  /-- LINE_FILL_WAKE: A scratchpad line becomes full and a waiting read proceeds (R44) -/
  | lineFillWake (core slot : Nat)
  /-- EMPTY_LINE_TIMEOUT: A stall on an empty line passes the GSTAT.ELT limit and traps (R157) -/
  | emptyLineTimeout (core slot : Nat)
  /-- WAITA_CHECK: An invalidation of the watched sector triggers a new check that wakes or re-parks the path (R172) -/
  | waitaCheck (core slot : Nat) (slotB : Bool)
  /-- WAITA_TIMEOUT: The WAITA timeout expires and the path resumes with TIMEOUT (R172) -/
  | waitaTimeout (core slot : Nat) (slotB : Bool)
  /-- TRAP_SERVICE_START: The service slot frees and a trap-service group starts for a queued trap (R240) -/
  | trapServiceStart (core : Nat)
  /-- MACHINE_CHECK: An uncorrectable data error is taken as an imprecise trap at the group's next boundary (R312) -/
  | machineCheck (core slot : Nat)
  /-- MATRIX_K_STEP: The matrix unit fetches full operand lines and folds one K-step into a tile (R204) -/
  | matrixKStep (core : Nat)
  /-- TILE_CONFIG_APPLY: A queued MXCFG writes the tile configuration and sets VALID (R199) -/
  | tileConfigApply (core : Nat)
  /-- TILE_ZERO_APPLY: A queued MXZERO sets every tile element to +0 (R207) -/
  | tileZeroApply (core : Nat)
  /-- TILE_READ_DELIVER: A queued MXRD writes tile elements into the lanes' registers (R208) -/
  | tileReadDeliver (core : Nat)
  /-- EPILOGUE_RUN: A queued MXEPI scales, converts and writes or sends the tile (R210) -/
  | epilogueRun (core : Nat)
  /-- COPY_IN_LINE: The copy streamer completes a scratchpad line of a TCOPY.IN and may set it full (R220) -/
  | copyInLine (core : Nat)
  /-- COPY_OUT_ELEMENTS: The copy streamer writes or folds box elements to memory (R221) -/
  | copyOutElements (core : Nat)
  /-- LAUNCH_INTAKE: The distributor takes the next packet of a context's queues in (R298) -/
  | launchIntake (ctx : Nat)
  /-- LAUNCH_UNBLOCK: A Blocked launch becomes Active once its events are set and no earlier write set overlaps (R301) -/
  | launchUnblock (ctx num : Nat)
  /-- TEAM_PLACEMENT: The distributor places the next team of the chosen launch on cores of a quadrant (R304) -/
  | teamPlacement
  /-- QUADRANT_RESERVATION: A team that has waited 100 µs reserves a quadrant (R303) -/
  | quadrantReservation (ctx num : Nat)
  /-- LAUNCH_RETIRE: A launch whose teams are Done and positions complete retires and sets its SETMASK events (R302) -/
  | launchRetire (ctx num : Nat)
  /-- PREEMPT_REQUEST: The collector freezes a team, waits for drains and stops its engines (R314) -/
  | preemptRequest (team : Nat)
  /-- ENGINE_ACK: An engine acknowledges that it has stopped at its pre-emption point (R314) -/
  | engineAck (team : Nat) (cls : Nat)
  /-- PREEMPT_DECIDE: With every acknowledgement gathered, the collector discards or saves the team (R318) -/
  | preemptDecide (team : Nat)
  /-- TEAM_RESTORE: A saved team is restored onto cores of the device (R316) -/
  | teamRestore (team : Nat)
  /-- SUBSCRIPTION_PARK: A home parks a pre-empted team's subscription entries (R188) -/
  | subscriptionPark (slice team : Nat)
  /-- EVENT_UNIT_APPLY: The event unit applies a set, a clear, a retirement set mask or a host write (R232) -/
  | eventUnitApply (ctx : Nat) (clear set : BitVec 256)
  /-- ACTIVE_MESSAGE_ARRIVAL: A target core receives an active message, reads the handler entry and queues or refuses it (R236) -/
  | activeMessageArrival (n : Nat)
  /-- HANDLER_START: A queued active message starts its handler group on the core (R237) -/
  | handlerStart (core : Nat)
  /-- ACTIVE_MESSAGE_ANSWER: The SENDAM status answer arrives and is written to sd (R235) -/
  | activeMessageAnswer (n : Nat)
  /-- MISS_REQUEST: A home slice serves a miss or upgrade request for a line (R275) -/
  | missRequest (cache asid va : Nat) (write : Bool)
  /-- U_GRANT_REQUEST: A home grants a sector in U, collapsing other operators or the oldest U line if needed (R278) -/
  | uGrantRequest (cache asid va : Nat) (op : BitVec 4)
  /-- FAR_ACCESS: A far atomic, update or write to a subscribed line performs at the home (R162) -/
  | farAccess (n : Nat)
  /-- FORWARDED_READ: An owner answers a forwarded read with data (R275) -/
  | forwardedRead (cache asid va : Nat)
  /-- INVALIDATE: A cache removes its copy on an invalidate (R275) -/
  | invalidate (cache asid va : Nat)
  /-- DISCOVERY_BROADCAST: Caches answer a home's broadcast to rebuild a dropped directory entry (R277) -/
  | discoveryBroadcast (asid va : Nat)
  /-- WRITE_BACK: A write-back reaches the home and is acknowledged (R284) -/
  | writeBack (cache : Nat)
  /-- WRITE_BACK_ACK: The home's acknowledgement frees a write-back buffer entry (R284) -/
  | writeBackAck (cache : Nat)
  /-- RECALL_FOR_COLLAPSE: A recalled cache sends its U copy toward its partial holder and goes to I (R279) -/
  | recallForCollapse (cache asid va : Nat)
  /-- U_COPY_ARRIVAL: A recalled U copy reaches its partial holder and folds into the die partial (R280) -/
  | uCopyArrival (cache asid va : Nat)
  /-- PARTIAL_ARRIVAL: A die or device partial reaches its next holder or the home and folds (R280) -/
  | partialArrival (die asid va : Nat)
  /-- U_COPY_EVICTION: An evicted U copy merges early into its die copy or is parked (R281) -/
  | uCopyEviction (cache asid va : Nat)
  /-- SUBSCRIBE_REQUEST: The home collapses the line if needed, installs an entry and sends push 0 or fails (R179) -/
  | subscribeRequest (n : Nat)
  /-- SUBSCRIBE_ANSWER: The home's answer writes the handle to sd (R179) -/
  | subscribeAnswer (n : Nat)
  /-- UNSUBSCRIBE_REQUEST: The home removes a subscription entry (R185) -/
  | unsubscribeRequest (n : Nat)
  /-- STATUS_QUERY: The home answers a SUBST query from the entry (R186) -/
  | statusQuery (n : Nat)
  /-- PUSH_ARRIVAL: A push writes the whole slot line, updates OVR in COALESCE mode and sets the line full (R183) -/
  | pushArrival (n : Nat)
  /-- EMPTY_NOTICE_ARRIVAL: An empty notice clears DLV at the home and releases the next held STRICT push (R184) -/
  | emptyNoticeArrival (n : Nat)
  /-- TRANSLATION_REQUEST: A memory controller translates a request, walking the page table on a miss (R289) -/
  | translationRequest (mc asid va : Nat)
  /-- REMAP_ANSWER: A remap answer installs a filter entry and reissues the request under the canonical tag (R294) -/
  | remapAnswer (node asid va : Nat)
  /-- SHOOTDOWN_BROADCAST: A controller or interface drops entries for shot-down pages, drains and acknowledges (R295) -/
  | shootdownBroadcast (agent : Nat)
  /-- SHOOTDOWN_ACK: An acknowledgement reaches the issuing core, completing the TLBSD when all have arrived (R295) -/
  | shootdownAck (agent : Nat)
  /-- PAGE_MIGRATION: Firmware moves a page to another frame in copy passes and a final blocking pass (R296) -/
  | pageMigration (asid va frame : Nat)
  /-- HOT_LINE_MARK: A home marks a line hot and replicates it to helper slices (R330) -/
  | hotLineMark (asid va : Nat)
  /-- CONTRIBUTION_ARRIVAL: A collective engine answers a contribution and folds or stages it (R345) -/
  | contributionArrival (n : Nat)
  /-- CONTRIBUTION_ANSWER: The sender's engine acts on a contribution answer (R347) -/
  | contributionAnswer (n : Nat)
  /-- BUSY_RESEND: The sender resends a BUSY contribution after 2 µs (R347) -/
  | busyResend (n : Nat)
  /-- ANSWER_TIMEOUT: The sender resends a contribution unanswered after 100 µs (R347) -/
  | answerTimeout (n : Nat)
  /-- FLIT_RECEIVE: A Cheyn receiver takes a flit, delivering, holding or discarding it (R340) -/
  | flitReceive (link : Nat) (flit : BitVec 512)
  /-- NAK_RECEIVE: A sender resends the named flit on a NAK (R341) -/
  | nakReceive (link : Nat) (ackSeq : BitVec 12)
  /-- NAK_RESEND_TIMEOUT: The receiver sends the NAK again after 256 flit times (R341) -/
  | nakResendTimeout (link : Nat)
  /-- ACK_STALL_TIMEOUT: The sender resends its oldest unacknowledged flit after 1,024 flit times (R341) -/
  | ackStallTimeout (link : Nat)
  /-- LINK_RETRAIN: A link retrains, keeping its replay buffers (R341) -/
  | linkRetrain (link : Nat)
  /-- LINK_DOWN: A link fails three retrains and ordered classes fail over (R341) -/
  | linkDown (link : Nat)
  /-- DEVICE_UNREACHABLE: After 1 ms with no link up, another device becomes unreachable (R342) -/
  | deviceUnreachable (dev : Nat)
  /-- BRIDGE_FAILURE: A Strait bridge fails after seven retransmissions and the device is reset (R334) -/
  | bridgeFailure (bridge : Nat)
  /-- AGENT_REJOIN: A home learns of a new incarnation or an unreachable agent and drops its state (R286) -/
  | agentRejoin (agent : Nat) (rejoins : Bool)
  /-- UNCORRECTABLE_ERROR: An uncorrectable ECC error is handled by its location (R368) -/
  | uncorrectableError (site : ErrSite)
  /-- PATROL_SCRUB: DRAM is patrol-scrubbed every 24 hours (R368) -/
  | patrolScrub (slice : Nat)
  /-- CTX_CREATE: Host command CREATE checks a descriptor and starts the context (R356) -/
  | ctxCreate (port : BitVec 1)
  /-- CTX_HALT: Host command HALT halts a running context (R356) -/
  | ctxHalt (port : BitVec 1)
  /-- CTX_RESUME: Host command RESUME thaws a halted context (R356) -/
  | ctxResume (port : BitVec 1)
  /-- CTX_TERMINATE: Host command TERMINATE ends every group, discards launches and frees the context (R356) -/
  | ctxTerminate (port : BitVec 1)
  /-- CTX_FREEZE: Host command FREEZE freezes every team of the context (R356) -/
  | ctxFreeze (port : BitVec 1)
  /-- CTX_THAW: Host command THAW undoes FREEZE (R356) -/
  | ctxThaw (port : BitVec 1)
  /-- CTX_PREEMPT: Host command PREEMPT saves or discards every team of the context (R356) -/
  | ctxPreempt (port : BitVec 1)
  /-- CTX_BAD_CODE: A context command code outside 1..7 completes with result 1 (R356) -/
  | ctxBadCode (port : BitVec 1) (code : BitVec 32)
  /-- IMGBEGIN: Erases and opens the firmware staging bank (R366) -/
  | imgbegin (port : BitVec 1)
  /-- IMGDATA: Copies bytes from the mailbox buffer into the staged image (R366) -/
  | imgdata (port : BitVec 1)
  /-- IMGCOMMIT: Verifies the staged image and makes it the next boot image (R366) -/
  | imgcommit (port : BitVec 1)
  /-- SVNADV: Advances the fused security-version counter (R366) -/
  | svnadv (port : BitVec 1)
  /-- ATTEST: Writes a signed attestation report into the mailbox buffer (R367) -/
  | attest (port : BitVec 1)
  /-- RESET: Mailbox command that starts a device reset when given the reset key (R366) -/
  | reset (port : BitVec 1)
  /-- MB_BAD_CODE: A mailbox command code absent from the table gives result 1 (R366) -/
  | mbBadCode (port : BitVec 1) (code : BitVec 32)
  /-- SEMAPHORE_WRITE: A port write to SEMn acquires or releases the semaphore (R352) -/
  | semaphoreWrite (port : BitVec 1) (sem : BitVec 3) (val : BitVec 32)
  /-- PSTAT_CLEAR: Writing 1 to a PSTAT bit clears it for the writing port (R351) -/
  | pstatClear (port : BitVec 1) (val : BitVec 32)
  /-- DESCRIPTOR_WRITE: A host write to a context descriptor field, taking effect or dropped by STATE (R355) -/
  | descriptorWrite (port : BitVec 1) (slot : BitVec 6) (field : DescField) (val : BitVec 256)
  /-- QUEUE_ENABLE: Setting QCTL.ENABLE checks the queue and enables it or sets QERR (R357) -/
  | queueEnable (port : BitVec 1) (q : BitVec 4) (val : BitVec 32)
  /-- QUEUE_DISABLE: Clearing QCTL.ENABLE stops intake from the queue (R357) -/
  | queueDisable (port : BitVec 1) (q : BitVec 4)
  /-- QTAIL_WRITE: The host posts launch entries by writing QTAIL (R357) -/
  | qtailWrite (port : BitVec 1) (q : BitVec 4) (val : BitVec 32)
  /-- CHEAD_WRITE: The host consumes completion records by writing CHEAD (R357) -/
  | cheadWrite (port : BitVec 1) (q : BitVec 4) (val : BitVec 32)
  /-- WINDOW_ACCESS: A BAR2 access is carried through a window as a virtual or physical access (R354) -/
  | windowAccess (port : BitVec 1) (offset : BitVec 28) (write : Bool) (data : BitVec 64)
  /-- COMMIT: Applies the sixteen power shares if their sum fits, else sets LASTDROP (R361) -/
  | commit (port : BitVec 1) (val : BitVec 32)
  /-- REGISTER_WRITE: A host write to a control register with no behaviour of its own (R351) -/
  | registerWrite (port : BitVec 1) (offset : BitVec 26) (val : BitVec 64)
  /-- PORT_LINK_DOWN: A port whose link goes down or takes a hot reset releases its semaphores (R353) -/
  | portLinkDown (port : BitVec 1)
  /-- POWER_GRANT: Every 1 µs the arbiter grants each island current and adjusts clocks or throttling (R359) -/
  | powerGrant (demand : List Nat)
  /-- OVERCURRENT_CLAMP: Module current above budget for 2 µs drops every island to its minimum clock (R360) -/
  | overcurrentClamp
  /-- THERMAL_HALVE: A junction temperature of 105 °C halves every island's grant (R360) -/
  | thermalHalve (hot : Bool)
  /-- THERMAL_TRIP: A temperature of 115 °C stops all clocks and raises a device machine check (R360) -/
  | thermalTrip
  /-- TELEMETRY_UPDATE: Per-island telemetry is updated every 1 ms (R361) -/
  | telemetryUpdate (power temp : List Nat)
  /-- COLD_RESET: Boot ROM verifies and loads firmware, then bring-up runs (R362) -/
  | coldReset
  /-- DEVICE_RESET: Discards every context, advances incarnations and repeats bring-up (R370) -/
  | deviceReset
  /-- LINK_BRING_UP: Firmware brings a down Cheyn link up again, and it trains and has its port number checked (R341) -/
  | linkBringUp (link : Nat) (portNum : BitVec 8)
  /-- FETCH_TRAP: A path about to issue an instruction whose halfwords fail translation or execute permission raises the fetch trap at that address (R308) -/
  | fetchTrap
  /-- UNASSIGNED_ENCODING: Issue of a word with an unassigned encoding, such as majors 0x3E or 0x3F or a dash of the opcode map, raises illegal-instruction (R72) -/
  | unassignedEncoding (word : BitVec 32)
deriving DecidableEq, Repr

/-- Why the decoder rejects a byte string: too few bytes, or a word that no row of 02 Table 2-10 has. -/
inductive Reject where
  | truncated
  | unassigned (word : BitVec 32)
deriving DecidableEq, Repr

end Sys2Proof
end

