-- ==== Sys2Proof/Machine/Legal.lean ====
section
/-! DEFINITION. What each encoding names and which encodings are legal: operand registers, modifier codes, latch
eligibility, guard formats and the classes of instructions (01 R20 to R26, R40; 02 R59 to R73; 10 R307). -/

namespace Sys2Proof

/-- A register operand of an instruction, as its field gives it. -/
inductive Opd where
  /-- vector source: `n` registers from field value `r`; 124..127 name latches -/
  | vs (r n : Nat)
  /-- vector destination (or source and destination) -/
  | vd (r n : Nat)
  /-- vector pair number, 0..61, as an address base -/
  | vb (n : Nat)
  /-- statistics view read, or written -/
  | zs (r : Nat)
  | zd (r : Nat)
  /-- one scalar register or system value -/
  | ss (r : Nat)
  /-- even scalar pair, read -/
  | sp (r : Nat)
  /-- scalar pair number, 0..95, as an address base -/
  | sb (n : Nat)
  /-- scalar destination, one or an even pair -/
  | sd (r : Nat)
  | sdp (r : Nat)
  /-- a block of `n` scalars below SREGS -/
  | blk (r n : Nat)
  /-- a control block of a matrix or copy instruction (06 R200) -/
  | mblk (r n : Nat)
  /-- barrier number, tile number -/
  | bar (n : Nat)
  | tile (n : Nat)
deriving DecidableEq, Repr

/-- Does the field value obey 01 R20, R21, R26 and 02 R59, R60? -/
def Opd.legal : Opd → Bool
  | .vs _ 1 => true
  | .vs r 2 => r % 2 == 0
  | .vs r _ => r % 4 == 0 && decide (r ≤ 120)
  | .vd r 1 => decide (r ≤ 123)
  | .vd r 2 => r % 2 == 0 && decide (r ≤ 122)
  | .vd r _ => r % 4 == 0 && decide (r ≤ 120)
  | .vb n => decide (n ≤ 61)
  | .zs r => r % 2 == 0 && decide (r ≤ 30)
  | .zd r => r % 2 == 0 && decide (r ≤ 30)
  | .ss r => decide (r ≤ 191) || (decide (200 ≤ r) && decide (r ≤ 215))
  | .sp r => r % 2 == 0 && decide (r ≤ 191)
  | .sb n => decide (n ≤ 95)
  | .sd r => decide (r ≤ 191)
  | .sdp r => r % 2 == 0 && decide (r ≤ 191)
  | .blk r _ => decide (r ≤ 191)
  | .mblk r _ => decide (r ≤ 191) || (decide (200 ≤ r) && decide (r ≤ 215))
  | .bar _ => true
  | .tile _ => true

/-- The latches a source field reads (01 R20). -/
def Opd.latches : Opd → List Nat
  | .vs r _ => if 124 ≤ r then [r - 124] else []
  | _ => []

/-- The vector registers an operand names. -/
def Opd.vregs : Opd → List Nat
  | .vs r n => if 124 ≤ r then [] else run r n
  | .vd r n => run r n
  | .vb n => run (2 * n) 2
  | .zs r => run r 3
  | .zd r => run r 3
  | _ => []

/-- The scalar registers an operand names; a system value is none. -/
def Opd.sregs : Opd → List Nat
  | .ss r => if r ≤ 191 then [r] else []
  | .sp r => run r 2
  | .sb n => run (2 * n) 2
  | .sd r => [r]
  | .sdp r => run r 2
  | .blk r n => run r n
  | .mblk r n => run r n
  | _ => []

/-- Does the operand stay inside the budgets of 01 Table 1-11? -/
def Opd.fits (vregs sregs barriers tiles : Nat) : Opd → Bool
  | .bar n => decide (n < barriers)
  | .tile n => decide (n < tiles)
  | o => o.vregs.all (fun r => decide (r < vregs)) && o.sregs.all (fun r => decide (r < sregs))

/-- Registers one element of an access size spans (02 Table 2-7). -/
def szRegs (z : Nat) : Nat := if z = 5 then 2 else if z = 6 then 4 else 1

/-- The BASE operand: scalar pair for BK = 0, vector pair for BK = 1 (02 Table 2-4). -/
def baseOpd (k : BitVec 1) (b : BitVec 7) : Opd := if k = 1 then .vb b.toNat else .sb b.toNat

/-- Registers of an integer or float type code: a pair for the 64-bit types (02 Table 2-7). -/
def tyRegs (t : Nat) : Nat := if t = 6 ∨ t = 7 then 2 else 1

/-- The vector field a 16-bit source names: 0..27 are v0..v27, 28..31 are b0..b3 (02 Table 2-1). -/
def short (s : BitVec 5) : Nat := if s.toNat < 28 then s.toNat else s.toNat + 96

/-- The register operands of an encoded instruction, in field order. -/
def operands : Instr → List Opd
  | .iadd b a _ d => [.vd d.toNat 1, .vs a.toNat 1, .vs b.toNat 1]
  | .isub b a _ d => [.vd d.toNat 1, .vs a.toNat 1, .vs b.toNat 1]
  | .imul b a _ d => [.vd d.toNat 1, .vs a.toNat 1, .vs b.toNat 1]
  | .imulhS32 b a _ d => [.vd d.toNat 1, .vs a.toNat 1, .vs b.toNat 1]
  | .imulhW32 b a _ d => [.vd d.toNat 1, .vs a.toNat 1, .vs b.toNat 1]
  | .iminS32 b a _ d => [.vd d.toNat 1, .vs a.toNat 1, .vs b.toNat 1]
  | .iminW32 b a _ d => [.vd d.toNat 1, .vs a.toNat 1, .vs b.toNat 1]
  | .imaxS32 b a _ d => [.vd d.toNat 1, .vs a.toNat 1, .vs b.toNat 1]
  | .imaxW32 b a _ d => [.vd d.toNat 1, .vs a.toNat 1, .vs b.toNat 1]
  | .and b a _ d => [.vd d.toNat 1, .vs a.toNat 1, .vs b.toNat 1]
  | .or b a _ d => [.vd d.toNat 1, .vs a.toNat 1, .vs b.toNat 1]
  | .xor b a _ d => [.vd d.toNat 1, .vs a.toNat 1, .vs b.toNat 1]
  | .shl b a _ d => [.vd d.toNat 1, .vs a.toNat 1, .vs b.toNat 1]
  | .shr b a _ d => [.vd d.toNat 1, .vs a.toNat 1, .vs b.toNat 1]
  | .sar b a _ d => [.vd d.toNat 1, .vs a.toNat 1, .vs b.toNat 1]
  | .bfeW32 b a _ d => [.vd d.toNat 1, .vs a.toNat 1, .vs b.toNat 1]
  | .bfeS32 b a _ d => [.vd d.toNat 1, .vs a.toNat 1, .vs b.toNat 1]
  | .fmin b a _ d => [.vd d.toNat 1, .vs a.toNat 1, .vs b.toNat 1]
  | .fmax b a _ d => [.vd d.toNat 1, .vs a.toNat 1, .vs b.toNat 1]
  | .hadd2 b a _ d => [.vd d.toNat 1, .vs a.toNat 1, .vs b.toNat 1]
  | .hmul2 b a _ d => [.vd d.toNat 1, .vs a.toNat 1, .vs b.toNat 1]
  | .imad b a _ d => [.vd d.toNat 1, .vs a.toNat 1, .vs b.toNat 1]
  | .bfi b a _ d => [.vd d.toNat 1, .vs a.toNat 1, .vs b.toNat 1]
  | .hfma2 b a _ d => [.vd d.toNat 1, .vs a.toNat 1, .vs b.toNat 1]
  | .iabs a _ d => [.vd d.toNat 1, .vs a.toNat 1]
  | .ineg a _ d => [.vd d.toNat 1, .vs a.toNat 1]
  | .popc a _ d => [.vd d.toNat 1, .vs a.toNat 1]
  | .clz a _ d => [.vd d.toNat 1, .vs a.toNat 1]
  | .not a _ d => [.vd d.toNat 1, .vs a.toNat 1]
  | .brev a _ d => [.vd d.toNat 1, .vs a.toNat 1]
  | .mov a _ d => [.vd d.toNat 1, .vs a.toNat 1]
  | .frcp a _ d => [.vd d.toNat 1, .vs a.toNat 1]
  | .frsq a _ d => [.vd d.toNat 1, .vs a.toNat 1]
  | .fsqrt a _ d => [.vd d.toNat 1, .vs a.toNat 1]
  | .fexp2 a _ d => [.vd d.toNat 1, .vs a.toNat 1]
  | .flog2 a _ d => [.vd d.toNat 1, .vs a.toNat 1]
  | .fsin a _ d => [.vd d.toNat 1, .vs a.toNat 1]
  | .fcos a _ d => [.vd d.toNat 1, .vs a.toNat 1]
  | .sel _ b a _ d => [.vd d.toNat 1, .vs a.toNat 1, .vs b.toNat 1]
  | .iaddc _ b a d => [.vd d.toNat 1, .vs a.toNat 1, .vs b.toNat 1]
  | .lea64 _ b a d => [.vd d.toNat 2, .vs a.toNat 2, .vs b.toNat 1]
  | .icmp _ b a t _ => [.vs a.toNat (if t.toNat < 2 then 1 else 2), .vs b.toNat (if t.toNat < 2 then 1 else 2)]
  | .cvt t s a _ d => [.vd d.toNat (tyRegs t.toNat), .vs a.toNat (tyRegs s.toNat)]
  | .movi _ _ d => [.vd d.toNat 1]
  | .movh _ _ d => [.vd d.toNat 1]
  | .iaddImm _ _ d => [.vd d.toNat 1]
  | .andImm _ _ d => [.vd d.toNat 1]
  | .faddImm _ _ d => [.vd d.toNat 1]
  | .fmulImm _ _ d => [.vd d.toNat 1]
  | .moviF32 _ _ d => [.vd d.toNat 1]
  | .moviF16 _ _ d => [.vd d.toNat 1]
  | .shflIdx b a d => [.vd d.toNat 1, .vs a.toNat 1, .vs b.toNat 1]
  | .shflUp b a d => [.vd d.toNat 1, .vs a.toNat 1, .vs b.toNat 1]
  | .shflDn b a d => [.vd d.toNat 1, .vs a.toNat 1, .vs b.toNat 1]
  | .shflXor b a d => [.vd d.toNat 1, .vs a.toNat 1, .vs b.toNat 1]
  | .qcvtQ b a d => [.vd d.toNat 1, .vs a.toNat 1, .vs b.toNat 1]
  | .qcvtF32 b a d => [.vd d.toNat 1, .vs a.toNat 1, .vs b.toNat 1]
  | .redl _ a d => [.vd d.toNat 1, .vs a.toNat 1]
  | .scanlInc _ a d => [.vd d.toNat 1, .vs a.toNat 1]
  | .scanlExc _ a d => [.vd d.toNat 1, .vs a.toNat 1]
  | .bcast s d => [.vd d.toNat 1, .ss s.toNat]
  | .rdlane i s a => [.vs a.toNat 1, .sd s.toNat, .vs i.toNat 1]
  | .voteBallot s _ => [.sd s.toNat]
  | .actmask s => [.sd s.toNat]
  | .matchLanes a d => [.vd d.toNat 1, .vs a.toNat 1]
  | .fadd _ b a _ d => [.vd d.toNat 1, .vs a.toNat 1, .vs b.toNat 1]
  | .fsub _ b a _ d => [.vd d.toNat 1, .vs a.toNat 1, .vs b.toNat 1]
  | .fmul _ b a _ d => [.vd d.toNat 1, .vs a.toNat 1, .vs b.toNat 1]
  | .ffma _ b a _ d => [.vd d.toNat 1, .vs a.toNat 1, .vs b.toNat 1]
  | .fcmp _ b a _ _ => [.vs a.toNat 1, .vs b.toNat 1]
  | .fcvt t s _ a _ d => [.vd d.toNat (tyRegs t.toNat), .vs a.toNat (tyRegs s.toNat)]
  | .qpack f a d => [.vd d.toNat 1, .vs a.toNat 4, .vs f.toNat 1]
  | .qunpk f a d => [.vd d.toNat 4, .vs a.toNat 1, .vs f.toNat 1]
  | .tunpk a d => [.vd d.toNat 1, .vs a.toNat 1]
  | .sadd b a d => [.sd d.toNat, .ss a.toNat, .ss b.toNat]
  | .ssub b a d => [.sd d.toNat, .ss a.toNat, .ss b.toNat]
  | .smul b a d => [.sd d.toNat, .ss a.toNat, .ss b.toNat]
  | .sand b a d => [.sd d.toNat, .ss a.toNat, .ss b.toNat]
  | .sor b a d => [.sd d.toNat, .ss a.toNat, .ss b.toNat]
  | .sxor b a d => [.sd d.toNat, .ss a.toNat, .ss b.toNat]
  | .sshl b a d => [.sd d.toNat, .ss a.toNat, .ss b.toNat]
  | .sshr b a d => [.sd d.toNat, .ss a.toNat, .ss b.toNat]
  | .smov a d => [.sd d.toNat, .ss a.toNat]
  | .slea64 b a d => [.sdp d.toNat, .sp a.toNat, .ss b.toNat]
  | .scmp _ b a _ _ => [.ss a.toNat, .ss b.toNat]
  | .smovi _ d => [.sd d.toNat]
  | .smoviH _ d => [.sd d.toNat]
  | .sld _ a d => [.sd d.toNat, .sp a.toNat]
  | .call _ l => [.sdp (2 * l.toNat)]
  | .brx a => [.sp a.toNat]
  | .ret a => [.sp a.toNat]
  | .barArv n => [.bar n.toNat]
  | .barWait n => [.bar n.toNat]
  | .barSync n => [.bar n.toNat]
  | .ldReg x b k z d => [.vd d.toNat (szRegs z.toNat), baseOpd k b, .vs x.toNat 1]
  | .ldImm _ b k z d => [.vd d.toNat (szRegs z.toNat), baseOpd k b]
  | .stReg x b k z d => [.vs d.toNat (szRegs z.toNat), baseOpd k b, .vs x.toNat 1]
  | .stImm _ b k z d => [.vs d.toNat (szRegs z.toNat), baseOpd k b]
  | .ldStrong _ _ b k z d => [.vd d.toNat (szRegs z.toNat), baseOpd k b]
  | .stStrong _ _ b k z d => [.vs d.toNat (szRegs z.toNat), baseOpd k b]
  | .atom e _ _ b k p d =>
    [.vd d.toNat ((if p = 1 then 2 else 1) * (if e = 1 then 2 else 1)), baseOpd k b]
  | .updScalarBase i b p d =>
    [if p = 11 then .zs d.toNat else .vs d.toNat 1, .sb b.toNat, .vs i.toNat 1]
  | .updVectorBase b p d => [if p = 11 then .zs d.toNat else .vs d.toNat 1, .vb b.toNat]
  | .prefL1 b k => [baseOpd k b]
  | .prefL2 b k => [baseOpd k b]
  | .collapse b k => [baseOpd k b]
  | .cctlClean _ b k => [baseOpd k b]
  | .cctlInv _ b k => [baseOpd k b]
  | .cctlClinv _ b k => [baseOpd k b]
  | .waita b a d => [.sd d.toNat, .sp a.toNat, .ss b.toNat]
  | .lds _ _ i z d => [.vd d.toNat (szRegs z.toNat), .vs i.toNat 1]
  | .sts _ _ i z d => [.vs d.toNat (szRegs z.toNat), .vs i.toNat 1]
  | .ldsTake _ _ i z d => [.vd d.toNat (szRegs z.toNat), .vs i.toNat 1]
  | .spfill _ _ i => [.vs i.toNat 1]
  | .spclear _ _ i => [.vs i.toNat 1]
  | .subscr l b _ _ d => [.sd d.toNat, .sb b.toNat, .blk l.toNat 1]
  | .mxloop _ s t => [.tile t.toNat, .mblk s.toNat 8]
  | .mxzero t => [.tile t.toNat]
  | .mxrd _ s t => [.tile t.toNat, .ss s.toNat]
  | .mxepi _ s t => [.tile t.toNat, .mblk s.toNat 8]
  | .mxcfg s t => [.tile t.toNat, .blk s.toNat 5]
  | .stinit a d => [.zd d.toNat, .vs a.toNat 1]
  | .stacc a d => [.zd d.toNat, .vs a.toNat 1]
  | .stwacc b a d => [.zd d.toNat, .vs a.toNat 1, .vs b.toNat 1]
  | .stmerge b a d => [.zd d.toNat, .zs a.toNat, .zs b.toNat]
  | .stxl a d => [.zd d.toNat, .zs a.toNat]
  | .stdrainMean a d => [.vd d.toNat 1, .zs a.toNat]
  | .stdrainPvar a d => [.vd d.toNat 1, .zs a.toNat]
  | .stdrainSvar a d => [.vd d.toNat 1, .zs a.toNat]
  | .stdrainRdev e z d => [.vd d.toNat 1, .zs (2 * z.toNat), .ss e.toNat]
  | .stdrainNorm e z d => [.vd d.toNat 1, .zs (2 * z.toNat), .ss e.toNat]
  | .stld x b k d => [.zd d.toNat, baseOpd k b] ++ (if k = 1 then [] else [.vs x.toNat 1])
  | .stst x b k d => [.zs d.toNat, baseOpd k b] ++ (if k = 1 then [] else [.vs x.toNat 1])
  | .tcopyIn x r l => [.mblk l.toNat 3, .sp r.toNat, .mblk x.toNat 8]
  | .tcopyOut x r l => [.mblk l.toNat 3, .sp r.toNat, .mblk x.toNat 8]
  | .bclose _ d => [.sd d.toNat]
  | .bwait _ a => [.ss a.toNat]
  | .unsub a => [.ss a.toNat]
  | .subst a d => [.sd d.toNat, .ss a.toNat]
  | .evset a => [.ss a.toNat]
  | .evclr a => [.ss a.toNat]
  | .launch a d => [.sd d.toNat, .sp a.toNat]
  | .sendam n a d => [.sd d.toNat, .blk a.toNat (2 + n.toNat)]
  | .eret a => [.ss a.toNat]
  | .tlbsd _ a => [.sp a.toNat, .blk a.toNat 4]
  | .wrpeer _ a => [.blk a.toNat 4]
  | .rdsys _ d => [.sd d.toNat]
  | .wrsys _ d => [.ss d.toNat]
  | .mov16 s d => [.vd d.toNat 1, .vs (short s) 1]
  | .iadd16 s d => [.vd d.toNat 1, .vs (short s) 1]
  | .isub16 s d => [.vd d.toNat 1, .vs (short s) 1]
  | .and16 s d => [.vd d.toNat 1, .vs (short s) 1]
  | .or16 s d => [.vd d.toNat 1, .vs (short s) 1]
  | .xor16 s d => [.vd d.toNat 1, .vs (short s) 1]
  | .shl16 s d => [.vd d.toNat 1, .vs (short s) 1]
  | .shr16 s d => [.vd d.toNat 1, .vs (short s) 1]
  | .sar16 s d => [.vd d.toNat 1, .vs (short s) 1]
  | .imin16 s d => [.vd d.toNat 1, .vs (short s) 1]
  | .imax16 s d => [.vd d.toNat 1, .vs (short s) 1]
  | .fadd16 s d => [.vd d.toNat 1, .vs (short s) 1]
  | .fmul16 s d => [.vd d.toNat 1, .vs (short s) 1]
  | .fmin16 s d => [.vd d.toNat 1, .vs (short s) 1]
  | .fmax16 s d => [.vd d.toNat 1, .vs (short s) 1]
  | .ffma16 s d => [.vd d.toNat 1, .vs (short s) 1]
  | _ => []

/-- The system registers of 07 Table 7-5. -/
def sysRegs : List Nat :=
  [0x000, 0x001, 0x002, 0x003, 0x004, 0x005, 0x008, 0x009, 0x00A, 0x00B, 0x00C, 0x00D, 0x00E, 0x00F, 0x010, 0x011,
    0x012, 0x013, 0x014, 0x015]

/-- Those that WRSYS may name. -/
def sysWritable : List Nat := [0x000, 0x010, 0x011, 0x012, 0x013, 0x014]

/-- Those that need privilege S. -/
def sysPrivileged : List Nat := [0x010, 0x011, 0x012, 0x013, 0x014, 0x015]

/-- Window forms need XO[31:30] = 0 (02 R73). -/
def winOk (w : BitVec 1) (x : BitVec 7) : Bool := w == 0 || decide (x.toNat < 32)

/-- Are the modifier codes assigned and accepted by the instruction (02 R62, R73)? -/
def legalCode : Instr → Bool
  | .cvt t s _ w _ =>
    decide (t.toNat ≤ 7) && decide (s.toNat ≤ 7) && (w == 0 || (tyRegs t.toNat == 1 && tyRegs s.toNat == 1))
  | .fcvt t s _ _ w _ =>
    decide (t.toNat ≤ 10) && decide (s.toNat ≤ 10) && (decide (8 ≤ t.toNat) || decide (8 ≤ s.toNat))
      && (w == 0 || (tyRegs t.toNat == 1 && tyRegs s.toNat == 1))
  | .fadd r _ _ _ _ => decide (r.toNat ≤ 3)
  | .fsub r _ _ _ _ => decide (r.toNat ≤ 3)
  | .fmul r _ _ _ _ => decide (r.toNat ≤ 3)
  | .ffma r _ _ _ _ => decide (r.toNat ≤ 3)
  | .fcmp _ _ _ t _ => decide (t.toNat ≤ 2)
  | .redl o _ _ => decide (o.toNat ≤ 10)
  | .scanlInc o _ _ => decide (o.toNat ≤ 10)
  | .scanlExc o _ _ => decide (o.toNat ≤ 10)
  | .voteBallot _ n => decide (n.toNat ≤ 31)
  | .ldReg _ _ _ z _ => decide (z.toNat ≤ 6)
  | .ldImm _ _ _ z _ => decide (z.toNat ≤ 6)
  | .stReg _ _ _ z _ => decide (z.toNat ≤ 6)
  | .stImm _ _ _ z _ => decide (z.toNat ≤ 6)
  | .ldStrong o s _ _ z _ => [0, 1, 4].contains o.toNat && decide (s.toNat ≤ 5) && decide (z.toNat ≤ 5)
  | .stStrong o s _ _ z _ => [0, 2, 4].contains o.toNat && decide (s.toNat ≤ 5) && decide (z.toNat ≤ 5)
  | .atom e _ s _ _ p _ => decide (p.toNat ≤ 12) && !(p == 10 && e == 1) && decide (s.toNat ≤ 5)
  | .updScalarBase _ _ p _ => decide (p.toNat ≤ 11)
  | .updVectorBase _ p _ => decide (p.toNat ≤ 11)
  | .cctlClean s _ _ => decide (s.toNat ≤ 5)
  | .cctlInv s _ _ => decide (s.toNat ≤ 5)
  | .cctlClinv s _ _ => decide (s.toNat ≤ 5)
  | .fence o s k => decide (1 ≤ o.toNat) && decide (o.toNat ≤ 4) && decide (s.toNat ≤ 5) && decide (k.toNat ≤ 2)
  | .lds x w _ z _ => decide (z.toNat ≤ 6) && winOk w x
  | .sts x w _ z _ => decide (z.toNat ≤ 6) && winOk w x
  | .ldsTake x w _ z _ => decide (z.toNat ≤ 6) && winOk w x
  | .spfill x w _ => winOk w x
  | .spclear x w _ => winOk w x
  | .stld x _ k _ => k == 0 || x == 0
  | .stst x _ k _ => k == 0 || x == 0
  | .bclose c _ => decide (c.toNat ≤ 2)
  | .bwait c _ => decide (c.toNat ≤ 2)
  | .sendam n _ _ => decide (n.toNat ≤ 6)
  | .tlbsd z _ => decide (z.toNat ≤ 2)
  | .rdsys r _ => sysRegs.contains r.toNat
  | .wrsys r _ => sysWritable.contains r.toNat
  | _ => true

/-- MXRD's destinations start in v0..v123; how many it writes is checked at issue (06 R208). -/
def legalExtra : Instr → Bool
  | .mxrd f _ _ => decide (f.toNat ≤ 123)
  | _ => true

/-- Do the register fields obey the register rules (01 R20 to R26, 02 R59 to R61)? -/
def legalOperands (i : Instr) : Bool := (operands i).all Opd.legal && legalExtra i

/-- The latches an instruction reads (01 R22). -/
def latchReads (i : Instr) : List Nat := ((operands i).map Opd.latches).flatten

/-- The vector registers an instruction names. -/
def vregsOf (i : Instr) : List Nat := ((operands i).map Opd.vregs).flatten

/-- The vector registers an operand writes. -/
def Opd.vdests : Opd → List Nat
  | .vd r n => run r n
  | .zd r => run r 3
  | _ => []

/-- The vector registers an instruction writes. -/
def vdestsOf (i : Instr) : List Nat := ((operands i).map Opd.vdests).flatten

/-- The scalar registers an instruction names. -/
def sregsOf (i : Instr) : List Nat := ((operands i).map Opd.sregs).flatten

/-- Has the instruction W = 1: its result goes to its latch alone (02 R61)? Only latch-eligible instructions may. -/
def bypassed : Instr → Bool
  | .iadd _ _ w _ => w == 1
  | .isub _ _ w _ => w == 1
  | .imul _ _ w _ => w == 1
  | .imad _ _ w _ => w == 1
  | .imulhS32 _ _ w _ => w == 1
  | .imulhW32 _ _ w _ => w == 1
  | .iminS32 _ _ w _ => w == 1
  | .iminW32 _ _ w _ => w == 1
  | .imaxS32 _ _ w _ => w == 1
  | .imaxW32 _ _ w _ => w == 1
  | .iabs _ w _ => w == 1
  | .ineg _ w _ => w == 1
  | .popc _ w _ => w == 1
  | .clz _ w _ => w == 1
  | .and _ _ w _ => w == 1
  | .or _ _ w _ => w == 1
  | .xor _ _ w _ => w == 1
  | .not _ w _ => w == 1
  | .shl _ _ w _ => w == 1
  | .shr _ _ w _ => w == 1
  | .sar _ _ w _ => w == 1
  | .brev _ w _ => w == 1
  | .bfeW32 _ _ w _ => w == 1
  | .bfeS32 _ _ w _ => w == 1
  | .bfi _ _ w _ => w == 1
  | .mov _ w _ => w == 1
  | .sel _ _ _ w _ => w == 1
  | .movi _ w _ => w == 1
  | .movh _ w _ => w == 1
  | .iaddImm _ w _ => w == 1
  | .andImm _ w _ => w == 1
  | .fadd _ _ _ w _ => w == 1
  | .fsub _ _ _ w _ => w == 1
  | .fmul _ _ _ w _ => w == 1
  | .ffma _ _ _ w _ => w == 1
  | .fmin _ _ w _ => w == 1
  | .fmax _ _ w _ => w == 1
  | .frcp _ w _ => w == 1
  | .frsq _ w _ => w == 1
  | .fsqrt _ w _ => w == 1
  | .fexp2 _ w _ => w == 1
  | .flog2 _ w _ => w == 1
  | .fsin _ w _ => w == 1
  | .fcos _ w _ => w == 1
  | .hadd2 _ _ w _ => w == 1
  | .hmul2 _ _ w _ => w == 1
  | .hfma2 _ _ w _ => w == 1
  | .faddImm _ w _ => w == 1
  | .fmulImm _ w _ => w == 1
  | .moviF32 _ w _ => w == 1
  | .moviF16 _ w _ => w == 1
  | .cvt _ _ _ w _ => w == 1
  | .fcvt _ _ _ _ w _ => w == 1
  | _ => false

/-- Latch-eligible instructions (01 Table 1-2, 04 R122). -/
def latchEligible : Instr → Bool
  | .iadd _ _ _ _ => true
  | .isub _ _ _ _ => true
  | .imul _ _ _ _ => true
  | .imad _ _ _ _ => true
  | .imulhS32 _ _ _ _ => true
  | .imulhW32 _ _ _ _ => true
  | .iminS32 _ _ _ _ => true
  | .iminW32 _ _ _ _ => true
  | .imaxS32 _ _ _ _ => true
  | .imaxW32 _ _ _ _ => true
  | .iabs _ _ _ => true
  | .ineg _ _ _ => true
  | .popc _ _ _ => true
  | .clz _ _ _ => true
  | .and _ _ _ _ => true
  | .or _ _ _ _ => true
  | .xor _ _ _ _ => true
  | .not _ _ _ => true
  | .shl _ _ _ _ => true
  | .shr _ _ _ _ => true
  | .sar _ _ _ _ => true
  | .brev _ _ _ => true
  | .bfeW32 _ _ _ _ => true
  | .bfeS32 _ _ _ _ => true
  | .bfi _ _ _ _ => true
  | .mov _ _ _ => true
  | .sel _ _ _ _ _ => true
  | .movi _ _ _ => true
  | .movh _ _ _ => true
  | .iaddImm _ _ _ => true
  | .andImm _ _ _ => true
  | .bcast _ _ => true
  | .fadd _ _ _ _ _ => true
  | .fsub _ _ _ _ _ => true
  | .fmul _ _ _ _ _ => true
  | .ffma _ _ _ _ _ => true
  | .fmin _ _ _ _ => true
  | .fmax _ _ _ _ => true
  | .frcp _ _ _ => true
  | .frsq _ _ _ => true
  | .fsqrt _ _ _ => true
  | .fexp2 _ _ _ => true
  | .flog2 _ _ _ => true
  | .fsin _ _ _ => true
  | .fcos _ _ _ => true
  | .hadd2 _ _ _ _ => true
  | .hmul2 _ _ _ _ => true
  | .hfma2 _ _ _ _ => true
  | .faddImm _ _ _ => true
  | .fmulImm _ _ _ => true
  | .moviF32 _ _ _ => true
  | .moviF16 _ _ _ => true
  | .mov16 _ _ => true
  | .iadd16 _ _ => true
  | .isub16 _ _ => true
  | .and16 _ _ => true
  | .or16 _ _ => true
  | .xor16 _ _ => true
  | .shl16 _ _ => true
  | .shr16 _ _ => true
  | .sar16 _ _ => true
  | .imin16 _ _ => true
  | .imax16 _ _ => true
  | .fadd16 _ _ => true
  | .fmul16 _ _ => true
  | .fmin16 _ _ => true
  | .fmax16 _ _ => true
  | .ffma16 _ _ => true
  | .cvt t s _ _ _ => tyRegs t.toNat == 1 && tyRegs s.toNat == 1
  | .fcvt t s _ _ _ _ => tyRegs t.toNat == 1 && tyRegs s.toNat == 1
  | _ => false

/-- Instructions of the lane-level formats, which a GRD range may hold (02 R70), beside the latch-eligible ones. -/
def laneFormat : Instr → Bool
  | .cvt _ _ _ _ _ => true
  | .iaddc _ _ _ _ => true
  | .lea64 _ _ _ _ => true
  | .icmp _ _ _ _ _ => true
  | .shflIdx _ _ _ => true
  | .shflUp _ _ _ => true
  | .shflDn _ _ _ => true
  | .shflXor _ _ _ => true
  | .redl _ _ _ => true
  | .scanlInc _ _ _ => true
  | .scanlExc _ _ _ => true
  | .rdlane _ _ _ => true
  | .voteBallot _ _ => true
  | .actmask _ => true
  | .matchLanes _ _ => true
  | .pand _ _ _ _ _ => true
  | .por _ _ _ _ _ => true
  | .pxor _ _ _ _ _ => true
  | .pnot _ _ _ => true
  | .pmov _ _ _ => true
  | .voteAll _ _ _ => true
  | .voteAny _ _ _ => true
  | .voteUni _ _ _ => true
  | .fcmp _ _ _ _ _ => true
  | .fcvt _ _ _ _ _ _ => true
  | .qcvtQ _ _ _ => true
  | .qcvtF32 _ _ _ => true
  | .qpack _ _ _ => true
  | .qunpk _ _ _ => true
  | .tunpk _ _ => true
  | .ldReg _ _ _ _ _ => true
  | .ldImm _ _ _ _ _ => true
  | .stReg _ _ _ _ _ => true
  | .stImm _ _ _ _ _ => true
  | .ldStrong _ _ _ _ _ _ => true
  | .stStrong _ _ _ _ _ _ => true
  | .atom _ _ _ _ _ _ _ => true
  | .updScalarBase _ _ _ _ => true
  | .updVectorBase _ _ _ => true
  | .prefL1 _ _ => true
  | .prefL2 _ _ => true
  | .collapse _ _ => true
  | .cctlClean _ _ _ => true
  | .cctlInv _ _ _ => true
  | .cctlClinv _ _ _ => true
  | .lds _ _ _ _ _ => true
  | .sts _ _ _ _ _ => true
  | .ldsTake _ _ _ _ _ => true
  | .spfill _ _ _ => true
  | .spclear _ _ _ => true
  | .stinit _ _ => true
  | .stacc _ _ => true
  | .stwacc _ _ _ => true
  | .stmerge _ _ _ => true
  | .stxl _ _ => true
  | .stdrainMean _ _ => true
  | .stdrainPvar _ _ => true
  | .stdrainSvar _ _ => true
  | .stdrainRdev _ _ _ => true
  | .stdrainNorm _ _ _ => true
  | .stld _ _ _ _ => true
  | .stst _ _ _ _ => true
  | i => latchEligible i

/-- Instructions allowed in run-ahead (01 Table 1-7), beside the latch-eligible ones. -/
def runAhead : Instr → Bool
  | .cvt _ _ _ _ _ => true
  | .iaddc _ _ _ _ => true
  | .lea64 _ _ _ _ => true
  | .icmp _ _ _ _ _ => true
  | .fcmp _ _ _ _ _ => true
  | .fcvt _ _ _ _ _ _ => true
  | .qcvtQ _ _ _ => true
  | .qcvtF32 _ _ _ => true
  | .qpack _ _ _ => true
  | .qunpk _ _ _ => true
  | .tunpk _ _ => true
  | .pand _ _ _ _ _ => true
  | .por _ _ _ _ _ => true
  | .pxor _ _ _ _ _ => true
  | .pnot _ _ _ => true
  | .pmov _ _ _ => true
  | .grd _ _ _ => true
  | .ldReg _ _ _ _ _ => true
  | .ldImm _ _ _ _ _ => true
  | .lds _ _ _ _ _ => true
  | .prefL1 _ _ => true
  | .prefL2 _ _ => true
  | .stinit _ _ => true
  | .stacc _ _ => true
  | .stwacc _ _ _ => true
  | .stmerge _ _ _ => true
  | .stdrainMean _ _ => true
  | .stdrainPvar _ _ => true
  | .stdrainSvar _ _ => true
  | .stdrainRdev _ _ _ => true
  | .stdrainNorm _ _ _ => true
  | .nop => true
  | i => latchEligible i

/-- Privileged operations (07 Table 7-4). -/
def privileged : Instr → Bool
  | .eret _ => true
  | .tlbsd _ _ => true
  | .halt => true
  | .rdsys r _ => sysPrivileged.contains r.toNat
  | .wrsys r _ => sysPrivileged.contains r.toNat
  | _ => false

/-- The instructions that access memory or the scratchpad, or order accesses: they wait for an earlier acquire (08 Table 8-3 row 5). -/
def accesses : Instr → Bool
  | .sld _ _ _ => true
  | .ldReg _ _ _ _ _ => true
  | .ldImm _ _ _ _ _ => true
  | .stReg _ _ _ _ _ => true
  | .stImm _ _ _ _ _ => true
  | .ldStrong _ _ _ _ _ _ => true
  | .stStrong _ _ _ _ _ _ => true
  | .atom _ _ _ _ _ _ _ => true
  | .updScalarBase _ _ _ _ => true
  | .updVectorBase _ _ _ => true
  | .collapse _ _ => true
  | .cctlClean _ _ _ => true
  | .cctlInv _ _ _ => true
  | .cctlClinv _ _ _ => true
  | .fence _ _ _ => true
  | .waita _ _ _ => true
  | .lds _ _ _ _ _ => true
  | .sts _ _ _ _ _ => true
  | .ldsTake _ _ _ _ _ => true
  | .spfill _ _ _ => true
  | .spclear _ _ _ => true
  | .stld _ _ _ _ => true
  | .stst _ _ _ _ => true
  | .barArv _ => true
  | .barWait _ => true
  | .barSync _ => true
  | .evset _ => true
  | .launch _ _ => true
  | .sendam _ _ _ => true
  | .subscr _ _ _ _ _ => true
  | .unsub _ => true
  | .subst _ _ => true
  | _ => false

/-- The instructions that come after every earlier access of their group: releases, and fences but those of global accesses alone (08
R252 rows 6 to 8). They wait for a scratchpad read that the other path is in. -/
def releases : Instr → Bool
  | .spfill _ _ _ => true
  | .stStrong o _ _ _ _ _ => decide (2 ≤ o.toNat)
  | .atom _ o _ _ _ _ _ => decide (2 ≤ o.toNat)
  | .fence _ _ k => k != 1
  | .barArv _ => true
  | .barSync _ => true
  | .evset _ => true
  | .launch _ _ => true
  | .sendam _ _ _ => true
  | _ => false

/-- Instructions only the producer group may issue (01 R16). -/
def producerOnly : Instr → Bool
  | .tcopyIn _ _ _ => true
  | .tcopyOut _ _ _ => true
  | _ => false

/-- The encodings whose issue clears a team's restartable flag (10 R317). LAUNCH clears it when it writes ACCEPTED, and
MXEPI by its DEST: those two do so themselves. -/
def clearsRestart : Instr → Bool
  | .stReg _ _ _ _ _ => true
  | .stImm _ _ _ _ _ => true
  | .stStrong _ _ _ _ _ _ => true
  | .stst _ _ _ _ => true
  | .atom _ _ _ _ _ _ _ => true
  | .updScalarBase _ _ _ _ => true
  | .updVectorBase _ _ _ => true
  | .subscr _ _ _ _ _ => true
  | .unsub _ => true
  | .tcopyOut _ _ _ => true
  | .evset _ => true
  | .evclr _ => true
  | .sendam _ _ _ => true
  | _ => false

/-! ## Fused sequences (04 R145) -/

/-- The instructions that Table 4-7 names. -/
inductive FuseKind where
  | icmp | fcmp | sel | bra | movi | movh | imul | iadd | shl | isub | iabs | fmul | fadd | ffma | fmax | fmin | iaddc | smovi
  | smoviH
deriving DecidableEq, Repr

/-- What Table 4-7 looks at in an instruction: its name, destination, SA and SB, its predicate or rounding mode, and
whether it writes its destination (W = 0). -/
structure FusePart where
  kind : FuseKind
  d : Nat
  a : Nat
  b : Nat
  m : Nat
  writes : Bool

/-- The part of an instruction in a fused sequence; a 16-bit form counts as the instruction it stands for (02 R57). -/
def fusePart : Instr → Option FusePart
  | .icmp _ _ _ _ p => some ⟨.icmp, 0, 0, 0, p.toNat, true⟩
  | .fcmp _ _ _ _ p => some ⟨.fcmp, 0, 0, 0, p.toNat, true⟩
  | .sel p b a w d => some ⟨.sel, d.toNat, a.toNat, b.toNat, p.toNat, w == 0⟩
  | .bra _ p _ _ => some ⟨.bra, 0, 0, 0, p.toNat, true⟩
  | .movi _ w d => some ⟨.movi, d.toNat, 0, 0, 0, w == 0⟩
  | .movh _ w d => some ⟨.movh, d.toNat, 0, 0, 0, w == 0⟩
  | .imul b a w d => some ⟨.imul, d.toNat, a.toNat, b.toNat, 0, w == 0⟩
  | .iadd b a w d => some ⟨.iadd, d.toNat, a.toNat, b.toNat, 0, w == 0⟩
  | .iadd16 r d => some ⟨.iadd, d.toNat, d.toNat, short r, 0, true⟩
  | .shl b a w d => some ⟨.shl, d.toNat, a.toNat, b.toNat, 0, w == 0⟩
  | .shl16 r d => some ⟨.shl, d.toNat, d.toNat, short r, 0, true⟩
  | .isub b a w d => some ⟨.isub, d.toNat, a.toNat, b.toNat, 0, w == 0⟩
  | .isub16 r d => some ⟨.isub, d.toNat, d.toNat, short r, 0, true⟩
  | .iabs a w d => some ⟨.iabs, d.toNat, a.toNat, 0, 0, w == 0⟩
  | .fmul r b a w d => some ⟨.fmul, d.toNat, a.toNat, b.toNat, r.toNat, w == 0⟩
  | .fmul16 r d => some ⟨.fmul, d.toNat, d.toNat, short r, 0, true⟩
  | .fadd r b a w d => some ⟨.fadd, d.toNat, a.toNat, b.toNat, r.toNat, w == 0⟩
  | .fadd16 r d => some ⟨.fadd, d.toNat, d.toNat, short r, 0, true⟩
  | .ffma _ b a w d => some ⟨.ffma, d.toNat, a.toNat, b.toNat, 0, w == 0⟩
  | .ffma16 r d => some ⟨.ffma, d.toNat, short r, short r, 0, true⟩
  | .fmax b a w d => some ⟨.fmax, d.toNat, a.toNat, b.toNat, 0, w == 0⟩
  | .fmax16 r d => some ⟨.fmax, d.toNat, d.toNat, short r, 0, true⟩
  | .fmin b a w d => some ⟨.fmin, d.toNat, a.toNat, b.toNat, 0, w == 0⟩
  | .fmin16 r d => some ⟨.fmin, d.toNat, d.toNat, short r, 0, true⟩
  | .iaddc p _ _ _ => some ⟨.iaddc, 0, 0, 0, p.toNat, true⟩
  | .smovi _ d => some ⟨.smovi, d.toNat, 0, 0, 0, true⟩
  | .smoviH _ d => some ⟨.smoviH, d.toNat, 0, 0, 0, true⟩
  | _ => none

/-- Does the second fuse with the first: the rows of two, and FMAX after FFMA? -/
def fusesPair (x y : FusePart) : Bool :=
  match x.kind, y.kind with
  | .icmp, .sel => y.m == x.m
  | .fcmp, .sel => y.m == x.m
  | .icmp, .bra => y.m == x.m
  | .fcmp, .bra => y.m == x.m
  | .movi, .movh => y.d == x.d
  | .imul, .iadd => y.writes && y.d == x.d && (y.a == x.d || y.b == x.d)
  | .shl, .iadd => y.a == x.d
  | .isub, .iabs => y.writes && y.a == x.d && y.d == x.d
  | .fmul, .fadd => y.d == x.d && y.a == x.d && y.m == x.m
  | .ffma, .fmax => x.writes && y.writes && y.d == x.d && y.a == x.d
  | .iaddc, .iaddc => y.m == x.m
  | .smovi, .smoviH => y.d == x.d
  | _, _ => false

/-- Does a third fuse with two that do: ICMP, SEL, SEL and FFMA, FMAX, FMIN? -/
def fusesThird (x y z : FusePart) : Bool :=
  match x.kind, y.kind, z.kind with
  | .icmp, .sel, .sel => z.m == x.m
  | .ffma, .fmax, .fmin => z.writes && z.d == y.d && z.a == y.d
  | _, _, _ => false

/-- Is a sequence of two a row of Table 4-7 by itself? FFMA, FMAX is none without FMIN. -/
def fusesTwo (x y : FusePart) : Bool := fusesPair x y && x.kind != .ffma

/-- How many of the two instructions that follow fuse with the first. -/
def fuseCount (i : Instr) (j k : Option Instr) : Nat :=
  match fusePart i, j.bind fusePart, k.bind fusePart with
  | some x, some y, some z =>
    if fusesPair x y && fusesThird x y z then 2 else if fusesTwo x y then 1 else 0
  | some x, some y, none => if fusesTwo x y then 1 else 0
  | _, _, _ => 0

end Sys2Proof
end

