-- ==== Sys2Proof/WellFormed.lean ====
section
/-! DEFINITION. Well-formed instructions: every modifier code assigned and accepted, every register field legal. -/

namespace Sys2Proof

/-- An instruction whose codes and register fields the spec accepts (02 R58 to R62, R73). Issue of any other raises the
illegal-instruction trap. An event is always well formed. -/
def WellFormed.wf (i : Instr) : Bool := legalCode i && legalOperands i

end Sys2Proof
end

