-- ==== Sys2Proof/Decode.lean ====
section
/-! DEFINITION. The decoder from bytes to instructions (02 R55 to R73), and after it the encoder. Fields are taken as
02 Tables 2-1 and 2-3 place them; a word whose major, selector or reserved field no row has is rejected by name. -/

namespace Sys2Proof

/-- A field of `n` bits at `lo`, as a bit vector. -/
def fld (w lo n : Nat) : BitVec n := BitVec.ofNat n (w / 2 ^ lo)

/-- An instruction when its reserved fields are 0 (02 R58). -/
def keep (c : Bool) (i : Instr) : Option Instr := if c then some i else none

/-- A 16-bit instruction (02 Tables 2-1 and 2-2). -/
def decodeHalf (w : Nat) : Option Instr :=
  match bits w 1 4 with
  | 0 => some (.mov16 (fld w 11 5) (fld w 5 6))
  | 1 => some (.iadd16 (fld w 11 5) (fld w 5 6))
  | 2 => some (.isub16 (fld w 11 5) (fld w 5 6))
  | 3 => some (.and16 (fld w 11 5) (fld w 5 6))
  | 4 => some (.or16 (fld w 11 5) (fld w 5 6))
  | 5 => some (.xor16 (fld w 11 5) (fld w 5 6))
  | 6 => some (.shl16 (fld w 11 5) (fld w 5 6))
  | 7 => some (.shr16 (fld w 11 5) (fld w 5 6))
  | 8 => some (.sar16 (fld w 11 5) (fld w 5 6))
  | 9 => some (.imin16 (fld w 11 5) (fld w 5 6))
  | 10 => some (.imax16 (fld w 11 5) (fld w 5 6))
  | 11 => some (.fadd16 (fld w 11 5) (fld w 5 6))
  | 12 => some (.fmul16 (fld w 11 5) (fld w 5 6))
  | 13 => some (.fmin16 (fld w 11 5) (fld w 5 6))
  | 14 => some (.fmax16 (fld w 11 5) (fld w 5 6))
  | _ => some (.ffma16 (fld w 11 5) (fld w 5 6))

/-- Majors 0x00 to 0x1B: lane and predicate instructions. -/
def decodeLane (w : Nat) : Option Instr :=
  match bits w 1 6 with
  | 0x00 =>
    match bits w 29 3 with
    | 0 => some (.iadd (fld w 22 7) (fld w 15 7) (fld w 14 1) (fld w 7 7))
    | 1 => some (.isub (fld w 22 7) (fld w 15 7) (fld w 14 1) (fld w 7 7))
    | 2 => some (.imul (fld w 22 7) (fld w 15 7) (fld w 14 1) (fld w 7 7))
    | 3 => some (.imad (fld w 22 7) (fld w 15 7) (fld w 14 1) (fld w 7 7))
    | 4 => some (.imulhS32 (fld w 22 7) (fld w 15 7) (fld w 14 1) (fld w 7 7))
    | 5 => some (.imulhW32 (fld w 22 7) (fld w 15 7) (fld w 14 1) (fld w 7 7))
    | _ => none
  | 0x01 =>
    match bits w 29 3 with
    | 0 => some (.iminS32 (fld w 22 7) (fld w 15 7) (fld w 14 1) (fld w 7 7))
    | 1 => some (.iminW32 (fld w 22 7) (fld w 15 7) (fld w 14 1) (fld w 7 7))
    | 2 => some (.imaxS32 (fld w 22 7) (fld w 15 7) (fld w 14 1) (fld w 7 7))
    | 3 => some (.imaxW32 (fld w 22 7) (fld w 15 7) (fld w 14 1) (fld w 7 7))
    | 4 => keep (bits w 22 7 == 0) (.iabs (fld w 15 7) (fld w 14 1) (fld w 7 7))
    | 5 => keep (bits w 22 7 == 0) (.ineg (fld w 15 7) (fld w 14 1) (fld w 7 7))
    | 6 => keep (bits w 22 7 == 0) (.popc (fld w 15 7) (fld w 14 1) (fld w 7 7))
    | _ => keep (bits w 22 7 == 0) (.clz (fld w 15 7) (fld w 14 1) (fld w 7 7))
  | 0x02 =>
    match bits w 29 3 with
    | 0 => some (.and (fld w 22 7) (fld w 15 7) (fld w 14 1) (fld w 7 7))
    | 1 => some (.or (fld w 22 7) (fld w 15 7) (fld w 14 1) (fld w 7 7))
    | 2 => some (.xor (fld w 22 7) (fld w 15 7) (fld w 14 1) (fld w 7 7))
    | 3 => keep (bits w 22 7 == 0) (.not (fld w 15 7) (fld w 14 1) (fld w 7 7))
    | 4 => some (.shl (fld w 22 7) (fld w 15 7) (fld w 14 1) (fld w 7 7))
    | 5 => some (.shr (fld w 22 7) (fld w 15 7) (fld w 14 1) (fld w 7 7))
    | 6 => some (.sar (fld w 22 7) (fld w 15 7) (fld w 14 1) (fld w 7 7))
    | _ => keep (bits w 22 7 == 0) (.brev (fld w 15 7) (fld w 14 1) (fld w 7 7))
  | 0x03 =>
    match bits w 29 3 with
    | 0 => some (.bfeW32 (fld w 22 7) (fld w 15 7) (fld w 14 1) (fld w 7 7))
    | 1 => some (.bfeS32 (fld w 22 7) (fld w 15 7) (fld w 14 1) (fld w 7 7))
    | 2 => some (.bfi (fld w 22 7) (fld w 15 7) (fld w 14 1) (fld w 7 7))
    | 3 => keep (bits w 22 7 == 0) (.mov (fld w 15 7) (fld w 14 1) (fld w 7 7))
    | _ => none
  | 0x04 => some (.sel (fld w 29 3) (fld w 22 7) (fld w 15 7) (fld w 14 1) (fld w 7 7))
  | 0x05 => keep (bits w 14 1 == 0) (.iaddc (fld w 29 3) (fld w 22 7) (fld w 15 7) (fld w 7 7))
  | 0x06 => keep (bits w 14 1 == 0) (.lea64 (fld w 29 3) (fld w 22 7) (fld w 15 7) (fld w 7 7))
  | 0x07 => keep (bits w 14 1 == 0) (.icmp (fld w 29 3) (fld w 22 7) (fld w 15 7) (fld w 12 2) (fld w 7 5))
  | 0x08 => keep (bits w 22 2 == 0) (.cvt (fld w 28 4) (fld w 24 4) (fld w 15 7) (fld w 14 1) (fld w 7 7))
  | 0x09 =>
    match bits w 15 1 with
    | 0 => some (.movi (fld w 16 16) (fld w 14 1) (fld w 7 7))
    | _ => some (.movh (fld w 16 16) (fld w 14 1) (fld w 7 7))
  | 0x0A =>
    match bits w 15 1 with
    | 0 => some (.iaddImm (fld w 16 16) (fld w 14 1) (fld w 7 7))
    | _ => some (.andImm (fld w 16 16) (fld w 14 1) (fld w 7 7))
  | 0x0B =>
    match bits w 29 3 with
    | 0 => keep (bits w 14 1 == 0) (.shflIdx (fld w 22 7) (fld w 15 7) (fld w 7 7))
    | 1 => keep (bits w 14 1 == 0) (.shflUp (fld w 22 7) (fld w 15 7) (fld w 7 7))
    | 2 => keep (bits w 14 1 == 0) (.shflDn (fld w 22 7) (fld w 15 7) (fld w 7 7))
    | 3 => keep (bits w 14 1 == 0) (.shflXor (fld w 22 7) (fld w 15 7) (fld w 7 7))
    | _ => none
  | 0x0C =>
    match bits w 29 3 with
    | 0 => keep (bits w 14 1 == 0 && bits w 26 3 == 0) (.redl (fld w 22 4) (fld w 15 7) (fld w 7 7))
    | 1 => keep (bits w 14 1 == 0 && bits w 26 3 == 0) (.scanlInc (fld w 22 4) (fld w 15 7) (fld w 7 7))
    | 2 => keep (bits w 14 1 == 0 && bits w 26 3 == 0) (.scanlExc (fld w 22 4) (fld w 15 7) (fld w 7 7))
    | _ => none
  | 0x0D =>
    match bits w 29 3 with
    | 0 => keep (bits w 22 7 == 0) (.bcast (fld w 14 8) (fld w 7 7))
    | 1 => some (.rdlane (fld w 22 7) (fld w 14 8) (fld w 7 7))
    | 2 => keep (bits w 22 7 == 0) (.voteBallot (fld w 14 8) (fld w 7 7))
    | 3 => keep (bits w 7 7 == 0 && bits w 22 7 == 0) (.actmask (fld w 14 8))
    | 4 => keep (bits w 14 8 == 0) (.matchLanes (fld w 22 7) (fld w 7 7))
    | _ => none
  | 0x0E =>
    match bits w 29 3 with
    | 0 => keep (bits w 12 3 == 0 && bits w 27 2 == 0) (.pand (fld w 26 1) (fld w 21 5) (fld w 20 1) (fld w 15 5) (fld w 7 5))
    | 1 => keep (bits w 12 3 == 0 && bits w 27 2 == 0) (.por (fld w 26 1) (fld w 21 5) (fld w 20 1) (fld w 15 5) (fld w 7 5))
    | 2 => keep (bits w 12 3 == 0 && bits w 27 2 == 0) (.pxor (fld w 26 1) (fld w 21 5) (fld w 20 1) (fld w 15 5) (fld w 7 5))
    | 3 => keep (bits w 12 3 == 0 && bits w 21 8 == 0) (.pnot (fld w 20 1) (fld w 15 5) (fld w 7 5))
    | 4 => keep (bits w 12 3 == 0 && bits w 21 8 == 0) (.pmov (fld w 20 1) (fld w 15 5) (fld w 7 5))
    | 5 => keep (bits w 12 3 == 0 && bits w 21 8 == 0) (.voteAll (fld w 20 1) (fld w 15 5) (fld w 7 5))
    | 6 => keep (bits w 12 3 == 0 && bits w 21 8 == 0) (.voteAny (fld w 20 1) (fld w 15 5) (fld w 7 5))
    | _ => keep (bits w 12 3 == 0 && bits w 21 8 == 0) (.voteUni (fld w 20 1) (fld w 15 5) (fld w 7 5))
  | 0x0F => keep (bits w 15 17 == 0) (.grd (fld w 13 2) (fld w 12 1) (fld w 7 5))
  | 0x10 => some (.fadd (fld w 29 3) (fld w 22 7) (fld w 15 7) (fld w 14 1) (fld w 7 7))
  | 0x11 => some (.fsub (fld w 29 3) (fld w 22 7) (fld w 15 7) (fld w 14 1) (fld w 7 7))
  | 0x12 => some (.fmul (fld w 29 3) (fld w 22 7) (fld w 15 7) (fld w 14 1) (fld w 7 7))
  | 0x13 => some (.ffma (fld w 29 3) (fld w 22 7) (fld w 15 7) (fld w 14 1) (fld w 7 7))
  | 0x14 =>
    match bits w 29 3 with
    | 0 => some (.fmin (fld w 22 7) (fld w 15 7) (fld w 14 1) (fld w 7 7))
    | 1 => some (.fmax (fld w 22 7) (fld w 15 7) (fld w 14 1) (fld w 7 7))
    | _ => none
  | 0x15 =>
    match bits w 29 3 with
    | 0 => keep (bits w 22 7 == 0) (.frcp (fld w 15 7) (fld w 14 1) (fld w 7 7))
    | 1 => keep (bits w 22 7 == 0) (.frsq (fld w 15 7) (fld w 14 1) (fld w 7 7))
    | 2 => keep (bits w 22 7 == 0) (.fsqrt (fld w 15 7) (fld w 14 1) (fld w 7 7))
    | 3 => keep (bits w 22 7 == 0) (.fexp2 (fld w 15 7) (fld w 14 1) (fld w 7 7))
    | 4 => keep (bits w 22 7 == 0) (.flog2 (fld w 15 7) (fld w 14 1) (fld w 7 7))
    | 5 => keep (bits w 22 7 == 0) (.fsin (fld w 15 7) (fld w 14 1) (fld w 7 7))
    | 6 => keep (bits w 22 7 == 0) (.fcos (fld w 15 7) (fld w 14 1) (fld w 7 7))
    | _ => none
  | 0x16 => keep (bits w 14 1 == 0) (.fcmp (fld w 29 3) (fld w 22 7) (fld w 15 7) (fld w 12 2) (fld w 7 5))
  | 0x17 => some (.fcvt (fld w 28 4) (fld w 24 4) (fld w 22 2) (fld w 15 7) (fld w 14 1) (fld w 7 7))
  | 0x18 =>
    match bits w 29 3 with
    | 0 => some (.hadd2 (fld w 22 7) (fld w 15 7) (fld w 14 1) (fld w 7 7))
    | 1 => some (.hmul2 (fld w 22 7) (fld w 15 7) (fld w 14 1) (fld w 7 7))
    | 2 => some (.hfma2 (fld w 22 7) (fld w 15 7) (fld w 14 1) (fld w 7 7))
    | _ => none
  | 0x19 =>
    match bits w 15 1 with
    | 0 => some (.faddImm (fld w 16 16) (fld w 14 1) (fld w 7 7))
    | _ => some (.fmulImm (fld w 16 16) (fld w 14 1) (fld w 7 7))
  | 0x1A =>
    match bits w 15 1 with
    | 0 => some (.moviF32 (fld w 16 16) (fld w 14 1) (fld w 7 7))
    | _ => some (.moviF16 (fld w 16 16) (fld w 14 1) (fld w 7 7))
  | 0x1B =>
    match bits w 29 3 with
    | 0 => keep (bits w 14 1 == 0) (.qcvtQ (fld w 22 7) (fld w 15 7) (fld w 7 7))
    | 1 => keep (bits w 14 1 == 0) (.qcvtF32 (fld w 22 7) (fld w 15 7) (fld w 7 7))
    | 2 => keep (bits w 14 1 == 0) (.qpack (fld w 22 7) (fld w 15 7) (fld w 7 7))
    | 3 => keep (bits w 14 1 == 0) (.qunpk (fld w 22 7) (fld w 15 7) (fld w 7 7))
    | 4 => keep (bits w 14 1 == 0 && bits w 22 7 == 0) (.tunpk (fld w 15 7) (fld w 7 7))
    | _ => none
  | _ => none

/-- Majors 0x1C to 0x26: scalar and control instructions. -/
def decodeScalar (w : Nat) : Option Instr :=
  match bits w 1 6 with
  | 0x1C =>
    match bits w 31 1 with
    | 0 => some (.sadd (fld w 23 8) (fld w 15 8) (fld w 7 8))
    | _ => some (.ssub (fld w 23 8) (fld w 15 8) (fld w 7 8))
  | 0x1D =>
    match bits w 31 1 with
    | 0 => some (.smul (fld w 23 8) (fld w 15 8) (fld w 7 8))
    | _ => keep (bits w 23 8 == 0) (.smov (fld w 15 8) (fld w 7 8))
  | 0x1E =>
    match bits w 31 1 with
    | 0 => some (.sand (fld w 23 8) (fld w 15 8) (fld w 7 8))
    | _ => some (.sor (fld w 23 8) (fld w 15 8) (fld w 7 8))
  | 0x1F =>
    match bits w 31 1 with
    | 0 => some (.sxor (fld w 23 8) (fld w 15 8) (fld w 7 8))
    | _ => some (.slea64 (fld w 23 8) (fld w 15 8) (fld w 7 8))
  | 0x20 =>
    match bits w 31 1 with
    | 0 => some (.sshl (fld w 23 8) (fld w 15 8) (fld w 7 8))
    | _ => some (.sshr (fld w 23 8) (fld w 15 8) (fld w 7 8))
  | 0x21 => some (.scmp (fld w 31 1) (fld w 23 8) (fld w 15 8) (fld w 12 3) (fld w 7 5))
  | 0x22 =>
    match bits w 15 1 with
    | 0 => some (.smovi (fld w 16 16) (fld w 7 8))
    | _ => some (.smoviH (fld w 16 16) (fld w 7 8))
  | 0x23 => some (.sld (fld w 23 9) (fld w 15 8) (fld w 7 8))
  | 0x24 => some (.bra (fld w 14 18) (fld w 9 5) (fld w 8 1) (fld w 7 1))
  | 0x25 =>
    match bits w 7 2 with
    | 0 => keep (bits w 9 5 == 0) (.jmp (fld w 14 18))
    | 1 => some (.call (fld w 14 18) (fld w 9 5))
    | 2 => keep (bits w 9 5 == 0) (.joinpt (fld w 14 18))
    | _ => none
  | 0x26 =>
    match bits w 29 3 with
    | 0 => keep (bits w 7 8 == 0 && bits w 23 6 == 0) (.brx (fld w 15 8))
    | 1 => keep (bits w 7 8 == 0 && bits w 23 6 == 0) (.ret (fld w 15 8))
    | 2 => keep (bits w 7 22 == 0) (.exit)
    | 3 => keep (bits w 7 22 == 0) (.yield)
    | 4 => keep (bits w 7 22 == 0) (.nop)
    | 5 => keep (bits w 7 16 == 0 && bits w 27 2 == 0) (.barArv (fld w 23 4))
    | 6 => keep (bits w 7 16 == 0 && bits w 27 2 == 0) (.barWait (fld w 23 4))
    | _ => keep (bits w 7 16 == 0 && bits w 27 2 == 0) (.barSync (fld w 23 4))
  | _ => none

/-- Majors 0x27 to 0x36: memory instructions. -/
def decodeMemory (w : Nat) : Option Instr :=
  match bits w 1 6 with
  | 0x27 => some (.ldReg (fld w 25 7) (fld w 18 7) (fld w 17 1) (fld w 14 3) (fld w 7 7))
  | 0x28 => some (.ldImm (fld w 25 7) (fld w 18 7) (fld w 17 1) (fld w 14 3) (fld w 7 7))
  | 0x29 => some (.stReg (fld w 25 7) (fld w 18 7) (fld w 17 1) (fld w 14 3) (fld w 7 7))
  | 0x2A => some (.stImm (fld w 25 7) (fld w 18 7) (fld w 17 1) (fld w 14 3) (fld w 7 7))
  | 0x2B =>
    match bits w 31 1 with
    | 0 => some (.ldStrong (fld w 28 3) (fld w 25 3) (fld w 18 7) (fld w 17 1) (fld w 14 3) (fld w 7 7))
    | _ => some (.stStrong (fld w 28 3) (fld w 25 3) (fld w 18 7) (fld w 17 1) (fld w 14 3) (fld w 7 7))
  | 0x2C => some (.atom (fld w 31 1) (fld w 29 2) (fld w 26 3) (fld w 19 7) (fld w 18 1) (fld w 14 4) (fld w 7 7))
  | 0x2D => some (.updScalarBase (fld w 25 7) (fld w 18 7) (fld w 14 4) (fld w 7 7))
  | 0x2E => keep (bits w 25 7 == 0) (.updVectorBase (fld w 18 7) (fld w 14 4) (fld w 7 7))
  | 0x2F =>
    match bits w 7 4 with
    | 0 => keep (bits w 11 6 == 0 && bits w 25 7 == 0) (.prefL1 (fld w 18 7) (fld w 17 1))
    | 1 => keep (bits w 11 6 == 0 && bits w 25 7 == 0) (.prefL2 (fld w 18 7) (fld w 17 1))
    | 2 => keep (bits w 11 6 == 0 && bits w 25 7 == 0) (.collapse (fld w 18 7) (fld w 17 1))
    | 3 => keep (bits w 11 6 == 0 && bits w 28 4 == 0) (.cctlClean (fld w 25 3) (fld w 18 7) (fld w 17 1))
    | 4 => keep (bits w 11 6 == 0 && bits w 28 4 == 0) (.cctlInv (fld w 25 3) (fld w 18 7) (fld w 17 1))
    | 5 => keep (bits w 11 6 == 0 && bits w 28 4 == 0) (.cctlClinv (fld w 25 3) (fld w 18 7) (fld w 17 1))
    | _ => none
  | 0x30 => keep (bits w 7 7 == 0 && bits w 17 8 == 0 && bits w 31 1 == 0) (.fence (fld w 28 3) (fld w 25 3) (fld w 14 3))
  | 0x31 =>
    match bits w 31 1 with
    | 0 => some (.waita (fld w 23 8) (fld w 15 8) (fld w 7 8))
    | _ => none
  | 0x32 => some (.lds (fld w 25 7) (fld w 24 1) (fld w 17 7) (fld w 14 3) (fld w 7 7))
  | 0x33 => some (.sts (fld w 25 7) (fld w 24 1) (fld w 17 7) (fld w 14 3) (fld w 7 7))
  | 0x34 => some (.ldsTake (fld w 25 7) (fld w 24 1) (fld w 17 7) (fld w 14 3) (fld w 7 7))
  | 0x35 =>
    match bits w 14 3 with
    | 0 => keep (bits w 7 7 == 0) (.spfill (fld w 25 7) (fld w 24 1) (fld w 17 7))
    | 1 => keep (bits w 7 7 == 0) (.spclear (fld w 25 7) (fld w 24 1) (fld w 17 7))
    | _ => none
  | 0x36 => some (.subscr (fld w 24 8) (fld w 17 7) (fld w 15 2) (fld w 14 1) (fld w 7 7))
  | _ => none

/-- Majors 0x37 to 0x3F: matrix, statistics, copy and system instructions. -/
def decodeSystem (w : Nat) : Option Instr :=
  match bits w 1 6 with
  | 0x37 =>
    match bits w 29 3 with
    | 0 => keep (bits w 9 5 == 0) (.mxloop (fld w 22 7) (fld w 14 8) (fld w 7 2))
    | 1 => keep (bits w 9 20 == 0) (.mxzero (fld w 7 2))
    | 2 => keep (bits w 9 5 == 0) (.mxrd (fld w 22 7) (fld w 14 8) (fld w 7 2))
    | 3 => keep (bits w 9 5 == 0) (.mxepi (fld w 22 7) (fld w 14 8) (fld w 7 2))
    | 4 => keep (bits w 9 5 == 0 && bits w 22 7 == 0) (.mxcfg (fld w 14 8) (fld w 7 2))
    | 5 => keep (bits w 7 22 == 0) (.opfence)
    | _ => none
  | 0x38 =>
    match bits w 29 3 with
    | 0 => keep (bits w 14 1 == 0 && bits w 22 7 == 0) (.stinit (fld w 15 7) (fld w 7 7))
    | 1 => keep (bits w 14 1 == 0 && bits w 22 7 == 0) (.stacc (fld w 15 7) (fld w 7 7))
    | 2 => keep (bits w 14 1 == 0) (.stwacc (fld w 22 7) (fld w 15 7) (fld w 7 7))
    | 3 => keep (bits w 14 1 == 0) (.stmerge (fld w 22 7) (fld w 15 7) (fld w 7 7))
    | 4 => keep (bits w 14 1 == 0 && bits w 22 7 == 0) (.stxl (fld w 15 7) (fld w 7 7))
    | 5 => keep (bits w 14 1 == 0 && bits w 22 7 == 0) (.stdrainMean (fld w 15 7) (fld w 7 7))
    | 6 => keep (bits w 14 1 == 0 && bits w 22 7 == 0) (.stdrainPvar (fld w 15 7) (fld w 7 7))
    | _ => keep (bits w 14 1 == 0 && bits w 22 7 == 0) (.stdrainSvar (fld w 15 7) (fld w 7 7))
  | 0x39 =>
    match bits w 26 1 with
    | 0 => keep (bits w 27 5 == 0) (.stdrainRdev (fld w 18 8) (fld w 14 4) (fld w 7 7))
    | _ => keep (bits w 27 5 == 0) (.stdrainNorm (fld w 18 8) (fld w 14 4) (fld w 7 7))
  | 0x3A =>
    match bits w 14 3 with
    | 0 => some (.stld (fld w 25 7) (fld w 18 7) (fld w 17 1) (fld w 7 7))
    | 1 => some (.stst (fld w 25 7) (fld w 18 7) (fld w 17 1) (fld w 7 7))
    | _ => none
  | 0x3B =>
    match bits w 31 1 with
    | 0 => some (.tcopyIn (fld w 23 8) (fld w 15 8) (fld w 7 8))
    | _ => some (.tcopyOut (fld w 23 8) (fld w 15 8) (fld w 7 8))
  | 0x3C =>
    match bits w 29 3 with
    | 0 => keep (bits w 15 8 == 0) (.bclose (fld w 23 6) (fld w 7 8))
    | 1 => keep (bits w 7 8 == 0) (.bwait (fld w 23 6) (fld w 15 8))
    | 2 => keep (bits w 7 8 == 0 && bits w 23 6 == 0) (.unsub (fld w 15 8))
    | 3 => keep (bits w 23 6 == 0) (.subst (fld w 15 8) (fld w 7 8))
    | 4 => keep (bits w 7 8 == 0 && bits w 23 6 == 0) (.evset (fld w 15 8))
    | 5 => keep (bits w 7 8 == 0 && bits w 23 6 == 0) (.evclr (fld w 15 8))
    | 6 => keep (bits w 23 6 == 0) (.launch (fld w 15 8) (fld w 7 8))
    | _ => keep (bits w 26 3 == 0) (.sendam (fld w 23 3) (fld w 15 8) (fld w 7 8))
  | 0x3D =>
    match bits w 29 3 with
    | 0 => keep (bits w 7 16 == 0) (.trap (fld w 23 6))
    | 1 => keep (bits w 7 16 == 0) (.bkpt (fld w 23 6))
    | 2 => keep (bits w 7 8 == 0 && bits w 23 6 == 0) (.eret (fld w 15 8))
    | 3 => keep (bits w 7 8 == 0 && bits w 25 4 == 0) (.tlbsd (fld w 23 2) (fld w 15 8))
    | 4 => keep (bits w 7 22 == 0) (.halt)
    | 5 => keep (bits w 7 8 == 0 && bits w 25 4 == 0) (.wrpeer (fld w 23 2) (fld w 15 8))
    | 6 => keep (bits w 27 2 == 0) (.rdsys (fld w 15 12) (fld w 7 8))
    | _ => keep (bits w 27 2 == 0) (.wrsys (fld w 15 12) (fld w 7 8))
  | _ => none

/-- A 32-bit instruction by its major opcode (02 R58, R72). -/
def decodeWord (w : Nat) : Option Instr :=
  if bits w 1 6 < 0x1C then decodeLane w
  else if bits w 1 6 < 0x27 then decodeScalar w
  else if bits w 1 6 < 0x37 then decodeMemory w
  else decodeSystem w

/-- Decode the instruction at the head of a byte string, with the bytes after it (02 R55). -/
def decode : List Byte → Except Reject (Instr × List Byte)
  | b0 :: b1 :: r =>
    if b0.toNat % 2 = 0 then
      match decodeHalf (ofBytes [b0, b1]) with
      | some i => .ok (i, r)
      | none => .error (.unassigned (BitVec.ofNat 32 (ofBytes [b0, b1])))
    else
      match r with
      | b2 :: b3 :: r' =>
        match decodeWord (ofBytes [b0, b1, b2, b3]) with
        | some i => .ok (i, r')
        | none => .error (.unassigned (BitVec.ofNat 32 (ofBytes [b0, b1, b2, b3])))
      | _ => .error .truncated
  | _ => .error .truncated

/-- The instruction whose bits are `w`, numbered as spec/opcode_table.json numbers them. -/
def decodeTableWord (nbits w : Nat) : Option Instr :=
  if nbits = 0 then none
  else match decode (toBytes 4 (w % 2 ^ nbits)) with
    | .ok (i, _) => some i
    | .error _ => none

/-- Fixed bits with fields placed at their lowest bits. -/
def place (m : Nat) : List (Nat × Nat) → Nat
  | [] => m
  | (x, lo) :: r => place (m + x * 2 ^ lo) r

/-- The bits of an encoded instruction (02 Tables 2-1, 2-3, 2-10); none for an event, which has no encoding. -/
def encodeBits : Instr → Option Nat
  | .iadd b a w d => some (place 0x1 [(b.toNat, 22), (a.toNat, 15), (w.toNat, 14), (d.toNat, 7)])
  | .isub b a w d => some (place 0x20000001 [(b.toNat, 22), (a.toNat, 15), (w.toNat, 14), (d.toNat, 7)])
  | .imul b a w d => some (place 0x40000001 [(b.toNat, 22), (a.toNat, 15), (w.toNat, 14), (d.toNat, 7)])
  | .imad b a w d => some (place 0x60000001 [(b.toNat, 22), (a.toNat, 15), (w.toNat, 14), (d.toNat, 7)])
  | .imulhS32 b a w d => some (place 0x80000001 [(b.toNat, 22), (a.toNat, 15), (w.toNat, 14), (d.toNat, 7)])
  | .imulhW32 b a w d => some (place 0xA0000001 [(b.toNat, 22), (a.toNat, 15), (w.toNat, 14), (d.toNat, 7)])
  | .iminS32 b a w d => some (place 0x3 [(b.toNat, 22), (a.toNat, 15), (w.toNat, 14), (d.toNat, 7)])
  | .iminW32 b a w d => some (place 0x20000003 [(b.toNat, 22), (a.toNat, 15), (w.toNat, 14), (d.toNat, 7)])
  | .imaxS32 b a w d => some (place 0x40000003 [(b.toNat, 22), (a.toNat, 15), (w.toNat, 14), (d.toNat, 7)])
  | .imaxW32 b a w d => some (place 0x60000003 [(b.toNat, 22), (a.toNat, 15), (w.toNat, 14), (d.toNat, 7)])
  | .iabs a w d => some (place 0x80000003 [(a.toNat, 15), (w.toNat, 14), (d.toNat, 7)])
  | .ineg a w d => some (place 0xA0000003 [(a.toNat, 15), (w.toNat, 14), (d.toNat, 7)])
  | .popc a w d => some (place 0xC0000003 [(a.toNat, 15), (w.toNat, 14), (d.toNat, 7)])
  | .clz a w d => some (place 0xE0000003 [(a.toNat, 15), (w.toNat, 14), (d.toNat, 7)])
  | .and b a w d => some (place 0x5 [(b.toNat, 22), (a.toNat, 15), (w.toNat, 14), (d.toNat, 7)])
  | .or b a w d => some (place 0x20000005 [(b.toNat, 22), (a.toNat, 15), (w.toNat, 14), (d.toNat, 7)])
  | .xor b a w d => some (place 0x40000005 [(b.toNat, 22), (a.toNat, 15), (w.toNat, 14), (d.toNat, 7)])
  | .not a w d => some (place 0x60000005 [(a.toNat, 15), (w.toNat, 14), (d.toNat, 7)])
  | .shl b a w d => some (place 0x80000005 [(b.toNat, 22), (a.toNat, 15), (w.toNat, 14), (d.toNat, 7)])
  | .shr b a w d => some (place 0xA0000005 [(b.toNat, 22), (a.toNat, 15), (w.toNat, 14), (d.toNat, 7)])
  | .sar b a w d => some (place 0xC0000005 [(b.toNat, 22), (a.toNat, 15), (w.toNat, 14), (d.toNat, 7)])
  | .brev a w d => some (place 0xE0000005 [(a.toNat, 15), (w.toNat, 14), (d.toNat, 7)])
  | .bfeW32 b a w d => some (place 0x7 [(b.toNat, 22), (a.toNat, 15), (w.toNat, 14), (d.toNat, 7)])
  | .bfeS32 b a w d => some (place 0x20000007 [(b.toNat, 22), (a.toNat, 15), (w.toNat, 14), (d.toNat, 7)])
  | .bfi b a w d => some (place 0x40000007 [(b.toNat, 22), (a.toNat, 15), (w.toNat, 14), (d.toNat, 7)])
  | .mov a w d => some (place 0x60000007 [(a.toNat, 15), (w.toNat, 14), (d.toNat, 7)])
  | .sel p b a w d => some (place 0x9 [(p.toNat, 29), (b.toNat, 22), (a.toNat, 15), (w.toNat, 14), (d.toNat, 7)])
  | .iaddc p b a d => some (place 0xB [(p.toNat, 29), (b.toNat, 22), (a.toNat, 15), (d.toNat, 7)])
  | .lea64 k b a d => some (place 0xD [(k.toNat, 29), (b.toNat, 22), (a.toNat, 15), (d.toNat, 7)])
  | .icmp c b a t p => some (place 0xF [(c.toNat, 29), (b.toNat, 22), (a.toNat, 15), (t.toNat, 12), (p.toNat, 7)])
  | .cvt t s a w d => some (place 0x11 [(t.toNat, 28), (s.toNat, 24), (a.toNat, 15), (w.toNat, 14), (d.toNat, 7)])
  | .movi i w d => some (place 0x13 [(i.toNat, 16), (w.toNat, 14), (d.toNat, 7)])
  | .movh i w d => some (place 0x8013 [(i.toNat, 16), (w.toNat, 14), (d.toNat, 7)])
  | .iaddImm i w d => some (place 0x15 [(i.toNat, 16), (w.toNat, 14), (d.toNat, 7)])
  | .andImm i w d => some (place 0x8015 [(i.toNat, 16), (w.toNat, 14), (d.toNat, 7)])
  | .shflIdx b a d => some (place 0x17 [(b.toNat, 22), (a.toNat, 15), (d.toNat, 7)])
  | .shflUp b a d => some (place 0x20000017 [(b.toNat, 22), (a.toNat, 15), (d.toNat, 7)])
  | .shflDn b a d => some (place 0x40000017 [(b.toNat, 22), (a.toNat, 15), (d.toNat, 7)])
  | .shflXor b a d => some (place 0x60000017 [(b.toNat, 22), (a.toNat, 15), (d.toNat, 7)])
  | .redl o a d => some (place 0x19 [(o.toNat, 22), (a.toNat, 15), (d.toNat, 7)])
  | .scanlInc o a d => some (place 0x20000019 [(o.toNat, 22), (a.toNat, 15), (d.toNat, 7)])
  | .scanlExc o a d => some (place 0x40000019 [(o.toNat, 22), (a.toNat, 15), (d.toNat, 7)])
  | .bcast s d => some (place 0x1B [(s.toNat, 14), (d.toNat, 7)])
  | .rdlane i s a => some (place 0x2000001B [(i.toNat, 22), (s.toNat, 14), (a.toNat, 7)])
  | .voteBallot s n => some (place 0x4000001B [(s.toNat, 14), (n.toNat, 7)])
  | .actmask s => some (place 0x6000001B [(s.toNat, 14)])
  | .matchLanes a d => some (place 0x8000001B [(a.toNat, 22), (d.toNat, 7)])
  | .pand y b x a d => some (place 0x1D [(y.toNat, 26), (b.toNat, 21), (x.toNat, 20), (a.toNat, 15), (d.toNat, 7)])
  | .por y b x a d => some (place 0x2000001D [(y.toNat, 26), (b.toNat, 21), (x.toNat, 20), (a.toNat, 15), (d.toNat, 7)])
  | .pxor y b x a d => some (place 0x4000001D [(y.toNat, 26), (b.toNat, 21), (x.toNat, 20), (a.toNat, 15), (d.toNat, 7)])
  | .pnot x a d => some (place 0x6000001D [(x.toNat, 20), (a.toNat, 15), (d.toNat, 7)])
  | .pmov x a d => some (place 0x8000001D [(x.toNat, 20), (a.toNat, 15), (d.toNat, 7)])
  | .voteAll x a d => some (place 0xA000001D [(x.toNat, 20), (a.toNat, 15), (d.toNat, 7)])
  | .voteAny x a d => some (place 0xC000001D [(x.toNat, 20), (a.toNat, 15), (d.toNat, 7)])
  | .voteUni x a d => some (place 0xE000001D [(x.toNat, 20), (a.toNat, 15), (d.toNat, 7)])
  | .grd c n p => some (place 0x1F [(c.toNat, 13), (n.toNat, 12), (p.toNat, 7)])
  | .fadd r b a w d => some (place 0x21 [(r.toNat, 29), (b.toNat, 22), (a.toNat, 15), (w.toNat, 14), (d.toNat, 7)])
  | .fsub r b a w d => some (place 0x23 [(r.toNat, 29), (b.toNat, 22), (a.toNat, 15), (w.toNat, 14), (d.toNat, 7)])
  | .fmul r b a w d => some (place 0x25 [(r.toNat, 29), (b.toNat, 22), (a.toNat, 15), (w.toNat, 14), (d.toNat, 7)])
  | .ffma r b a w d => some (place 0x27 [(r.toNat, 29), (b.toNat, 22), (a.toNat, 15), (w.toNat, 14), (d.toNat, 7)])
  | .fmin b a w d => some (place 0x29 [(b.toNat, 22), (a.toNat, 15), (w.toNat, 14), (d.toNat, 7)])
  | .fmax b a w d => some (place 0x20000029 [(b.toNat, 22), (a.toNat, 15), (w.toNat, 14), (d.toNat, 7)])
  | .frcp a w d => some (place 0x2B [(a.toNat, 15), (w.toNat, 14), (d.toNat, 7)])
  | .frsq a w d => some (place 0x2000002B [(a.toNat, 15), (w.toNat, 14), (d.toNat, 7)])
  | .fsqrt a w d => some (place 0x4000002B [(a.toNat, 15), (w.toNat, 14), (d.toNat, 7)])
  | .fexp2 a w d => some (place 0x6000002B [(a.toNat, 15), (w.toNat, 14), (d.toNat, 7)])
  | .flog2 a w d => some (place 0x8000002B [(a.toNat, 15), (w.toNat, 14), (d.toNat, 7)])
  | .fsin a w d => some (place 0xA000002B [(a.toNat, 15), (w.toNat, 14), (d.toNat, 7)])
  | .fcos a w d => some (place 0xC000002B [(a.toNat, 15), (w.toNat, 14), (d.toNat, 7)])
  | .fcmp c b a t p => some (place 0x2D [(c.toNat, 29), (b.toNat, 22), (a.toNat, 15), (t.toNat, 12), (p.toNat, 7)])
  | .fcvt t s r a w d => some (place 0x2F [(t.toNat, 28), (s.toNat, 24), (r.toNat, 22), (a.toNat, 15), (w.toNat, 14), (d.toNat, 7)])
  | .hadd2 b a w d => some (place 0x31 [(b.toNat, 22), (a.toNat, 15), (w.toNat, 14), (d.toNat, 7)])
  | .hmul2 b a w d => some (place 0x20000031 [(b.toNat, 22), (a.toNat, 15), (w.toNat, 14), (d.toNat, 7)])
  | .hfma2 b a w d => some (place 0x40000031 [(b.toNat, 22), (a.toNat, 15), (w.toNat, 14), (d.toNat, 7)])
  | .faddImm i w d => some (place 0x33 [(i.toNat, 16), (w.toNat, 14), (d.toNat, 7)])
  | .fmulImm i w d => some (place 0x8033 [(i.toNat, 16), (w.toNat, 14), (d.toNat, 7)])
  | .moviF32 i w d => some (place 0x35 [(i.toNat, 16), (w.toNat, 14), (d.toNat, 7)])
  | .moviF16 i w d => some (place 0x8035 [(i.toNat, 16), (w.toNat, 14), (d.toNat, 7)])
  | .qcvtQ f a d => some (place 0x37 [(f.toNat, 22), (a.toNat, 15), (d.toNat, 7)])
  | .qcvtF32 f a d => some (place 0x20000037 [(f.toNat, 22), (a.toNat, 15), (d.toNat, 7)])
  | .qpack f a d => some (place 0x40000037 [(f.toNat, 22), (a.toNat, 15), (d.toNat, 7)])
  | .qunpk f a d => some (place 0x60000037 [(f.toNat, 22), (a.toNat, 15), (d.toNat, 7)])
  | .tunpk a d => some (place 0x80000037 [(a.toNat, 15), (d.toNat, 7)])
  | .sadd b a d => some (place 0x39 [(b.toNat, 23), (a.toNat, 15), (d.toNat, 7)])
  | .ssub b a d => some (place 0x80000039 [(b.toNat, 23), (a.toNat, 15), (d.toNat, 7)])
  | .smul b a d => some (place 0x3B [(b.toNat, 23), (a.toNat, 15), (d.toNat, 7)])
  | .smov a d => some (place 0x8000003B [(a.toNat, 15), (d.toNat, 7)])
  | .sand b a d => some (place 0x3D [(b.toNat, 23), (a.toNat, 15), (d.toNat, 7)])
  | .sor b a d => some (place 0x8000003D [(b.toNat, 23), (a.toNat, 15), (d.toNat, 7)])
  | .sxor b a d => some (place 0x3F [(b.toNat, 23), (a.toNat, 15), (d.toNat, 7)])
  | .slea64 b a d => some (place 0x8000003F [(b.toNat, 23), (a.toNat, 15), (d.toNat, 7)])
  | .sshl b a d => some (place 0x41 [(b.toNat, 23), (a.toNat, 15), (d.toNat, 7)])
  | .sshr b a d => some (place 0x80000041 [(b.toNat, 23), (a.toNat, 15), (d.toNat, 7)])
  | .scmp t b a c p => some (place 0x43 [(t.toNat, 31), (b.toNat, 23), (a.toNat, 15), (c.toNat, 12), (p.toNat, 7)])
  | .smovi i d => some (place 0x45 [(i.toNat, 16), (d.toNat, 7)])
  | .smoviH i d => some (place 0x8045 [(i.toNat, 16), (d.toNat, 7)])
  | .sld o a d => some (place 0x47 [(o.toNat, 23), (a.toNat, 15), (d.toNat, 7)])
  | .bra o p n u => some (place 0x49 [(o.toNat, 14), (p.toNat, 9), (n.toNat, 8), (u.toNat, 7)])
  | .jmp o => some (place 0x4B [(o.toNat, 14)])
  | .call o l => some (place 0xCB [(o.toNat, 14), (l.toNat, 9)])
  | .joinpt o => some (place 0x14B [(o.toNat, 14)])
  | .brx a => some (place 0x4D [(a.toNat, 15)])
  | .ret a => some (place 0x2000004D [(a.toNat, 15)])
  | .exit => some (place 0x4000004D [])
  | .yield => some (place 0x6000004D [])
  | .nop => some (place 0x8000004D [])
  | .barArv n => some (place 0xA000004D [(n.toNat, 23)])
  | .barWait n => some (place 0xC000004D [(n.toNat, 23)])
  | .barSync n => some (place 0xE000004D [(n.toNat, 23)])
  | .ldReg x b k z d => some (place 0x4F [(x.toNat, 25), (b.toNat, 18), (k.toNat, 17), (z.toNat, 14), (d.toNat, 7)])
  | .ldImm x b k z d => some (place 0x51 [(x.toNat, 25), (b.toNat, 18), (k.toNat, 17), (z.toNat, 14), (d.toNat, 7)])
  | .stReg x b k z d => some (place 0x53 [(x.toNat, 25), (b.toNat, 18), (k.toNat, 17), (z.toNat, 14), (d.toNat, 7)])
  | .stImm x b k z d => some (place 0x55 [(x.toNat, 25), (b.toNat, 18), (k.toNat, 17), (z.toNat, 14), (d.toNat, 7)])
  | .ldStrong o s b k z d => some (place 0x57 [(o.toNat, 28), (s.toNat, 25), (b.toNat, 18), (k.toNat, 17), (z.toNat, 14), (d.toNat, 7)])
  | .stStrong o s b k z d => some (place 0x80000057 [(o.toNat, 28), (s.toNat, 25), (b.toNat, 18), (k.toNat, 17), (z.toNat, 14), (d.toNat, 7)])
  | .atom e o s b k p d => some (place 0x59 [(e.toNat, 31), (o.toNat, 29), (s.toNat, 26), (b.toNat, 19), (k.toNat, 18), (p.toNat, 14), (d.toNat, 7)])
  | .updScalarBase i b p d => some (place 0x5B [(i.toNat, 25), (b.toNat, 18), (p.toNat, 14), (d.toNat, 7)])
  | .updVectorBase b p d => some (place 0x5D [(b.toNat, 18), (p.toNat, 14), (d.toNat, 7)])
  | .prefL1 b k => some (place 0x5F [(b.toNat, 18), (k.toNat, 17)])
  | .prefL2 b k => some (place 0xDF [(b.toNat, 18), (k.toNat, 17)])
  | .collapse b k => some (place 0x15F [(b.toNat, 18), (k.toNat, 17)])
  | .cctlClean s b k => some (place 0x1DF [(s.toNat, 25), (b.toNat, 18), (k.toNat, 17)])
  | .cctlInv s b k => some (place 0x25F [(s.toNat, 25), (b.toNat, 18), (k.toNat, 17)])
  | .cctlClinv s b k => some (place 0x2DF [(s.toNat, 25), (b.toNat, 18), (k.toNat, 17)])
  | .fence o s k => some (place 0x61 [(o.toNat, 28), (s.toNat, 25), (k.toNat, 14)])
  | .waita b a d => some (place 0x63 [(b.toNat, 23), (a.toNat, 15), (d.toNat, 7)])
  | .lds x w i z d => some (place 0x65 [(x.toNat, 25), (w.toNat, 24), (i.toNat, 17), (z.toNat, 14), (d.toNat, 7)])
  | .sts x w i z d => some (place 0x67 [(x.toNat, 25), (w.toNat, 24), (i.toNat, 17), (z.toNat, 14), (d.toNat, 7)])
  | .ldsTake x w i z d => some (place 0x69 [(x.toNat, 25), (w.toNat, 24), (i.toNat, 17), (z.toNat, 14), (d.toNat, 7)])
  | .spfill x w i => some (place 0x6B [(x.toNat, 25), (w.toNat, 24), (i.toNat, 17)])
  | .spclear x w i => some (place 0x406B [(x.toNat, 25), (w.toNat, 24), (i.toNat, 17)])
  | .subscr l b z m d => some (place 0x6D [(l.toNat, 24), (b.toNat, 17), (z.toNat, 15), (m.toNat, 14), (d.toNat, 7)])
  | .mxloop f s t => some (place 0x6F [(f.toNat, 22), (s.toNat, 14), (t.toNat, 7)])
  | .mxzero t => some (place 0x2000006F [(t.toNat, 7)])
  | .mxrd f s t => some (place 0x4000006F [(f.toNat, 22), (s.toNat, 14), (t.toNat, 7)])
  | .mxepi f s t => some (place 0x6000006F [(f.toNat, 22), (s.toNat, 14), (t.toNat, 7)])
  | .mxcfg s t => some (place 0x8000006F [(s.toNat, 14), (t.toNat, 7)])
  | .opfence => some (place 0xA000006F [])
  | .stinit a d => some (place 0x71 [(a.toNat, 15), (d.toNat, 7)])
  | .stacc a d => some (place 0x20000071 [(a.toNat, 15), (d.toNat, 7)])
  | .stwacc b a d => some (place 0x40000071 [(b.toNat, 22), (a.toNat, 15), (d.toNat, 7)])
  | .stmerge b a d => some (place 0x60000071 [(b.toNat, 22), (a.toNat, 15), (d.toNat, 7)])
  | .stxl a d => some (place 0x80000071 [(a.toNat, 15), (d.toNat, 7)])
  | .stdrainMean a d => some (place 0xA0000071 [(a.toNat, 15), (d.toNat, 7)])
  | .stdrainPvar a d => some (place 0xC0000071 [(a.toNat, 15), (d.toNat, 7)])
  | .stdrainSvar a d => some (place 0xE0000071 [(a.toNat, 15), (d.toNat, 7)])
  | .stdrainRdev e z d => some (place 0x73 [(e.toNat, 18), (z.toNat, 14), (d.toNat, 7)])
  | .stdrainNorm e z d => some (place 0x4000073 [(e.toNat, 18), (z.toNat, 14), (d.toNat, 7)])
  | .stld x b k d => some (place 0x75 [(x.toNat, 25), (b.toNat, 18), (k.toNat, 17), (d.toNat, 7)])
  | .stst x b k d => some (place 0x4075 [(x.toNat, 25), (b.toNat, 18), (k.toNat, 17), (d.toNat, 7)])
  | .tcopyIn x r l => some (place 0x77 [(x.toNat, 23), (r.toNat, 15), (l.toNat, 7)])
  | .tcopyOut x r l => some (place 0x80000077 [(x.toNat, 23), (r.toNat, 15), (l.toNat, 7)])
  | .bclose c d => some (place 0x79 [(c.toNat, 23), (d.toNat, 7)])
  | .bwait c a => some (place 0x20000079 [(c.toNat, 23), (a.toNat, 15)])
  | .unsub a => some (place 0x40000079 [(a.toNat, 15)])
  | .subst a d => some (place 0x60000079 [(a.toNat, 15), (d.toNat, 7)])
  | .evset a => some (place 0x80000079 [(a.toNat, 15)])
  | .evclr a => some (place 0xA0000079 [(a.toNat, 15)])
  | .launch a d => some (place 0xC0000079 [(a.toNat, 15), (d.toNat, 7)])
  | .sendam n a d => some (place 0xE0000079 [(n.toNat, 23), (a.toNat, 15), (d.toNat, 7)])
  | .trap n => some (place 0x7B [(n.toNat, 23)])
  | .bkpt n => some (place 0x2000007B [(n.toNat, 23)])
  | .eret a => some (place 0x4000007B [(a.toNat, 15)])
  | .tlbsd z a => some (place 0x6000007B [(z.toNat, 23), (a.toNat, 15)])
  | .halt => some (place 0x8000007B [])
  | .wrpeer n a => some (place 0xA000007B [(n.toNat, 23), (a.toNat, 15)])
  | .rdsys r d => some (place 0xC000007B [(r.toNat, 15), (d.toNat, 7)])
  | .wrsys r d => some (place 0xE000007B [(r.toNat, 15), (d.toNat, 7)])
  | .mov16 s d => some (place 0x0 [(s.toNat, 11), (d.toNat, 5)])
  | .iadd16 s d => some (place 0x2 [(s.toNat, 11), (d.toNat, 5)])
  | .isub16 s d => some (place 0x4 [(s.toNat, 11), (d.toNat, 5)])
  | .and16 s d => some (place 0x6 [(s.toNat, 11), (d.toNat, 5)])
  | .or16 s d => some (place 0x8 [(s.toNat, 11), (d.toNat, 5)])
  | .xor16 s d => some (place 0xA [(s.toNat, 11), (d.toNat, 5)])
  | .shl16 s d => some (place 0xC [(s.toNat, 11), (d.toNat, 5)])
  | .shr16 s d => some (place 0xE [(s.toNat, 11), (d.toNat, 5)])
  | .sar16 s d => some (place 0x10 [(s.toNat, 11), (d.toNat, 5)])
  | .imin16 s d => some (place 0x12 [(s.toNat, 11), (d.toNat, 5)])
  | .imax16 s d => some (place 0x14 [(s.toNat, 11), (d.toNat, 5)])
  | .fadd16 s d => some (place 0x16 [(s.toNat, 11), (d.toNat, 5)])
  | .fmul16 s d => some (place 0x18 [(s.toNat, 11), (d.toNat, 5)])
  | .fmin16 s d => some (place 0x1A [(s.toNat, 11), (d.toNat, 5)])
  | .fmax16 s d => some (place 0x1C [(s.toNat, 11), (d.toNat, 5)])
  | .ffma16 s d => some (place 0x1E [(s.toNat, 11), (d.toNat, 5)])
  | _ => none

/-- Length of an encoded instruction in bytes (02 R55); 0 for an event. -/
def Instr.size (i : Instr) : Nat :=
  match encodeBits i with
  | some w => if w % 2 = 0 then 2 else 4
  | none => 0

/-- The bytes of an instruction, lowest address first. -/
def encode (i : Instr) : List Byte :=
  match encodeBits i with
  | some w => toBytes (if w % 2 = 0 then 2 else 4) w
  | none => []

end Sys2Proof
end

