-- ==== Sys2Proof/Config.lean ====
section
/-! DEFINITION. What one implementation fixes and the spec leaves open. Every value the spec calls undefined, and every
function it takes from outside itself, is an opaque constant without a body: nothing in Lean can evaluate it. -/

namespace Sys2Proof

/-- An undefined value (00 R8); the argument is the machine's free-value counter (log 7). -/
opaque Config.freeWord : Nat → Word

/-- An undefined byte (00 R8), as `freeWord` (log 7). -/
opaque Config.freeByte : Nat → Byte

/-- An undefined value that a register read meets in a core cycle (06 Table 6-3; log 7): the cycle, and which register and
lane. -/
opaque Config.staleWord : Nat → Nat → Word

/-- How many core cycles pass in a step beyond the one every step takes (00 R9; log 8). -/
opaque Config.delay : Nat → Nat

/-- How many fabric cycles pass in a step: the fabric has its own clock (00 R9; log 8). -/
opaque Config.fabricDelay : Nat → Nat

/-- The implementation identifier DEVID and IMPL (12 Table 12-2, 10 R320; log 4). -/
opaque Config.impl : Word

/-- The private first 256 bytes and engine area of a save image (10 Table 10-9; log 30). -/
opaque Config.privateByte : Nat → Byte

/-- The hash of a line address that spreads packets over links (11 R338; log 4). -/
opaque Config.linkHash : Nat → Nat

/-- The 54 payload bytes of a flit: how packets fill flits is not in the spec (11 Table 11-4; log 7). -/
opaque Config.freePayload : Nat → BitVec 432

/-- SHA3-256 (12 R362, R364): an external standard the spec names and does not give (log 41). -/
opaque Config.sha3_256 : List Byte → BitVec 256

/-- ML-DSA-44 verification of a signature over a digest under one of the four public keys (12 R362; log 41). -/
opaque Config.mldsaVerify : (keySlot : Nat) → (digest : BitVec 256) → (sig : List Byte) → Bool

/-- ML-DSA-44 signature of a digest under the device key (12 R364), 2,420 bytes (log 41). -/
opaque Config.mldsaSign : (digest : BitVec 256) → Nat → Byte

/-- The public half of the device key (12 R367), 1,312 bytes (log 41). -/
opaque Config.devicePub : Nat → Byte

/-- The security version of the image the module was shipped with (12 R362; log 5). -/
opaque Config.shippedSvn : Nat

/-- The key slot of the image the module was shipped with, modulo 4 (12 R362; log 5). -/
opaque Config.shippedSlot : Nat

/-- The SHA3-256 digest of the image the module was shipped with (12 R362; log 5). -/
opaque Config.shippedDigest : BitVec 256

/-- The fused device identity IDENT (12 Table 12-17), 32 bytes (log 5). -/
opaque Config.ident : Nat → Byte

/-- The carrier's strap of the module budget: 600 W and this many times 100 W (12 R360, Table 12-6; log 42). -/
opaque Config.carrierStrap : Nat

end Sys2Proof
end

