-- ==== Sys2Proof/Machine/State.lean ====
section
/-! DEFINITION. The state of the machine as plain data: one Penrax 9 device, its groups, engines, caches, home slices,
distributor, fabric ends, host ports, power and firmware, and what its outside agents have sent it. -/

namespace Sys2Proof.Machine

/-- Why the machine stops without a next state. -/
inductive Fault where
  /-- An instruction's meaning was called with no group at the issue point: never raised by `step`, which selects the
  group first. Safe. -/
  | noIssuingGroup
deriving DecidableEq, Repr

/-- Why an instruction has no meaning here. -/
inductive Refusal where
  /-- An instruction without a meaning yet, by its mnemonic. Safe. -/
  | notModelled (mnemonic : String)
deriving DecidableEq, Repr

/-- The update-only operators, in the order of their codes (05 Table 5-6). -/
inductive UOp where
  | addS32 | addW32 | addF32 | minS32 | minW32 | minF32 | maxS32 | maxW32 | maxF32 | orB32 | bfacc | stat
deriving DecidableEq, Repr

/-- The coherence state of a sector that a cache holds; a sector in I is not listed (09 R273). -/
inductive SecState where
  | m | e | s
  | u (op : UOp)
deriving DecidableEq, Repr

/-- Privilege level (07 R238). -/
inductive Priv where
  | user | supervisor
deriving DecidableEq, Repr

/-- Program-counter slot A or B of a group (01 R32). -/
inductive PSlot where
  | a | b
deriving DecidableEq, Repr

/-- A WAITA whose path is parked (05 R172). -/
structure Watch where
  sd : Nat
  /-- virtual and tagged address of the word -/
  va : Nat
  addr : Nat
  away : Word
  /-- the timeout in cycles, counted from issue; none when sd held 0 -/
  timeout : Option Nat
  issued : Nat
  /-- when the word was last read; among the checks that are due the one read longest ago goes first (01 R52; log 6) -/
  checked : Nat
deriving DecidableEq, Repr

/-- What an instruction that holds its path took at its issue, so that nothing later changes it (01 R36). -/
inductive HeldOp where
  /-- nothing beyond what its own state keeps: TLBSD -/
  | plain
  /-- FENCE (05 R175) -/
  | fence
  /-- the arrival of BAR.ARV or BAR.SYNC, still to be made (07 R227) -/
  | arrive
  /-- EVSET and the events it sets (07 R231) -/
  | evset (set : BitVec 256)
  /-- SENDAM and its block (07 R235) -/
  | sendam (block : List Word)
  /-- BWAIT: its operand and the counter (06 R192) -/
  | bwait (n c : Word)
  /-- OPFENCE and the time of its issue (06 R195) -/
  | opfence (at_ : Nat)
  /-- LAUNCH with the packet it has read (07 R233) -/
  | launch (packet : BitVec 1024)
deriving DecidableEq, Repr

/-- What a path waits for before it can go on (01 R36, R43). -/
inductive Wait where
  | ready
  /-- an operand, a scalar answer or a store-queue entry, before issue -/
  | operand
  /-- the hold of an instruction it has issued (FENCE, OPFENCE, BWAIT, TLBSD and the holds R36 lists) -/
  | held (op : HeldOp)
  /-- parked in WAITA -/
  | parked (w : Watch)
  /-- BAR.WAIT or BAR.SYNC, its arrival made, on this barrier -/
  | barrier (n : Nat)
  /-- a scratchpad read of a segment that found one of its lines empty, when the stall began, whether the lines have become full
  since, so that it may read again, and whether it is an LDS.TAKE -/
  | emptyLine (seg : Nat) (lines : List Nat) (start : Nat) (woken take : Bool)
  /-- slot B of a wave split by LD, waiting for the data of its lanes (01 R39); by LDS it is in an empty-line wait -/
  | missData
deriving DecidableEq, Repr

/-- One live path of a group (01 R32), with its guard state (02 R71) and replay mask (05 R149). -/
structure Path where
  mask : Word
  pc : DWord
  /-- the join point, or none -/
  jp : Option DWord
  depth : BitVec 8
  /-- remaining guard count k -/
  gk : Nat
  /-- guard lanes G -/
  gg : Word
  replay : Option Word
  wait : Wait
deriving DecidableEq, Repr

/-- Progress of the latch chain whose next member must issue next (01 R22, R24). -/
structure Chain where
  slot : PSlot
  /-- position of the next instruction in the chain -/
  pos : Nat
  /-- number of members, 1..4 -/
  len : Nat
  /-- address of the leader -/
  lead : DWord
  /-- the members still to issue, fetched and checked before the leader issued -/
  rest : List Instr
deriving DecidableEq, Repr

/-- One lane of an outstanding load: its address, and its bytes once the load has performed. -/
structure LaneLoad where
  lane : Nat
  addr : Nat
  bytes : Option (List Byte)
deriving DecidableEq, Repr

/-- What an outstanding load writes when its data returns. -/
inductive LoadDst where
  /-- LD: first vector register and size code (02 Table 2-7) -/
  | vector (vd sz : Nat)
  /-- SLD: the scalar register -/
  | scalar (sd : Nat)
  /-- STLD: the view's first register -/
  | view (vd : Nat)
deriving DecidableEq, Repr

/-- A load whose registers have not been written yet (05 R152, 10 R307). -/
structure Load where
  /-- address of the instruction -/
  pc : DWord
  slot : PSlot
  dst : LoadDst
  lanes : List LaneLoad
deriving DecidableEq, Repr

/-- One lane of an atomic in the store queue: its comparand (CAS) and operand, and the slot the atomic issued from. -/
structure AtomLane where
  /-- address of the instruction -/
  pc : DWord
  slot : PSlot
  lane : Nat
  addr : Nat
  cmp : Nat
  val : Nat
deriving DecidableEq, Repr

/-- An entry of a group's store queue (01 R31, 05 R152, 08 R251). -/
inductive QEntry where
  /-- the bytes each lane stores, in ascending lane order, with the order and scope codes of 05 Table 5-6 -/
  | store (writes : List (Nat × List Byte)) (ord scope : Nat)
  /-- an atomic: operator code, 64-bit operands, destination register, order and scope -/
  | atom (op : Nat) (wide : Bool) (vd : Nat) (lanes : List AtomLane) (ord scope : Nat)
deriving DecidableEq, Repr

/-- The fields of an MXLOOP in the matrix queue (06 Table 6-5), with its progress. -/
structure LoopCtl where
  aaddr : Nat
  baddr : Nat
  ainc : Int
  binc : Int
  aperm : Nat
  bperm : Nat
  virt : Bool
  mode : Nat
  /-- K-steps left -/
  left : Nat
  /-- number of the next step -/
  step : Nat
  klast : Nat
  n : Nat
  m : Nat
  ascl : Nat
  bscl : Nat
  fa : Word
  fb : Word
deriving DecidableEq, Repr

/-- The fields of an MXEPI in the matrix queue (06 Table 6-7); `peer` is the register value read at issue. -/
structure EpiCtl where
  clear : Bool
  red : Nat
  peer : BitVec 128
  otype : Nat
  dest : Nat
  sca : Word
  scb : Word
  n : Nat
  m : Nat
  dlo : Nat
  dhi : Word
  stride : Nat
  seq : Word
  fmt : Word
deriving DecidableEq, Repr

/-- A queued matrix operation (06 R197). -/
inductive MatOp where
  | config (words : List Word)
  | zero
  | loop (c : LoopCtl)
  | read (vd row q cnt : Nat) (lanes : Word)
  | epilogue (c : EpiCtl)
deriving DecidableEq, Repr

/-- A position of a core's matrix queue: the group that took it, its batch position, its tile. -/
structure MatPos where
  pos : Nat
  uid : Nat
  team : Nat
  seg : Nat
  tile : Nat
  op : MatOp
  /-- tile elements, 128 row + column, that a loop computes from scratchpad bytes written meanwhile: they become undefined
  (06 Table 6-3) -/
  touched : List Nat
deriving DecidableEq, Repr

/-- A shape record as TCOPY captured it (06 Table 6-10). -/
structure Shape where
  base : Nat
  fmt : Word
  etype : Nat
  rank : Nat
  circ : Nat
  grid : Nat
  ext : List Nat
  str : List Int
  repl : BitVec 256
  red : Nat
deriving DecidableEq, Repr

/-- A tile copy in progress (06 R216 to R223). -/
structure CopyJob where
  pos : Nat
  uid : Nat
  team : Nat
  seg : Nat
  ctx : Nat
  out : Bool
  shape : Shape
  perm : Nat
  sbase : Nat
  istride : Nat
  mstride : Nat
  ostride : Nat
  org : List Int
  box : List Nat
  /-- scratchpad lines still to do (IN) -/
  lines : List Nat
  /-- the next element of the box to write (OUT) -/
  next : Nat
  /-- destination devices whose failed delivery has been reported (06 R224) -/
  failed : List Nat
  /-- scratchpad bytes it reads that were written after its issue: what it delivers for them is undefined (06 Table 6-3) -/
  touched : List Nat
deriving DecidableEq, Repr

/-- What a may-fault instruction does once its translation checks pass (10 R307). -/
inductive MemOp where
  | load (sz vd : Nat)
  | loadStrong (sz vd ord scope : Nat)
  | store (sz vd : Nat)
  | storeStrong (sz vd ord scope : Nat)
  | atom (op : Nat) (wide : Bool) (vd ord scope : Nat)
  | upd (op vd : Nat)
  | collapse
  | cctl (fn scope : Nat)
  | sld (sd : Nat)
  | waita (sd : Nat) (away timeout : Word)
  | subscr (sd line size : Nat) (strict : Bool)
  | stld (vd : Nat)
  | stst (vd : Nat)
  | tcopy (out : Bool) (sl sx : Nat)
  | launch (sd : Nat)
  | mxepi (tile : Nat) (c : EpiCtl)
deriving DecidableEq, Repr

/-- A may-fault instruction in Translation: its slot, address, and one address for each active lane. -/
structure Pending where
  slot : PSlot
  pc : DWord
  lanes : List (Nat × Nat)
  op : MemOp
  /-- when it issued -/
  issued : Nat
deriving DecidableEq, Repr

/-- A batch position a group has taken and that has not completed; `batch` is none while its batch is open (06 R190). -/
structure Position where
  pos : Nat
  cls : Nat
  batch : Option Word
deriving DecidableEq, Repr

/-- An MXRD between its issue and the BWAIT that covers it (06 Table 6-3): until then its registers hold undefined
values, and one that is written meanwhile stays undefined. -/
structure MatRead where
  pos : Nat
  batch : Option Word
  vd : Nat
  cnt : Nat
  lanes : Word
  /-- the tile elements, once the unit has read them: (register, lane) and value -/
  vals : Option (List ((Nat × Nat) × Word))
  /-- registers another instruction has written meanwhile, each with the lanes it wrote -/
  spoiled : List (Nat × Word)
deriving DecidableEq, Repr

/-- Whole-group conditions of Table 1-8 that are not derived from the waits of the slots. -/
inductive Status where
  | running | translation | trapped | done
deriving DecidableEq, Repr

/-- What holds a group Frozen (01 R46, 10 R319, R322). -/
structure Freeze where
  host : Bool
  halt : Bool
  step : Bool
  preempt : Bool
deriving DecidableEq, Repr

/-- A group: its registers, paths and what it has outstanding (01 Table 1-1). -/
structure Group where
  uid : Nat
  ctx : Nat
  team : Nat
  seg : Nat
  segGrp : Nat
  grpid : Nat
  producer : Bool
  priv : Priv
  /-- vector budget of the role, scalar, barrier, tile and divergence-stack declarations (01 Table 1-11) -/
  vregs : Nat
  sregs : Nat
  barriers : Nat
  tiles : Nat
  divstack : Nat
  /-- v0..v123: key `32 * register + lane` -/
  v : SMap Word
  /-- b0..b3: key `32 * latch + lane` -/
  b : SMap Word
  /-- s0..s191 -/
  s : SMap Word
  /-- p0..p31, each as the mask of the lanes that hold 1 -/
  p : SMap Word
  gstat : Word
  slotA : Option Path
  slotB : Option Path
  ex : Word
  dsp : Nat
  /-- batch counters: 0 matrix, 1 copy, 2 subscription -/
  batch : SMap Word
  positions : List Position
  mxrd : List MatRead
  queue : List QEntry
  loads : List Load
  /-- scalar registers whose answers are outstanding -/
  answers : List Nat
  /-- those of them that a SUBST asked for: acquires that have still to perform (14 R380) -/
  asked : List Nat
  pending : Option Pending
  chain : Option Chain
  /-- a fused sequence in issue: its slot, and its members still to issue (04 R145) -/
  fuse : Option (PSlot × List Instr)
  /-- instructions issued in run-ahead since a wave split -/
  split : Option Nat
  /-- the slot that issues next when both can -/
  nextB : Bool
  /-- start of the current Ready interval, and whether it was Ready when time last passed (10 R306) -/
  since : Nat
  ready : Bool
  /-- the slot whose trap waits for what the group has issued; neither slot issues meanwhile (10 R310) -/
  stop : Option PSlot
  status : Status
  freeze : Freeze
  /-- the code of Table 1-8 that it held when it became Frozen (01 R43, 10 Table 10-10) -/
  before : Option Nat
  /-- a trap is recorded and its service has not started -/
  svcPend : Bool
  /-- cause code of the last trap, and the slot of the path that trapped -/
  cause : Nat
  trapSlot : PSlot
  /-- damaged data received, oldest first: the address and the slot of the receiving instruction, and the address of the
  data (10 R312) -/
  mcheck : List (DWord × PSlot × DWord)
  /-- restored Frozen: its slots re-evaluate when it thaws (01 R46) -/
  reeval : Bool
  /-- XFLAGS.HOSTFRZ as the last image of its team has it (10 R319) -/
  savedFrz : Bool
  /-- single-step traps still to raise (10 R321): the slot and the address of the stepped instruction or chain leader -/
  stepDue : List (PSlot × DWord)
  /-- divergence-arena slot -/
  arena : Option Nat
deriving DecidableEq, Repr

/-- A team barrier (07 R226); keys of the masks are group indices in the team. -/
structure Barrier where
  ph : Bool
  ac : SMap Word
  an : SMap Word
deriving DecidableEq, Repr

/-- The configuration of a tile (06 R198): VALID and ss..ss+4 of Table 6-4. -/
structure TileCfg where
  valid : Bool
  words : List Word
deriving DecidableEq, Repr

/-- A slot line's binding to a subscription (05 R179): the handle once the home has answered, the SUBSCR that made it,
and the pushes that have arrived. -/
structure Bound where
  handle : Option Word
  strict : Bool
  uid : Nat
  pos : Nat
  /-- SEQ of the last push, none before push 0 -/
  last : Option Word
  /-- the home was lost while the team was saved: its lapse tag is still to be written (05 R189; log 89) -/
  due : Bool
  /-- its home was lost: it takes no more pushes (05 R189) -/
  lapsed : Bool
  /-- the block it subscribes to, by its tagged address, and its bytes (05 R178) -/
  block : Nat
  size : Nat
deriving DecidableEq, Repr

/-- A segment of a team (01 R14). -/
structure Segment where
  core : Nat
  groups : Nat
  /-- scratchpad bytes -/
  spad : SMap Byte
  /-- lines that are full -/
  full : SMap Bool
  /-- pending-copy counts of lines (06 R220) -/
  pend : SMap Nat
  /-- slot lines bound to a live or lapsed subscription (05 R179) -/
  bound : SMap Bound
  /-- tiles: key `16384 * tile + 128 * row + column` -/
  tiles : SMap Word
  cfg : SMap TileCfg
  peers : SMap (BitVec 128)
deriving DecidableEq, Repr

/-- A team (01 R10), resident or saved. -/
structure Team where
  ctx : Nat
  launch : Nat
  handler : Bool
  packet : BitVec 1024
  x : Nat
  y : Nat
  z : Nat
  grps : Nat
  segs : SMap Segment
  scratch : Nat
  bars : SMap Barrier
  restartable : Bool
  fused : Bool
  /-- the save slot that holds its image, and the groups as they were saved -/
  saved : Option Nat
  held : List (Nat × Group)
  heldMat : List MatPos
  heldCopy : List CopyJob
  /-- discarded under R318 and waiting for placement again -/
  restart : Bool
  /-- since when it waits for placement, once saved or discarded (10 R303) -/
  since : Nat
deriving DecidableEq, Repr

/-- A group between groups' home slices and the fabric: an active message (07 R235). -/
structure ActiveMsg where
  ctx : Nat
  core : Nat
  handler : Nat
  words : List Word
  srcCore : Nat
  srcDev : Nat
  uid : Nat
  sd : Nat
  dctag : Nat
deriving DecidableEq, Repr

/-- An accepted message waiting for its handler group (07 R237). -/
structure HandlerJob where
  ctx : Nat
  /-- what its table entry and kernel header say, as a launch packet of one group -/
  packet : BitVec 1024
  words : List Word
  srcCore : Nat
  srcDev : Nat
deriving DecidableEq, Repr

/-- The state of a core outside its groups. -/
structure Core where
  matq : List MatPos
  copies : List CopyJob
  msgq : List HandlerJob
  /-- slots of trapped groups waiting for the service slot, oldest first -/
  trapq : List Nat
  /-- instruction cache: key `asid * 2^55 + VA / 2` -/
  icache : SMap Half
  /-- the slot of the group whose trap service runs, or ran last (07 R240) -/
  serving : Nat
  /-- Lamport clock of the core's .SC operations, and the highest timestamp the core has received (08 R254) -/
  clock : Nat
  heard : Nat
deriving DecidableEq, Repr

/-- A cache line: its tag, `asid * 2^49 + VA / 128`, its sectors 0..3 and the rights held with it (09 R266, R267, R274). -/
structure Line where
  tag : Nat
  secs : SMap (SecState × SectorData)
  /-- read and write permission that the translation of its last grant gave (09 R274) -/
  r : Bool
  w : Bool
deriving DecidableEq, Repr

/-- An L1 (0..255) or a die-level cache (256, 257): lines, most recently used first, and its write-back buffer:
sector keys `asid * 2^51 + VA / 32` with their data, and whether the home has it already (09 R266, R284). -/
structure Cache where
  lines : List Line
  wbuf : SMap (SectorData × Bool)
  inc : BitVec 8
deriving DecidableEq, Repr

/-- A directory record of one sector (09 R276). -/
inductive DirRec where
  | priv (owner : Nat)
  | shared (who : List Nat)
  | update (op : UOp) (who : List Nat)
  | subscribed (who : List Nat)
deriving DecidableEq, Repr

/-- A directory entry of a sector: its record, whether a collapse is in progress, and the incarnation of each agent it names
(09 R276). -/
structure DirEntry where
  kind : DirRec
  busy : Bool
  incs : List (Nat × BitVec 8)
deriving DecidableEq, Repr

/-- A held or travelling push: block data, SEQ, OVR and TIME (05 Table 5-10). -/
structure Push where
  data : List Byte
  seq : Word
  ovr : Word
  time : DWord
deriving DecidableEq, Repr

/-- State of a subscription (05 Table 5-11). -/
inductive SubState where
  | active | lapsePending | lapsed
deriving DecidableEq, Repr

/-- A subscription table entry (09 Table 9-5). -/
structure SubEntry where
  block : Nat
  size : Nat
  dev : Nat
  core : Nat
  team : Nat
  seg : Nat
  line : Nat
  asid : Nat
  /-- the subscriber's address space on its device (09 Table 9-5, CTX); `asid` is that of the block here -/
  ctx : Nat
  strict : Bool
  state : SubState
  seq : Word
  dlv : Bool
  held : List Push
  gen : BitVec 6
  park : Bool
  inc : BitVec 8
deriving DecidableEq, Repr

/-- A collapse in progress at a home (09 R279): sector key, operator, the caches still to be recalled, the copies that
are on their way, and the partial of each die. -/
structure Collapse where
  key : Nat
  op : UOp
  asked : List Nat
  copies : SMap SectorData
  partials : SMap SectorData
  /-- the group whose COLLAPSE or CCTL forced it -/
  forcer : Option Nat
deriving DecidableEq, Repr

/-- A cached translation (09 R289): page base and size in bits, what the leaf says. -/
structure Leaf where
  asid : Nat
  base : Nat
  bits : Nat
  dev : Nat
  frame : Nat
  host : Bool
  port : Nat
  xdev : Bool
  r : Bool
  w : Bool
  x : Bool
deriving DecidableEq, Repr

/-- A remap entry of a network interface (09 R294): a synonym page, its size in bits, its canonical page, and the rights its leaf
gives (09 R291). -/
structure RemapEntry where
  asid : Nat
  base : Nat
  bits : Nat
  casid : Nat
  cbase : Nat
  r : Bool
  w : Bool
  x : Bool
deriving DecidableEq, Repr

/-- A redirect entry of a network interface (11 R331): a hot line and the helper slice that serves it. -/
structure Redirect where
  tag : Nat
  helper : Nat
deriving DecidableEq, Repr

/-- A home slice with its memory controller (09 R266, R276, R281, R287, R289; 11 R330). -/
structure Slice where
  /-- home copies of sectors with their dirty bit: key `asid * 2^51 + VA / 32` -/
  l2 : SMap (SectorData × Bool)
  /-- the lines of the slice, most recently used first: a line of the die-level cache or a home line, and its tag (09 R266) -/
  lru : List (Bool × Nat)
  dir : SMap DirEntry
  /-- parked copies: (sector key, cache number), operator and data -/
  park : List ((Nat × Nat) × (UOp × SectorData))
  /-- die copies of the integer operators -/
  die : SMap (UOp × SectorData)
  /-- lines with a U sector, most recent grant first -/
  uLines : List Nat
  subs : SMap SubEntry
  /-- generation of each entry, kept when it is free -/
  gens : SMap (BitVec 6)
  colls : List Collapse
  tcache : List Leaf
  /-- leaves under which lines of the slice have come in: they go back to those frames, until a shootdown of the page (07 R245) -/
  frames : List Leaf
  /-- hot lines, oldest first -/
  hot : List Nat
  /-- read misses served in the last 4,096 fabric cycles: the time, the line and the quadrant of the L1 (11 R330) -/
  reads : List (Nat × Nat × Nat)
  /-- replicas of hot lines of other slices, by sector, and the L1s served from each line (11 R331) -/
  replica : SMap SectorData
  helped : SMap (List Nat)
deriving DecidableEq, Repr

/-- A collective contribution (11 R343, R346): its identity, rows of output elements, and where they go. -/
structure Contribution where
  cid : Nat
  rank : Nat
  seq : Word
  tag : Nat
  srcDev : Nat
  dstDev : Nat
  base : Nat
  dlo : Nat
  dhi : Word
  stride : Nat
  red : Nat
  /-- bytes of each row; `rowLen` is the stored row length in bytes -/
  rows : List (List Byte)
  rowLen : Nat
  /-- the sender's group and batch position -/
  uid : Nat
  pos : Nat
  ctx : Nat
deriving DecidableEq, Repr

/-- The answers of Table 11-6, and the loss of the destination (11 R347). -/
inductive Answer where
  | accept | dup | nobind | badrank | busy | fault | unreachable
deriving DecidableEq, Repr

/-- A step record of a collective (11 R345). -/
structure StepRec where
  arrived : BitVec 256
  folded : Nat
deriving DecidableEq, Repr

/-- An active collective at its receiving engine (11 R344). -/
structure Collective where
  low : Word
  ranksm1 : Nat
  tag : Nat
  stage : Nat
  stagesz : Nat
  recs : SMap StepRec
  staged : List Contribution
  /-- contexts here that have contributed since the CID became active -/
  senders : List Nat
deriving DecidableEq, Repr

/-- A request to subscribe, on its way to the home (05 R179). -/
structure SubReq where
  dev : Nat
  /-- the subscriber's core, its address space on its device, and the domain context tag (09 Table 9-5, 11 R337) -/
  core : Nat
  space : Nat
  dctag : Nat
  uid : Nat
  sd : Nat
  team : Nat
  seg : Nat
  line : Nat
  asid : Nat
  block : Nat
  size : Nat
  strict : Bool
  pos : Nat
deriving DecidableEq, Repr

/-- What performs at a home as a far access (05 R162, R167, 08 R263). -/
inductive FarOp where
  /-- an atomic of one lane: its group, destination and operands -/
  | atom (uid vd : Nat) (op : Nat) (wide : Bool) (a : AtomLane) (ord : Nat)
  /-- an update of one lane -/
  | upd (op : UOp) (addr : Nat) (val : List Word)
  /-- the store of one instruction to subscribed lines -/
  | store (writes : List (Nat × List Byte)) (ord : Nat)
deriving DecidableEq, Repr

/-- A message in transit on the fabric or the links (11 R327). -/
inductive Msg where
  | push (home slice entry : Nat) (team seg line : Nat) (strict : Bool) (p : Push) (gen : BitVec 6)
  | notice (src slice entry : Nat) (gen : BitVec 6)
  | subReq (r : SubReq)
  | subAns (src uid sd : Nat) (handle : Word) (pos : Nat)
  | unsub (dev tag uid team seg : Nat) (handle : Word) (pos : Nat)
  | unsubAns (uid team seg : Nat) (handle : Word) (pos : Nat)
  /-- the answer to a SUBST (11 Table 11-3, class 2) -/
  | queryAns (src uid sd : Nat) (status : Word)
  /-- a device reports that it could not write an element of a copy, by the copy's position and the element's address (06 R224) -/
  | copyFault (pos dev va : Nat)
  /-- a device asks the homes of another to park its team's entries, or to unpark them with the cores its segments are on now, and
  the acknowledgement of the homes (05 R188) -/
  | park (dev tag team : Nat) (on : Bool) (cores : List (Nat × Nat))
  | parkAck (dev team : Nat)
  /-- another device has written a push of the subscription that a handle names (05 R187, R188) -/
  | written (handle : Word)
  | query (dev tag uid sd team seg : Nat) (handle : Word)
  /-- an element of another device's TCOPY.OUT: its copy's position, its virtual address and RED code (06 R221, R224) -/
  | element (dev tag pos va red : Nat) (bytes : List Byte)
  /-- the home of a line on another device refuses a request: it maps no such page, or maps one that devices do not share (09 R292) -/
  | xlFault (src tag va : Nat) (mapped : Bool)
  | far (asid uid : Nat) (op : FarOp)
  | active (m : ActiveMsg)
  /-- the answer to an active message; `src` is the core that answers, as 1024 device + core -/
  | activeAns (uid sd : Nat) (status : Word) (src : Nat)
  | contrib (c : Contribution)
  | contribAns (c : Contribution) (a : Answer)
deriving DecidableEq, Repr

/-- What crosses a Cheyn link: a message with its sender's device, incarnation and domain context tag (09 R285, 11 R337). -/
structure Parcel where
  dev : Nat
  inc : BitVec 8
  tag : Nat
  msg : Msg
deriving DecidableEq, Repr

/-- A launch state of Table 10-1 after intake (10 R297). -/
inductive LState where
  | blocked | active
deriving DecidableEq, Repr

/-- Where an accepted packet came from (10 R298). -/
inductive Origin where
  | host (port queue : Nat) (entry : Word)
  | device
deriving DecidableEq, Repr

/-- An unretired launch (10 R297). -/
structure Launch where
  num : Nat
  packet : BitVec 1024
  origin : Origin
  state : LState
  /-- its WAITMASK was wholly set in one state of the event unit (07 R232) -/
  eligible : Bool
  /-- teams started -/
  next : Nat
  /-- order of acceptance on the device -/
  order : Nat
  /-- since when its next team waits for placement (10 R303) -/
  since : Nat
deriving DecidableEq, Repr

/-- A packet in a context's device launch queue, with the group that waits for its status (07 R233). -/
structure DevPacket where
  packet : BitVec 1024
  uid : Nat
  sd : Nat
  /-- when it reached the head of its queue -/
  since : Nat
deriving DecidableEq, Repr

/-- A context descriptor with the context's device-side state (12 Table 12-4). -/
structure Context where
  asid : BitVec 16
  dctag : BitVec 16
  state : BitVec 8
  flags : BitVec 8
  ptroot : DWord
  divbase : DWord
  divslots : Word
  saveslotsz : Word
  trbase : DWord
  savebase : DWord
  saveslots : Word
  mclogsz : Word
  mclogbase : DWord
  tsvc : DWord
  htb : DWord
  htsize : Word
  mccount : Word
  devset : BitVec 256
  events : BitVec 256
  nextLaunch : Nat
  devq : List DevPacket
  launches : List Launch
  arena : List Nat
  saveUsed : List Nat
deriving DecidableEq, Repr

/-- A pre-emption in progress (10 R314): the team, the engine classes that have acknowledged, the port whose PREEMPT command
waits for it, and the other devices whose homes have still to park its entries (05 R188). -/
structure Preempt where
  team : Nat
  acks : List Nat
  cmd : Option Nat
  homes : Option (List Nat)
deriving DecidableEq, Repr

/-- A TLBSD in progress (09 R295): the issuing group and slot, address space, first page, bytes, and the agents that have
still to process the broadcast and to acknowledge. Agents 0..63 are memory controllers, 64..127 network interfaces. -/
structure Shootdown where
  uid : Nat
  slot : PSlot
  asid : Nat
  base : Nat
  bytes : Nat
  todo : List Nat
  acks : List Nat
deriving DecidableEq, Repr

/-- A Cheyn link end (11 R339 to R341). -/
structure Link where
  up : Bool
  portNum : BitVec 8
  txSeq : BitVec 12
  /-- data flits sent and not covered by an ACKSEQ, oldest first, with their transmissions and the device they go to; none
  once another link has taken them over (11 R338) -/
  replay : List (BitVec 512 × Nat × Option Nat)
  /-- flits this end has put on the wire and the outside has not taken -/
  wire : List (BitVec 512)
  expect : BitVec 12
  reorder : List (BitVec 512)
  delivered : List (BitVec 512)
  nakSent : Bool
  retrains : Nat
  /-- the buffer of each class: packets that wait for the link, by destination, spread (11 R338) and payload, oldest first (11 R327) -/
  waiting : SMap (List (Nat × Nat × BitVec 432))
  /-- buffer units the other end has returned, by class, and the classes of delivered flits whose units are still to be returned -/
  credits : SMap Nat
  owed : List Nat
deriving DecidableEq, Repr

/-- What a TCOPY.OUT has written on another device (06 R224): the copy's position and context, whether a page fault there has been
reported, and what each element it sent overwrote, by address. -/
structure Replica where
  pos : Nat
  ctx : Nat
  dev : Nat
  failed : Bool
  wrote : SMap (List Byte)
deriving DecidableEq, Repr

/-- What firmware is told of a pre-emption: a team that could not be saved, with the result of Table 12-5, or a saved one whose
image is not restored (10 R319, R320). -/
inductive FwNote where
  | notSaved (team result : Nat)
  | notRestored (team : Nat)
deriving DecidableEq, Repr

/-- A host queue's registers (12 Table 12-11). -/
structure HostQueue where
  qbase : DWord
  cbase : DWord
  qctl : Word
  qtail : Word
  qhead : Word
  chead : Word
  /-- when the entry at its head became the head -/
  since : Nat
deriving DecidableEq, Repr

/-- A host port (12 R350 to R358): its own registers, the host memory behind it, and what it has sent the host. -/
structure Port where
  up : Bool
  semerr : Bool
  winerr : Bool
  winctx : SMap Word
  winbase : SMap DWord
  queues : SMap HostQueue
  hostMem : SMap Byte
  /-- MSI-X vectors sent, with what their notice names (12 R350) -/
  msix : List (Nat × Nat)
  /-- the last read completion: its bytes, or none for Unsupported Request -/
  readData : Option (List Byte)
deriving DecidableEq, Repr

/-- The power block (12 R359 to R361, Table 12-14). -/
structure Power where
  share : SMap (BitVec 16)
  applied : SMap (BitVec 16)
  lastDrop : Bool
  demand : SMap Nat
  grant : SMap Nat
  /-- clock of each island in MHz (quadrant and fabric islands) -/
  clock : SMap Nat
  halved : Bool
  ipwr : SMap Word
  itemp : SMap (BitVec 16)
  iclk : SMap (BitVec 16)
  icorr : SMap Word
deriving DecidableEq, Repr

/-- A firmware image in flash (12 Table 12-7): its bytes. -/
structure Image where
  len : Nat
  bytes : SMap Byte
deriving DecidableEq, Repr

/-- The firmware mailbox, flash banks and fuses (12 R362 to R367). -/
structure Firmware where
  mbcmd : Word
  busy : Bool
  result : BitVec 16
  arg0 : DWord
  arg1 : DWord
  arg2 : DWord
  buf : SMap Byte
  staging : Option Image
  committed : Option Image
  active : Option Image
  svn : Word
  revoked : BitVec 4
  /-- digests of the images run since cold reset, oldest first; none stands for the shipped image -/
  digests : List (Option (BitVec 256))
  /-- flash holds the image the module was shipped with, whose bytes the model does not hold, and its signature verifies (log 5) -/
  shipped : Bool
  shippedSigned : Bool
deriving DecidableEq, Repr

/-- The memory another device shares with a context under a domain context tag (11 R337). -/
structure RemoteSpace where
  tag : Nat
  mem : SMap Byte
deriving DecidableEq, Repr

/-- Another device of the scale-up domain as this one sees it (11 R342, 09 R285). -/
structure Remote where
  reachable : Bool
  inc : BitVec 8
  spaces : List RemoteSpace
deriving DecidableEq, Repr

/-- The path that issues: core, slot (64 is the service slot), program-counter slot. -/
structure IssuePoint where
  core : Nat
  slot : Nat
  pslot : PSlot
deriving DecidableEq, Repr

/-- One entry of the agenda: an event of the opcode table, an issue from a named path, a message that an outside
agent puts on the links, both host ports writing their codes to one semaphore in the same cycle (12 R353), a port's read of `n` bytes
of BAR0 (12 R351), or its access to a window with other than eight bytes (12 R354). -/
inductive Turn where
  | event (i : Instr)
  | issue (p : IssuePoint)
  | arrive (p : Parcel)
  | semTie (sem : BitVec 3)
  | hostRead (port : BitVec 1) (offset : BitVec 26) (n : Nat)
  | windowRead (port : BitVec 1) (offset : BitVec 28) (n : Nat)
  | windowWrite (port : BitVec 1) (offset : BitVec 28) (bytes : List Byte)
deriving DecidableEq, Repr

/-- The machine. -/
structure State where
  /-- device number in the domain (00 R2, 11 R335) -/
  dev : Nat
  /-- the device's incarnation (09 R285) -/
  inc : BitVec 8
  /-- core cycles since device reset, and the fabric-cycle timestamp -/
  now : Nat
  fabric : Nat
  /-- free values drawn so far (log 7) -/
  free : Nat
  /-- which agents move next; empty leaves the choice to the machine's own order (log 6) -/
  agenda : List Turn
  /-- does the machine's own order let a group issue before it looks at parked paths (01 R51, R52; log 6) -/
  issueNext : Bool
  cur : IssuePoint
  /-- unique numbers handed out to groups, teams and positions -/
  nextUid : Nat
  nextTeam : Nat
  nextPos : Nat
  nextOrder : Nat
  /-- device memory by physical address (09 R289) -/
  mem : List Host.Cell
  /-- groups: key `128 * core + slot` -/
  groups : SMap Group
  teams : SMap Team
  cores : SMap Core
  /-- clusters in fused mode (09 R271) -/
  fusedClusters : List Nat
  caches : SMap Cache
  slices : SMap Slice
  /-- remap filters: key network interface -/
  remap : SMap (List RemapEntry)
  /-- redirect entries: key network interface -/
  redirect : SMap (List Redirect)
  net : List Msg
  /-- timestamp and domain cache number of the last .SC access on each sector (08 R254; log 95) -/
  stamps : SMap (Nat × Nat)
  contexts : SMap Context
  ctxarg : Word
  ctxcmd : Word
  ctxstat : Word
  cbtbase : DWord
  sems : SMap (BitVec 2)
  /-- the port that lost the last tie for a semaphore; none before the first tie (12 R353) -/
  tieLoser : Option (BitVec 1)
  ports : SMap Port
  preempts : List Preempt
  /-- what firmware has been told of pre-emptions, oldest first (10 R319, R320) -/
  fwNotes : List FwNote
  /-- HALT instructions that wait for a context command to complete: context and core (12 R356) -/
  halts : List (Nat × Nat)
  /-- quadrants reserved for a launch's next team: (quadrant, (context slot, launch number)), or (quadrant, (64, team)) for a saved
  team (10 R303, R316) -/
  reserved : SMap (Nat × Nat)
  /-- the teams that have waited 100 us for a quadrant, in the order they did so, named as in `reserved` (10 R303) -/
  awaiting : List (Nat × Nat)
  shootdowns : List Shootdown
  /-- receiving collective engines: key CID -/
  collectives : SMap Collective
  /-- CIDs whose records were lost, each with the physical runs that hosts have written since: it answers NOBIND until one of them
  meets its binding entry (11 R348) -/
  lostCids : SMap (List (Nat × Nat))
  /-- contributions this device has sent and that are not answered (11 R347) -/
  sent : List Contribution
  /-- messages to other devices, each with the device; a request until its answer comes -/
  outbox : List (Nat × Parcel)
  /-- pushes on their way to other devices, by handle and device (05 R187, R188) -/
  flying : List (Word × Nat)
  /-- what copies have written on other devices (06 R224) -/
  replicas : List Replica
  links : SMap Link
  bridgesUp : SMap Bool
  remotes : SMap Remote
  power : Power
  firmware : Firmware
  ready : Bool
  recovery : Bool
  thermtrip : Bool
  bootCode : BitVec 8
deriving DecidableEq, Repr

/-! The values right after reset. -/

/-- No cause of freezing. -/
def Freeze.none : Freeze := ⟨false, false, false, false⟩

/-- An idle core. -/
def Core.empty : Core := ⟨[], [], [], [], [], 0, 0, 0⟩

/-- A cache that holds nothing. -/
def Cache.empty : Cache := ⟨[], [], 0⟩

/-- A slice that holds nothing. -/
def Slice.empty : Slice := ⟨[], [], [], [], [], [], [], [], [], [], [], [], [], [], []⟩

/-- A free context descriptor (log 4). -/
def Context.free : Context :=
  ⟨0, 0, 0, 0, 0, 0, 0, 0, 0, 0, 0, 0, 0, 0, 0, 0, 0, 0, 0, 0, [], [], [], []⟩

/-- A disabled host queue (12 Table 12-11). -/
def HostQueue.reset : HostQueue := ⟨0, 0, 0, 0, 0, 0, 0⟩

/-- A host port after reset (12 R351 to R357); the link is up (log 4). -/
def Port.reset : Port := ⟨true, false, false, [], [], [], [], [], none⟩

/-- A trained Cheyn link that has moved no flit (11 R339; log 4). -/
def Link.reset : Link := ⟨true, 0, 0, [], [], 0, [], [], false, 0, [], [], []⟩

/-- The power block after reset: each share 4,095 (12 Table 12-14); what the spec gives no value for is in log 5. -/
def Power.reset : Power := ⟨[], [], false, [], [], [], false, [], [], [], []⟩

/-- The firmware block after reset (12 Table 12-15, log 5). -/
def Firmware.reset : Firmware := ⟨0, false, 0, 0, 0, 0, [], none, none, none, 0, 0, [none], true, true⟩

/-- Another device before anything is known of it (log 4). -/
def Remote.initial : Remote := ⟨true, 0, []⟩

/-- The machine right after a device reset whose bring-up has succeeded (12 R370): no context, empty caches, cleared
memory, READY set. -/
def State.reset : State where
  dev := 0
  inc := 0
  now := 0
  fabric := 0
  free := 0
  agenda := []
  issueNext := false
  cur := ⟨0, 0, .a⟩
  nextUid := 0
  nextTeam := 0
  nextPos := 0
  nextOrder := 0
  mem := []
  groups := []
  teams := []
  cores := []
  fusedClusters := []
  caches := []
  slices := []
  remap := []
  redirect := []
  net := []
  stamps := []
  contexts := []
  ctxarg := 0
  ctxcmd := 0
  ctxstat := 0
  cbtbase := 0
  sems := []
  tieLoser := none
  ports := []
  preempts := []
  fwNotes := []
  halts := []
  reserved := []
  awaiting := []
  shootdowns := []
  collectives := []
  lostCids := []
  sent := []
  outbox := []
  flying := []
  replicas := []
  links := []
  bridgesUp := []
  remotes := []
  power := Power.reset
  firmware := Firmware.reset
  ready := true
  recovery := false
  thermtrip := false
  bootCode := 0

end Sys2Proof.Machine
end

