-- ==== Sys2Proof/Machine/Link.lean ====
section
/-! DEFINITION. Cheyn links: flits, which link a message leaves on, and sending a message to a device (11 R327, R335 to
R341). -/

namespace Sys2Proof.Machine

/-- Virtual channel class of a message (11 Table 11-3). The table does not name the park and unpark requests of 05 R188 and their
answers; the model puts them in class 5 (DESIGN CHOICE, log 113). -/
def Msg.cls : Msg → Nat
  | .push _ _ _ _ _ _ _ _ _ => 3
  | .notice _ _ _ _ => 3
  | .subReq _ => 0
  | .subAns _ _ _ _ _ => 2
  | .unsub _ _ _ _ _ _ _ => 0
  | .unsubAns _ _ _ _ _ => 2
  | .queryAns _ _ _ _ => 2
  | .copyFault _ _ _ => 2
  | .park _ _ _ _ _ => 5
  | .parkAck _ _ => 5
  | .written _ => 2
  | .query _ _ _ _ _ _ _ => 0
  | .element _ _ _ _ _ _ => 0
  | .xlFault _ _ _ _ => 2
  | .far _ _ _ => 0
  | .active _ => 5
  | .activeAns _ _ _ _ => 5
  | .contrib _ => 4
  | .contribAns _ _ => 2

/-- A link end. -/
def State.link (s : State) (k : Nat) : Link := SMap.getD s.links k Link.reset
/-- Replace a link end. -/
def State.setLink (s : State) (k : Nat) (l : Link) : State := { s with links := SMap.insert s.links k l }

/-- Bits of a flit. -/
def flitField (f : BitVec 512) (lo n : Nat) : Nat := bits f.toNat lo n

/-- One bit of a CRC-32C, least significant bit first (log 40). -/
def crcBit (c : Nat) : Nat := if c % 2 = 1 then c / 2 ^^^ 0x82F63B78 else c / 2

/-- A CRC-32C register after `n` bits of a number, from bit 0. -/
def crcRun : Nat → Nat → Nat → Nat
  | 0, _, c => c
  | n + 1, x, c => crcRun n (x / 2) (crcBit (c ^^^ x % 2))

/-- The CRC-32C of a flit's bits [479:0], byte 0 first (11 Table 11-4; log 40). -/
def crc32c (body : Nat) : Nat := crcRun 480 body 0xFFFFFFFF ^^^ 0xFFFFFFFF

/-- A flit from its fields below the CRC, with its CRC (11 Table 11-4). -/
def sealFlit (body : Nat) : BitVec 512 := BitVec.ofNat 512 (body % 2 ^ 480 + crc32c (body % 2 ^ 480) * 2 ^ 480)

/-- ACKSEQ of a link end: the flit before the next it expects. -/
def Link.ack (l : Link) : Nat := (l.expect + 4095).toNat

/-- The CREDIT field of a link end's next flit: the class of the oldest unit still to be returned, and all such units; 0 when there is
none (11 Table 11-4; log 104). -/
def Link.creditField (l : Link) : Nat :=
  match l.owed with
  | [] => 0
  | c :: _ => c * 2 ^ 13 + (l.owed.filter (· == c)).length % 2 ^ 13

/-- What is left to be returned after a flit. -/
def Link.repaid (l : Link) : Link :=
  match l.owed with
  | [] => l
  | c :: _ => { l with owed := l.owed.filter (· != c) }

/-- A data flit of a class. -/
def Link.dataFlit (l : Link) (cls : Nat) (payload : BitVec 432) : BitVec 512 :=
  sealFlit (l.txSeq.toNat + cls * 2 ^ 12 + l.ack * 2 ^ 16 + l.creditField * 2 ^ 32 + payload.toNat * 2 ^ 48)

/-- An idle flit, with or without a NAK; it carries ACKSEQ and credits too (11 R340). -/
def Link.idleFlit (l : Link) (nak : Bool) : BitVec 512 :=
  sealFlit (2 ^ 15 + l.ack * 2 ^ 16 + (if nak then 2 ^ 31 else 0) + l.creditField * 2 ^ 32)

/-- Send an idle flit. -/
def Link.sendIdle (l : Link) (nak : Bool) : Link := { l with wire := l.wire ++ [l.idleFlit nak] }.repaid

/-- Flits a replay buffer holds. -/
def replayCapacity : Nat := 1024

/-- Packets that wait for a link. -/
def Link.waits (l : Link) : Nat := (l.waiting.map fun e => e.2.length).foldl (· + ·) 0

/-- The oldest packet of the lowest class that has one, and what still waits; in which order the classes take the link is not in the
spec (DESIGN CHOICE, log 113). -/
def takePacket : SMap (List (Nat × Nat × BitVec 432)) → Option (Nat × (Nat × Nat × BitVec 432) × SMap (List (Nat × Nat × BitVec 432)))
  | [] => none
  | (_, []) :: r => takePacket r
  | (c, p :: q) :: r => some (c, p, if q.isEmpty then r else (c, q) :: r)

/-- Send `n` of the packets that wait, while the link is up and its replay buffer has room (11 R340). -/
def Link.pump : Nat → Link → Link
  | 0, l => l
  | n + 1, l =>
    match takePacket l.waiting with
    | none => l
    | some (c, p, r) =>
      if l.up ∧ l.replay.length < replayCapacity then
        let f := l.dataFlit c p.2.2
        Link.pump n { l with
          waiting := r, txSeq := l.txSeq + 1, replay := l.replay ++ [(f, 1, some p.1)], wire := l.wire ++ [f] }.repaid
      else l

/-- Send what waits, as far as the link takes it. -/
def Link.flow (l : Link) : Link := l.pump l.waits

/-- A packet for a device joins the buffer of its class. -/
def Link.enqueue (l : Link) (cls dev spread : Nat) (payload : BitVec 432) : Link :=
  { l with waiting := SMap.insert l.waiting cls (SMap.getD l.waiting cls [] ++ [(dev, spread, payload)]) }

/-- Send a packet behind those of its class that wait; with the replay buffer full it waits, and only idle flits go (11 R340). -/
def Link.transmit (l : Link) (cls dev spread : Nat) (payload : BitVec 432) : Link :=
  let l1 := (l.enqueue cls dev spread payload).flow
  if l1.waiting.isEmpty || !l1.up then l1 else l1.sendIdle false

/-- The line address by which a packet of classes 0 to 2 is spread (11 R338). -/
def lineSpread (asid va : Nat) : Nat := asid * 2 ^ 49 + va / 128

/-- That of a message: of the line it names, else none. -/
def Msg.spread : Msg → Nat
  | .subReq r => lineSpread r.asid r.block
  | .element _ tag _ va _ _ => lineSpread tag va
  | .xlFault _ tag va _ => lineSpread tag va
  | _ => 0

/-- The links of a die in the order a packet tries them (11 R338): an ordered class from link e mod 8 on. -/
def linkOrder (d e cls spread : Nat) : List Nat :=
  (run 0 8).map fun i => 8 * d + ((if 3 ≤ cls then e else Config.linkHash spread) + i) % 8

/-- The link a packet leaves die `d` on toward device `e` (11 R338): an ordered class on link e mod 8 of the die, or the next
that is up; classes 0 to 2 on one of those up, by a hash of the line address (log 4). -/
def State.linkFor (s : State) (d e cls spread : Nat) : Option Nat :=
  if 3 ≤ cls then (linkOrder d e cls spread).find? fun k => (s.link k).up
  else
    let ups := ((run 0 8).map fun i => 8 * d + i).filter fun k => (s.link k).up
    ups[Config.linkHash spread % ups.length]?

/-- Class of a data flit. -/
def clsOf (f : BitVec 512) : Nat := flitField f 12 3

/-- Does a link hold packets of a class for a device, waiting or sent and not taken over by another? -/
def Link.holds (l : Link) (cls dev : Nat) : Bool :=
  (SMap.getD l.waiting cls []).any (fun p => p.1 == dev) || l.replay.any fun e => e.2.2 == some dev && clsOf e.1 == cls

/-- The link at which a packet waits while no link of the die is up: behind those of its class and destination, so that it leaves after
them (11 R329, R338), else the first it would take. -/
def State.waitLink (s : State) (d e cls spread : Nat) : Nat :=
  match ((run 0 8).map fun i => 8 * d + i).find? fun k => (s.link k).holds cls e with
  | some k => k
  | none => (linkOrder d e cls spread).headD 0

/-- A packet of a class leaves a die toward another device, or waits until a link of the die is up. -/
def State.packet (s : State) (d e cls spread : Nat) (payload : BitVec 432) : State :=
  let k := match s.linkFor d e cls spread with
    | some k => k
    | none => s.waitLink d e cls spread
  s.setLink k ((s.link k).transmit cls e spread payload)

/-- A packet with the payload bytes of a message, which are free values. -/
def State.newPacket (s : State) (d e cls spread : Nat) : State :=
  { s.packet d e cls spread (Config.freePayload s.free) with free := s.free + 1 }

/-- Send a message of a context with a tag to a device: into this device's fabric, or over a link in a flit (09 R285, 11 R337). -/
def State.sendTo (s : State) (die dev tag : Nat) (m : Msg) : State :=
  if dev = s.dev then { s with net := s.net ++ [m] }
  else ({ s with outbox := s.outbox ++ [(dev, ⟨s.dev, s.inc, tag, m⟩)] } : State).newPacket die dev m.cls m.spread

end Sys2Proof.Machine
end

