-- ==== Sys2Proof/Machine/Float.lean ====
section
/-! DEFINITION. The binary floating-point formats and their exact arithmetic (03 R82 to R88): every operation computes
exactly and rounds once. -/

namespace Sys2Proof.Machine

/-! ## Sticky flags, as bits of GSTAT (01 Table 1-5) -/

/-- INVALID. -/
def fInvalid : Word := 1
/-- DIVZERO. -/
def fDivZero : Word := 2
/-- OVERFLOW. -/
def fOverflow : Word := 4
/-- UNDERFLOW. -/
def fUnderflow : Word := 8
/-- INEXACT. -/
def fInexact : Word := 16
/-- SAT. -/
def fSat : Word := 32

/-- A flag when a condition holds. -/
def flagIf (c : Bool) (f : Word) : Word := if c then f else 0

/-- Rounding modes, in code order (02 Table 2-8). -/
inductive RMode where
  | rn | rz | rp | rm
deriving DecidableEq, Repr

/-- The mode of a two-bit code (02 Table 2-8). -/
def RMode.ofCode (c : Nat) : RMode :=
  match c % 4 with
  | 0 => .rn
  | 1 => .rz
  | 2 => .rp
  | _ => .rm

/-- A binary format: exponent and fraction widths (03 Table 3-1); its bias is `2^(ebits-1) - 1`. -/
structure FFmt where
  ebits : Nat
  mbits : Nat
deriving DecidableEq, Repr

/-- F32, F16 and BF16 (03 Table 3-1). -/
def F32 : FFmt := ⟨8, 23⟩
/-- F16. -/
def F16 : FFmt := ⟨5, 10⟩
/-- BF16. -/
def BF16 : FFmt := ⟨8, 7⟩

/-- Exponent bias. -/
def FFmt.bias (f : FFmt) : Nat := 2 ^ (f.ebits - 1) - 1
/-- Width in bits. -/
def FFmt.width (f : FFmt) : Nat := 1 + f.ebits + f.mbits
/-- The bits of +infinity. -/
def FFmt.inf (f : FFmt) : Nat := (2 ^ f.ebits - 1) * 2 ^ f.mbits
/-- The canonical NaN (03 Table 3-1). -/
def FFmt.nan (f : FFmt) : Nat := f.inf + 2 ^ (f.mbits - 1)
/-- The sign bit. -/
def FFmt.sign (f : FFmt) : Nat := 2 ^ (f.ebits + f.mbits)
/-- Exponent of the smallest normal. -/
def FFmt.emin (f : FFmt) : Int := 1 - (f.bias : Int)
/-- Exponent of the smallest subnormal. -/
def FFmt.qmin (f : FFmt) : Int := f.emin - (f.mbits : Int)

/-- A decoded value: a NaN, an infinity, or exactly `(-1)^neg * m * 2^e`; zero keeps its sign. -/
inductive Fp where
  | nan (signalling : Bool)
  | inf (neg : Bool)
  | fin (neg : Bool) (m : Nat) (e : Int)
deriving DecidableEq, Repr

/-- Decode the bits of a format (03 R82, R86). -/
def FFmt.decode (f : FFmt) (x : Nat) : Fp :=
  let neg := bit x (f.ebits + f.mbits)
  let ex := bits x f.mbits f.ebits
  let fr := bits x 0 f.mbits
  if ex = 2 ^ f.ebits - 1 then
    if fr = 0 then .inf neg else .nan (!bit x (f.mbits - 1))
  else if ex = 0 then .fin neg fr f.qmin
  else .fin neg (2 ^ f.mbits + fr) (f.qmin + (ex : Int) - 1)

/-- Is it a NaN? -/
def Fp.isNan : Fp → Bool
  | .nan _ => true
  | _ => false

/-- Is it a signalling NaN (03 R86)? -/
def Fp.isSnan : Fp → Bool
  | .nan s => s
  | _ => false

/-- Is it a zero? -/
def Fp.isZero : Fp → Bool
  | .fin _ m _ => m == 0
  | _ => false

/-- Sign of a value that is no NaN. -/
def Fp.neg : Fp → Bool
  | .nan _ => false
  | .inf n => n
  | .fin n _ _ => n

/-- Floor of `x * 2^k`. -/
def scale (x : Nat) (k : Int) : Nat :=
  if 0 ≤ k then x * 2 ^ k.toNat else x / 2 ^ (-k).toNat

/-- Does the mode round the magnitude up, given whether the kept part is odd, and the remainder against a half? -/
def roundsUp (mode : RMode) (neg odd : Bool) (rem half : Nat) : Bool :=
  match mode with
  | .rn => decide (half < rem) || (decide (rem = half) && odd)
  | .rz => false
  | .rp => !neg && decide (rem ≠ 0)
  | .rm => neg && decide (rem ≠ 0)

/-- The integer nearest to `m * 2^(-sh)` under a mode, and whether it is inexact. -/
def roundShift (mode : RMode) (neg : Bool) (m : Nat) (sh : Int) : Nat × Bool :=
  if sh ≤ 0 then (m * 2 ^ (-sh).toNat, false)
  else
    let k := sh.toNat
    let q := m / 2 ^ k
    let r := m % 2 ^ k
    (if roundsUp mode neg (q % 2 == 1) r (2 ^ (k - 1)) then q + 1 else q, decide (r ≠ 0))

/-- Exponent of the most significant bit of `m * 2^e`, for `m ≠ 0`. -/
def msb (m : Nat) (e : Int) : Int := e + (Nat.log2 m : Int)

/-- Is `m * 2^e` tiny: below `2^emin` after rounding to `p` fraction bits with unbounded exponent (03 R85)? -/
def isTiny (mode : RMode) (neg : Bool) (m : Nat) (e : Int) (p : Nat) (emin : Int) : Bool :=
  let x := msb m e
  if emin ≤ x then false
  else if x < emin - 1 then true
  else decide ((roundShift mode neg m (x - (p : Int) - e)).1 < 2 ^ (p + 1))

/-- The delivered bits of a finite overflow (03 Table 3-2). -/
def FFmt.overflow (f : FFmt) (mode : RMode) (neg : Bool) : Nat :=
  let toInf := match mode with
    | .rn => true
    | .rz => false
    | .rp => !neg
    | .rm => neg
  (if neg then f.sign else 0) + (if toInf then f.inf else f.inf - 1)

/-- Round a non-zero exact value `(-1)^neg * m * 2^e` to the format (03 R83, R84): the bits and the flags. -/
def FFmt.round (f : FFmt) (mode : RMode) (neg : Bool) (m : Nat) (e : Int) : Nat × Word :=
  let x := msb m e
  let q := max (x - (f.mbits : Int)) f.qmin
  let (mant, inexact) := roundShift mode neg m (q - e)
  let mag := (q - f.qmin).toNat * 2 ^ f.mbits + mant
  if f.inf ≤ mag then (f.overflow mode neg, fOverflow ||| fInexact)
  else ((if neg then f.sign else 0) + mag,
    flagIf inexact fInexact ||| flagIf (inexact && isTiny mode neg m e f.mbits f.emin) fUnderflow)

/-- A zero of the format with a sign. -/
def FFmt.zero (f : FFmt) (neg : Bool) : Nat := if neg then f.sign else 0

/-- An infinity of the format with a sign. -/
def FFmt.infinity (f : FFmt) (neg : Bool) : Nat := (if neg then f.sign else 0) + f.inf

/-- Round a value, which may be zero, infinite or a NaN that arithmetic has produced (03 R86). -/
def FFmt.deliver (f : FFmt) (mode : RMode) : Fp → Nat × Word
  | .nan _ => (f.nan, 0)
  | .inf n => (f.infinity n, 0)
  | .fin n m e => if m = 0 then (f.zero n, 0) else f.round mode n m e

/-- The signed integer mantissa of a finite value at exponent `e0 ≤ e`. -/
def align (neg : Bool) (m : Nat) (e e0 : Int) : Int :=
  let x : Int := ((m * 2 ^ (e - e0).toNat : Nat) : Int)
  if neg then -x else x

/-- The exact sum of two finite values; an exact zero has the sign of 03 R87. -/
def addFin (mode : RMode) (n1 : Bool) (m1 : Nat) (e1 : Int) (n2 : Bool) (m2 : Nat) (e2 : Int) : Fp :=
  let e0 := min e1 e2
  let t := align n1 m1 e1 e0 + align n2 m2 e2 e0
  if t = 0 then
    .fin (if m1 = 0 ∧ m2 = 0 ∧ n1 = n2 then n1 else decide (mode = .rm)) 0 0
  else .fin (decide (t < 0)) t.natAbs e0

/-- Sum of two values with the INVALID of 03 R85. -/
def fpAdd (mode : RMode) (a b : Fp) : Fp × Word :=
  match a, b with
  | .nan s, .nan t => (.nan false, flagIf (s || t) fInvalid)
  | .nan s, _ => (.nan false, flagIf s fInvalid)
  | _, .nan t => (.nan false, flagIf t fInvalid)
  | .inf n, .inf k => if n = k then (.inf n, 0) else (.nan false, fInvalid)
  | .inf n, .fin _ _ _ => (.inf n, 0)
  | .fin _ _ _, .inf k => (.inf k, 0)
  | .fin n1 m1 e1, .fin n2 m2 e2 => (addFin mode n1 m1 e1 n2 m2 e2, 0)

/-- Exact product of two values with the INVALID of 03 R85. -/
def fpMul (a b : Fp) : Fp × Word :=
  match a, b with
  | .nan s, .nan t => (.nan false, flagIf (s || t) fInvalid)
  | .nan s, _ => (.nan false, flagIf s fInvalid)
  | _, .nan t => (.nan false, flagIf t fInvalid)
  | .inf n, .inf k => (.inf (n != k), 0)
  | .inf n, .fin k m _ => if m = 0 then (.nan false, fInvalid) else (.inf (n != k), 0)
  | .fin k m _, .inf n => if m = 0 then (.nan false, fInvalid) else (.inf (n != k), 0)
  | .fin n1 m1 e1, .fin n2 m2 e2 => (.fin (n1 != n2) (m1 * m2) (e1 + e2), 0)

/-- The value with its sign reversed. -/
def Fp.negate : Fp → Fp
  | .nan s => .nan s
  | .inf n => .inf (!n)
  | .fin n m e => .fin (!n) m e

/-- Sum in a format (04 R129, R134). -/
def FFmt.add (f : FFmt) (mode : RMode) (a b : Nat) : Nat × Word :=
  let (r, w) := fpAdd mode (f.decode a) (f.decode b)
  let (x, w') := f.deliver mode r
  (x, w ||| w')

/-- Difference in a format. -/
def FFmt.sub (f : FFmt) (mode : RMode) (a b : Nat) : Nat × Word :=
  let (r, w) := fpAdd mode (f.decode a) (f.decode b).negate
  let (x, w') := f.deliver mode r
  (x, w ||| w')

/-- Product in a format. -/
def FFmt.mul (f : FFmt) (mode : RMode) (a b : Nat) : Nat × Word :=
  let (r, w) := fpMul (f.decode a) (f.decode b)
  let (x, w') := f.deliver mode r
  (x, w ||| w')

/-- `a * b + c` with one rounding (04 R129): an infinity times zero is invalid whatever `c` is. -/
def FFmt.fma (f : FFmt) (mode : RMode) (a b c : Nat) : Nat × Word :=
  let (p, w1) := fpMul (f.decode a) (f.decode b)
  let (r, w2) := fpAdd mode p (f.decode c)
  let (x, w3) := f.deliver mode r
  (x, w1 ||| w2 ||| w3)

/-- A quotient of non-zero finite values as a value whose lowest bit is sticky: enough bits for one rounding. -/
def divFin (n1 : Bool) (m1 : Nat) (e1 : Int) (n2 : Bool) (m2 : Nat) (e2 : Int) : Fp :=
  let k := 64 + Nat.log2 m2
  let q := m1 * 2 ^ k / m2
  let r := m1 * 2 ^ k % m2
  .fin (n1 != n2) (2 * q + (if r = 0 then 0 else 1)) (e1 - e2 - (k : Int) - 1)

/-- Quotient of two values with the flags of 03 R85. -/
def fpDiv (a b : Fp) : Fp × Word :=
  match a, b with
  | .nan s, .nan t => (.nan false, flagIf (s || t) fInvalid)
  | .nan s, _ => (.nan false, flagIf s fInvalid)
  | _, .nan t => (.nan false, flagIf t fInvalid)
  | .inf _, .inf _ => (.nan false, fInvalid)
  | .inf n, .fin k _ _ => (.inf (n != k), 0)
  | .fin n _ _, .inf k => (.fin (n != k) 0 0, 0)
  | .fin n1 m1 e1, .fin n2 m2 e2 =>
    if m2 = 0 then
      if m1 = 0 then (.nan false, fInvalid) else (.inf (n1 != n2), fDivZero)
    else if m1 = 0 then (.fin (n1 != n2) 0 0, 0)
    else (divFin n1 m1 e1 n2 m2 e2, 0)

/-- Quotient in a format, rounded to nearest even. -/
def FFmt.div (f : FFmt) (a b : Nat) : Nat × Word :=
  let (r, w) := fpDiv (f.decode a) (f.decode b)
  let (x, w') := f.deliver .rn r
  (x, w ||| w')

/-- Order of two values that are no NaN, with −0 below +0 (03 R88): is `a` below `b`? -/
def fpLt (a b : Fp) : Bool :=
  match a, b with
  | .inf n, .inf k => n && !k
  | .inf n, .fin _ _ _ => n
  | .fin _ _ _, .inf k => !k
  | .fin n1 m1 e1, .fin n2 m2 e2 =>
    let e0 := min e1 e2
    let x := align n1 m1 e1 e0
    let y := align n2 m2 e2 e0
    decide (x < y) || (decide (x = y) && decide (m1 = 0) && n1 && !n2)
  | _, _ => false

/-- Numerical equality of two values that are no NaN: −0 equals +0 (04 R131). -/
def fpEq (a b : Fp) : Bool :=
  match a, b with
  | .inf n, .inf k => n == k
  | .fin n1 m1 e1, .fin n2 m2 e2 =>
    let e0 := min e1 e2
    decide (align n1 m1 e1 e0 = align n2 m2 e2 e0)
  | _, _ => false

/-- FMIN and FMAX with the flag of the lane instructions (03 R88). -/
def f32MinMax (isMax : Bool) (a b : Nat) : Nat × Word :=
  let x := F32.decode a
  let y := F32.decode b
  let w := flagIf (x.isSnan || y.isSnan) fInvalid
  if x.isNan && y.isNan then (F32.nan, w)
  else if x.isNan then (b, w)
  else if y.isNan then (a, w)
  else if isMax then (if fpLt x y then b else a, w)
  else (if fpLt y x then b else a, w)

/-- Widen an F16 or BF16 pattern to F32 (03 R86): exact, a NaN becomes 0x7FC0_0000. -/
def FFmt.widen (f : FFmt) (x : Nat) : Nat × Word :=
  let v := f.decode x
  let (r, _) := F32.deliver .rn v
  (r, flagIf v.isSnan fInvalid)

/-- Widen a BF16 immediate (02 R64): no flag. -/
def bf16Imm (x : Nat) : Nat := (BF16.widen x).1

/-- The integer square root, bit by bit from bit `i`. -/
def isqrtFrom (n : Nat) : Nat → Nat → Nat
  | 0, r => r
  | i + 1, r => isqrtFrom n i (if (r + 2 ^ i) * (r + 2 ^ i) ≤ n then r + 2 ^ i else r)

/-- The floor of the square root. -/
def isqrt (n : Nat) : Nat := isqrtFrom n (Nat.log2 n / 2 + 1) 0

end Sys2Proof.Machine
end

