-- ==== Sys2Proof/Machine/Special.lean ====
section
/-! DEFINITION. The special functions of majors 0x15 (04 R133) and the reciprocal square root of 03 R111. The
algebraic ones are exact before the one rounding. FEXP2, FLOG2, FSIN and FCOS are evaluated in fixed point with 480
fraction bits and rounded once: log 16. -/

namespace Sys2Proof.Machine

/-- Fraction bits of the fixed-point evaluations. -/
def fxBits : Nat := 480

/-- pi/2 with 480 fraction bits, truncated. -/
def fxHalfPi : Nat := 0x1921fb54442d18469898cc51701b839a252049c1114cf98e804177d4c76273644a29410f31c6809bbdf2a33679a748636605614dbe4be286e9fc26ada

/-- The natural logarithm of 2 with 480 fraction bits, truncated. -/
def fxLn2 : Nat := 0xb17217f7d1cf79abc9e3b39803f2f6af40f343267298b62d8a0d175b8baafa2be7b876206debac98559552fb4afa1b10ed2eae35c138214427573b29

/-- `sum of t_k`, where `t_(k+1) = t_k * y / (k + 1)`: the exponential series in fixed point. -/
def fxExpSeries (y : Nat) : Nat → Nat → Nat → Nat → Nat
  | 0, _, _, acc => acc
  | fuel + 1, k, t, acc =>
    let t' := t * y / 2 ^ fxBits / (k + 1)
    fxExpSeries y fuel (k + 1) t' (acc + t')

/-- `e^y` for `0 <= y < 1` in fixed point. -/
def fxExp (y : Nat) : Nat := fxExpSeries y 110 0 (2 ^ fxBits) (2 ^ fxBits)

/-- `sum of z^(2k+1) / (2k+1)`: the inverse hyperbolic tangent in fixed point. -/
def fxAtanhSeries (z2 : Nat) : Nat → Nat → Nat → Nat → Nat
  | 0, _, _, acc => acc
  | fuel + 1, k, p, acc =>
    fxAtanhSeries z2 fuel (k + 2) (p * z2 / 2 ^ fxBits) (acc + p / k)

/-- The natural logarithm of a fixed-point value in [1, 2). -/
def fxLn (g : Nat) : Nat :=
  let one := 2 ^ fxBits
  let z := (g - one) * one / (g + one)
  2 * fxAtanhSeries (z * z / one) 160 1 z 0

/-- Alternating Taylor series from the term `t = r^k / k!`: even steps add, odd steps subtract. -/
def fxTrigSeries (r2 : Nat) : Nat → Nat → Int → Int → Int
  | 0, _, _, acc => acc
  | fuel + 1, k, t, acc =>
    let t' : Int := -(t * (r2 : Int) / ((2 ^ fxBits * ((k + 1) * (k + 2)) : Nat) : Int))
    fxTrigSeries r2 fuel (k + 2) t' (acc + t')

/-- The sine of `0 <= r < pi/2` in fixed point. -/
def fxSin (r : Nat) : Int := fxTrigSeries (r * r / 2 ^ fxBits) 64 1 (r : Int) (r : Int)

/-- The cosine of `0 <= r < pi/2` in fixed point. -/
def fxCos (r : Nat) : Int :=
  fxTrigSeries (r * r / 2 ^ fxBits) 64 0 ((2 ^ fxBits : Nat) : Int) ((2 ^ fxBits : Nat) : Int)

/-- A fixed-point approximation of an irrational result as a value whose lowest bit is sticky. -/
def fxInexact (x : Int) : Fp := .fin (decide (x < 0)) (2 * x.natAbs + 1) (-(fxBits : Int) - 1)

/-- The result of a NaN operand: the canonical NaN, INVALID for a signalling one (04 R133). -/
def nanResult (s : Bool) : Fp × Word := (.nan false, flagIf s fInvalid)

/-- FRCP, 1/x. -/
def fpRcp (a : Fp) : Fp × Word :=
  match a with
  | .nan s => nanResult s
  | .inf n => (.fin n 0 0, 0)
  | .fin n m e => if m = 0 then (.inf n, fDivZero) else (divFin false 1 0 n m e, 0)

/-- The square root of `m * 2^e`, `m ≠ 0`, with a sticky lowest bit. -/
def sqrtFin (m : Nat) (e : Int) : Fp :=
  let odd := e % 2
  let k := 64
  let x := m * 2 ^ (2 * k + odd.toNat)
  let r := isqrt x
  .fin false (2 * r + (if r * r = x then 0 else 1)) ((e - odd) / 2 - (k : Int) - 1)

/-- FSQRT. -/
def fpSqrt (a : Fp) : Fp × Word :=
  match a with
  | .nan s => nanResult s
  | .inf n => if n then (.nan false, fInvalid) else (.inf false, 0)
  | .fin n m e =>
    if m = 0 then (.fin n 0 0, 0) else if n then (.nan false, fInvalid) else (sqrtFin m e, 0)

/-- The reciprocal square root of `m * 2^e`, `m ≠ 0`, with a sticky lowest bit. -/
def rsqrtFin (m : Nat) (e : Int) : Fp :=
  let odd := e % 2
  let mm := m * 2 ^ odd.toNat
  let k := 64 + Nat.log2 mm
  let x := 2 ^ (2 * k) / mm
  let r := isqrt x
  .fin false (2 * r + (if r * r * mm = 2 ^ (2 * k) then 0 else 1)) (-((e - odd) / 2) - (k : Int) - 1)

/-- FRSQ, and rsqrt of 03 R111. -/
def fpRsqrt (a : Fp) : Fp × Word :=
  match a with
  | .nan s => nanResult s
  | .inf n => if n then (.nan false, fInvalid) else (.fin false 0 0, 0)
  | .fin n m e =>
    if m = 0 then (.inf n, fDivZero) else if n then (.nan false, fInvalid) else (rsqrtFin m e, 0)

/-- `2^x` of a finite value. -/
def exp2Fin (n : Bool) (m : Nat) (e : Int) : Fp :=
  if m = 0 then .fin false 1 0
  else if 9 ≤ msb m e then .fin false 1 (if n then -1000 else 1000)
  else
    let x : Int := align n m (e + (fxBits : Int)) 0
    let one : Int := ((2 ^ fxBits : Nat) : Int)
    let i := x / one
    let f := (x % one).toNat
    if f = 0 then .fin false 1 i
    else .fin false (2 * fxExp (f * fxLn2 / 2 ^ fxBits) + 1) (i - (fxBits : Int) - 1)

/-- FEXP2. -/
def fpExp2 (a : Fp) : Fp × Word :=
  match a with
  | .nan s => nanResult s
  | .inf n => (if n then .fin false 0 0 else .inf false, 0)
  | .fin n m e => (exp2Fin n m e, 0)

/-- `log2` of a positive finite value. -/
def log2Fin (m : Nat) (e : Int) : Fp :=
  let x := msb m e
  let one := 2 ^ fxBits
  let g := scale m ((fxBits : Int) - (Nat.log2 m : Int))
  if g = one then .fin (decide (x < 0)) x.natAbs 0
  else fxInexact (x * (one : Int) + ((fxLn g * one / fxLn2 : Nat) : Int))

/-- FLOG2. -/
def fpLog2 (a : Fp) : Fp × Word :=
  match a with
  | .nan s => nanResult s
  | .inf n => if n then (.nan false, fInvalid) else (.inf false, 0)
  | .fin n m e =>
    if m = 0 then (.inf true, fDivZero) else if n then (.nan false, fInvalid) else (log2Fin m e, 0)

/-- The quadrant of a non-negative fixed-point angle and its remainder in [0, pi/2). -/
def fxReduce (x : Nat) : Nat × Nat := (x / fxHalfPi % 4, x % fxHalfPi)

/-- FSIN: the argument is reduced exactly for every finite input (04 R133). -/
def fpSin (a : Fp) : Fp × Word :=
  match a with
  | .nan s => nanResult s
  | .inf _ => (.nan false, fInvalid)
  | .fin n m e =>
    if m = 0 then (.fin n 0 0, 0)
    else
      let (q, r) := fxReduce (scale m (e + (fxBits : Int)))
      let v := match q with
        | 0 => fxSin r
        | 1 => fxCos r
        | 2 => -fxSin r
        | _ => -fxCos r
      (fxInexact (if n then -v else v), 0)

/-- FCOS. -/
def fpCos (a : Fp) : Fp × Word :=
  match a with
  | .nan s => nanResult s
  | .inf _ => (.nan false, fInvalid)
  | .fin _ m e =>
    if m = 0 then (.fin false 1 0, 0)
    else
      let (q, r) := fxReduce (scale m (e + (fxBits : Int)))
      let v := match q with
        | 0 => fxCos r
        | 1 => -fxSin r
        | 2 => -fxCos r
        | _ => fxSin r
      (fxInexact v, 0)

/-- A special function on F32 bits: its exact value rounded to nearest even, with its flags (04 R133). -/
def f32Special (fn : Fp → Fp × Word) (a : Nat) : Nat × Word :=
  let (r, w) := fn (F32.decode a)
  let (x, w') := F32.deliver .rn r
  (x, w ||| w')

end Sys2Proof.Machine
end

