-- ==== Sys2Proof/Machine/Stats.lean ====
section
/-! DEFINITION. Statistics triples (03 R106 to R111) and the functions of the update-only operators (03 R110). -/

namespace Sys2Proof.Machine

/-- A triple: weight, mean, centred sum of squares, as FP32 bits. -/
structure Triple where
  w : Nat
  m : Nat
  s : Nat
deriving DecidableEq, Repr

/-- The empty triple (03 R106). -/
def Triple.empty : Triple := ⟨0, 0, 0⟩

/-- Accumulate a value with a weight (03 R107): the triple and the flags. -/
def Triple.acc (t : Triple) (x wt : Nat) : Triple × Word :=
  match F32.decode wt with
  | .nan _ => (⟨F32.nan, F32.nan, F32.nan⟩, fInvalid)
  | .inf _ => (⟨F32.nan, F32.nan, F32.nan⟩, fInvalid)
  | .fin neg m _ =>
    if m = 0 then (t, 0)
    else if neg then (⟨F32.nan, F32.nan, F32.nan⟩, fInvalid)
    else
      let (w', f1) := F32.add .rn t.w wt
      let (d, f2) := F32.sub .rn x t.m
      let (r, f3) := F32.div wt w'
      let (dr, f4) := F32.mul .rn d r
      let (m', f5) := F32.add .rn t.m dr
      let (e, f6) := F32.sub .rn x m'
      let (wd, f7) := F32.mul .rn wt d
      let (wde, f8) := F32.mul .rn wd e
      let (s', f9) := F32.add .rn t.s wde
      (⟨w', m', s'⟩, f1 ||| f2 ||| f3 ||| f4 ||| f5 ||| f6 ||| f7 ||| f8 ||| f9)

/-- Merge two triples (03 R108). -/
def Triple.merge (a b : Triple) : Triple × Word :=
  if b = .empty then (a, 0)
  else if a = .empty then (b, 0)
  else
    let (w, f1) := F32.add .rn a.w b.w
    let (d, f2) := F32.sub .rn b.m a.m
    let (q, f3) := F32.div b.w w
    let (dq, f4) := F32.mul .rn d q
    let (m, f5) := F32.add .rn a.m dq
    let (ss, f6) := F32.add .rn a.s b.s
    let (dd, f7) := F32.mul .rn d d
    let (ww, f8) := F32.mul .rn a.w b.w
    let (wq, f9) := F32.div ww w
    let (x, f10) := F32.mul .rn dd wq
    let (s, f11) := F32.add .rn ss x
    (⟨w, m, s⟩, f1 ||| f2 ||| f3 ||| f4 ||| f5 ||| f6 ||| f7 ||| f8 ||| f9 ||| f10 ||| f11)

/-- The left fold of triples in order (03 R109), with its flags. -/
def Triple.fold : List Triple → Triple × Word
  | [] => (.empty, 0)
  | t :: r => r.foldl (fun (a, f) b => let (c, g) := a.merge b; (c, f ||| g)) (t, 0)

/-- The empty-set code (03 R111). -/
def emptySetCode : Nat := 0x7FC00E00

/-- Drain options (03 Table 3-9). -/
inductive Drain where
  | mean | pvar | svar | rdev | norm
deriving DecidableEq, Repr

/-- RDEV of a non-empty triple: rsqrt of S / W + eps. -/
def Triple.rdev (t : Triple) (eps : Nat) : Nat × Word :=
  let (v, f1) := F32.div t.s t.w
  let (y, f2) := F32.add .rn v eps
  let (r, f3) := f32Special fpRsqrt y
  (r, f1 ||| f2 ||| f3)

/-- Drain a triple (03 R111); `eps` and `x` serve RDEV and NORM. -/
def Triple.drain (t : Triple) (opt : Drain) (eps x : Nat) : Nat × Word :=
  if t = .empty then (emptySetCode, 0)
  else
    match opt with
    | .mean => (t.m, 0)
    | .pvar => F32.div t.s t.w
    | .svar =>
      let w := F32.decode t.w
      if w.isNan || !fpLt (F32.decode 0x3F800000) w then (F32.nan, fInvalid)
      else
        let (d, f1) := F32.sub .rn t.w 0x3F800000
        let (r, f2) := F32.div t.s d
        (r, f1 ||| f2)
    | .rdev => t.rdev eps
    | .norm =>
      let (d, f1) := F32.sub .rn x t.m
      let (r, f2) := t.rdev eps
      let (y, f3) := F32.mul .rn d r
      (y, f1 ||| f2 ||| f3)

end Sys2Proof.Machine
end

