-- ==== Sys2Proof/Machine/Memory.lean ====
section
/-! DEFINITION. Device memory by physical address (09 R289), sectors as bytes, and the functions of the update-only and
atomic operators (03 R110, 05 R161, R166). -/

namespace Sys2Proof.Machine

/-- A byte of memory; a byte nothing has written reads 0 (12 R370; log 9). -/
def Memory.read (m : List Host.Cell) (a : Nat) : Byte := SMap.getD m a 0

/-- Write a byte, keeping the canonical form. -/
def Memory.write (m : List Host.Cell) (a : Nat) (b : Byte) : List Host.Cell := SMap.put 0 m a b

/-- Read a run of bytes. -/
def Memory.readN (m : List Host.Cell) (a n : Nat) : List Byte := (run a n).map (Memory.read m)

/-- Write a run of bytes. -/
def Memory.writeN (m : List Host.Cell) : Nat → List Byte → List Host.Cell
  | _, [] => m
  | a, b :: r => Memory.writeN (Memory.write m a b) (a + 1) r

/-- The canonical form: addresses strictly rise and no listed byte is 0. -/
abbrev Memory.wf (m : List Host.Cell) : Bool := SMap.canonical (0 : Byte) m

/-- Bytes in device memory: 192 GiB (00 R2). -/
def vaultBytes : Nat := 192 * 2 ^ 30

/-- The `n` bytes of a sector from byte `off`. -/
def secBytes (d : SectorData) (off n : Nat) : List Byte := toBytes n (d.toNat / 256 ^ off)

/-- A sector with bytes replaced from byte `off`. -/
def secPut (d : SectorData) (off : Nat) (bs : List Byte) : SectorData :=
  let x := d.toNat
  let n := bs.length
  BitVec.ofNat 256 (x % 256 ^ off + ofBytes bs * 256 ^ off + x / 256 ^ (off + n) * 256 ^ (off + n))

/-- A sector from 32 bytes. -/
def secOf (bs : List Byte) : SectorData := BitVec.ofNat 256 (ofBytes bs)

/-! ## Update-only operators -/

/-- The operator of a code (05 Table 5-6). -/
def UOp.ofCode (c : Nat) : UOp :=
  match c with
  | 0 => .addS32 | 1 => .addW32 | 2 => .addF32 | 3 => .minS32 | 4 => .minW32 | 5 => .minF32
  | 6 => .maxS32 | 7 => .maxW32 | 8 => .maxF32 | 9 => .orB32 | 10 => .bfacc | _ => .stat

/-- Does an evicted copy merge into a die copy (integer operators) or is it parked (09 R281)? -/
def UOp.mergesEarly : UOp → Bool
  | .addF32 | .minF32 | .maxF32 | .bfacc | .stat => false
  | _ => true

/-- Signed minimum or maximum of two words as unsigned numbers. -/
def signedMin (a b : Nat) : Nat := if signed 32 a ≤ signed 32 b then a else b
/-- Signed maximum. -/
def signedMax (a b : Nat) : Nat := if signed 32 a ≤ signed 32 b then b else a

/-- The merge function on one 32-bit element (03 R110); copies of BFACC hold FP32 words (09 R280). -/
def UOp.word (op : UOp) (a b : Nat) : Nat :=
  match op with
  | .addS32 => (a + b) % 2 ^ 32
  | .addW32 => (a + b) % 2 ^ 32
  | .addF32 => (F32.add .rn a b).1
  | .bfacc => (F32.add .rn a b).1
  | .minS32 => signedMin a b
  | .minW32 => min a b
  | .minF32 => (f32MinMax false a b).1
  | .maxS32 => signedMax a b
  | .maxW32 => max a b
  | .maxF32 => (f32MinMax true a b).1
  | .orB32 => (BitVec.ofNat 32 a ||| BitVec.ofNat 32 b).toNat
  | .stat => a

/-- Identity of a word operator (05 Table 5-6). -/
def UOp.identityWord : UOp → Nat
  | .minS32 => 0x7FFFFFFF
  | .minW32 => 0xFFFFFFFF
  | .minF32 => 0x7F800000
  | .maxS32 => 0x80000000
  | .maxF32 => 0xFF800000
  | _ => 0

/-- A slot as a triple, and back with a zero pad word (03 R110). -/
def Triple.ofNat (x : Nat) : Triple := ⟨bits x 0 32, bits x 32 32, bits x 64 32⟩
/-- The 12 low bytes of a slot; the pad word is 0. -/
def Triple.toNat (t : Triple) : Nat := t.w + t.m * 2 ^ 32 + t.s * 2 ^ 64

/-- Bytes of an element of an operator. -/
def UOp.size (op : UOp) : Nat := if op = .stat then 16 else 4

/-- The merge function on one element as a number. -/
def UOp.element (op : UOp) (a b : Nat) : Nat :=
  if op = .stat then ((Triple.ofNat a).merge (Triple.ofNat b)).1.toNat else op.word a b

/-- Apply a function to every element of `n` bytes of a number of `k` elements. -/
def mapElements (n : Nat) (f : Nat → Nat → Nat) : Nat → Nat → Nat → Nat
  | 0, _, _ => 0
  | k + 1, a, b => f (a % 2 ^ (8 * n)) (b % 2 ^ (8 * n)) + 2 ^ (8 * n) * mapElements n f k (a / 2 ^ (8 * n)) (b / 2 ^ (8 * n))

/-- The merge of two sectors, element by element (09 R280). -/
def UOp.merge (op : UOp) (a b : SectorData) : SectorData :=
  BitVec.ofNat 256 (mapElements op.size op.element (32 / op.size) a.toNat b.toNat)

/-- A sector whose every element is the identity. -/
def UOp.identity (op : UOp) : SectorData :=
  BitVec.ofNat 256 (mapElements 4 (fun _ _ => op.identityWord) 8 0 0)

/-- The element a lane's value gives: BFACC widens its low half (03 R110). -/
def UOp.operand (op : UOp) (x : Nat) : Nat := if op = .bfacc then bf16Imm (x % 2 ^ 16) else x

/-- A sector with one element updated by a lane's value. -/
def UOp.update (op : UOp) (d : SectorData) (off x : Nat) : SectorData :=
  let old := ofBytes (secBytes d off op.size)
  secPut d off (toBytes op.size (op.element old (op.operand x)))

/-! ## Atomics -/

/-- The value an atomic writes, or none (05 Table 5-5); `n` is the width in bits. -/
def atomicNew (op n old cmp v : Nat) : Option Nat :=
  match op with
  | 0 => some v
  | 1 => if old = cmp then some v else none
  | 2 => some ((old + v) % 2 ^ n)
  | 3 => some (BitVec.ofNat n old &&& BitVec.ofNat n v).toNat
  | 4 => some (BitVec.ofNat n old ||| BitVec.ofNat n v).toNat
  | 5 => some (BitVec.ofNat n old ^^^ BitVec.ofNat n v).toNat
  | 6 => some (if signed n old ≤ signed n v then old else v)
  | 7 => some (min old v)
  | 8 => some (if signed n old ≤ signed n v then v else old)
  | 9 => some (max old v)
  | 10 => some (F32.add .rn old v).1
  | 11 => some (if v ≤ old then 0 else old + 1)
  | _ => some (if old = 0 ∨ v < old then v else old - 1)

end Sys2Proof.Machine
end

