-- ==== Sys2Proof/Machine/Translate.lean ====
section
/-! DEFINITION. Translation at the memory controllers: tags, homes, the page-table walk, aliases and rights
(09 R267 to R270, R289 to R294). -/

namespace Sys2Proof.Machine

/-- Bits of a virtual address (00 R3). -/
def vaBits : Nat := 56

/-- Key of a sector: address space and VA[55:5] (09 R267). -/
def secKey (asid va : Nat) : Nat := asid * 2 ^ 51 + va / 32
/-- The address space of a sector key. -/
def keyAsid (k : Nat) : Nat := k / 2 ^ 51
/-- The virtual address of a sector key. -/
def keyVa (k : Nat) : Nat := k % 2 ^ 51 * 32

/-- Home hash of a line (09 R268). -/
def homeHash (asid va : Nat) : Nat :=
  ((run 0 8).map (fun i => bits va (7 + 6 * i) 6)).foldl (· ^^^ ·) (bits va 55 1)
    ^^^ bits asid 0 6 ^^^ bits asid 6 6 ^^^ bits asid 12 4

/-- Home slice of a line (09 R268). -/
def homeSlice (asid va : Nat) : Nat := homeHash asid va % 64

/-- Why a translation fails: the kinds of 10 Table 10-3. -/
inductive XKind where
  | notMapped | permission | range
deriving DecidableEq, Repr

/-- DETAIL of a failed translation (10 Table 10-3). -/
def XKind.code : XKind → Nat
  | .notMapped => 1
  | .permission => 2
  | .range => 3

/-- The context slot of an address space: the lowest whose descriptor is in use (12 Table 12-4). -/
def State.ctxOfAsid (s : State) (asid : Nat) : Option Nat :=
  match s.contexts.find? (fun e => e.2.state != 0 && e.2.asid.toNat == asid) with
  | some e => some e.1
  | none => none

/-- What a page-table entry says (09 Table 9-7). -/
inductive Pte where
  | bad
  | table (next : Nat)
  | leaf (l : Leaf)
  | synonym (n asid va : Nat) (r w x : Bool)
deriving DecidableEq, Repr

/-- Read an entry for a page of `2^n` bytes; `leafOk` says whether the level allows a leaf (09 R291, R292). -/
def Pte.ofNat (asid va n : Nat) (leafOk tableOk : Bool) (e : Nat) : Pte :=
  if !bit e 0 then .bad
  else if !bit e 1 then
    if tableOk && bits e 56 8 == 0 && bits e 2 10 == 0 then .table (bits e 12 44 * 4096) else .bad
  else if !leafOk then .bad
  else if bit e 5 then
    if bits e 6 2 == 0 && bits e 24 40 % 2 ^ (n - 16) == 0 then
      .synonym n (bits e 8 16) (bits e 24 40 * 65536) (bit e 2) (bit e 3) (bit e 4)
    else .bad
  else if bits e 13 3 == 0 && !bit e 10 && bits e 6 3 == 0 && bits e 16 40 % 2 ^ (n - 16) == 0 then
    .leaf ⟨asid, va / 2 ^ n * 2 ^ n, n, bits e 56 8, bits e 16 40, bit e 11, bits e 12 1, bit e 9, bit e 2, bit e 3, bit e 4⟩
  else .bad

/-- Index bits, leaf size and whether a leaf is allowed, by level from the root (09 Table 9-6). -/
def ptLevels : List (Nat × Nat × Nat × Bool × Bool) :=
  [(48, 8, 48, false, true), (39, 9, 39, false, true), (30, 9, 30, true, true), (21, 9, 21, true, true),
    (16, 5, 16, true, false)]

/-- Walk the levels from a table's physical address; the walker reads physical memory (09 R289, R290). -/
def walkFrom (mem : List Host.Cell) (asid va : Nat) : List (Nat × Nat × Nat × Bool × Bool) → Nat → Pte
  | [], _ => .bad
  | (lo, n, size, leafOk, tableOk) :: r, table =>
    match Pte.ofNat asid va size leafOk tableOk (ofBytes (Memory.readN mem (table + 8 * bits va lo n) 8)) with
    | .table next => walkFrom mem asid va r next
    | e => e

/-- Walk the page table of an address space on this device. -/
def State.walk (s : State) (asid va : Nat) : Pte :=
  match s.ctxOfAsid asid with
  | some c => match SMap.find s.contexts c with
    | some x => walkFrom s.mem asid va ptLevels x.ptroot.toNat
    | none => .bad
  | none => .bad

/-- Slice state. -/
def State.slice (s : State) (h : Nat) : Slice := SMap.getD s.slices h Slice.empty
/-- Replace a slice's state. -/
def State.setSlice (s : State) (h : Nat) (x : Slice) : State := { s with slices := SMap.insert s.slices h x }

/-- The die of a slice, and the slice that serves a line on die `d`: its home slice where that lies on the die, else its
proxy there; it is also the partial holder of the die (09 R269, R279). -/
def dieOf (slice : Nat) : Nat := slice / 32
/-- Serving slice, and partial holder, of die `d`. -/
def partialHolder (h d : Nat) : Nat := if dieOf h = d then h else d * 32 + h % 32

/-- The memory controller that translates an address: for a request from a die the one of the slice that serves the line there, for
none given that of the home (09 R269, R289). -/
def controllerOf (die : Option Nat) (asid va : Nat) : Nat :=
  match die with
  | some d => partialHolder (homeSlice asid va) d
  | none => homeSlice asid va

/-- The die of a core, as its requests name it. -/
def coreDie (core : Nat) : Option Nat := some (core / 128)

/-- Does a leaf map an address? -/
def Leaf.maps (l : Leaf) (asid va : Nat) : Bool := l.asid == asid && va / 2 ^ l.bits * 2 ^ l.bits == l.base

/-- What a controller knows of a page: its own cached translation, or what a walk finds (09 R289, R293). -/
def State.entryAt (s : State) (mc asid va : Nat) : Pte :=
  match (s.slice mc).tcache.find? fun l => l.maps asid va with
  | some l => .leaf l
  | none => s.walk asid va

/-- What the controller that a request meets knows of a page. -/
def State.entryBy (s : State) (die : Option Nat) (asid va : Nat) : Pte := s.entryAt (controllerOf die asid va) asid va

/-- What the home's controller knows of a page. -/
def State.entryOf (s : State) (asid va : Nat) : Pte := s.entryBy none asid va

/-- A translated access: the canonical tag, its leaf, and the rights of every entry on the way (09 R291, R294). -/
structure Xl where
  asid : Nat
  va : Nat
  leaf : Leaf
  r : Bool
  w : Bool
  x : Bool
deriving DecidableEq, Repr

/-- The vault that holds a frame (09 R289); vault `c` belongs to router node `c` and is local vault `localVault c` of its die
(00 R4). -/
def vaultOf (frame : Nat) : Nat := frame % 64
/-- The 64 KiB row of its vault where a frame lies (09 R289). -/
def vaultRow (frame : Nat) : Nat := frame / 64
/-- A vault's number on its die (00 R4). -/
def localVault (c : Nat) : Nat := c % 32
/-- Rows of 64 KiB in each of the 64 vaults. -/
def vaultRows : Nat := vaultBytes / 64 / 65536

/-- Does the frame an address of a leaf lies in exist? Host and remote frames are not checked here. -/
def State.hasFrame (s : State) (l : Leaf) (va : Nat) : Bool :=
  l.host || l.dev != s.dev || decide (vaultRow (l.frame + va % 2 ^ l.bits / 65536) < vaultRows)

/-- Translate an address for a request of a die, or as the home does, through at most one synonym (09 R292). A leaf of this device that
names a frame its vaults do not have maps nothing (log 10); an alias of a page of another size, which the spec forbids without naming
the fault, is not mapped (DESIGN CHOICE, log 112). -/
def State.lookupBy (s : State) (die : Option Nat) (asid va : Nat) : Except XKind Xl :=
  if 2 ^ vaBits ≤ va then .error .range
  else
    match s.entryBy die asid va with
    | .bad => .error .notMapped
    | .table _ => .error .notMapped
    | .leaf l => if s.hasFrame l va then .ok ⟨asid, va, l, l.r, l.w, l.x⟩ else .error .notMapped
    | .synonym n ca cb r w x =>
      let cva := cb + va % 2 ^ n
      match s.entryBy die ca cva with
      | .leaf l =>
        if l.bits ≠ n then .error .notMapped
        else if s.hasFrame l cva then .ok ⟨ca, cva, l, l.r && r, l.w && w, l.x && x⟩ else .error .notMapped
      | .synonym _ _ _ _ _ _ => .error .permission
      | _ => .error .notMapped

/-- Translate an address at its home. -/
def State.lookup (s : State) (asid va : Nat) : Except XKind Xl := s.lookupBy none asid va

/-- Rights an access needs (05 Table 5-2; 10 R308). -/
structure Need where
  r : Bool
  w : Bool
  x : Bool
deriving DecidableEq, Repr

/-- Read permission. -/
def needR : Need := ⟨true, false, false⟩
/-- Write permission. -/
def needW : Need := ⟨false, true, false⟩
/-- Read and write permission. -/
def needRW : Need := ⟨true, true, false⟩
/-- Execute permission. -/
def needX : Need := ⟨false, false, true⟩
/-- No permission. -/
def needNone : Need := ⟨false, false, false⟩

/-- Translate with a permission check (05 R149), at the controller that a request meets. -/
def State.translateBy (s : State) (die : Option Nat) (asid va : Nat) (n : Need) : Except XKind Xl :=
  match s.lookupBy die asid va with
  | .error k => .error k
  | .ok t => if (!n.r || t.r) && (!n.w || t.w) && (!n.x || t.x) then .ok t else .error .permission

/-- Translate with a permission check at the home. -/
def State.translate (s : State) (asid va : Nat) (n : Need) : Except XKind Xl := s.translateBy none asid va n

/-- Network interface of a core: one for each cluster (log 11). -/
def niOf (core : Nat) : Nat := core / 4

/-- Keep at most `n` entries. -/
def keepFirst {α : Type} (n : Nat) (l : List α) : List α := l.take n

/-- Keep a translation in a controller's cache, most recent first (09 R266). -/
def Slice.keepLeaf (x : Slice) (l : Leaf) : Slice :=
  { x with tcache := keepFirst 4096 (l :: x.tcache.filter fun k => k != l) }

/-- The controller that a request of a network interface meets keeps the leaf (09 R269, R289). -/
def State.keepAt (s : State) (ni asid va : Nat) (l : Leaf) : State :=
  let mc := controllerOf (some (ni / 32)) asid va
  s.setSlice mc ((s.slice mc).keepLeaf l)

/-- The state after a controller has answered for a page: its translation cache holds the leaf, and a synonym installs a remap
entry at the requesting network interface, most recent first (09 R289, R294). -/
def State.noteTranslation (s : State) (ni asid va : Nat) : State :=
  match s.entryBy (some (ni / 32)) asid va with
  | .leaf l => s.keepAt ni asid va l
  | .synonym n ca cb r w x =>
    let e : RemapEntry := ⟨asid, va / 2 ^ n * 2 ^ n, n, ca, cb, r, w, x⟩
    let fs := SMap.getD s.remap ni []
    let s1 := { s with remap := SMap.insert s.remap ni (keepFirst 256 (e :: fs.filter (fun k => k != e))) }
    match s1.entryBy (some (ni / 32)) ca (cb + va % 2 ^ n) with
    | .leaf l => s1.keepAt ni ca (cb + va % 2 ^ n) l
    | _ => s1
  | _ => s

/-- The remap entry of a network interface for an address (09 R294). -/
def State.remapFor (s : State) (ni asid va : Nat) : Option RemapEntry :=
  (SMap.getD s.remap ni []).find? fun e => e.asid == asid && va / 2 ^ e.bits * 2 ^ e.bits == e.base

/-- A use of the remap entry of an address: it is the most recently used of its filter (09 R266, R294). -/
def State.useRemap (s : State) (ni asid va : Nat) : State :=
  match s.remapFor ni asid va with
  | some e => { s with remap := SMap.insert s.remap ni (e :: (SMap.getD s.remap ni []).filter fun k => k != e) }
  | none => s

/-! ## Where a translated address lives -/

/-- The place of a byte behind the caches: this device's vaults, another device, or host memory (09 R268, R270). -/
inductive Place where
  | vault (pa : Nat)
  | remote (dev va : Nat)
  | host (port pa : Nat)
deriving DecidableEq, Repr

/-- The place of a translated address. -/
def State.placeOf (s : State) (t : Xl) : Place :=
  let off := t.va % 2 ^ t.leaf.bits
  if t.leaf.host then .host t.leaf.port (t.leaf.frame * 65536 + off)
  else if t.leaf.dev = s.dev then .vault (t.leaf.frame * 65536 + off)
  else .remote t.leaf.dev t.va

/-- The domain context tag of an address space on this device (11 R337). -/
def State.dctagOf (s : State) (asid : Nat) : Nat :=
  match s.ctxOfAsid asid with
  | some c => match SMap.find s.contexts c with
    | some x => x.dctag.toNat
    | none => 0
  | none => 0

/-- State of another device. -/
def State.remote (s : State) (d : Nat) : Remote := SMap.getD s.remotes d Remote.initial

/-- The memory a device shares under a tag (log 3). -/
def Remote.space (r : Remote) (tag : Nat) : SMap Byte :=
  match r.spaces.find? (fun x => x.tag == tag) with
  | some x => x.mem
  | none => []

/-- Replace the memory under a tag. -/
def Remote.setSpace (r : Remote) (tag : Nat) (m : SMap Byte) : Remote :=
  { r with spaces := r.spaces.filter (fun x => x.tag != tag) ++ [⟨tag, m⟩] }

/-- State of a host port. -/
def State.port (s : State) (p : Nat) : Port := SMap.getD s.ports p Port.reset
/-- Replace a port's state. -/
def State.setPort (s : State) (p : Nat) (x : Port) : State := { s with ports := SMap.insert s.ports p x }

/-- Read bytes behind the caches. -/
def State.readPlace (s : State) (asid : Nat) (p : Place) (n : Nat) : List Byte :=
  match p with
  | .vault pa => Memory.readN s.mem pa n
  | .host q pa => Memory.readN (s.port q).hostMem pa n
  | .remote d va => Memory.readN ((s.remote d).space (s.dctagOf asid)) va n

/-- Write bytes behind the caches. -/
def State.writePlace (s : State) (asid : Nat) (p : Place) (bs : List Byte) : State :=
  match p with
  | .vault pa => { s with mem := Memory.writeN s.mem pa bs }
  | .host q pa => s.setPort q { s.port q with hostMem := Memory.writeN (s.port q).hostMem pa bs }
  | .remote d va =>
    let r := s.remote d
    let tag := s.dctagOf asid
    { s with remotes := SMap.insert s.remotes d (r.setSpace tag (Memory.writeN (r.space tag) va bs)) }

end Sys2Proof.Machine
end

