-- ==== Sys2Proof/Machine/Cache.lean ====
section
/-! DEFINITION. Caches, home slices, update-only copies and pushes (05 R150 to R170, R181 to R184; 09 R266 to R288).
A tagged address is `asid * 2^56 + VA` under its canonical tag; its sector key is that divided by 32. -/

namespace Sys2Proof.Machine

/-- A tagged address. -/
def tagOf (asid va : Nat) : Nat := asid * 2 ^ 56 + va
/-- The tagged address of a translated access. -/
def Xl.tag (t : Xl) : Nat := tagOf t.asid t.va
/-- The virtual address in a tagged address. -/
def tagVa (a : Nat) : Nat := a % 2 ^ 56
/-- The address space in a tagged address. -/
def tagAsid (a : Nat) : Nat := a / 2 ^ 56

/-- A cache by number. Caches of this device have their local numbers 0..257; the die-0 die-level cache of device `e`, which
stands for that device, has `512 * (e + 1) + 256` (00 Table 0-5; 09 R270). -/
def State.cache (s : State) (n : Nat) : Cache := SMap.getD s.caches n Cache.empty
/-- Replace a cache. -/
def State.setCache (s : State) (n : Nat) (c : Cache) : State := { s with caches := SMap.insert s.caches n c }

/-- The cache that a number of 00 Table 0-5, as seen across devices, names here. -/
def State.localCache (s : State) (n : Nat) : Nat := if n / 512 = s.dev then n % 512 else 512 + n
/-- The number across devices of a cache (00 Table 0-5). -/
def State.domainCache (s : State) (n : Nat) : Nat := if n < 512 then 512 * s.dev + n else n - 512
/-- The device of a cache of another device. -/
def cacheDev (n : Nat) : Nat := n / 512 - 1

/-- The data cache a core uses: its own L1 or the fused L1 of its cluster (09 R271). -/
def State.cacheOf (s : State) (core : Nat) : Nat :=
  if s.fusedClusters.contains (core / 4) then core / 4 * 4 else core

/-- The slice that the home hash of a sector key gives (09 R268). -/
def homeOf (key : Nat) : Nat := homeSlice (keyAsid key) (keyVa key)

/-- A line of a cache. -/
def Cache.line (c : Cache) (tag : Nat) : Option Line := c.lines.find? fun l => l.tag == tag

/-- A sector of a cache, when it is not in I. -/
def Cache.sector (c : Cache) (key : Nat) : Option (SecState × SectorData) :=
  match c.line (key / 4) with
  | some l => SMap.find l.secs (key % 4)
  | none => none

/-- Hold a sector, its line most recently used. -/
def Cache.put (c : Cache) (key : Nat) (st : SecState) (d : SectorData) : Cache :=
  let l := match c.line (key / 4) with
    | some l => l
    | none => ⟨key / 4, [], false, false⟩
  { c with lines := { l with secs := SMap.insert l.secs (key % 4) (st, d) } :: c.lines.filter (fun l => l.tag != key / 4) }

/-- A line holds the rights its translation gave (09 R274). -/
def Cache.grant (c : Cache) (tag : Nat) (r w : Bool) : Cache :=
  { c with lines := c.lines.map fun l => if l.tag = tag then { l with r := r, w := w } else l }

/-- Remove a sector; a line without sectors goes. -/
def Cache.drop (c : Cache) (key : Nat) : Cache :=
  { c with lines := (c.lines.map fun l =>
      if l.tag = key / 4 then { l with secs := SMap.erase l.secs (key % 4) } else l).filter (fun l => !l.secs.isEmpty) }

/-- Make a line most recently used. -/
def Cache.touch (c : Cache) (tag : Nat) : Cache :=
  { c with lines := c.lines.filter (fun l => l.tag == tag) ++ c.lines.filter (fun l => l.tag != tag) }

/-- Sets of an L1: 128, or 512 over the members of a fused L1 (09 R266). -/
def State.setsOf (s : State) (n : Nat) : Nat := if s.fusedClusters.contains (n / 4) then 512 else 128

/-! ## Homes (09 R268 to R270) -/

/-- The leaf under which a line of the sector's page has come into its home slice. -/
def State.frameOf (s : State) (key : Nat) : Option Leaf :=
  (s.slice (homeOf key)).frames.find? fun l => l.maps (keyAsid key) (keyVa key)

/-- A leaf as the translation of a sector. -/
def Leaf.xl (l : Leaf) (key : Nat) : Xl := ⟨keyAsid key, keyVa key, l, l.r, l.w, l.x⟩

/-- The place of a sector behind the caches, when its page is mapped: that of the leaf under which its page's lines have come in, until
the page is shot down (07 R245; DEDUCED, log 138), else that of its translation. -/
def State.keyPlace (s : State) (key : Nat) : Option Place :=
  match s.frameOf key with
  | some l => some (s.placeOf (l.xl key))
  | none => match s.lookup (keyAsid key) (keyVa key) with
    | .ok t => some (s.placeOf t)
    | .error _ => none

/-- A line comes in from its page: the home keeps the leaf for as long as lines may go back under it. -/
def State.anchor (s : State) (key : Nat) : State :=
  match s.frameOf key, s.entryOf (keyAsid key) (keyVa key) with
  | none, .leaf l =>
    let x := s.slice (homeOf key)
    s.setSlice (homeOf key) { x with frames := l :: x.frames }
  | _, _ => s

/-- The slice that keeps a sector's directory entry: the home slice of a line of this device's memory; for a line in host memory
the proxy on the die of the page's port (00 R5, 09 R270); for a line homed on another device the proxy on die 0, whose die-level
cache stands for this device there. -/
def State.homeAt (s : State) (key : Nat) : Nat :=
  let h := homeOf key
  match s.keyPlace key with
  | some (.host p _) => partialHolder h p
  | some (.remote _ _) => partialHolder h 0
  | _ => h

/-- Is the line one of this device's memory, held in its L2 slice? -/
def State.homeLine (s : State) (key : Nat) : Bool :=
  match s.keyPlace key with
  | some (.vault _) => true
  | some _ => false
  | none => true

/-- The device a line is homed on, when that is another one, in reach (09 R270). -/
def State.homeDevice (s : State) (key : Nat) : Option Nat :=
  match s.keyPlace key with
  | some (.remote d _) => if (s.remote d).reachable then some d else none
  | _ => none

/-- Is the line homed on another device (09 R270)? -/
def State.remoteLine (s : State) (key : Nat) : Bool :=
  match s.keyPlace key with
  | some (.remote _ _) => true
  | _ => false

/-- Does the die-level cache of a die serve a line: one that is not in device memory homed on the die (09 R269)? -/
def State.servedBy (s : State) (d key : Nat) : Bool := !(s.homeLine key && dieOf (homeOf key) == d)

/-- Does the die-level cache of a die include a cache's copies of a line: those of its L1s, and on a line of another device, which die 1
reaches through die 0, in die 0's those of die 1 (09 R269, R270)? -/
def State.includes (s : State) (key d n : Nat) : Bool :=
  decide (n < 256) && (n / 128 == d || (d == 0 && s.remoteLine key))

/-- The value of a sector at its home: the L2 copy, else memory (09 R268, R270). -/
def State.homeRead (s : State) (key : Nat) : SectorData :=
  match SMap.find (s.slice (homeOf key)).l2 key with
  | some (d, _) => d
  | none =>
    match s.keyPlace key with
    | some p => secOf (s.readPlace (keyAsid key) p 32)
    | none => 0

/-- Write a sector at its home: a device line into its L2 slice, another device's or host memory at its place. -/
def State.homePut (s : State) (key : Nat) (d : SectorData) : State :=
  match s.keyPlace key with
  | some (.host q pa) => s.writePlace (keyAsid key) (.host q pa) (secBytes d 0 32)
  | some (.remote e va) => s.writePlace (keyAsid key) (.remote e va) (secBytes d 0 32)
  | _ =>
    let s1 := s.anchor key
    let x := s1.slice (homeOf key)
    s1.setSlice (homeOf key) { x with l2 := SMap.insert x.l2 key (d, true) }

/-- Write a home sector to its vault (05 R177); it stays in L2, clean. -/
def State.flushHome (s : State) (key : Nat) : State :=
  let x := s.slice (homeOf key)
  match SMap.find x.l2 key with
  | some (d, true) =>
    match s.keyPlace key with
    | some (.vault pa) =>
      (s.setSlice (homeOf key) { x with l2 := SMap.insert x.l2 key (d, false) }).writePlace 0 (.vault pa) (secBytes d 0 32)
    | _ => s
  | _ => s

/-- A memory or coherence packet of a class about a sector leaves a die toward another device (11 R327, R338; log 113). -/
def State.linePacket (s : State) (die dev cls key : Nat) : State :=
  s.newPacket die dev cls (lineSpread (keyAsid key) (keyVa key))

/-- One goes to the home of a line of another device; it leaves die 0, whose die-level cache stands for this device there (09 R270). -/
def State.toHome (s : State) (cls key : Nat) : State :=
  match s.homeDevice key with
  | some e => s.linePacket 0 e cls key
  | none => s

/-- One goes to a holder on another device. -/
def State.toHolder (s : State) (n cls key : Nat) : State :=
  if n < 512 then s else s.linePacket (dieOf (s.homeAt key)) (cacheDev n) cls key

/-- Forget a home sector after it has been flushed. -/
def State.dropHome (s : State) (key : Nat) : State :=
  let s1 := s.flushHome key
  let x := s1.slice (homeOf key)
  s1.setSlice (homeOf key) { x with l2 := SMap.erase x.l2 key }

/-! ## Holders and the directory -/

/-- The caches that hold a sector. -/
def State.holders (s : State) (key : Nat) : List (Nat × SecState × SectorData) :=
  s.caches.filterMap fun e =>
    match e.2.sector key with
    | some (st, d) => some (e.1, st, d)
    | none => none

/-- Subscriptions that are live (09 R287). -/
def SubEntry.live (e : SubEntry) : Bool := e.state != .lapsed

/-- Is the binding one of a live subscription to a block of the line: its home has answered, and is not lost? -/
def Bound.covers (b : Bound) (tag : Nat) : Bool := b.handle.isSome && !b.lapsed && b.block / 128 == tag

/-- Does this device subscribe to a block of a line that is homed on another, whose home then grants it no E, M or U (09 R275)? -/
def State.subscribedAbroad (s : State) (key : Nat) : Bool :=
  s.teams.any (fun t => t.2.segs.any fun g => g.2.bound.any fun b => b.2.covers (key / 4)) && s.remoteLine key

/-- Does a live subscription cover a block of the line (09 R287): one that its home here has, or one of this device at a home on
another? -/
def State.subscribed (s : State) (key : Nat) : Bool :=
  ((s.slice (s.homeAt key)).subs.any fun e =>
    e.2.live && e.2.asid == keyAsid key && e.2.block / 128 == keyVa key / 128) || s.subscribedAbroad key

/-- The agent a home sees for a cache: itself on the home's die, the die-level cache of another die, and of another device that
device's (09 R269, R276). -/
def State.agentOf (s : State) (key n : Nat) : Nat :=
  if 256 ≤ n then n else if n / 128 = dieOf (s.homeAt key) then n else 256 + n / 128

/-- What the die-level cache of a die holds of a sector that it serves: the state of the L1 copies it includes, a U copy of its own at
the identity; once those have gone, the S it had (09 R269, R275). -/
def State.dieSector (s : State) (key d : Nat) : Option (SecState × SectorData) :=
  let hs := (s.holders key).filter fun h => s.includes key d h.1
  match hs.find? fun h => h.2.1 != .s with
  | some (_, .u op, _) => some (.u op, op.identity)
  | some (_, st, x) => some (st, x)
  | none =>
    match hs with
    | (_, st, x) :: _ => some (st, x)
    | [] => match (s.cache (256 + d)).sector key with
      | some (.s, x) => some (.s, x)
      | _ => none

/-- The rights that the translation of a line gives. -/
def State.keyRights (s : State) (key : Nat) : Bool × Bool :=
  match s.lookup (keyAsid key) (keyVa key) with
  | .ok t => (t.r, t.w)
  | .error _ => (false, false)

/-- A cache holds a sector, its line with the rights of this grant (09 R274). -/
def State.hold (s : State) (n key : Nat) (st : SecState) (d : SectorData) : State :=
  s.setCache n (((s.cache n).put key st d).grant (key / 4) (s.keyRights key).1 (s.keyRights key).2)

/-- Bring the die-level caches up to date with the L1s they include (09 R269, R270). -/
def State.mirror (s : State) (key : Nat) : State :=
  [1, 0].foldl (fun st d =>
    if !st.servedBy d key || (st.cache (256 + d)).sector key == st.dieSector key d then st
    else match st.dieSector key d with
      | some (x, v) => st.hold (256 + d) key x v
      | none => st.setCache (256 + d) ((st.cache (256 + d)).drop key)) s

/-- The directory record of a sector from its holders (09 R276): for the home itself its die-level cache is no agent. -/
def State.dirKind (s : State) (key : Nat) : Option DirRec :=
  let hs := (s.holders key).filter fun h => h.1 != 256 + dieOf (s.homeAt key)
  let who := ((hs.map fun h => s.agentOf key h.1).eraseDups)
  match hs with
  | [] => none
  | (n, .m, _) :: _ => some (.priv (s.agentOf key n))
  | (n, .e, _) :: _ => some (.priv (s.agentOf key n))
  | (_, .s, _) :: _ => some (if s.subscribed key then .subscribed who else .shared who)
  | (_, .u op, _) :: _ => some (.update op who)

/-- The agents a record names. -/
def DirRec.agents : DirRec → List Nat
  | .priv n => [n]
  | .shared w => w
  | .update _ w => w
  | .subscribed w => w

/-- Incarnation of an agent that a directory entry names (09 R276, R285). -/
def State.agentInc (s : State) (n : Nat) : BitVec 8 := if n < 512 then (s.cache n).inc else (s.remote (cacheDev n)).inc

/-- The collapse in progress of a sector. -/
def State.collapseRec (s : State) (key : Nat) : Option Collapse :=
  (s.slice (s.homeAt key)).colls.find? fun c => c.key == key

/-- The directory entry of a sector: its record, whether it collapses, and the incarnations of the agents it names (09 R276). -/
def State.dirRecord (s : State) (key : Nat) : Option DirEntry :=
  match s.dirKind key with
  | some k => some ⟨k, (s.collapseRec key).isSome, k.agents.map fun n => (n, s.agentInc n)⟩
  | none => none

/-- Is a U copy of some sector of the line held? -/
def State.lineHasU (s : State) (tag : Nat) : Bool :=
  s.caches.any fun c => c.2.lines.any fun l => l.tag == tag && l.secs.any fun e =>
    match e.2.1 with
    | .u _ => true
    | _ => false

/-- Bring the die-level caches, and the directory and the list of U lines of the home, up to date with the L1s (09 R269, R276,
R278). -/
def State.syncDir (s0 : State) (key : Nat) : State :=
  let s := s0.mirror key
  let h := s.homeAt key
  let x := s.slice h
  let dir := match s.dirRecord key with
    | some r => SMap.insert x.dir key r
    | none => SMap.erase x.dir key
  let us := if s.lineHasU (key / 4) then
      (if x.uLines.contains (key / 4) then x.uLines else key / 4 :: x.uLines)
    else x.uLines.filter (fun t => t != key / 4)
  s.setSlice h { x with dir := dir, uLines := us }

/-! ## Collapse (09 R279 to R281) -/

/-- Remove or replace the collapse record of a sector. -/
def State.setCollapse (s : State) (key : Nat) (c : Option Collapse) : State :=
  let h := s.homeAt key
  let x := s.slice h
  (s.setSlice h { x with colls := x.colls.filter (fun k => k.key != key) ++ c.toList }).syncDir key

/-- Parked copies of a sector at a partial holder: cache number and data. -/
def Slice.parked (x : Slice) (key : Nat) : List (Nat × UOp × SectorData) :=
  x.park.filterMap fun e => if e.1.1 = key then some (e.1.2, e.2.1, e.2.2) else none

/-- The partial holder of a die for a sector (09 R279 step 3). -/
def State.holderOf (s : State) (key d : Nat) : Nat := partialHolder (s.homeAt key) d

/-- The operator under which a sector has U copies anywhere, if any. -/
def State.uOp (s : State) (key : Nat) : Option UOp :=
  let fromCaches := (s.holders key).findSome? fun h =>
    match h.2.1 with
    | .u op => some op
    | _ => none
  let fromSlice := fun d : Nat =>
    let x := s.slice (s.holderOf key d)
    match x.parked key with
    | (_, op, _) :: _ => some op
    | [] => (SMap.find x.die key).map Prod.fst
  match fromCaches with
  | some op => some op
  | none => match s.collapseRec key with
    | some c => some c.op
    | none => match fromSlice 0 with
      | some op => some op
      | none => fromSlice 1

/-- The copies in U of caches for which `f` holds, in the caches or on their way in a collapse, by cache number. -/
def State.uCopies (s : State) (key : Nat) (f : Nat → Bool) : SMap SectorData :=
  let inCaches := (s.holders key).filterMap fun h =>
    match h.2.1 with
    | .u _ => if f h.1 then some (h.1, h.2.2) else none
    | _ => none
  let moving := match s.collapseRec key with
    | some c => c.copies.filter fun e => f e.1
    | none => []
  (inCaches ++ moving).foldl (fun m e => SMap.insert m e.1 e.2) []

/-- The U copies of a die, by cache number: in its L1s, parked, or on their way to the partial holder. -/
def State.dieCopies (s : State) (key d : Nat) : SMap SectorData :=
  (((s.slice (s.holderOf key d)).parked key).map fun p => (p.1, p.2.2)).foldl (fun m e => SMap.insert m e.1 e.2)
    (s.uCopies key fun n => n / 128 == d)

/-- What a die's partial starts from: its die copy (09 R280); a partial formed so far takes up a die copy merged since, whose
operator gives the same bits in every order (09 R281, R282). -/
def State.dieBase (s : State) (key d : Nat) : Option SectorData :=
  let formed := match s.collapseRec key with
    | some c => SMap.find c.partials d
    | none => none
  match formed, SMap.find (s.slice (s.holderOf key d)).die key with
  | some p, some (op, e) => some (op.merge p e)
  | some p, none => some p
  | none, some (_, e) => some e
  | none, none => none

/-- The partial of a die, or none when it holds nothing (09 R280). -/
def State.diePartial (s : State) (key : Nat) (op : UOp) (d : Nat) : Option SectorData :=
  let cs := s.dieCopies key d
  match s.dieBase key d with
  | some b => some (cs.foldl (fun p e => op.merge p e.2) b)
  | none => if cs.isEmpty then none else some (cs.foldl (fun p e => op.merge p e.2) op.identity)

/-- The device partials Q of other devices that hold copies, ascending (09 R280): each is what that device's die-0 die-level cache
holds. -/
def State.devicePartials (s : State) (key : Nat) : List SectorData :=
  (s.uCopies key fun n => decide (512 ≤ n)).map Prod.snd

/-- Remove every U copy, parked copy and die copy of a sector, and its collapse record. -/
def State.clearU (s : State) (key : Nat) : State :=
  let s1 := (s.holders key).foldl (fun st e =>
    match e.2.1 with
    | .u _ => st.setCache e.1 ((st.cache e.1).drop key)
    | _ => st) s
  let clean := fun (st : State) (n : Nat) =>
    let x := st.slice n
    st.setSlice n { x with park := x.park.filter (fun e => e.1.1 != key), die := SMap.erase x.die key }
  (clean (clean s1 (s.holderOf key 0)) (s.holderOf key 1)).setCollapse key none

/-- The sectors whose collapse a group has forced and that has not completed: a FENCE waits for it (05 R175). -/
def State.forcedBy (s : State) (uid : Nat) : List Nat :=
  (s.slices.map fun e => (e.2.colls.filter fun c => c.forcer == some uid).map Collapse.key).flatten

/-- Fold a present partial. -/
def foldPart (op : UOp) (v : SectorData) : Option SectorData → SectorData
  | some p => op.merge v p
  | none => v

/-- The value a collapse writes: the home value folded with the die partials, the home's die first, then with the partials of
other devices; on a line homed on another device, this device's partial formed from the identity (09 R280). -/
def State.collapseValue (s : State) (key : Nat) (op : UOp) : SectorData :=
  let v := s.homeRead key
  let p0 := s.diePartial key op 0
  let p1 := s.diePartial key op 1
  match s.keyPlace key with
  | some (.remote _ _) => op.merge v (foldPart op (foldPart op op.identity p0) p1)
  | _ => (s.devicePartials key).foldl op.merge
      (if dieOf (s.homeAt key) = 0 then foldPart op (foldPart op v p0) p1 else foldPart op (foldPart op v p1) p0)

/-- Collapse a sector completely, with the operation that writes its home. -/
def State.collapseBy (write : State → Nat → SectorData → State) (s : State) (key : Nat) : State :=
  match s.uOp key with
  | none => s
  | some op =>
    let called := if (s.collapseRec key).isSome then s else (s.holders key).foldl (fun st h => st.toHolder h.1 4 key) s
    (write (called.clearU key) key (called.collapseValue key op)).syncDir key

/-! ## Evictions (09 R266, R281, R284) -/

/-- An evicted U copy merges early into its die copy, is parked, or forces the collapse when no slot is free (09 R281). -/
def State.evictUBy (write : State → Nat → SectorData → State) (s : State) (n key : Nat) (op : UOp) (d : SectorData) :
    State :=
  let ph := s.holderOf key (n / 128)
  let x := s.slice ph
  let s1 := s.setCache n ((s.cache n).drop key)
  if op.mergesEarly then
    let old := match SMap.find x.die key with
      | some (_, p) => p
      | none => op.identity
    (s1.setSlice ph { x with die := SMap.insert x.die key (op, op.merge old d) }).syncDir key
  else
    let s2 := s1.setSlice ph { x with park := x.park ++ [((key, n), (op, d))] }
    if x.park.length < 64 then s2.syncDir key else s2.collapseBy write key

/-- Lines in a write-back buffer. -/
def Cache.wbLines (c : Cache) : List Nat := (c.wbuf.map fun e => e.1 / 4).eraseDups

/-- The write-backs of the lines for which `f` holds reach their homes and are acknowledged (09 R284). -/
def State.flushBy (write : State → Nat → SectorData → State) (s : State) (n : Nat) (f : Nat → Bool) : State :=
  let ws := (s.cache n).wbuf.filter fun e => f (e.1 / 4)
  let s1 := ws.foldl (fun st e => if e.2.2 then st else write st e.1 e.2.1) s
  s1.setCache n { s1.cache n with wbuf := (s1.cache n).wbuf.filter fun e => !f (e.1 / 4) }

/-- A free line of a write-back buffer for a line: with all 16 in use, the eviction waits until the write-back of one has reached its
home and been acknowledged (09 R266, R284); the spec does not say which, the model takes the buffered line of the lowest sector key
(DESIGN CHOICE, log 111). -/
def State.roomBy (write : State → Nat → SectorData → State) (s : State) (n tag : Nat) : State :=
  let ls := (s.cache n).wbLines
  if ls.contains tag || decide (ls.length < 16) then s
  else match ls with
    | t :: _ => s.flushBy write n (· == t)
    | [] => s

/-- Evict one sector: M through the write-back buffer, U by parking or early merge, the others silently (09 Table 9-3). -/
def State.evictBy (write : State → Nat → SectorData → State) (s : State) (n key : Nat) : State :=
  match (s.cache n).sector key with
  | some (.m, d) =>
    let s1 := s.roomBy write n (key / 4)
    let c1 := s1.cache n
    (s1.setCache n { c1.drop key with wbuf := SMap.insert c1.wbuf key (d, false) }).syncDir key
  | some (.u op, d) => s.evictUBy write n key op d
  | some _ => (s.setCache n ((s.cache n).drop key)).syncDir key
  | none => s

/-- Sets and ways of an L2 slice of 6 MiB (00 R2, 09 R266); the set of a line is its tag modulo the sets (log 60). -/
def l2Sets : Nat := 6 * 2 ^ 20 / 128 / 16
/-- Ways of an L2 slice. -/
def l2Ways : Nat := 16

/-- The line a slice has no way for, the least recently used of a set that holds more than 16. -/
def Slice.excess (x : Slice) (tag : Nat) : Option (Bool × Nat) :=
  let same := x.lru.filter fun e => e.2 % l2Sets == tag % l2Sets
  if same.length ≤ l2Ways then none else same.getLast?

/-- Does a slice still hold anything of a line: a sector of the home line, or of the line in its die's die-level cache, or a die copy? A
way whose line holds nothing is free. -/
def State.resident (s : State) (h : Nat) (e : Bool × Nat) : Bool :=
  (run (4 * e.2) 4).any fun k => SMap.has (s.slice h).die k ||
    (if e.1 then ((s.cache (256 + dieOf h)).sector k).isSome else SMap.has (s.slice h).l2 k)

/-- A line of a slice is the most recently used; ways of its set whose line has gone are free. -/
def State.useWay (s : State) (h : Nat) (die : Bool) (tag : Nat) : State :=
  let x := s.slice h
  s.setSlice h { x with lru := (die, tag) :: x.lru.filter fun e =>
    e != (die, tag) && (e.2 % l2Sets != tag % l2Sets || s.resident h e) }

/-- A line of a slice is in it no more. -/
def Slice.unuse (x : Slice) (die : Bool) (tag : Nat) : Slice := { x with lru := x.lru.filter fun e => e != (die, tag) }

/-- A die copy evicted from its slice merges early into the home value (09 R281). -/
def State.mergeDieBy (write : State → Nat → SectorData → State) (s : State) (h key : Nat) : State :=
  let x := s.slice h
  match SMap.find x.die key with
  | some (op, d) =>
    let v := s.homeRead key
    write (s.setSlice h { x with die := SMap.erase x.die key }) key (op.merge v d)
  | none => s

/-- Write a sector at its home without taking a way of an L2 slice: over the slice's copy, or behind it. -/
def State.homePass (s : State) (key : Nat) (d : SectorData) : State :=
  match s.keyPlace key with
  | some (.vault pa) =>
    if SMap.has (s.slice (homeOf key)).l2 key then s.homePut key d else s.writePlace 0 (.vault pa) (secBytes d 0 32)
  | _ => (s.homePut key d).toHome 2 key

/-- A home line leaves its slice: its die copies merge into the home value, and what is dirty goes to the vault. -/
def State.evictHome (s : State) (h tag : Nat) : State :=
  (run (4 * tag) 4).foldl (fun st k => (st.mergeDieBy State.homePass h k).dropHome k)
    (s.setSlice h ((s.slice h).unuse false tag))

/-- A die-level line leaves its slice: every copy in the L1s that the die-level cache includes is evicted (09 R269), and its die
copies merge into the home value. What that writes takes no way of a slice. -/
def State.evictDie (s : State) (h tag : Nat) : State :=
  let d := dieOf h
  let one := fun (st : State) (k : Nat) =>
    let mine := (st.holders k).filter fun e => st.includes k d e.1
    let st1 := mine.foldl (fun u e => u.evictBy State.homePass e.1 k) st
    let st2 := (if d = 0 ∧ s.remoteLine k then [256, 257] else [256 + d]).foldl (fun u n => u.setCache n ((u.cache n).drop k)) st1
    (st2.syncDir k).mergeDieBy State.homePass h k
  (run (4 * tag) 4).foldl one (s.setSlice h ((s.slice h).unuse true tag))

/-- Use a line of a slice; where its set then holds more than 16 lines, the least recently used leaves (09 R266). -/
def State.useLine (s : State) (h : Nat) (die : Bool) (tag : Nat) : State :=
  let s1 := s.useWay h die tag
  match (s1.slice h).excess tag with
  | some (false, t) => s1.evictHome h t
  | some (true, t) => s1.evictDie h t
  | none => s1

/-- A sector has a new value at its home; a line of this device's memory takes a way of its L2 slice (09 R266, R268, R270). -/
def State.homeSet (s : State) (key : Nat) (d : SectorData) : State :=
  let s1 := s.homePut key d
  if s.homeLine key then s1.useLine (homeOf key) false (key / 4) else s1

/-- Data of a sector goes to its home. -/
def State.homeWrite (s : State) (key : Nat) (d : SectorData) : State := (s.homeSet key d).toHome 2 key

/-- Keep a clean copy of a home line of this device's memory in its L2 slice. -/
def State.homeKeep (s : State) (key : Nat) : State :=
  match s.keyPlace key with
  | some (.vault _) =>
    let h := homeOf key
    let s0 := s.anchor key
    let x := s0.slice h
    let s1 := if SMap.has x.l2 key then s0 else s0.setSlice h { x with l2 := SMap.insert x.l2 key (s.homeRead key, false) }
    s1.useLine h false (key / 4)
  | _ => s

/-- Collapse a sector completely (09 R279, R280); this device's partial goes to a home on another device. -/
def State.collapseNow (s : State) (key : Nat) : State := s.collapseBy (fun st k d => (st.homeSet k d).toHome 4 k) key

/-- A die copy takes a way of its slice: of its home line, or of its line in the die-level cache (09 R281). -/
def State.keepDie (s : State) (n key : Nat) : State :=
  let ph := s.holderOf key (n / 128)
  if SMap.has (s.slice ph).die key then s.useLine ph (!(s.homeLine key && ph == homeOf key)) (key / 4) else s

/-- Evict a U copy (09 R281). -/
def State.evictU (s : State) (n key : Nat) (op : UOp) (d : SectorData) : State :=
  (s.evictUBy State.homeWrite n key op d).keepDie n key

/-- Write back everything in a write-back buffer and free it. -/
def State.flushWb (s : State) (n : Nat) : State := s.flushBy State.homeWrite n fun _ => true

/-- Evict one sector of a cache. -/
def State.evictSector (s : State) (n key : Nat) : State := (s.evictBy State.homeWrite n key).keepDie n key

/-- Evict every sector of a line. -/
def State.evictLine (s : State) (n tag : Nat) : State :=
  (run (4 * tag) 4).foldl (fun st k => st.evictSector n k) s

/-- Make room in an L1 for a line: 8 ways, least recently used (09 R266). Die-level lines take ways of their slices. -/
def State.makeRoom (s : State) (n tag : Nat) : State :=
  if 256 ≤ n then s
  else
    let k := s.setsOf n
    let ls := (s.cache n).lines
    if ls.any (fun l => l.tag == tag) then s
    else
      let same := ls.filter fun l => l.tag % k == tag % k
      match same.getLast? with
      | some l => if 8 ≤ same.length then s.evictLine n l.tag else s
      | none => s

/-! ## What reaches every copy -/

/-- Write the unfinished write-backs of a sector to the home (09 Table 9-4). -/
def State.drainWb (s : State) (key : Nat) : State :=
  s.caches.foldl (fun st e =>
    match SMap.find e.2.wbuf key with
    | some (d, false) =>
      let st1 := st.homeWrite key d
      let c := st1.cache e.1
      st1.setCache e.1 { c with wbuf := SMap.insert c.wbuf key (d, true) }
    | _ => st) s

/-- Does a write-back buffer still have to supply a sector to its home (09 Table 9-4)? -/
def Cache.owes (c : Cache) (key : Nat) : Bool :=
  match SMap.find c.wbuf key with
  | some (_, false) => true
  | _ => false

/-- Does another cache's write-back buffer still have to supply the sector? -/
def State.bufferedElsewhere (s : State) (n key : Nat) : Bool := s.caches.any fun e => e.1 != n && e.2.owes key

/-- Of the caches for which `f` holds, an M owner's data goes to the home, and an M or E copy becomes `S` (09 Table 9-3, forwarded
read). -/
def State.shareAt (s : State) (key : Nat) (f : Nat → Bool) : State :=
  (s.holders key).foldl (fun st h =>
    match h.2.1, f h.1 with
    | .m, true =>
      let st1 := (st.toHolder h.1 1 key).homeWrite key h.2.2
      st1.setCache h.1 ((st1.cache h.1).put key .s h.2.2)
    | .e, true =>
      let st1 := st.toHolder h.1 1 key
      st1.setCache h.1 ((st1.cache h.1).put key .s h.2.2)
    | _, _ => st) s

/-- Every M or E copy becomes `S`, buffered data and an M owner's at the home. -/
def State.shareOut (s : State) (key : Nat) : State := (s.drainWb key).shareAt key fun _ => true

/-- Helper slices of a hot line homed in slice `h` (11 R331). -/
def helpersOf (h : Nat) : List Nat := [h ^^^ 8, h ^^^ 16]

/-- A hot line is revoked before an access that is not a read reaches it (11 R332): its redirect entries go, its helpers
invalidate their sharers and drop their replicas, and the home invalidates its own sharers. -/
def State.revokeHot (s : State) (tag : Nat) : State :=
  let h := s.homeAt (4 * tag)
  let x := s.slice h
  if x.hot.contains tag then
    let s1 := { s.setSlice h { x with hot := x.hot.filter (· != tag) } with
      redirect := s.redirect.map fun e => (e.1, e.2.filter fun r => r.tag != tag) }
    let s2 := (helpersOf h).foldl (fun st k =>
      let y := st.slice k
      st.setSlice k { y with replica := y.replica.filter (fun e => e.1 / 4 != tag), helped := SMap.erase y.helped tag }) s1
    (run (4 * tag) 4).foldl (fun st k =>
      ((st.holders k).foldl (fun u e =>
        if e.2.1 = .s then (u.toHolder e.1 1 k).setCache e.1 ((u.cache e.1).drop k) else u) st).syncDir k) s2
  else s

/-- The other devices that a discovery broadcast for a line of this device reaches: those of its context's device set, when its page is
one that devices share (09 R277). -/
def State.discovered (s : State) (tag : Nat) : List Nat :=
  match s.lookup (keyAsid (4 * tag)) (keyVa (4 * tag)), s.ctxOfAsid (keyAsid (4 * tag)) with
  | .ok t, some c =>
    if t.leaf.xdev && !s.remoteLine (4 * tag) then
      (run 0 256).filter fun d => (SMap.getD s.contexts c Context.free).devset.getLsbD d && d != s.dev && (s.remote d).reachable
    else []
  | _, _ => []

/-- A discovery broadcast (09 R277): the holders of a line answer, M owners and write-back buffers with their data, and the home's
records of its sectors are built again. One packet goes to each other device it reaches (11 R327). -/
def State.discover (s : State) (tag : Nat) : State :=
  (run (4 * tag) 4).foldl (fun st k =>
    ((st.holders k).foldl (fun x h => if h.2.1 = .m then x.homeWrite k h.2.2 else x) (st.drainWb k)).syncDir k)
    ((s.discovered tag).foldl (fun st d => st.linePacket (dieOf (s.homeAt (4 * tag))) d 1 (4 * tag)) s)

/-- A miss at a home that has no entry for the line broadcasts first (09 R277). -/
def State.found (s : State) (key : Nat) : State :=
  if (run (key / 4 * 4) 4).any (SMap.has (s.slice (s.homeAt key)).dir) then s else s.discover (key / 4)

/-- Every copy goes, an M owner's data to the home (09 Table 9-3, invalidate). -/
def State.invalidateAll (s : State) (key : Nat) : State :=
  let s0 := (s.revokeHot (key / 4)).drainWb key
  ((s0.holders key).foldl (fun st h =>
    let st1 := if h.2.1 = .m then (st.toHolder h.1 1 key).homeWrite key h.2.2 else st.toHolder h.1 1 key
    st1.setCache h.1 ((st1.cache h.1).drop key)) s0).syncDir key

/-! ## Accesses -/

/-- May a line of the page be held E or M: does its entry give write permission (09 R274)? -/
def State.keyWritable (s : State) (key : Nat) : Bool := (s.keyRights key).2

/-- The dies whose die-level cache a fill of an L1 takes a way of: its own, for a line that cache serves, and die 0's too for a line of
another device (09 R269, R270). -/
def State.fillDies (s : State) (n key : Nat) : List Nat :=
  if 256 ≤ n then [] else (run 0 2).filter fun d => s.servedBy d key && s.includes key d n

/-- Put a sector into a cache, making room first, in the die-level caches that include it too (09 R269, R274). -/
def State.fill (s : State) (n key : Nat) (st : SecState) (d : SectorData) : State :=
  let s0 := (s.anchor key).makeRoom n (key / 4)
  let s1 := (s0.fillDies n key).foldl (fun u e => u.useLine (u.holderOf key e) true (key / 4)) s0
  (s1.hold n key st d).syncDir key

/-- Does a read of the sector by this cache hit? -/
def State.hits (s : State) (n key : Nat) : Bool :=
  match (s.cache n).sector key with
  | some (.u _, _) => false
  | some _ => true
  | none => false

/-- Does a cache hold the sector in S, as it keeps a sector that WAITA watches (05 R173)? -/
def State.keeps (s : State) (n key : Nat) : Bool :=
  match (s.cache n).sector key with
  | some (.s, _) => true
  | _ => false

/-- The helper that serves a cache's reads of a line, with its replica of the sector (11 R331): the redirect entry of the L1's
network interface names it (log 11). -/
def State.helperOf (s : State) (n key : Nat) : Option (Nat × SectorData) :=
  match (SMap.getD s.redirect (n / 4) []).find? fun r => r.tag == key / 4 with
  | some r => (SMap.find (s.slice r.helper).replica key).map fun d => (r.helper, d)
  | none => none

/-- Fabric cycles of the window of 11 R330. -/
def hotWindow : Nat := 4096

/-- Does the die-level cache of an L1's die serve its read miss, from a copy it holds already (09 R269)? -/
def State.dieServes (s : State) (n key : Nat) : Bool :=
  decide (n < 256) && s.servedBy (n / 128) key && s.hits (256 + n / 128) key

/-- A home notes the read misses it serves, with the quadrant of the L1 (11 R330). -/
def State.noteRead (s : State) (n key : Nat) (byDie : Bool) : State :=
  let h := s.homeAt key
  let x := s.slice h
  if n < 256 ∧ !byDie then
    s.setSlice h { x with
      reads := x.reads.filter (fun r => decide (s.fabric < r.1 + hotWindow)) ++ [(s.fabric, key / 4, n / 32)] }
  else s

/-- A read miss that its home serves: E where no other cache holds the sector, else S (09 Table 9-3); S also where a write-back
buffer supplied the data (09 Table 9-4) and for a hot line (11 R331). -/
def State.missAtHome (s : State) (n key : Nat) : State × SectorData :=
  let buffered := s.bufferedElsewhere n key
  let s1 := ((((s.toHome 0 key).found key).collapseNow key).shareOut key).homeKeep key
  let d := s1.homeRead key
  let alone := (s1.holders key).isEmpty && !buffered && s1.keyWritable key && !s1.subscribed key
    && !(s1.slice (s1.homeAt key)).hot.contains (key / 4)
  ((s1.noteRead n key (s.dieServes n key)).fill n key (if alone then .e else .s) d, d)

/-- A read miss that a helper serves: in S, the L1 becoming one of the helper's sharers (11 R331). -/
def State.missAtHelper (s : State) (n key helper : Nat) (d : SectorData) : State × SectorData :=
  let x := s.slice helper
  let who := SMap.getD x.helped (key / 4) []
  let y : Slice := { x with helped := SMap.insert x.helped (key / 4) (n :: who.filter (· != n)) }
  ((s.setSlice helper y).fill n key .s d, d)

/-- A local read of a sector (09 Table 9-3): a miss collapses U copies, takes the owner's data, and fills E or S. -/
def State.readSec (s : State) (n key : Nat) : State × SectorData :=
  match (s.cache n).sector key with
  | some (.m, d) => (s.setCache n ((s.cache n).touch (key / 4)), d)
  | some (.e, d) => (s.setCache n ((s.cache n).touch (key / 4)), d)
  | some (.s, d) => (s.setCache n ((s.cache n).touch (key / 4)), d)
  | _ =>
    match s.helperOf n key with
    | some (h, d) => s.missAtHelper n key h d
    | none => s.missAtHome n key

/-- Bring a sector into a cache in M or E for a write, with its data (09 Table 9-3, local write). -/
def State.ownSec (s : State) (n key : Nat) : State × SectorData :=
  match (s.cache n).sector key with
  | some (.m, d) => (s.setCache n ((s.cache n).touch (key / 4)), d)
  | some (.e, d) => (s.setCache n ((s.cache n).touch (key / 4)), d)
  | _ =>
    let s1 := ((((s.toHome 0 key).found key).collapseNow key).invalidateAll key).homeKeep key
    let d := s1.homeRead key
    (s1.fill n key .e d, d)

/-- What every agent sees of a sector, without a request: an M copy, a buffered write-back, else the home value. -/
def State.peekSec (s : State) (key : Nat) : SectorData :=
  match (s.holders key).find? (fun h => h.2.1 == .m) with
  | some h => h.2.2
  | none =>
    match s.caches.findSome? (fun e => match SMap.find e.2.wbuf key with
        | some (d, false) => some d
        | _ => none) with
    | some d => d
    | none => s.homeRead key

/-! ## Pushes (05 R181 to R184) -/

/-- The bytes of a block at its home. -/
def State.blockBytes (s : State) (asid block size : Nat) : List Byte :=
  (run block size).map fun a =>
    match secBytes (s.homeRead (secKey asid a)) (a % 32) 1 with
    | b :: _ => b
    | [] => 0

/-- A handle (05 Table 5-9). -/
def handleOf (dev slice entry : Nat) (gen : BitVec 6) : Word :=
  BitVec.ofNat 32 (dev * 2 ^ 22 + slice * 2 ^ 16 + entry * 2 ^ 6 + gen.toNat)

/-- Send a push of an entry to its subscriber's device; one to another device is on its way until that reports it written. -/
def State.sendPush (s : State) (h idx : Nat) (e : SubEntry) (p : Push) : State :=
  let m : Msg := .push s.dev h idx e.team e.seg e.line e.strict p e.gen
  let s1 := s.sendTo (dieOf h) e.dev (s.dctagOf e.asid) m
  if e.dev = s.dev then s1 else { s1 with flying := s1.flying ++ [(handleOf s.dev h idx e.gen, e.dev)] }

/-- Generate a push of an entry after a write at the home (05 R183, R184, R188). -/
def State.genPush (s : State) (h idx : Nat) (e : SubEntry) : State :=
  let data := s.blockBytes e.asid e.block e.size
  let p : Push := ⟨data, e.seq, 0, BitVec.ofNat 64 s.fabric⟩
  let put := fun (st : State) (e' : SubEntry) =>
    let x := st.slice h
    st.setSlice h { x with subs := SMap.insert x.subs idx e' }
  let e1 := { e with seq := e.seq + 1 }
  if e.strict then
    if e.state != .active then s
    else if !e.dlv && e.held.isEmpty then (put s { e1 with dlv := true }).sendPush h idx e p
    else if e.held.length < 4 then put s { e1 with held := e.held ++ [p] }
    else put s { e1 with held := e.held ++ [{ p with ovr := 0xFFFFFFFF }], state := .lapsePending }
  else if e.state != .active then s
  else if e.park then
    match e.held with
    | [] => put s { e1 with held := [p] }
    | q :: _ => put s { e1 with held := [{ p with ovr := q.ovr + 1 }] }
  else (put s e1).sendPush h idx e p

/-- Does a run of bytes overlap a block? -/
def overlaps (a n b m : Nat) : Bool := decide (a < b + m) && decide (b < a + n)

/-- The pushes that writes to one line cause, one for each subscription of a block they overlap (05 R182). -/
def State.pushes (s : State) (key : Nat) (writes : List (Nat × Nat)) : State :=
  let h := s.homeAt key
  (s.slice h).subs.foldl (fun st e =>
    if e.2.live && e.2.asid == keyAsid key && writes.any (fun w => overlaps w.1 w.2 e.2.block e.2.size)
    then st.genPush h e.1 e.2 else st) s

/-- A read-modify-write of bytes at the home: collapse, invalidate every copy, write, push (05 R162, R167).
`f` gives the new bytes from the old, or none for no write. Answers the old bytes. -/
def State.homeRmw (s : State) (a n : Nat) (f : List Byte → Option (List Byte)) : State × List Byte :=
  let key := a / 32
  let s1 := ((s.toHome 0 key).collapseNow key).invalidateAll key
  let d := s1.homeRead key
  let old := secBytes d (a % 32) n
  match f old with
  | none => (s1, old)
  | some new => ((s1.homeSet key (secPut d (a % 32) new)).pushes key [(tagVa a, n)], old)

/-- Write bytes at the home without pushes. -/
def State.homeStore (s : State) (a : Nat) (bs : List Byte) : State :=
  let key := a / 32
  let s1 := ((s.toHome 0 key).collapseNow key).invalidateAll key
  s1.homeSet key (secPut (s1.homeRead key) (a % 32) bs)

/-- Store bytes through a cache: in M there, or at the home when the line is subscribed (05 R153). -/
def State.storeBytes (s : State) (n a : Nat) (bs : List Byte) : State :=
  let key := a / 32
  if s.subscribed key then s.homeStore a bs
  else
    let (s1, d) := s.ownSec n key
    (s1.setCache n ((s1.cache n).put key .m (secPut d (a % 32) bs))).syncDir key

/-- A read-modify-write of bytes in a cache that owns the sector (05 R162); it counts as a write, a compare that fails too
(09 R275). -/
def State.nearRmw (s : State) (n a len : Nat) (f : List Byte → Option (List Byte)) : State × List Byte :=
  let key := a / 32
  let (s1, d) := s.ownSec n key
  let old := secBytes d (a % 32) len
  let new := match f old with
    | none => d
    | some bs => secPut d (a % 32) bs
  ((s1.setCache n ((s1.cache n).put key .m new)).syncDir key, old)

/-- The pushes that the writes of one access cause once all of them are made: the bytes it writes in one subscribed block push
once (05 R182). -/
def State.pushAll (s : State) (ws : List (Nat × List Byte)) : State :=
  ((ws.map fun w => w.1 / 128).eraseDups).foldl (fun st l =>
    if st.subscribed (4 * l) then
      st.pushes (4 * l) ((ws.filter fun w => w.1 / 128 == l).map fun w => (tagVa w.1, w.2.length))
    else st) s

/-- The stores of one instruction, in lane order: through a cache, or at the home of a subscribed line (05 R150, R153). -/
def State.storeAll (s : State) (n : Nat) (ws : List (Nat × List Byte)) : State :=
  (ws.foldl (fun st w => st.storeBytes n w.1 w.2) s).pushAll ws

/-- The writes of one access at their homes. -/
def State.homeAll (s : State) (ws : List (Nat × List Byte)) : State :=
  (ws.foldl (fun st w => st.homeStore w.1 w.2) s).pushAll ws

/-- Read bytes through a cache; they lie in one sector. -/
def State.loadBytes (s : State) (n a len : Nat) : State × List Byte :=
  let (s1, d) := s.readSec n (a / 32)
  (s1, secBytes d (a % 32) len)

/-- The pieces of a run of bytes, cut at multiples of `m`: fuel bounds their number. -/
def cuts (m : Nat) : Nat → Nat → Nat → List (Nat × Nat)
  | 0, _, _ => []
  | fuel + 1, a, n =>
    if n = 0 then []
    else
      let k := min n (m - a % m)
      (a, k) :: cuts m fuel (a + k) (n - k)

/-- The pieces of a run of bytes, cut at sector boundaries. -/
def pieces (fuel a n : Nat) : List (Nat × Nat) := cuts 32 fuel a n

/-- Read a run of bytes through a cache. -/
def State.loadRun (s : State) (n a len : Nat) : State × List Byte :=
  (pieces (len / 32 + 2) a len).foldl (fun (st, bs) p =>
    let (st1, b) := st.loadBytes n p.1 p.2
    (st1, bs ++ b)) (s, [])

/-- Split a byte list into the pieces of a run. -/
def cutBytes : List (Nat × Nat) → List Byte → List (Nat × List Byte)
  | [], _ => []
  | (a, k) :: r, bs => (a, bs.take k) :: cutBytes r (bs.drop k)

/-- Store a run of bytes through a cache. -/
def State.storeRun (s : State) (n a : Nat) (bs : List Byte) : State :=
  s.storeAll n (cutBytes (pieces (bs.length / 32 + 2) a bs.length) bs)

/-- The bytes every agent sees of a run, without a request. -/
def State.peekRun (s : State) (a len : Nat) : List Byte :=
  ((pieces (len / 32 + 2) a len).map fun p => secBytes (s.peekSec (p.1 / 32)) (p.1 % 32) p.2).flatten

/-- A host or system write of a run at the home: one write, with its pushes (05 R182, 08 R259). -/
def State.homeRun (s : State) (a : Nat) (bs : List Byte) : State :=
  s.homeAll (cutBytes (pieces (bs.length / 32 + 2) a bs.length) bs)

/-- A read-modify-write at the home of a run of bytes that may lie in two sectors, one write with its pushes (05 R162, R182). -/
def State.homeRmwRun (s : State) (ps : List (Nat × Nat)) (f : List Byte → List Byte) : State :=
  let s1 := ps.foldl (fun st p => (st.collapseNow (p.1 / 32)).invalidateAll (p.1 / 32)) s
  s1.homeAll (cutBytes ps (f (ps.map fun p => secBytes (s1.homeRead (p.1 / 32)) (p.1 % 32) p.2).flatten))

/-! ## Update-only copies -/

/-- Grant a sector in U to a cache: other operators collapse, plain copies go, a slice over its 8,192 U lines collapses
the line granted longest ago; the copy starts at the identity or at its parked copy (09 R275, R278, R281). -/
def State.grantU (s0 : State) (n key : Nat) (op : UOp) : State :=
  let s := s0.toHome 0 key
  let s1 := match (s.found key).uOp key with
    | some o => if o = op && (s.collapseRec key).isNone then s.found key else (s.found key).collapseNow key
    | none => (s.found key).invalidateAll key
  let h := s1.homeAt key
  let us := (s1.slice h).uLines
  let s2 := if us.contains (key / 4) || decide (us.length < 8192) then s1
    else match us.getLast? with
      | some t => (run (4 * t) 4).foldl (fun st k => st.collapseNow k) s1
      | none => s1
  let ph := partialHolder h (n / 128)
  let x := s2.slice ph
  let start := match (x.parked key).find? (fun p => p.1 == n) with
    | some p => p.2.2
    | none => op.identity
  let s3 := if 256 ≤ n then s2
    else s2.setSlice ph { x with park := x.park.filter (fun e => !(e.1.1 == key && e.1.2 == n)) }
  let s4 := s3.fill n key (.u op) start
  let y := s4.slice h
  s4.setSlice h { y with uLines := key / 4 :: y.uLines.filter (fun t => t != key / 4) }

/-- One lane of UPD on a line that is neither subscribed nor in host memory (05 R167). -/
def State.updateCopy (s : State) (n a : Nat) (op : UOp) (x : Nat) : State :=
  let key := a / 32
  let s1 := match (s.cache n).sector key with
    | some (.u o, _) => if o = op && (s.collapseRec key).isNone then s else s.grantU n key op
    | _ => s.grantU n key op
  match (s1.cache n).sector key with
  | some (st, d) => s1.setCache n ((s1.cache n).put key st (op.update d (a % 32) x))
  | none => s1

/-- Does an update of this address perform at the home (05 R167)? -/
def State.updatesAtHome (s : State) (a : Nat) : Bool :=
  s.subscribed (a / 32) ||
    match s.keyPlace (a / 32) with
    | some (.host _ _) => true
    | _ => false

end Sys2Proof.Machine
end

