-- ==== Sys2Proof/Machine/Group.lean ====
section
/-! DEFINITION. Reading and writing what a group, team, core and context hold (01 R18 to R30), and the divergence stack
(01 R33). -/

namespace Sys2Proof.Machine

/-- Key of a group: its core and slot. -/
def groupKey (core slot : Nat) : Nat := 128 * core + slot
/-- The service slot of a core (07 R240). -/
def serviceSlot : Nat := 64
/-- Key of the group at an issue point. -/
def IssuePoint.key (p : IssuePoint) : Nat := groupKey p.core p.slot

/-- The group in a slot. -/
def State.group (s : State) (key : Nat) : Option Group := SMap.find s.groups key
/-- Replace a group. -/
def State.setGroup (s : State) (key : Nat) (g : Group) : State := { s with groups := SMap.insert s.groups key g }
/-- State of a core. -/
def State.core (s : State) (n : Nat) : Core := SMap.getD s.cores n Core.empty
/-- Replace a core's state. -/
def State.setCore (s : State) (n : Nat) (c : Core) : State := { s with cores := SMap.insert s.cores n c }
/-- A team. -/
def State.team (s : State) (t : Nat) : Option Team := SMap.find s.teams t
/-- Replace a team. -/
def State.setTeam (s : State) (t : Nat) (x : Team) : State := { s with teams := SMap.insert s.teams t x }
/-- A context descriptor. -/
def State.context (s : State) (c : Nat) : Context := SMap.getD s.contexts c Context.free
/-- Replace a context descriptor. -/
def State.setContext (s : State) (c : Nat) (x : Context) : State := { s with contexts := SMap.insert s.contexts c x }
/-- A segment of a team. -/
def State.segment (s : State) (t k : Nat) : Option Segment :=
  match s.team t with
  | some x => SMap.find x.segs k
  | none => none
/-- Replace a segment. -/
def State.setSegment (s : State) (t k : Nat) (x : Segment) : State :=
  match s.team t with
  | some y => s.setTeam t { y with segs := SMap.insert y.segs k x }
  | none => s
/-- Address space of a group's context. -/
def State.asidOf (s : State) (g : Group) : Nat := (s.context g.ctx).asid.toNat

/-- A fresh undefined value: the machine's free-value counter advances (00 R8; log 7). -/
def State.fresh (s : State) : State × Word := ({ s with free := s.free + 1 }, Config.freeWord s.free)

/-! ## Registers -/

/-- A vector register of a lane. -/
def Group.vr (g : Group) (r l : Nat) : Word := SMap.getD g.v (32 * r + l) 0
/-- Write a vector register of a lane. -/
def Group.setVr (g : Group) (r l : Nat) (x : Word) : Group := { g with v := SMap.put 0 g.v (32 * r + l) x }
/-- A vector source field of a lane: register or latch (01 R20). -/
def Group.src (g : Group) (r l : Nat) : Word :=
  if 124 ≤ r then SMap.getD g.b (32 * (r - 124) + l) 0 else g.vr r l
/-- Write one register in several lanes. -/
def Group.setLanes (g : Group) (r : Nat) (xs : List (Nat × Word)) : Group :=
  { g with v := SMap.putAll 0 g.v (xs.map fun e => (32 * r + e.1, e.2)) }
/-- Write several registers of several lanes: entries (register, lane) and value. -/
def Group.setMany (g : Group) (xs : List ((Nat × Nat) × Word)) : Group :=
  { g with v := SMap.putAll 0 g.v (xs.map fun e => (32 * e.1.1 + e.1.2, e.2)) }
/-- A register pair of a lane as a 64-bit number. -/
def Group.src64 (g : Group) (r l : Nat) : Nat := (g.src r l).toNat + 2 ^ 32 * (g.src (r + 1) l).toNat
/-- A scalar register. -/
def Group.sr (g : Group) (r : Nat) : Word := SMap.getD g.s r 0
/-- Write a scalar register. -/
def Group.setSr (g : Group) (r : Nat) (x : Word) : Group := { g with s := SMap.put 0 g.s r x }
/-- A scalar pair as a 64-bit number (01 R26). -/
def Group.sr64 (g : Group) (r : Nat) : Nat := (g.sr r).toNat + 2 ^ 32 * (g.sr (r + 1)).toNat
/-- Write a scalar pair. -/
def Group.setSr64 (g : Group) (r x : Nat) : Group :=
  (g.setSr r (BitVec.ofNat 32 x)).setSr (r + 1) (BitVec.ofNat 32 (x / 2 ^ 32))
/-- A predicate as the mask of lanes that hold 1. -/
def Group.pred (g : Group) (p : Nat) : Word := SMap.getD g.p p 0
/-- A predicate of a lane. -/
def Group.pr (g : Group) (p l : Nat) : Bool := lane (g.pred p) l
/-- Write a predicate in the lanes of a mask. -/
def Group.setPred (g : Group) (p : Nat) (act x : Word) : Group :=
  { g with p := SMap.put 0 g.p p ((g.pred p &&& ~~~act) ||| (x &&& act)) }
/-- A statistics view of a lane (01 R21). -/
def Group.view (g : Group) (r l : Nat) : Triple := ⟨(g.vr r l).toNat, (g.vr (r + 1) l).toNat, (g.vr (r + 2) l).toNat⟩
/-- The register writes of a view. -/
def viewWrites (r l : Nat) (t : Triple) : List ((Nat × Nat) × Word) :=
  [((r, l), BitVec.ofNat 32 t.w), ((r + 1, l), BitVec.ofNat 32 t.m), ((r + 2, l), BitVec.ofNat 32 t.s)]

/-! ## Packet fields (02 Table 2-14) -/

/-- Bits of a 64-bit word of a launch packet. -/
def pktField (p : BitVec 1024) (qw lo n : Nat) : Nat := bits p.toNat (64 * qw + lo) n

/-- System values (01 Table 1-3). -/
def State.sysValue (s : State) (key : Nat) (g : Group) (code : Nat) : Word :=
  let t := s.team g.team
  let pkt := match t with
    | some x => x.packet
    | none => 0
  let f := fun (k : Team → Nat) => match t with
    | some x => k x
    | none => 0
  BitVec.ofNat 32 <| match code with
    | 200 => 32
    | 201 => g.grpid
    | 202 => g.segGrp
    | 203 => g.seg
    | 204 => f fun x => x.segs.length
    | 205 => f fun x => x.grps
    | 206 => if g.producer then 1 else 0
    | 207 => key / 128
    | 208 => s.dev
    | 209 => s.asidOf g
    | 210 => f fun x => x.x
    | 211 => f fun x => x.y
    | 212 => f fun x => x.z
    | 213 => pktField pkt 2 0 16
    | 214 => pktField pkt 2 16 16
    | _ => pktField pkt 2 32 16

/-- A scalar source field: register or system value (01 R26). -/
def State.sv (s : State) (key : Nat) (g : Group) (r : Nat) : Word :=
  if r ≤ 191 then g.sr r else s.sysValue key g r

/-! ## Paths -/

/-- The path in a slot. -/
def Group.path (g : Group) : PSlot → Option Path
  | .a => g.slotA
  | .b => g.slotB
/-- Replace the path in a slot. -/
def Group.setPath (g : Group) (ps : PSlot) (p : Option Path) : Group :=
  match ps with
  | .a => { g with slotA := p }
  | .b => { g with slotB := p }
/-- The other slot. -/
def PSlot.other : PSlot → PSlot
  | .a => .b
  | .b => .a
/-- Active lanes: MASK and G, and the replay mask of a re-issue (02 R68, 05 R149). -/
def Path.act (p : Path) : Word :=
  let m := if p.gk = 0 then p.mask else p.mask &&& p.gg
  match p.replay with
  | some r => m &&& r
  | none => m
/-- Does the path wait in an instruction it has already issued (01 R36)? -/
def Path.isHeld (p : Path) : Bool :=
  match p.wait with
  | .ready => false
  | .operand => false
  | _ => true
/-- Does the path wait for empty lines in a scratchpad read it has issued (05 R157)? -/
def Path.onEmptyLine (p : Path) : Bool :=
  match p.wait with
  | .emptyLine _ _ _ _ _ => true
  | _ => false
/-- Is the path in an issued instruction that completes before a trap of the group is taken (10 R310) and before its team is saved
(10 R314): an event, a message, a launch or an arrival on its way? FENCE and BWAIT issue again (10 Table 10-7), and so do OPFENCE and
TLBSD (DEDUCED, log 13). -/
def Path.completing (p : Path) : Bool :=
  match p.wait with
  | .held .arrive => true
  | .held (.evset _) => true
  | .held (.sendam _) => true
  | .held (.launch _) => true
  | _ => false
/-- Does the path wait in a barrier (07 R228)? -/
def Path.inBarrier (p : Path) : Bool :=
  match p.wait with
  | .barrier _ => true
  | _ => false
/-- The part of a path in some lanes, their guard with them (02 R71). -/
def Path.onLanes (p : Path) (m : Word) : Path := { p with mask := p.mask &&& m, gg := p.gg &&& m }
/-- Is the group inside a latch chain or a fused sequence (01 R24, 04 R146)? -/
def Group.inIssue (g : Group) : Bool := g.chain.isSome || g.fuse.isSome
/-- What holds a group Frozen (01 R46). -/
def Group.frozen (g : Group) : Bool := g.freeze.host || g.freeze.halt || g.freeze.step || g.freeze.preempt
/-- Is the path at its join point (01 R37)? -/
def Path.atJoin (p : Path) : Bool := p.jp == some p.pc
/-- Set what a path waits for. -/
def Group.setWait (g : Group) (ps : PSlot) (w : Wait) : Group :=
  match g.path ps with
  | some p => g.setPath ps (some { p with wait := w })
  | none => g

/-! ## Byte layouts -/

/-- Little-endian bytes from fields (offset, value): values are placed without overlap. -/
def layout (n : Nat) (fs : List (Nat × Nat)) : List Byte :=
  toBytes n (fs.foldl (fun acc f => acc + f.2 * 256 ^ f.1) 0)
/-- The number in `n` bytes at an offset. -/
def fieldAt (bs : List Byte) (off n : Nat) : Nat := ofBytes ((bs.drop off).take n)

/-- The code of no join point (01 Table 1-6). -/
def noJoin : Nat := 0x00FFFFFFFFFFFFFF

/-- An entry of the divergence stack (01 Table 1-6). -/
structure StackEntry where
  mask : Word
  join : Bool
  depth : BitVec 8
  gk : Nat
  pc : DWord
  jp : Option DWord
  gg : Word
deriving DecidableEq, Repr

/-- The 64 bytes of an entry. -/
def StackEntry.bytes (e : StackEntry) : List Byte :=
  layout 64 [(0, e.mask.toNat), (4, if e.join then 1 else 0), (5, e.depth.toNat), (6, e.gk), (8, e.pc.toNat),
    (16, match e.jp with
      | some j => j.toNat
      | none => noJoin), (24, e.gg.toNat)]

/-- A join point from its 64 bits. -/
def joinOf (x : Nat) : Option DWord := if x = noJoin then none else some (BitVec.ofNat 64 x)

/-- Read an entry from its bytes. -/
def StackEntry.ofBytes (bs : List Byte) : StackEntry :=
  ⟨BitVec.ofNat 32 (fieldAt bs 0 4), fieldAt bs 4 1 == 1, BitVec.ofNat 8 (fieldAt bs 5 1), fieldAt bs 6 1,
    BitVec.ofNat 64 (fieldAt bs 8 8), joinOf (fieldAt bs 16 8), BitVec.ofNat 32 (fieldAt bs 24 4)⟩

/-- A path as a waiting entry (01 R34). -/
def StackEntry.ofPath (p : Path) : StackEntry :=
  ⟨p.mask, false, p.depth, p.gk, p.pc, p.jp, if p.gk = 0 then 0 else p.gg⟩
/-- A popped waiting path; Table 1-6 has no field for a replay mask, so a mask that was pending when the path was spilled is
gone and the instruction issues for all lanes of the path (log 90). -/
def StackEntry.toPath (e : StackEntry) : Path := ⟨e.mask, e.pc, e.jp, e.depth, e.gk, e.gg, none, .ready⟩

/-- Address of entry `n` of a group's stack (10 R305). -/
def State.stackAddr (s : State) (g : Group) (n : Nat) : Nat :=
  (s.context g.ctx).divbase.toNat + (match g.arena with
    | some a => a
    | none => 0) * 16384 + 64 * n

/-- The top entry of a group's divergence stack. -/
def State.stackTop (s : State) (g : Group) : Option StackEntry :=
  if g.dsp = 0 then none
  else match s.lookup (s.asidOf g) (s.stackAddr g (g.dsp - 1)) with
    | .ok t => some (StackEntry.ofBytes (s.peekRun t.tag 64))
    | .error _ => none

/-! ## Merging and joining (01 R36 to R38) -/

/-- Do the paths of the two slots merge? A path with a pending replay mask (05 R149) does not: its instruction has still to
issue for those lanes alone (log 91). -/
def mergeable (a b : Path) : Bool :=
  a.pc == b.pc && a.depth == b.depth && a.jp == b.jp && a.gk == b.gk && !a.isHeld && !b.isHeld
    && a.replay == none && b.replay == none

/-- Both paths as one in slot A, each lane under its own path's guard (02 R71); any split is over and A issues first. -/
def Group.merged (g : Group) (a b : Path) : Group :=
  { g with
    slotA := some { a with mask := a.mask ||| b.mask, gg := (a.gg &&& a.mask) ||| (b.gg &&& b.mask), wait := .ready }
    slotB := none
    split := none
    nextB := false }

/-- R37 for the path in a slot, with the stack's top entry. -/
def Group.joinSlot (g : Group) (top : Option StackEntry) (ps : PSlot) : Option Group :=
  match g.path ps, top with
  | some p, some e =>
    if p.atJoin && !p.isHeld then
      if e.join then
        if e.pc == p.pc && e.depth == p.depth && (e.mask &&& ~~~g.ex) == p.mask then
          some { g.setPath ps (some { p with jp := e.jp }) with dsp := g.dsp - 1 }
        else none
      else if (g.path ps.other).isNone then
        some { g.setPath ps.other (some e.toPath) with dsp := g.dsp - 1 }
      else none
    else none
  | _, _ => none

/-- One action at an issue boundary, or none when nothing applies (01 R32, R36, R37, R38; 07 R228). -/
def State.boundary (s : State) (g : Group) : Option Group :=
  match g.slotA, g.slotB with
  | none, some b => some { g with slotA := some b, slotB := none, split := none }
  | some a, some b =>
    if mergeable a b then some (g.merged a b)
    else
      let top := s.stackTop g
      match g.joinSlot top .a with
      | some g' => some g'
      | none => g.joinSlot top .b
  | none, none =>
    match s.stackTop g with
    | some e =>
      if e.join then
        (if e.mask &&& ~~~g.ex = 0 then some { g with dsp := g.dsp - 1 } else none)
      else some { g with slotA := some e.toPath, dsp := g.dsp - 1 }
    | none => none
  | some a, none =>
    let top := s.stackTop g
    if g.split.isSome then some { g with split := none }
    else match top with
    | some e =>
      if e.join && e.mask &&& ~~~g.ex == 0 then some { g with dsp := g.dsp - 1 }
      else if a.inBarrier && !e.join then some { g with slotB := some e.toPath, dsp := g.dsp - 1 }
      else g.joinSlot top .a
    | none => none

/-- Apply boundary actions until none applies; each pops an entry or empties a slot, so the fuel suffices. -/
def State.settleFrom (s : State) : Nat → Group → Group
  | 0, g => g
  | n + 1, g =>
    match s.boundary g with
    | some g' => State.settleFrom s n g'
    | none => g

/-- The group after an issue boundary. -/
def State.settle (s : State) (g : Group) : Group := s.settleFrom 260 g

/-- The group at its boundary; inside a latch chain or a fused sequence there is none (01 R24, 04 R146), nor in Translation (01 R44),
nor while a trap of it waits (10 R310). -/
def State.atBoundary (s : State) (g : Group) : Group :=
  if g.inIssue || g.stop.isSome || g.status != .running then g else s.settle g

end Sys2Proof.Machine
end

