-- ==== Sys2Proof/Machine/Fields.lean ====
section
/-! DEFINITION. Register contents as fields, and the causes an instruction's register contents decide that rank with the
causes of 01 R49: they precede resource-overrun and privilege (10 R309). -/

namespace Sys2Proof.Machine

/-- The number of little-endian words. -/
def wordsNat : List Word → Nat
  | [] => 0
  | w :: r => w.toNat + 2 ^ 32 * wordsNat r

/-- The words of a block of scalar registers. -/
def Group.block (g : Group) (a n : Nat) : List Word := (run a n).map g.sr

/-- A peer register from its four words (01 Table 1-4). -/
def peerOf (g : Group) (a : Nat) : BitVec 128 := BitVec.ofNat 128 (wordsNat (g.block a 4))

/-- Are the reserved fields of a peer register 0 (01 Table 1-4)? -/
def goodPeer (x : BitVec 128) : Bool := bits x.toNat 104 23 == 0 && bits x.toNat 72 8 == 0 && bits x.toNat 56 8 == 0

/-- Replace the low or high word of a 64-bit register. -/
def setHalf (x : DWord) (high : Bool) (v : Word) : DWord :=
  if high then BitVec.ofNat 64 (x.toNat % 2 ^ 32 + 2 ^ 32 * v.toNat)
  else BitVec.ofNat 64 (x.toNat / 2 ^ 32 * 2 ^ 32 + v.toNat)

/-- May a value be written to a system register (07 R242): the bits that must be 0 are? -/
def goodSys (r : Nat) (v : Word) : Bool :=
  match r with
  | 0x010 => v.toNat % 256 == 0
  | 0x011 => decide (v.toNat < 2 ^ 24)
  | 0x012 => v.toNat % 16 == 0
  | 0x013 => decide (v.toNat < 2 ^ 24)
  | _ => true

/-- A context register written by WRSYS (07 Table 7-5). -/
def Context.writeSys (x : Context) (r : Nat) (v : Word) : Context :=
  match r with
  | 0x010 => { x with tsvc := setHalf x.tsvc false v }
  | 0x011 => { x with tsvc := setHalf x.tsvc true v }
  | 0x012 => { x with htb := setHalf x.htb false v }
  | 0x013 => { x with htb := setHalf x.htb true v }
  | 0x014 => { x with htsize := if 4096 < v.toNat then 4096 else v }
  | _ => x

/-- MODE of an MXLOOP block (06 Table 6-5). -/
def loopMode (g : Group) (a : Nat) : Nat := bits (g.sr (a + 4)).toNat 16 2

/-- OTYPE of an MXEPI block (06 Table 6-7). -/
def epiType (g : Group) (a : Nat) : Nat := bits (g.sr a).toNat 2 2

/-- The vector registers whose format words an instruction reads: of MXLOOP in MODE 0 and of MXEPI with narrow output (06 R201,
R210). -/
def formatRegs (g : Group) (i : Instr) : List Nat :=
  match i with
  | .mxloop f a _ => if loopMode g a.toNat = 0 then [f.toNat, f.toNat + 1] else []
  | .mxepi f a _ => if epiType g a.toNat = 3 then [f.toNat] else []
  | _ => []

/-- CNT of an MXRD register (06 R208). -/
def readCount (a : Word) : Nat := bits a.toNat 9 2 + 1

/-- Codes of the two causes. -/
def dynIllegal : Nat := 0x02
/-- Illegal-latch. -/
def dynLatch : Nat := 0x03

/-- The illegal-instruction or illegal-latch cause that register contents decide: ERET's slot (07 R241), WRSYS and WRPEER
reserved bits (07 R242, R243), TLBSD's block (07 R244), VF of MXLOOP, MXRD and MXEPI (06 R200, R208, R209). MODE of a block
that ends beyond .sregs is read as 0, so that an odd VF is illegal before the overrun is found (DESIGN CHOICE, log 110); a page
count above 65,535 is illegal as a count of 0 is (DESIGN CHOICE, log 118). -/
def State.dynCause (s : State) (key : Nat) (g : Group) (i : Instr) : Option Nat :=
  let illegal := fun (b : Bool) => if b then some dynIllegal else none
  match i with
  | .eret a => illegal (decide (64 ≤ (s.sv key g a.toNat).toNat))
  | .wrsys r d => illegal (!goodSys r.toNat (s.sv key g d.toNat))
  | .wrpeer _ a => illegal (!goodPeer (peerOf g a.toNat))
  | .tlbsd _ a =>
    let n := (g.sr (a.toNat + 3)).toNat
    illegal (decide (n = 0) || decide (65535 < n) || decide (65536 ≤ (g.sr (a.toNat + 2)).toNat))
  | .mxloop f a _ => illegal (loopMode g a.toNat == 0 && (f.toNat % 2 == 1 || decide (122 < f.toNat)))
  | .mxrd f a _ => illegal (decide (123 < f.toNat + readCount (s.sv key g a.toNat) - 1))
  | .mxepi f a _ => if epiType g a.toNat = 3 ∧ 124 ≤ f.toNat then some dynLatch else none
  | _ => none

/-- Does the instruction have such a cause, so that its registers must have arrived before it is checked? -/
def hasDyn : Instr → Bool
  | .eret _ => true
  | .wrsys _ _ => true
  | .wrpeer _ _ => true
  | .tlbsd _ _ => true
  | .mxloop _ _ _ => true
  | .mxrd _ _ _ => true
  | .mxepi _ _ _ => true
  | _ => false

/-- The cause reported, of the one the fields decide and the one the registers decide. -/
def firstCause (static dyn : Option Nat) : Option Nat :=
  match static, dyn with
  | some 0x02, _ => some 0x02
  | _, some c => some c
  | x, none => x

end Sys2Proof.Machine
end

