-- ==== Sys2Proof/Machine/Ops.lean ====
section
/-! DEFINITION. The shared operations of issue: outstanding accesses and their completion, taking a trap and returning
from one, fetching code, and the common checks every instruction passes (01 R22 to R24, R31, R40, R47 to R49; 10 R306 to
R313). -/

namespace Sys2Proof.Machine

/-- What a step or a meaning answers. -/
abbrev Out := Host.Outcome State Fault Refusal

/-! ## Outstanding accesses -/

/-- Bytes of an access size (02 Table 2-7). -/
def szBytes (z : Nat) : Nat :=
  match z with
  | 0 => 1 | 1 => 1 | 2 => 2 | 3 => 2 | 4 => 4 | 5 => 8 | _ => 16

/-- The words a load of size code `z` writes from its bytes (05 R151). -/
def loadWords (z : Nat) (bs : List Byte) : List Word :=
  let x := ofBytes bs
  match z with
  | 0 => [BitVec.ofInt 32 (signed 8 x)]
  | 1 => [BitVec.ofNat 32 (x % 2 ^ 8)]
  | 2 => [BitVec.ofInt 32 (signed 16 x)]
  | 3 => [BitVec.ofNat 32 (x % 2 ^ 16)]
  | 4 => [BitVec.ofNat 32 x]
  | 5 => [BitVec.ofNat 32 x, BitVec.ofNat 32 (x / 2 ^ 32)]
  | _ => [BitVec.ofNat 32 x, BitVec.ofNat 32 (x / 2 ^ 32), BitVec.ofNat 32 (x / 2 ^ 64), BitVec.ofNat 32 (x / 2 ^ 96)]

/-- Number a list from `r`. -/
def number {α : Type} (r : Nat) : List α → List (Nat × α)
  | [] => []
  | x :: l => (r, x) :: number (r + 1) l

/-- The writes of words to consecutive registers of a lane. -/
def wordWrites (r l : Nat) (ws : List Word) : List ((Nat × Nat) × Word) :=
  (number r ws).map fun e => ((e.1, l), e.2)

/-- The registers (register, lane) an outstanding load still writes. -/
def Load.regs (x : Load) : List (Nat × Nat) :=
  match x.dst with
  | .vector vd z => (x.lanes.map fun k => (run vd (szRegs z)).map fun r => (r, k.lane)).flatten
  | .scalar _ => []
  | .view vd => (x.lanes.map fun k => (run vd 3).map fun r => (r, k.lane)).flatten

/-- The scalar register an outstanding load still writes. -/
def Load.sregs (x : Load) : List Nat :=
  match x.dst with
  | .scalar sd => [sd]
  | _ => []

/-- The bytes the youngest queued store of the group holds for an address (05 R152). -/
def forwarded (q : List QEntry) (a : Nat) : Option Byte :=
  q.foldl (fun acc e =>
    match e with
    | .store ws _ _ =>
      ws.foldl (fun acc w =>
        if w.1 ≤ a ∧ a < w.1 + w.2.length then w.2[a - w.1]? else acc) acc
    | .atom _ _ _ _ _ _ => acc) none

/-- Bytes read from the cache with the group's own queued stores over them. -/
def overlay (q : List QEntry) (a : Nat) (bs : List Byte) : List Byte :=
  (number a bs).map fun e => match forwarded q e.1 with
    | some b => b
    | none => e.2

/-- Write a returned load's registers (05 R151, 04 R126, 06 R215). -/
def Group.deliver (g : Group) (x : Load) : Group :=
  match x.dst with
  | .vector vd z => g.setMany ((x.lanes.map fun k => wordWrites vd k.lane (loadWords z (k.bytes.getD []))).flatten)
  | .scalar sd => match x.lanes with
    | k :: _ => g.setSr sd (BitVec.ofNat 32 (ofBytes (k.bytes.getD [])))
    | [] => g
  | .view vd => g.setMany ((x.lanes.map fun k => viewWrites vd k.lane (Triple.ofNat (ofBytes (k.bytes.getD [])))).flatten)

/-- Bytes a load reads in each lane. -/
def Load.size (x : Load) : Nat :=
  match x.dst with
  | .vector _ z => szBytes z
  | .scalar _ => 4
  | .view _ => 16

/-- Perform the lanes of a load that have not performed yet: all at one point (05 R150). -/
def State.performLoad (s : State) (key : Nat) (g : Group) (x : Load) : State × Load :=
  let n := s.cacheOf (key / 128)
  let r := x.lanes.foldl (fun (acc : State × List LaneLoad) k =>
    match k.bytes with
    | some _ => (acc.1, acc.2 ++ [k])
    | none =>
      let (st, bs) := acc.1.loadBytes n k.addr x.size
      (st, acc.2 ++ [{ k with bytes := some (overlay g.queue k.addr bs) }])) (s, [])
  (r.1, { x with lanes := r.2 })

/-- The group once the data of slot B's loads is there: a wave split's slot B may issue (01 R39). -/
def Group.dataCame (g : Group) : Group :=
  match g.slotB with
  | some p => if p.wait = .missData && !g.loads.any (fun y => y.slot == .b) then
      { g with slotB := some { p with wait := .ready } } else g
  | none => g

/-- The data of the group's oldest load arrives and its registers are written. -/
def State.landLoad (s : State) (key : Nat) : State :=
  match s.group key with
  | none => s
  | some g =>
    match g.loads with
    | [] => s
    | x :: rest =>
      let (s1, x1) := s.performLoad key g x
      s1.setGroup key ({ g.deliver x1 with loads := rest } : Group).dataCame

/-- Return the data of the group's oldest load; a group that runs is then at its boundary (01 R36). -/
def State.returnLoad (s : State) (key : Nat) : State :=
  if (s.group key).all fun g => g.loads.isEmpty then s
  else
    let s1 := s.landLoad key
    match s1.group key with
    | some g => if g.status = .running ∧ !g.frozen then s1.setGroup key (s1.atBoundary g) else s1
    | none => s1

/-- The data of every outstanding load of a group arrives. -/
def State.landLoads (s : State) (key : Nat) : Nat → State
  | 0 => s
  | n + 1 => (s.landLoad key).landLoads key n

/-! ## The store queue -/

/-- Is an atomic of this scope near: performed in the cache (05 R162)? -/
def nearScope (scope : Nat) : Bool := decide (scope ≤ 2)

/-- The new bytes of one lane of an atomic from the old. -/
def atomFn (op : Nat) (wide : Bool) (k : AtomLane) (old : List Byte) : Option (List Byte) :=
  let n := if wide then 8 else 4
  (atomicNew op (8 * n) (ofBytes old) k.cmp k.val).map (toBytes n)

/-- The register writes of an atomic's old value. -/
def atomWrites (wide : Bool) (vd l : Nat) (old : List Byte) : List ((Nat × Nat) × Word) :=
  wordWrites vd l (loadWords (if wide then 5 else 4) old)

/-- Write registers of the group with a unique number, wherever it is resident. -/
def State.writeRegs (s : State) (uid : Nat) (xs : List ((Nat × Nat) × Word)) : State :=
  { s with groups := s.groups.map fun e => if e.2.uid = uid then (e.1, e.2.setMany xs) else e }

/-- Bytes a far operation reaches, as (tagged address, length). -/
def FarOp.reach : FarOp → List (Nat × Nat)
  | .atom _ _ _ wide k _ => [(k.addr, if wide then 8 else 4)]
  | .upd op a _ => [(a, op.size)]
  | .store ws _ => ws.map fun w => (w.1, w.2.length)

/-- Perform a far access at its home (05 R162, R167, 08 R263). -/
def State.performFar (s : State) (op : FarOp) : State :=
  match op with
  | .atom uid vd o wide k _ =>
    let (s1, old) := s.homeRmw k.addr (if wide then 8 else 4) (atomFn o wide k)
    s1.writeRegs uid (atomWrites wide vd k.lane old)
  | .upd o a val =>
    (s.homeRmw a o.size fun old =>
      some (toBytes o.size (o.element (ofBytes old) (o.operand (wordsNat val))))).1
  | .store ws _ => s.homeAll ws

/-- The order of two .SC events by timestamp, then by domain cache number (08 R254). -/
def scBefore (a b : Nat × Nat) : Bool := decide (a.1 < b.1) || (a.1 == b.1 && decide (a.2 < b.2))

/-- The core's clock at an .SC event that reaches these sectors: one more than the larger of its clock and the highest
timestamp it has received; an access receives the timestamps of the sectors it performs on, and leaves its own there
(08 R254; log 95). -/
def State.scAt (s : State) (core : Nat) (keys : List Nat) : State :=
  let c := s.core core
  let heard := keys.foldl (fun t k => max t (SMap.getD s.stamps k (0, 0)).1) c.heard
  let mine := (max c.clock heard + 1, 512 * s.dev + s.cacheOf core)
  let leave := fun (m : SMap (Nat × Nat)) (k : Nat) =>
    if scBefore (SMap.getD m k (0, 0)) mine then SMap.insert m k mine else m
  { s.setCore core { c with clock := mine.1, heard := heard } with stamps := keys.foldl leave s.stamps }

/-- An access of an order code performs on sectors: an .SC one takes its place in the order S (08 R254). -/
def State.scEvent (s : State) (core ord : Nat) (keys : List Nat) : State := if ord = 4 then s.scAt core keys else s

/-- The core of a group by its number, wherever it is resident. -/
def State.coreOf (s : State) (uid : Nat) : Option Nat := (s.groups.find? fun e => e.2.uid == uid).map fun e => e.1 / 128

/-- A far access of a group performs at its home, a store with .SC taking its place in S. -/
def State.performFor (s : State) (uid : Nat) (op : FarOp) : State :=
  match op, s.coreOf uid with
  | .store ws ord, some core => (s.performFar op).scEvent core ord (ws.map fun w => w.1 / 32)
  | _, _ => s.performFar op

/-- Is a far access of the group on its way? -/
def State.farPending (s : State) (uid : Nat) : Bool :=
  s.net.any fun m => match m with
    | .far _ u _ => u == uid
    | _ => false

/-- Does every lane of a queue entry perform at the home: a far atomic, or an entry on subscribed lines alone (05 R153,
R162)? -/
def State.entryFar (s : State) : QEntry → Bool
  | .store ws _ _ => ws.all fun w => s.subscribed (w.1 / 32)
  | .atom _ _ _ ks _ scope => !nearScope scope || ks.all fun k => s.subscribed (k.addr / 32)

/-- The far accesses of an entry, in lane order. -/
def QEntry.farOps (uid : Nat) : QEntry → List FarOp
  | .store ws ord _ => [.store ws ord]
  | .atom op wide vd ks ord _ => ks.map fun k => .atom uid vd op wide k ord

/-- One lane of a near atomic: in the cache, or at the home of a subscribed line (05 R162). -/
def State.atomLaneNow (s : State) (n uid op : Nat) (wide : Bool) (vd ord : Nat) (k : AtomLane) : State :=
  if s.subscribed (k.addr / 32) then s.performFar (.atom uid vd op wide k ord)
  else
    let (s1, old) := s.nearRmw n k.addr (if wide then 8 else 4) (atomFn op wide k)
    s1.writeRegs uid (atomWrites wide vd k.lane old)

/-- Send an entry's accesses to their home, or perform its lanes in order: at the group's first cache level, or at the home
where a lane's line is subscribed (01 R31, 05 R153, R162). -/
def State.drainEntry (s : State) (key : Nat) (g : Group) (e : QEntry) : State :=
  if s.entryFar e then
    { s with net := s.net ++ (e.farOps g.uid).map fun o => .far (s.asidOf g) g.uid o }
  else
    let n := s.cacheOf (key / 128)
    match e with
    | .store ws ord _ => (s.storeAll n ws).scEvent (key / 128) ord (ws.map fun w => w.1 / 32)
    | .atom op wide vd ks ord _ => ks.foldl (fun st k => st.atomLaneNow n g.uid op wide vd ord k) s

/-- Is the entry a release? -/
def QEntry.isRelease : QEntry → Bool
  | .store _ ord _ => decide (2 ≤ ord)
  | .atom _ _ _ _ ord _ => decide (2 ≤ ord)

/-- Is a far access of the group on its way to be an acquire? -/
def Msg.acquires (uid : Nat) : Msg → Bool
  | .far _ u (.atom _ _ _ _ _ ord) => u == uid && (ord == 1 || ord == 3)
  | _ => false

/-- Is an acquire atomic of the group still to perform: every later access waits for it (05 R163, 08 Table 8-3 row 5)? -/
def State.acquiring (s : State) (g : Group) : Bool :=
  g.queue.any (fun e => match e with
    | .atom _ _ _ _ ord _ => ord == 1 || ord == 3
    | .store _ _ _ => false) || s.net.any (Msg.acquires g.uid)

/-- May the head of the queue leave: earlier far accesses have performed, and before a release the group's collapses
too (05 R152, R175, 08 R251)? -/
def State.mayDrain (s : State) (g : Group) : Bool :=
  match g.queue with
  | [] => false
  | e :: _ => !s.farPending g.uid && (!e.isRelease || (s.forcedBy g.uid).isEmpty)

/-- Take the head of the queue out and perform it (01 R31). -/
def State.drainOne (s : State) (key : Nat) : State :=
  match s.group key with
  | none => s
  | some g =>
    match g.queue with
    | [] => s
    | e :: rest => (s.setGroup key { g with queue := rest }).drainEntry key g e

/-- Perform the far accesses of a group that are on their way, in order. -/
def State.landFar (s : State) (uid : Nat) : State :=
  let mine := s.net.filterMap fun m => match m with
    | .far _ u o => if u = uid then some o else none
    | _ => none
  let rest := s.net.filter fun m => match m with
    | .far _ u _ => u != uid
    | _ => true
  mine.foldl (fun st o => st.performFor uid o) { s with net := rest }

/-- Finish the collapses a group has forced. -/
def State.landCollapses (s : State) (uid : Nat) : State :=
  (s.forcedBy uid).foldl State.collapseNow s

/-- Before a release at the head of the queue the group's collapses have completed (05 R175). -/
def State.landBefore (s : State) (key uid : Nat) : State :=
  match s.group key with
  | some g => if g.queue.head?.any QEntry.isRelease then s.landCollapses uid else s
  | none => s

/-- Perform `n` entries of a group's queue with their far accesses. -/
def State.landQueue (s : State) (key uid : Nat) : Nat → State
  | 0 => s.landFar uid
  | n + 1 => (((s.landFar uid).landBefore key uid).drainOne key).landQueue key uid n

/-- Everything a group has issued completes: loads return, the queue and its far accesses perform (10 R310). No boundary comes
between, so the two slots stay as they are (01 R42). -/
def State.landAll (s : State) (key : Nat) : State :=
  match s.group key with
  | none => s
  | some g => (s.landLoads key g.loads.length).landQueue key g.uid g.queue.length

/-- Every access the path issued earlier has performed at every scope (05 R175): nothing is queued or on its way. -/
def State.released (s : State) (g : Group) : Bool :=
  g.queue.isEmpty && (s.forcedBy g.uid).isEmpty && !s.farPending g.uid

/-- Registers (register, lane) that answers still write (10 R307). -/
def State.busyRegs (s : State) (g : Group) : List (Nat × Nat) :=
  (g.loads.map Load.regs).flatten
  ++ (g.queue.map fun e => match e with
    | .atom _ wide vd ks _ _ => (ks.map fun k => (run vd (if wide then 2 else 1)).map fun r => (r, k.lane)).flatten
    | .store _ _ _ => []).flatten
  ++ (s.net.map fun m => match m with
    | .far _ u (.atom _ vd _ wide k _) =>
      if u = g.uid then (run vd (if wide then 2 else 1)).map fun r => (r, k.lane) else []
    | _ => []).flatten

/-- Scalar registers that answers still write. -/
def Group.busySregs (g : Group) : List Nat := (g.loads.map Load.sregs).flatten ++ g.answers

/-! ## Traps -/

/-- A trap as its instruction raises it (10 Table 10-3, Table 10-4). -/
structure Trap where
  cause : Nat
  detail : Nat
  lanes : Word
  va : Nat
  info : Word
  chain : Bool
  pos : Nat
  precise : Bool
  /-- address of the trapping instruction; the path's own PC when none -/
  pc : Option DWord
deriving DecidableEq, Repr

/-- A cause with resume "same" and no detail (10 Table 10-4: LANEMASK all ones). -/
def Trap.of (cause : Nat) : Trap := ⟨cause, 0, 0xFFFFFFFF, 0, 0, false, 0, true, none⟩

/-- Causes of 10 Table 10-3. -/
def cFetch : Nat := 0x01
/-- Illegal-instruction. -/
def cIllegal : Nat := 0x02
/-- Illegal-latch. -/
def cLatch : Nat := 0x03
/-- Role. -/
def cRole : Nat := 0x04
/-- Resource-overrun. -/
def cResource : Nat := 0x05
/-- Privilege. -/
def cPrivilege : Nat := 0x06
/-- Misaligned-address. -/
def cAlign : Nat := 0x07
/-- Translation fault. -/
def cTranslation : Nat := 0x08
/-- Empty-line-timeout. -/
def cEmptyLine : Nat := 0x09
/-- Uniformity. -/
def cUniform : Nat := 0x0A
/-- Call-depth. -/
def cCallDepth : Nat := 0x0B
/-- Illegal-return. -/
def cReturn : Nat := 0x0C
/-- Instruction-address. -/
def cInstrAddr : Nat := 0x0D
/-- Divergence-stack-overflow. -/
def cStack : Nat := 0x0E
/-- Illegal-ternary. -/
def cTernary : Nat := 0x0F
/-- Illegal-format. -/
def cFormat : Nat := 0x10
/-- Format-divergence. -/
def cDivergence : Nat := 0x11
/-- Matrix-configuration. -/
def cMatrix : Nat := 0x12
/-- Peer-invalid. -/
def cPeer : Nat := 0x13
/-- Copy-shape. -/
def cShape : Nat := 0x14
/-- Barrier-overrun. -/
def cBarrier : Nat := 0x15
/-- Software-trap. -/
def cSoftware : Nat := 0x16
/-- Breakpoint. -/
def cBreak : Nat := 0x17
/-- Single-step. -/
def cStep : Nat := 0x18
/-- Machine check. -/
def cMachine : Nat := 0x20

/-- Cause codes with resume "next" (10 Table 10-3): LANEMASK is 0. -/
def resumesNext (cause : Nat) : Bool := [0x16, 0x17, 0x18, 0x20].contains cause

/-- A path record's fields at an offset (10 Table 10-5). -/
def pathFields (off : Nat) (p : Option Path) : List (Nat × Nat) :=
  match p with
  | none => []
  | some p => [(off, p.mask.toNat), (off + 4, p.depth.toNat), (off + 5, p.gk), (off + 6, 1), (off + 8, p.pc.toNat),
      (off + 16, match p.jp with
        | some j => j.toNat
        | none => noJoin), (off + 24, if p.gk = 0 then 0 else p.gg.toNat)]

/-- Read a path record (10 Table 10-5). A GRDK above 4, which 02 R71 does not give and software may write, is taken as the number of
guarded instructions left (DESIGN CHOICE, log 116). -/
def pathOf (bs : List Byte) (off : Nat) : Option Path :=
  if fieldAt bs (off + 6) 1 = 0 then none
  else some ⟨BitVec.ofNat 32 (fieldAt bs off 4), BitVec.ofNat 64 (fieldAt bs (off + 8) 8), joinOf (fieldAt bs (off + 16) 8),
    BitVec.ofNat 8 (fieldAt bs (off + 4) 1), fieldAt bs (off + 5) 1, BitVec.ofNat 32 (fieldAt bs (off + 24) 4), none, .ready⟩

/-- The record of a trap of the path in a slot (10 Table 10-4). -/
def Trap.record (t : Trap) (g : Group) (ps : PSlot) (split : Bool) : List Byte :=
  let pc := match t.pc with
    | some x => x
    | none => match g.path ps with
      | some p => p.pc
      | none => 0
  layout 256 ([(0, t.cause), (1, t.detail),
    (2, (if t.precise then 1 else 0) + (if split then 2 else 0) + (if ps = .b then 4 else 0) + (if t.chain then 8 else 0)),
    (3, t.pos), (4, (if resumesNext t.cause then 0 else t.lanes.toNat)), (8, pc.toNat), (16, t.va), (24, t.info.toNat),
    (28, g.gstat.toNat), (96, g.ex.toNat), (100, g.dsp)] ++ pathFields 32 g.slotA ++ pathFields 64 g.slotB)

/-- Address of the trap record of a group's placement (10 R310). -/
def State.recordAddr (s : State) (ctx core slot : Nat) : Nat :=
  (s.context ctx).trbase.toNat + (core * 64 + slot) * 256

/-- Write bytes at a virtual address as the core does for itself, with write permission; none when translation fails. -/
def State.storeVirt (s : State) (core asid va : Nat) (bs : List Byte) : Option State :=
  match s.translateBy (coreDie core) asid va needW with
  | .ok t => some ((s.noteTranslation (niOf core) asid va).storeRun (s.cacheOf core) t.tag bs)
  | .error _ => none

/-- Read bytes at a virtual address as plain loads with read permission. -/
def State.loadVirt (s : State) (core asid va n : Nat) : Except XKind (State × List Byte) :=
  match s.translateBy (coreDie core) asid va needR with
  | .ok t => .ok ((s.noteTranslation (niOf core) asid va).loadRun (s.cacheOf core) t.tag n)
  | .error k => .error k

/-- Send an MSI-X vector with what it names to both ports (12 R350). -/
def State.notify (s : State) (vector what : Nat) : State :=
  let p0 := s.port 0
  let s1 := s.setPort 0 { p0 with msix := p0.msix ++ [(vector, what)] }
  let p1 := s1.port 1
  s1.setPort 1 { p1 with msix := p1.msix ++ [(vector, what)] }

/-- Halt a running context: its teams freeze, its launch queues stop, both ports get the halt notice (07 R246). The
notice names the core and the cause code, 0 for HALT, 0x100 for a host. -/
def State.haltContext (s : State) (ctx core cause : Nat) : State :=
  let c := s.context ctx
  let s1 := if c.state = 1 then s.setContext ctx { c with state := 2 } else s
  let gs : SMap Group := s1.groups.map fun e =>
    if e.2.ctx = ctx then (e.1, { e.2 with freeze := { e.2.freeze with halt := true } }) else e
  { s1 with groups := gs }.notify 32 (core + 256 * cause)

/-- Queue a trapped group's slot for service (07 R240). -/
def State.queueService (s : State) (key : Nat) : State :=
  let c := s.core (key / 128)
  s.setCore (key / 128) { c with trapq := c.trapq ++ [key % 128] }

/-- Freeze-on-step: a single-step trap freezes the other groups of the team (10 R322). -/
def State.freezeOnStep (s : State) (g : Group) : State :=
  if (s.context g.ctx).flags.getLsbD 0 then
    { s with groups := s.groups.map fun e =>
      if e.2.team = g.team ∧ e.2.uid ≠ g.uid ∧ e.1 % 128 < 64 then
        (e.1, { e.2 with freeze := { e.2.freeze with step := true } })
      else e }
  else s

/-- Is the path of a slot held in an instruction it has issued? -/
def Group.heldIn (g : Group) (ps : PSlot) : Bool :=
  match g.path ps with
  | some p => p.isHeld
  | none => false

/-- Is slot B of a wave split in the LDS that split the group, its lines still empty (01 R39)? -/
def Group.splitStalls (g : Group) : Bool := g.split.isSome && g.slotB.any Path.onEmptyLine

/-- Is a path of the group in an issued instruction that completes first (10 R310, R314)? -/
def Group.completing (g : Group) : Bool := g.slotA.any Path.completing || g.slotB.any Path.completing

/-- Does a trap of the group wait for the path in a slot: for an issued instruction that completes, or for the LDS that split the
group? That path goes on meanwhile (10 R310). -/
def Group.finishes (g : Group) (ps : PSlot) : Bool :=
  (g.path ps).any Path.completing || (ps == .b && g.splitStalls)

/-- May a trap of the group be taken now: no answer that writes a scalar register is outstanding, no issued instruction is still to
complete, and a wave split's LDS has its data, so that what has issued completes before the record is written (10 R310)? A Frozen
group's LDS does not wait: it issues again (10 Table 10-7). -/
def State.trapReady (_ : State) (g : Group) : Bool :=
  g.answers.isEmpty && !g.completing && (g.frozen || !g.splitStalls)

/-- The single-step trap the group has to raise next: of a path that is not held in its instruction (10 R321). -/
def Group.dueStep (g : Group) : Option (PSlot × DWord) := g.stepDue.find? fun e => !g.heldIn e.1

/-- Is a trap of the group due that cannot be taken yet? Neither slot issues until it is (10 R310). -/
def State.trapWaits (s : State) (g : Group) : Bool :=
  !g.inIssue && (g.stop.isSome || !g.mcheck.isEmpty || g.dueStep.isSome) && !s.trapReady g

/-- The trap of the path in a slot waits, and the path with it. -/
def Group.stopAt (g : Group) (ps : PSlot) (w : Wait) : Group := { g.setWait ps w with stop := some ps }

/-- Take a trap of the path in a slot of a group (10 R310, R311; 07 R240): what it has issued completes, the record is
written, the group is Trapped and waits for service. A trap at S, and a record that cannot be written, halt the
context. -/
def State.raiseTrap (s : State) (key : Nat) (ps : PSlot) (t : Trap) : State :=
  let s1 := s.landAll key
  match s1.group key with
  | none => s1
  | some g =>
    if g.priv = .supervisor then s1.haltContext g.ctx (key / 128) t.cause
    else
      match s1.storeVirt (key / 128) (s1.asidOf g) (s1.recordAddr g.ctx (key / 128) (key % 128))
          (t.record g ps g.split.isSome) with
      | none => s1.haltContext g.ctx (key / 128) t.cause
      | some s2 =>
        let s3 := (s2.setGroup key { g with
          status := .trapped, svcPend := true, cause := t.cause, trapSlot := ps, pending := none, chain := none, fuse := none,
          stop := none, stepDue := g.stepDue.filter fun e => g.heldIn e.1 }).queueService key
        if t.cause = cStep then s3.freezeOnStep g else s3

/-- A trap of an instruction that issues from a slot: the slots go on alternating after it (01 R32, R50). -/
def State.trapIssue (s : State) (key : Nat) (ps : PSlot) (t : Trap) : State :=
  match s.group key with
  | some g => (s.setGroup key { g with nextB := decide (ps = .a) }).raiseTrap key ps t
  | none => s

/-- The paths that a record's two paths become: lanes in EX leave both, lanes of slot A leave slot B, a path without lanes goes,
and a path alone moves to slot A (10 R313). -/
def fitPaths (a b : Option Path) (ex : Word) : Option Path × Option Path :=
  let keep := fun (p : Option Path) (gone : Word) => match p with
    | some x => if x.mask &&& ~~~gone = 0 then none else some { x with mask := x.mask &&& ~~~gone }
    | none => none
  let a := keep a ex
  let b := keep b (ex ||| match a with
    | some x => x.mask
    | none => 0)
  match a, b with
  | none, some x => (some x, none)
  | a, b => (a, b)

/-- The wake code of a restored WAITA (05 Table 5-7). -/
def wakeRestore : Word := 3

/-- A restored path whose wait is looked at again (01 R46): a WAITA completes, a path in a barrier stays there, any other issues
again. -/
def Path.again (p : Path) : Path :=
  match p.wait with
  | .parked _ => { p with pc := p.pc + 4, wait := .ready }
  | .barrier k => { p with wait := .barrier k }
  | _ => { p with wait := .ready }

/-- The scalar register of a path whose WAITA completes. -/
def Path.wakeReg (p : Path) : List Nat :=
  match p.wait with
  | .parked w => [w.sd]
  | _ => []

/-- A restored group looks at its waits again, once nothing holds it Frozen and an ERET has ended its trap (01 R46). -/
def Group.reevaluate (g : Group) : Group :=
  if !g.reeval || g.frozen || g.status == .trapped then g
  else
    let sds := (g.slotA.toList ++ g.slotB.toList).map Path.wakeReg |>.flatten
    { g with
      slotA := g.slotA.map Path.again
      slotB := g.slotB.map Path.again
      s := SMap.putAll 0 g.s (sds.map fun r => (r, wakeRestore))
      reeval := false }

/-- A path of a record as ERET reloads it (10 R313): the path that trapped with a translation fault re-issues for LANEMASK; the
other keeps its own pending replay mask, and one that stands where it waited in a barrier or in WAITA goes on waiting there
(log 13). -/
def Group.reloadPath (g : Group) (bs : List Byte) (ps : PSlot) (off : Nat) : Option Path :=
  match pathOf bs off, g.path ps with
  | some n, old =>
    let same := old.any fun o => o.pc == n.pc
    let replay := if ps = g.trapSlot then
        (if g.cause = cTranslation then some (BitVec.ofNat 32 (fieldAt bs 4 4)) else none)
      else if same then old.bind Path.replay else none
    let wait := match old.map Path.wait with
      | some (.barrier k) => if same then Wait.barrier k else .ready
      | some (.parked w) => if same then Wait.parked w else .ready
      | _ => .ready
    some { n with replay := replay, wait := wait }
  | none, _ => none

/-- Reload a trapped group from its record (10 R313): PATHA, PATHB, LANEMASK and GSTAT alone; a wave split goes on while both
slots hold a path, and the slots go on alternating (01 R32). -/
def Group.reload (g : Group) (bs : List Byte) : Group :=
  let ps := fitPaths (g.reloadPath bs .a 32) (g.reloadPath bs .b 64) g.ex
  { g with
    gstat := BitVec.ofNat 32 (fieldAt bs 28 4) &&& 0x0FC0003F
    slotA := ps.1
    slotB := ps.2
    split := if (ps.2).isSome then g.split else none
    status := .running
    svcPend := false }

/-- May a path try to issue, as far as its own wait goes: it is ready, or it asks again whether its wait is over? -/
def Path.mayTry (p : Path) : Bool :=
  match p.wait with
  | .ready => true
  | .operand => true
  | .held _ => true
  | .barrier _ => true
  | .emptyLine _ _ _ woken _ => woken
  | _ => false

/-- May the path in a slot of a running group issue (01 R24, R37, R44; 04 R146)? In a Frozen group an issued instruction still completes
(10 R314 step 2). -/
def Group.mayIssue (g : Group) (ps : PSlot) : Bool :=
  match g.path ps with
  | none => false
  | some p =>
    match g.chain, g.fuse with
    | some c, _ => c.slot == ps
    | none, some f => f.1 == ps && p.mayTry
    | none, none => (!g.frozen || p.completing) && !p.atJoin && p.mayTry

/-! ## Fetch (02 R55, R56) -/

/-- Key of a halfword in an instruction cache. -/
def icKey (tag : Nat) : Nat := tag / 2

/-- The halfword a core fetches at an address: from its instruction cache, else as memory stands. -/
def State.codeHalf (s : State) (core asid va : Nat) : Except XKind Half :=
  match s.translateBy (coreDie core) asid va needX with
  | .error k => .error k
  | .ok t =>
    match SMap.find (s.core core).icache (icKey t.tag) with
    | some h => .ok h
    | none => .ok (BitVec.ofNat 16 (ofBytes (s.peekRun t.tag 2)))

/-- The instruction at an address, or why the word there is rejected. -/
def State.codeAt (s : State) (core asid va : Nat) : Except XKind (Except Reject Instr) :=
  match s.codeHalf core asid va with
  | .error k => .error k
  | .ok h0 =>
    if h0.toNat % 2 = 0 then
      .ok ((decode (toBytes 2 h0.toNat)).map Prod.fst)
    else
      match s.codeHalf core asid (va + 2) with
      | .error k => .error k
      | .ok h1 => .ok ((decode (toBytes 2 h0.toNat ++ toBytes 2 h1.toNat)).map Prod.fst)

/-- Fill the instruction cache with the halfwords from an address that can be fetched: enough for a latch chain. -/
def State.fetchFill (s : State) (core asid va : Nat) : State :=
  (run 0 8).foldl (fun st i =>
    match st.translateBy (coreDie core) asid (va + 2 * i) needX with
    | .error _ => st
    | .ok t =>
      let c := st.core core
      if SMap.has c.icache (icKey t.tag) then st
      else st.setCore core { c with
        icache := SMap.insert c.icache (icKey t.tag) (BitVec.ofNat 16 (ofBytes (st.peekRun t.tag 2))) }) s

/-! ## The common checks -/

/-- A member of a latch chain as the leader's check sees it (01 R24). -/
inductive Cand where
  | bad (cause detail : Nat)
  | member (i : Instr)
deriving DecidableEq, Repr

/-- Candidates after a leader: up to `n`, ending before one that reads no latch, and at the path's join point (log 12). -/
def State.chainScan (s : State) (core asid : Nat) (jp : Option DWord) : Nat → DWord → List Cand
  | 0, _ => []
  | n + 1, pc =>
    if jp = some pc then []
    else match s.codeAt core asid pc.toNat with
      | .error k => [.bad cFetch k.code]
      | .ok (.error _) => [.bad cIllegal 0]
      | .ok (.ok i) =>
        if !legalCode i then [.bad cIllegal 0]
        else if (latchReads i).isEmpty then []
        else .member i :: State.chainScan s core asid jp n (pc + BitVec.ofNat 64 i.size)

/-- The first failing check of 01 R49 and R238 for an instruction at a position of its chain, under a guard that still
covers it or not. -/
def checkCause (g : Group) (guarded : Bool) (pos : Nat) (i : Instr) : Option Nat :=
  if !WellFormed.wf i then some cIllegal
  else if guarded && !laneFormat i then some cIllegal
  else if !(latchReads i).isEmpty && (!latchEligible i || (latchReads i).any fun j => decide (pos ≤ j)) then some cLatch
  else if producerOnly i && !g.producer then some cRole
  else if !(operands i).all (Opd.fits g.vregs g.sregs g.barriers g.tiles) then some cResource
  else if privileged i && g.priv == .user then some cPrivilege
  else none

/-- The check of one candidate. -/
def candCause (g : Group) (gk pos : Nat) : Cand → Option (Nat × Nat)
  | .bad c d => some (c, d)
  | .member i => (checkCause g (decide (pos < gk)) pos i).map fun c => (c, 0)

/-- The first failing member, with its position. -/
def chainFail (g : Group) (gk : Nat) : Nat → List Cand → Option (Nat × Nat × Nat)
  | _, [] => none
  | pos, c :: r =>
    match candCause g gk pos c with
    | some (cause, d) => some (pos, cause, d)
    | none => chainFail g gk (pos + 1) r

/-- The cause that the instruction's registers decide; registers beyond the budget decide nothing. -/
def State.dynOf (s : State) (key : Nat) (g : Group) (i : Instr) : Option Nat :=
  if (sregsOf i).all (fun r => decide (r < g.sregs)) then s.dynCause key g i else none

/-- What the common checks decide. -/
inductive Verdict where
  | trap (t : Trap)
  /-- a trap that waits for what the group has issued -/
  | stop
  | wait
  | go (latch : Option Nat) (chain : Option Chain)
deriving DecidableEq, Repr

/-- Does an instruction of the path need a register an answer still writes (10 R307)? RDLANE may read any lane. -/
def State.registersBusy (s : State) (g : Group) (p : Path) (i : Instr) : Bool :=
  let all := match i with
    | .rdlane _ _ _ => true
    | _ => false
  let vs := vregsOf i
  let ss := sregsOf i
  (s.busyRegs g).any (fun e => vs.contains e.1 && (all || lane p.mask e.2)) || g.busySregs.any (fun r => ss.contains r)

/-- Where slot A of a wave split stands, for the path in slot B (01 R40). -/
def Group.aheadPc (g : Group) (ps : PSlot) : Option DWord :=
  if ps = .b ∧ g.split.isSome then g.slotA.map Path.pc else none

/-- Must slot B of a wave split wait for slot A: it stands where A stands and has not merged, and A has still to issue the
instruction there or to complete it (01 R40)? -/
def Group.behind (g : Group) (ps : PSlot) (p : Path) (i : Instr) : Bool :=
  g.aheadPc ps == some p.pc && g.slotA.any fun a => a.isHeld || a.replay.isSome || runAhead i

/-- Could something other than a group make the lines of a segment full that one of its paths waits for: another group of its team, a copy
on its way to a line, or a subscription that is bound to one? -/
def State.othersFill (s : State) (key : Nat) (g : Group) (k : Nat) (ls : List Nat) : Bool :=
  s.groups.any (fun e => e.1 != key && e.2.team == g.team && e.2.status != .done)
    || (s.segment g.team k).any fun x => ls.any fun l => SMap.getD x.pend l 0 != 0 || SMap.has x.bound l

/-- Does a path wait in a scratchpad read that comes before what the other slot has not yet issued (08 R249 to R252)? Where only the
group's other path can fill its lines that path goes on, since both make progress (01 R50; DEDUCED, log 137). -/
def State.readsBefore (s : State) (key : Nat) (g : Group) (w : Wait) : Bool :=
  match w with
  | .emptyLine k ls _ woken _ => woken || s.othersFill key g k ls
  | _ => false

/-- Must an instruction of a slot wait for one that the other slot's path has issued: an LDS.TAKE orders every later access of the group
after it, a release and a fence come after every read, and what follows a FENCE after it (08 R249, R252 rows 5 to 8; DEDUCED, log 137)? -/
def State.ordersFirst (s : State) (key : Nat) (g : Group) (ps : PSlot) (i : Instr) : Bool :=
  (g.path ps.other).any fun y => match y.wait with
    | .emptyLine _ _ _ _ take => ((take && accesses i) || releases i) && s.readsBefore key g y.wait
    | .held .fence => accesses i
    | _ => false

/-- The checks every instruction passes before it issues from a path (01 R22 to R24, R40, R47 to R49). -/
def State.verdict (s : State) (key : Nat) (g : Group) (ps : PSlot) (p : Path) (i : Instr) : Verdict :=
  match g.chain with
  | some c =>
    if c.slot = ps then
      .go (some c.pos) (if c.pos + 1 < c.len then some { c with pos := c.pos + 1, rest := c.rest.tail } else none)
    else .wait
  | none =>
    let cands := if latchEligible i && (latchReads i).isEmpty then
        s.chainScan (key / 128) (s.asidOf g) p.jp 3 (p.pc + BitVec.ofNat 64 i.size) else []
    let late := hasDyn i && (sregsOf i).any (fun r => g.busySregs.contains r)
    let fail := match firstCause (checkCause g (decide (p.gk ≠ 0)) 0 i) (if late then none else s.dynOf key g i) with
      | some c => some (0, c, 0)
      | none => chainFail g p.gk 1 cands
    if late && WellFormed.wf i then .wait
    else match fail with
    | some (pos, cause, d) =>
      if s.trapReady g then
        .trap { Trap.of cause with detail := d, chain := !cands.isEmpty, pos := pos }
      else .stop
    | none =>
      let is := i :: cands.filterMap fun c => match c with
        | .member j => some j
        | .bad _ _ => none
      let ahead := match g.split with
        | some n => decide (ps = .a) && (!runAhead i || decide (32 < n + is.length))
        | none => false
      let acquire := accesses i && !g.asked.isEmpty
      if ahead || acquire || (!p.isHeld && s.ordersFirst key g ps i) || g.behind ps p i || is.any (s.registersBusy g p) then .wait
      else if cands.isEmpty then .go (if latchEligible i && (latchReads i).isEmpty then some 0 else none) none
      else .go (some 0) (some ⟨ps, 1, is.length, p.pc, is.tail⟩)

/-- An instruction that passed its checks, ready to take its effect. -/
structure Ctx where
  s : State
  key : Nat
  g : Group
  ps : PSlot
  p : Path
  /-- active lanes -/
  act : Word
  /-- the latch its result goes to -/
  latch : Option Nat
  /-- address of the next instruction -/
  nxt : DWord

/-- The core of an issuing instruction. -/
def Ctx.core (c : Ctx) : Nat := c.key / 128
/-- Its active lanes, ascending. -/
def Ctx.lanes (c : Ctx) : List Nat := lanesOf c.act
/-- Its address space. -/
def Ctx.asid (c : Ctx) : Nat := c.s.asidOf c.g
/-- A scalar source. -/
def Ctx.sv (c : Ctx) (r : Nat) : Word := c.s.sv c.key c.g r
/-- The data cache of its core. -/
def Ctx.cache (c : Ctx) : Nat := c.s.cacheOf c.core

/-- GSTAT.SSTEP for a U group (10 R321). -/
def Group.stepping (g : Group) : Bool := g.gstat.getLsbD 23 && g.priv == .user

/-- The path after it has issued: its PC, one guarded instruction fewer, no replay, nothing to wait for. -/
def Path.advance (p : Path) (pc : DWord) : Path :=
  { p with pc := pc, gk := p.gk - 1, gg := if p.gk ≤ 1 then 0 else p.gg, replay := none, wait := .ready }

/-- The address of the instruction, or of the leader of the chain it belongs to. -/
def Group.leadOf (g : Group) (p : Path) : DWord :=
  match g.chain with
  | some c => c.lead
  | none => p.pc

/-- The instruction that follows another in the stream, when the path may issue it at once: its halfwords are fetched, no
register it names is outstanding, no join point comes before it, and it leads no latch chain. -/
def State.follower (s : State) (key : Nat) (g : Group) (ps : PSlot) (p : Path) (pc : DWord) : Option Instr :=
  if p.jp = some pc ∨ g.aheadPc ps = some pc then none
  else match s.codeAt (key / 128) (s.asidOf g) pc.toNat with
    | .ok (.ok j) =>
      if s.registersBusy g p j || (latchEligible j && !(s.chainScan (key / 128) (s.asidOf g) p.jp 1 (pc + BitVec.ofNat 64 j.size)).isEmpty)
      then none else some j
    | _ => none

/-- The next instructions that issue with this one as one fused sequence (04 R145): none while single-stepping, and
no more than run-ahead lets the path issue (04 R146). -/
def State.fuseMore (s : State) (key : Nat) (g : Group) (ps : PSlot) (p : Path) (i : Instr) : List Instr :=
  let pc1 := p.pc + BitVec.ofNat 64 i.size
  let j := s.follower key g ps p pc1
  let k := j.bind fun x => s.follower key g ps p (pc1 + BitVec.ofNat 64 x.size)
  let more := (j.toList ++ k.toList).take (fuseCount i j k)
  let stops := match g.split with
    | some m => decide (ps = .a) && (decide (32 < m + 1 + more.length) || more.any fun x => !runAhead x)
    | none => false
  if g.stepping || stops || !s.trapReady g then [] else more

/-- The members still to issue after an instruction: of the sequence in issue, or of the one it starts; inside a latch chain
the group holds its scheduler without one. -/
def State.fuseNext (s : State) (key : Nat) (g : Group) (ps : PSlot) (p : Path) (i : Instr) (chain : Option Chain) :
    Option (PSlot × List Instr) :=
  let more := match g.fuse with
    | some (_, m) => m.tail
    | none => if chain.isSome then [] else s.fuseMore key g ps p i
  if more.isEmpty then none else some (ps, more)

/-- Is a step of slot A's still due whose other lanes this is: slot B of a wave split completes the LDS that split the group (01 R39,
10 R321)? -/
def Group.sameStep (g : Group) (ps : PSlot) (p : Path) : Bool :=
  ps == .b && g.splitStalls && g.stepDue.contains (.a, p.pc)

/-- The group after one of its instructions has issued: the other slot next, a new ready interval, one more instruction
of run-ahead, the progress of its chain and of its fused sequence, and a single-step trap due at a step's end. -/
def Group.issued (g : Group) (now : Nat) (ps : PSlot) (p : Path) (chain : Option Chain) (fuse : Option (PSlot × List Instr)) :
    Group :=
  { g with
    nextB := decide (ps = .a)
    since := now
    chain := chain
    fuse := fuse
    split := match g.split with
      | some n => if ps = .a then some (n + 1) else some n
      | none => none
    stepDue := if g.stepping && chain.isNone && !g.sameStep ps p then g.stepDue ++ [(ps, g.leadOf p)] else g.stepDue }

/-- The vector registers an instruction writes; with W = 1 it writes none (02 R61). -/
def writtenBy (i : Instr) : List Nat := if bypassed i then [] else vdestsOf i

/-- The registers an instruction writes among those an MXRD is still to fill become undefined for good, in the lanes it
writes (06 Table 6-3). -/
def Group.spoil (g : Group) (i : Instr) (act : Word) : Group :=
  { g with mxrd := g.mxrd.map fun r =>
      { r with spoiled := r.spoiled ++
          ((writtenBy i).filter fun v => decide (r.vd ≤ v) && decide (v < r.vd + r.cnt)).map fun v => (v, act) } }

/-- The registers (register, lane) an instruction names, format words among them, that an MXRD of the group is still to fill. -/
def Group.veiled (g : Group) (i : Instr) : List (Nat × Nat) :=
  (g.mxrd.map fun r => (((vregsOf i ++ formatRegs g i).filter fun v => decide (r.vd ≤ v) && decide (v < r.vd + r.cnt)).map fun v =>
    (lanesOf r.lanes).map fun l => (v, l)).flatten).flatten

/-- The group as an instruction finds it: a register that an MXRD is still to fill reads as an undefined value, whatever has
written it meanwhile (06 Table 6-3; log 7). -/
def State.veil (s : State) (g : Group) (i : Instr) : Group :=
  g.setMany ((g.veiled i).map fun e => (e, Config.staleWord s.now (32 * e.1 + e.2)))

/-- What a path waits for that may not issue yet: operands, unless it is in an instruction it has issued. -/
def Path.blocked (p : Path) : Wait := if p.isHeld then p.wait else .operand

/-- Common path of every instruction: its group and path, the checks, the trap or wait they decide, else its effect. -/
def issue (i : Instr) (s : State) (k : Ctx → Out) : Out :=
  match s.group s.cur.key with
  | none => .fault .noIssuingGroup
  | some g =>
    match g.path s.cur.pslot with
    | none => .fault .noIssuingGroup
    | some p =>
      match s.verdict s.cur.key g s.cur.pslot p i with
      | .trap t => .next (s.trapIssue s.cur.key s.cur.pslot t)
      | .stop => .next (s.setGroup s.cur.key (g.stopAt s.cur.pslot p.blocked))
      | .wait => .next (s.setGroup s.cur.key (g.setWait s.cur.pslot p.blocked))
      | .go latch chain =>
        k ⟨s, s.cur.key,
          ((s.veil g i).spoil i p.act).issued s.now s.cur.pslot p chain (s.fuseNext s.cur.key g s.cur.pslot p i chain),
          s.cur.pslot, p, p.act, latch, p.pc + BitVec.ofNat 64 i.size⟩

/-- The state after the path moves to an address with the group as given. -/
def Ctx.retireAt (c : Ctx) (g : Group) (pc : DWord) : State :=
  c.s.setGroup c.key (c.s.atBoundary (match g.path c.ps with
    | some p => g.setPath c.ps (some (p.advance pc))
    | none => g))

/-- Complete at the next instruction. -/
def Ctx.done (c : Ctx) (g : Group) : Out := .next (c.retireAt g c.nxt)

/-- Raise a trap of the instruction; what still writes registers is waited for first (10 R310). -/
def Ctx.trap (c : Ctx) (t : Trap) : Out :=
  match c.s.group c.key with
  | none => .fault .noIssuingGroup
  | some g =>
    if c.s.trapReady g then .next (c.s.trapIssue c.key c.ps t)
    else .next (c.s.setGroup c.key (g.stopAt c.ps .operand))

/-- Raise a trap whose resume point is the next instruction (10 R309): the path moves on, nothing else changes. -/
def Ctx.trapNext (c : Ctx) (t : Trap) : Out :=
  match c.s.group c.key with
  | none => .fault .noIssuingGroup
  | some g =>
    if c.s.trapReady g then
      .next ((c.s.setGroup c.key (g.setPath c.ps (some (c.p.advance c.nxt)))).trapIssue c.key c.ps
        { t with pc := some c.p.pc })
    else .next (c.s.setGroup c.key (g.stopAt c.ps .operand))

/-- Wait before issue, nothing done. -/
def Ctx.stall (c : Ctx) (w : Wait) : Out :=
  match c.s.group c.key with
  | none => .fault .noIssuingGroup
  | some g => .next (c.s.setGroup c.key (g.setWait c.ps w))

/-- The path holds in the instruction it has issued, which keeps what it took at its issue (01 R36). -/
def Ctx.hold (c : Ctx) (op : HeldOp) : Out := c.stall (.held op)

/-- What the instruction took when it issued, if the path is in its hold (01 R36). -/
def Ctx.taken (c : Ctx) : Option HeldOp :=
  match c.p.wait with
  | .held op => some op
  | _ => none

/-- Is the shootdown that of a path: its group and its slot? -/
def Shootdown.madeBy (d : Shootdown) (uid : Nat) (ps : PSlot) : Bool := d.uid == uid && d.slot == ps

/-- The team's restartable flag is cleared (10 R317). -/
def State.clearRestart (s : State) (team : Nat) : State :=
  match s.team team with
  | some t => if t.restartable then s.setTeam team { t with restartable := false } else s
  | none => s

/-- Clear it for an instruction that counts when it has an active lane or is scalar. -/
def Ctx.publish (c : Ctx) : Ctx := { c with s := c.s.clearRestart c.g.team }

end Sys2Proof.Machine
end

