-- ==== Sys2Proof/Machine/Flags.lean ====
section
/-! DEFINITION. Writing results with their latch and their sticky flags (01 R22, R30; 03 R85). -/

namespace Sys2Proof.Machine

/-- Set sticky flags in GSTAT (01 R30). -/
def Group.flag (g : Group) (w : Word) : Group := { g with gstat := g.gstat ||| w }

/-- The flags of several lanes together. -/
def allFlags : List (Nat × Nat × Word) → Word
  | [] => 0
  | x :: r => x.2.2 ||| allFlags r

/-- Writes of a latch: the results in active lanes, undefined values in the others (01 R22; log 7). -/
def latchWrites (free k : Nat) (xs : List (Nat × Word)) : List (Nat × Word) :=
  (run 0 32).map fun l =>
    (32 * k + l, match xs.find? (fun e => e.1 == l) with
      | some e => e.2
      | none => Config.freeWord (free + l))

/-- Complete a latch-eligible instruction: one 32-bit result in each active lane, to the destination unless W = 1 and to
the latch of its place in a chain (01 R22, 02 R61). -/
def Ctx.deliver (c : Ctx) (w : BitVec 1) (d : Nat) (xs : List (Nat × Word)) (flags : Word) : Out :=
  let g1 := (if w = 1 then c.g else c.g.setLanes d xs).flag flags
  match c.latch with
  | none => c.done g1
  | some k =>
    { c with s := { c.s with free := c.s.free + 32 } }.done
      { g1 with b := SMap.putAll 0 g1.b (latchWrites c.s.free k xs) }

/-- Complete an instruction that is not latch-eligible and writes one register of each active lane. -/
def Ctx.write (c : Ctx) (d : Nat) (xs : List (Nat × Word)) (flags : Word) : Out :=
  c.done ((c.g.setLanes d xs).flag flags)

/-- Complete with several registers of each active lane. -/
def Ctx.writeMany (c : Ctx) (xs : List ((Nat × Nat) × Word)) (flags : Word) : Out :=
  c.done ((c.g.setMany xs).flag flags)

/-- Results of a function that also answers flags. -/
def wordsOf (xs : List (Nat × Nat × Word)) : List (Nat × Word) := xs.map fun e => (e.1, BitVec.ofNat 32 e.2.1)

end Sys2Proof.Machine
end

