-- ==== Sys2Proof/Machine/Operands.lean ====
section
/-! DEFINITION. Operand forms: per-lane sources, effective addresses (05 Table 5-1), scratchpad addresses, and the common
part of may-fault instructions (05 R147 to R149, 10 R307). -/

namespace Sys2Proof.Machine

/-! ## Lane results -/

/-- One result for each active lane. -/
def Ctx.map (c : Ctx) (f : Nat → Word) : List (Nat × Word) := c.lanes.map fun l => (l, f l)

/-- A lane instruction of one source. -/
def Ctx.lane1 (c : Ctx) (a : Nat) (w : BitVec 1) (d : Nat) (f : Word → Word) : Out :=
  c.deliver w d (c.map fun l => f (c.g.src a l)) 0

/-- A lane instruction of two sources. -/
def Ctx.lane2 (c : Ctx) (b a : Nat) (w : BitVec 1) (d : Nat) (f : Word → Word → Word) : Out :=
  c.deliver w d (c.map fun l => f (c.g.src a l) (c.g.src b l)) 0

/-- A lane instruction of two sources and its destination. -/
def Ctx.lane3 (c : Ctx) (b a : Nat) (w : BitVec 1) (d : Nat) (f : Word → Word → Word → Word) : Out :=
  c.deliver w d (c.map fun l => f (c.g.src a l) (c.g.src b l) (c.g.src d l)) 0

/-- A float lane instruction: sources as numbers, a result and its flags. -/
def Ctx.floatLanes (c : Ctx) (w : BitVec 1) (d : Nat) (f : Nat → Nat × Word) : Out :=
  let rs := c.lanes.map fun l => (l, f l)
  c.deliver w d (wordsOf rs) (allFlags rs)

/-- A source as a number. -/
def Ctx.num (c : Ctx) (r l : Nat) : Nat := (c.g.src r l).toNat

/-! ## Global addresses -/

/-- The address base of a lane: scalar pair or vector pair (05 Table 5-1). -/
def Ctx.base (c : Ctx) (k : BitVec 1) (b : BitVec 7) (l : Nat) : Nat :=
  if k = 1 then c.g.src64 (2 * b.toNat) l else c.g.sr64 (2 * b.toNat)

/-- Register index form. -/
def Ctx.eaReg (c : Ctx) (k : BitVec 1) (b x : BitVec 7) : List (Nat × Nat) :=
  c.lanes.map fun l => (l, (c.base k b l + c.num x.toNat l) % 2 ^ 64)

/-- Immediate offset form: a signed 7-bit count of elements. -/
def Ctx.eaImm (c : Ctx) (k : BitVec 1) (b x : BitVec 7) (size : Nat) : List (Nat × Nat) :=
  c.lanes.map fun l => (l, wrap 64 ((c.base k b l : Int) + signed 7 x.toNat * (size : Int)))

/-- No-offset form. -/
def Ctx.eaBase (c : Ctx) (k : BitVec 1) (b : BitVec 7) : List (Nat × Nat) := c.lanes.map fun l => (l, c.base k b l)

/-- The lanes whose addresses are not multiples of the size (05 R148). -/
def misaligned (n : Nat) (ls : List (Nat × Nat)) : Word :=
  maskOfList ((ls.filter fun e => e.2 % n != 0).map Prod.fst)

/-- Enter Translation with an access pending (10 R307). -/
def Ctx.pend (c : Ctx) (ls : List (Nat × Nat)) (op : MemOp) : Out :=
  .next (c.s.setGroup c.key { c.g with status := .translation, pending := some ⟨c.ps, c.p.pc, ls, op, c.s.now⟩ })

/-- A may-fault lane instruction: alignment first, nothing more when no lane is active, else Translation. -/
def Ctx.access (c : Ctx) (align : Nat) (ls : List (Nat × Nat)) (op : MemOp) : Out :=
  let bad := misaligned align ls
  if bad ≠ 0 then c.trap { Trap.of cAlign with lanes := bad }
  else if ls.isEmpty then c.done c.g
  else c.pend ls op

/-- The same for an access that takes a store-queue entry: it issues only when one is free (01 R31). -/
def Ctx.queued (c : Ctx) (align : Nat) (ls : List (Nat × Nat)) (op : MemOp) : Out :=
  let bad := misaligned align ls
  if bad ≠ 0 then c.trap { Trap.of cAlign with lanes := bad }
  else if ls.isEmpty then c.done c.g
  else if 16 ≤ c.g.queue.length then c.stall .operand
  else c.publish.pend ls op

/-- A may-fault instruction with one address for the group. -/
def Ctx.accessOne (c : Ctx) (align addr : Nat) (op : MemOp) : Out :=
  if addr % align ≠ 0 then c.trap (Trap.of cAlign)
  else c.pend [(0, addr)] op

/-- Bytes a store puts in memory for a lane (05 R151). -/
def Group.storeBytes (g : Group) (z vd l : Nat) : List Byte :=
  toBytes (szBytes z) (ofBytes (((run vd (szRegs z)).map fun r => toBytes 4 (g.src r l).toNat).flatten))

/-! ## Scratchpad addresses -/

/-- The segment an SP instruction reaches: its own, or the window's (05 Table 5-1). -/
def Ctx.spSeg (c : Ctx) (w : BitVec 1) (x : BitVec 7) : Nat := if w = 1 then x.toNat % 32 else c.g.seg

/-- Scratchpad addresses of the active lanes, without wrap. -/
def Ctx.spAddr (c : Ctx) (w : BitVec 1) (x i : BitVec 7) (size : Nat) : List (Nat × Nat) :=
  c.lanes.map fun l => (l, c.num i.toNat l + (if w = 1 then 0 else x.toNat * size))

/-- Declared scratchpad bytes of the team's segments; a window beyond the team has none (01 Table 1-11). -/
def Ctx.spSize (c : Ctx) (k : Nat) : Nat :=
  match c.s.team c.g.team with
  | some t => if SMap.has t.segs k then t.scratch else 0
  | none => 0

/-- The lanes whose bytes leave the declared size (01 R47, R48). -/
def overrun (size n : Nat) (ls : List (Nat × Nat)) : Word :=
  maskOfList ((ls.filter fun e => decide (size < e.2 + n)).map Prod.fst)

/-- Scratchpad checks: resource-overrun with its lanes, then misaligned-address with its lanes (05 R149). -/
def Ctx.spCheck (c : Ctx) (k n align : Nat) (ls : List (Nat × Nat)) (f : Out) : Out :=
  let beyond := overrun (c.spSize k) n ls
  let bad := misaligned align ls
  if beyond ≠ 0 then c.trap { Trap.of cResource with lanes := beyond }
  else if bad ≠ 0 then c.trap { Trap.of cAlign with lanes := bad }
  else f

/-- The lines of 128 bytes that addresses lie in. -/
def linesOf (ls : List (Nat × Nat)) : List Nat := (ls.map fun e => e.2 / 128).eraseDups

/-- Bytes of a segment's scratchpad. -/
def Segment.read (g : Segment) (a n : Nat) : List Byte := (run a n).map fun x => SMap.getD g.spad x 0

/-- Write bytes of a segment's scratchpad. -/
def Segment.write (g : Segment) (a : Nat) (bs : List Byte) : Segment :=
  { g with spad := SMap.putAll 0 g.spad (number a bs) }

/-- Is a line full? -/
def Segment.isFull (g : Segment) (l : Nat) : Bool := SMap.getD g.full l false

/-- Set the full bit of a line. -/
def Segment.setFull (g : Segment) (l : Nat) (v : Bool) : Segment := { g with full := SMap.put false g.full l v }

/-! ## Scalar instructions -/

/-- A scalar instruction that writes one register (04 R114). -/
def Ctx.scalar (c : Ctx) (d : Nat) (x : Word) : Out := c.done (c.g.setSr d x)

end Sys2Proof.Machine
end

