-- ==== Sys2Proof/Machine/Batch.lean ====
section
/-! DEFINITION. Batches (06 R190 to R192). -/

namespace Sys2Proof.Machine

/-- A group's batch counter of a class. -/
def Group.counter (g : Group) (cls : Nat) : Word := SMap.getD g.batch cls 0

/-- BCLOSE (06 R191). -/
def execBclose (cls : BitVec 6) (d : BitVec 8) (s : State) : Out :=
  issue (.bclose cls d) s fun c =>
    let n := c.g.counter cls.toNat + 1
    let close := fun (p : Position) => if p.cls = cls.toNat ∧ p.batch = none then { p with batch := some n } else p
    let closeRead := fun (r : MatRead) => if cls = 0 ∧ r.batch = none then { r with batch := some n } else r
    c.done ({ c.g with
      batch := SMap.put 0 c.g.batch cls.toNat n
      positions := c.g.positions.map close
      mxrd := c.g.mxrd.map closeRead }.setSr d.toNat n)

/-- Does BWAIT of `n` cover batch `b` when the counter is `c` (06 R192)? Once `c` is 2^31 or more, BWAIT 0 has `n` taken as `c` by the
rule's first bullet, and waits, against its "BWAIT 0 returns at once" (DESIGN CHOICE, log 109). -/
def covers (c n b : Word) : Bool :=
  let back := if (2 : Nat) ^ 31 ≤ (c - n).toNat then 0 else (c - n).toNat
  decide (back ≤ (c - b).toNat) && decide ((c - b).toNat < c.toNat)

/-- Is an optional batch number covered? The open batch never is. -/
def coversOpt (c n : Word) : Option Word → Bool
  | some b => covers c n b
  | none => false

/-- What an MXRD gives its registers when a BWAIT covers it: the elements, and undefined values where another instruction
has written meanwhile (06 Table 6-3; log 7). -/
def MatRead.writes (r : MatRead) (free : Nat) : List ((Nat × Nat) × Word) :=
  (r.vals.getD []).map fun e =>
    if r.spoiled.any fun k => k.1 == e.1.1 && lane k.2 e.1.2 then (e.1, Config.freeWord (free + 32 * (e.1.1 - r.vd) + e.1.2)) else e

/-- The registers of the covered MXRDs are filled. -/
def Group.fillReads (g : Group) (free : Nat) (cover : Option Word → Bool) : Group :=
  let mine := g.mxrd.filter fun r => cover r.batch
  { ((number 0 mine).foldl (fun k e => k.setMany (e.2.writes (free + 128 * e.1))) g) with mxrd := g.mxrd.filter fun r => !cover r.batch }

/-- The operand and the counter of a BWAIT, as they were at its issue (01 R36). -/
def Ctx.bwaitOf (c : Ctx) (cls a : Nat) : Word × Word :=
  match c.taken with
  | some (.bwait n k) => (n, k)
  | _ => (c.sv a, c.g.counter cls)

/-- BWAIT (06 R192). -/
def execBwait (cls : BitVec 6) (a : BitVec 8) (s : State) : Out :=
  issue (.bwait cls a) s fun c =>
    let (n, k) := c.bwaitOf cls.toNat a.toNat
    let cover := coversOpt k n
    if c.g.positions.any (fun p => p.cls == cls.toNat && cover p.batch) then c.hold (.bwait n k)
    else if cls = 0 then
      { c with s := { c.s with free := c.s.free + 128 * c.g.mxrd.length } }.done (c.g.fillReads c.s.free cover)
    else c.done c.g

end Sys2Proof.Machine
end

