-- ==== Sys2Proof/Machine/Control.lean ====
section
/-! DEFINITION. Control instructions: branches, jumps, calls, join points, EXIT, YIELD, NOP
(01 R32 to R38; 02 R65 to R67; 04 R141 to R144), and what follows when a group's last lane exits. -/

namespace Sys2Proof.Machine

/-! ## Teams that end -/

/-- Has every lane of the group exited and its queue drained (01 R43, Done)? -/
def Group.finished (g : Group) : Bool := g.ex == 0xFFFFFFFF && g.queue.isEmpty && g.loads.isEmpty

/-- The groups of a team that are resident, with their keys; service groups do not count. -/
def State.teamGroups (s : State) (t : Nat) : List (Nat × Group) :=
  s.groups.filter fun e => e.2.team == t && decide (e.1 % 128 < 64)

/-- Free arena slots of a context (10 R305). -/
def State.freeArena (s : State) (ctx : Nat) (slots : List Nat) : State :=
  let c := s.context ctx
  s.setContext ctx { c with arena := c.arena.filter fun a => !slots.contains a }

/-- A team whose groups are all Done and whose positions have completed leaves its cores and frees its arena slots
(06 R194, 10 R302, R305). -/
def State.reapTeam (s : State) (t : Nat) : State :=
  let gs := s.teamGroups t
  match s.team t with
  | none => s
  | some x =>
    if x.saved.isSome || x.restart || gs.isEmpty then s
    else if gs.all fun e => e.2.status == .done && e.2.positions.isEmpty then
      let s1 : State := { s with
        groups := s.groups.filter fun e => !(e.2.team == t && decide (e.1 % 128 < 64))
        teams := SMap.erase s.teams t }
      s1.freeArena x.ctx (gs.filterMap fun e => e.2.arena)
    else s

/-- After a group's lanes exit or its queue drains: Done when finished and nothing of it is on its way to a home, its
service slot freed when it is a service group, its team reaped when that was the last (01 R31, R38, 07 R240). -/
def State.groupEnd (s : State) (key : Nat) : State :=
  match s.group key with
  | none => s
  | some g =>
    if g.finished && s.released g && g.status == .running then
      if 64 ≤ key % 128 then { s with groups := SMap.erase s.groups key }
      else (s.setGroup key { g with status := .done, stepDue := [] }).reapTeam g.team
    else s

/-- `groupEnd` for every group: after an access has performed at a home. -/
def State.endAll (s : State) : State := (SMap.keys s.groups).foldl State.groupEnd s

/-! ## Barrier completion (07 R226, R227) -/

/-- The exited masks of a team's groups by group index. -/
def State.exMasks (s : State) (t : Nat) : SMap Word :=
  (s.teamGroups t).foldl (fun m e => SMap.insert m e.2.grpid e.2.ex) []

/-- CUR or NEXT: the groups whose arrival mask with EX is full. -/
def countFull (grps : Nat) (m ex : SMap Word) : Nat :=
  ((run 0 grps).filter fun g => (SMap.getD m g 0 ||| SMap.getD ex g 0) == 0xFFFFFFFF).length

/-- One completion of a phase, when it is complete (07 R227 step 1). -/
def Barrier.complete (b : Barrier) (grps : Nat) (ex : SMap Word) : Option Barrier :=
  if countFull grps b.ac ex = grps ∧ b.ac ≠ [] then some ⟨!b.ph, b.an, []⟩ else none

/-- The completion check: it repeats, and at most two phases complete. -/
def Barrier.check (b : Barrier) (grps : Nat) (ex : SMap Word) : Barrier :=
  match b.complete grps ex with
  | none => b
  | some b1 => match b1.complete grps ex with
    | none => b1
    | some b2 => b2

/-- The completion check of every barrier of a team (07 R227, after an EXIT). -/
def State.checkBarriers (s : State) (t : Nat) : State :=
  match s.team t with
  | none => s
  | some x =>
    let ex := s.exMasks t
    s.setTeam t { x with bars := x.bars.map fun e => (e.1, e.2.check x.grps ex) }

/-! ## The divergence stack -/

/-- Write entries on the stack from index `dsp`; answers the fault and address of a write that cannot be made
(10 R305). -/
def State.pushEntries (s : State) (core : Nat) (g : Group) : Nat → List StackEntry → Except (XKind × Nat) State
  | _, [] => .ok s
  | n, e :: r =>
    let va := s.stackAddr g n
    match s.translateBy (coreDie core) (s.asidOf g) va needW with
    | .error k => .error (k, va)
    | .ok t =>
      ((s.noteTranslation (niOf core) (s.asidOf g) va).storeRun (s.cacheOf core) t.tag e.bytes).pushEntries core g (n + 1) r

/-- Push entries or trap: overflow before any change, then a translation fault (01 R33, 10 R305). -/
def Ctx.push (c : Ctx) (es : List StackEntry) (k : Ctx → Group → Out) : Out :=
  if c.g.divstack < c.g.dsp + es.length then c.trap (Trap.of cStack)
  else match c.s.pushEntries c.core c.g c.g.dsp es with
    | .error (e, va) => c.trap { Trap.of cTranslation with detail := e.code, va := va }
    | .ok s' => k { c with s := s' } { c.g with dsp := c.g.dsp + es.length }

/-! ## Targets -/

/-- Target of a branch or jump: its own address plus twice the signed offset (02 R65). -/
def Ctx.target (c : Ctx) (o : BitVec 18) : Int := (c.p.pc.toNat : Int) + 2 * o.toInt

/-- Is the target outside the 56-bit space (04 R141)? -/
def badTarget (t : Int) : Bool := decide (t < 0) || decide (((2 ^ 56 : Nat) : Int) ≤ t)

/-- The trap of a bad target (10 Table 10-3). -/
def addrTrap (t : Int) : Trap := { Trap.of cInstrAddr with va := wrap 64 t }

/-- The path moves to an address. -/
def Ctx.goto (c : Ctx) (g : Group) (t : Int) : Out := .next (c.retireAt g (BitVec.ofInt 64 t))

/-- Is the 64-bit target of BRX or RET an instruction address (02 R67)? -/
def badPair (t : Nat) : Bool := t % 2 == 1 || decide (2 ^ 56 ≤ t)

/-- BRA (01 R35, 04 R141). -/
def execBra (o : BitVec 18) (p : BitVec 5) (n u : BitVec 1) (s : State) : Out :=
  issue (.bra o p n u) s fun c =>
    let cond := if n = 1 then ~~~(c.g.pred p.toNat) else c.g.pred p.toNat
    let taken := c.act &&& cond
    let rest := c.act &&& ~~~cond
    let t := c.target o
    if u = 1 ∧ taken ≠ 0 ∧ rest ≠ 0 then c.trap { Trap.of cUniform with info := taken }
    else if badTarget t then c.trap (addrTrap t)
    else if taken = 0 then c.done c.g
    else if rest = 0 then c.goto c.g t
    else
      let moved : Path := { c.p with mask := taken, pc := BitVec.ofInt 64 t, replay := none, wait := .ready }
      match c.g.path c.ps.other with
      | none =>
        c.done ((c.g.setPath c.ps.other (some moved)).setPath c.ps (some { c.p with mask := rest }))
      | some _ =>
        c.push [StackEntry.ofPath moved] fun c' g => c'.done (g.setPath c.ps (some { c.p with mask := rest }))

/-- JMP (04 R142). -/
def execJmp (o : BitVec 18) (s : State) : Out :=
  issue (.jmp o) s fun c =>
    if badTarget (c.target o) then c.trap (addrTrap (c.target o)) else c.goto c.g (c.target o)

/-- CALL (04 R142). -/
def execCall (o : BitVec 18) (l : BitVec 5) (s : State) : Out :=
  issue (.call o l) s fun c =>
    if c.p.depth = 255 then c.trap (Trap.of cCallDepth)
    else if badTarget (c.target o) then c.trap (addrTrap (c.target o))
    else
      let g1 := c.g.setSr64 (2 * l.toNat) c.nxt.toNat
      c.goto (g1.setPath c.ps (some { c.p with depth := c.p.depth + 1 })) (c.target o)

/-- JOINPT (01 R34): it does not issue while the other path is held. -/
def execJoinpt (o : BitVec 18) (s : State) : Out :=
  issue (.joinpt o) s fun c =>
    let t := c.target o
    let rec0 : StackEntry := ⟨c.p.mask, true, c.p.depth, 0, BitVec.ofInt 64 t, c.p.jp, 0⟩
    if badTarget t then c.trap (addrTrap t)
    else match c.g.path c.ps.other with
      | none =>
        c.push [rec0] fun c' g => c'.done (g.setPath c.ps (some { c.p with jp := some (BitVec.ofInt 64 t) }))
      | some y =>
        if y.isHeld then c.stall .operand
        else c.push [StackEntry.ofPath y, rec0] fun c' g =>
          c'.done ((g.setPath c.ps.other none).setPath c.ps (some { c.p with jp := some (BitVec.ofInt 64 t) }))

/-- BRX (04 R143). -/
def execBrx (a : BitVec 8) (s : State) : Out :=
  issue (.brx a) s fun c =>
    let t := c.g.sr64 a.toNat
    if badPair t then c.trap (addrTrap t) else c.goto c.g t

/-- RET (04 R143). -/
def execRet (a : BitVec 8) (s : State) : Out :=
  issue (.ret a) s fun c =>
    let t := c.g.sr64 a.toNat
    if c.p.depth = 0 then c.trap (Trap.of cReturn)
    else if badPair t then c.trap (addrTrap t)
    else c.goto (c.g.setPath c.ps (some { c.p with depth := c.p.depth - 1 })) t

/-- EXIT (01 R38): the lanes leave, the stack is reconciled, the team's barriers are checked. -/
def execExit (s : State) : Out :=
  issue .exit s fun c =>
    let g := { c.g.setPath c.ps none with ex := c.g.ex ||| c.p.mask }
    .next (((c.s.setGroup c.key (c.s.settle g)).checkBarriers g.team).groupEnd c.key)

/-- YIELD: the group's turn ends; it is not picked in the next cycle, and its Ready interval begins after that (04 R143,
10 R306). -/
def execYield (s : State) : Out :=
  issue .yield s fun c => c.done { c.g with since := c.s.now + 2 }

/-- NOP (04 R143). -/
def execNop (s : State) : Out := issue .nop s fun c => c.done c.g

end Sys2Proof.Machine
end

