-- ==== Sys2Proof/Machine/Checks.lean ====
section
/-! DEFINITION. Machine-check records (12 R369) and what an engine asks before it moves on (10 R314). -/

namespace Sys2Proof.Machine

/-- A machine check as it is recorded (12 Table 12-9). -/
structure Check where
  kind : Nat
  answer : Nat
  core : Nat
  device : Nat
  addr : Nat
  cid : Nat
  rank : Nat
  seq : Word

/-- A check of a kind with nothing but its device and address. -/
def Check.of (kind device addr : Nat) : Check := ⟨kind, 0, 0xFFFF, device, addr, 0, 0, 0⟩

/-- The 64 bytes of a record. -/
def Check.bytes (k : Check) (time : Nat) : List Byte :=
  layout 64 [(0, k.kind), (1, k.answer), (2, k.core), (4, k.device), (8, k.addr), (16, k.cid), (18, k.rank),
    (20, k.seq.toNat), (24, time % 2 ^ 64)]

/-- Tagged address of a virtual address; an address that is not mapped keeps its own tag. -/
def State.tagFor (s : State) (asid va : Nat) : Nat :=
  match s.lookup asid va with
  | .ok t => t.tag
  | .error _ => tagOf asid va

/-- The pieces of sectors that `n` bytes at a virtual address lie in, by tagged address. -/
def State.tagPieces (s : State) (asid va n : Nat) : List (Nat × Nat) :=
  (pieces (n / 32 + 2) va n).map fun p => (s.tagFor asid p.1, p.2)

/-- Fold an element into memory at its home (03 R110): a far atomic of an engine, wherever its bytes lie. -/
def State.foldAt (s : State) (asid va : Nat) (op : UOp) (bs : List Byte) : State :=
  s.homeRmwRun (s.tagPieces asid va bs.length) fun old => toBytes bs.length (op.element (ofBytes old) (ofBytes bs))

/-- The context slot that a domain context tag maps to here (11 R337). -/
def State.ctxOfTag (s : State) (tag : Nat) : Option Nat :=
  (s.contexts.find? fun e => e.2.state != 0 && e.2.dctag.toNat == tag && tag != 0).map Prod.fst

/-- What the home here makes of an access of another device that names a page by the domain context tag (11 R337) and a virtual address:
a fault where the tag or the page is not mapped, or devices do not share the page (09 R292). -/
def State.lookupAbroad (s : State) (tag va : Nat) (n : Need) : Except XKind Xl :=
  match s.ctxOfTag tag with
  | none => .error .notMapped
  | some c =>
    match s.translate (s.context c).asid.toNat va n with
    | .error k => .error k
    | .ok t => if t.leaf.xdev then .ok t else .error .permission

/-- A home here refuses a request of another device (09 R292). -/
def State.refuseAbroad (s : State) (dev tag va : Nat) (k : XKind) : State :=
  s.sendTo (dieOf (homeSlice tag va)) dev tag (.xlFault s.dev tag va (k == .permission))

/-- Write bytes at a virtual address of a context at its home; nothing is written where translation fails. -/
def State.writeVirt (s : State) (asid va : Nat) (bs : List Byte) : State :=
  match s.translate asid va needW with
  | .ok t => s.homeRun t.tag bs
  | .error _ => s

/-- Append a record to a context's log, count it, and send vector 33 to both ports (12 R369). -/
def State.logCheck (s : State) (ctx : Nat) (k : Check) : State :=
  let x := s.context ctx
  let n := if x.mclogsz = 0 then 0 else x.mccount.toNat % x.mclogsz.toNat
  let s1 := if x.mclogsz = 0 then s else s.writeVirt x.asid.toNat (x.mclogbase.toNat + 64 * n) (k.bytes s.fabric)
  let y := s1.context ctx
  (s1.setContext ctx { y with mccount := y.mccount + 1 }).notify 33 ctx

/-- The domain context tag of a team's context (11 R337). -/
def State.tagOfTeam (s : State) (t : Nat) : Nat :=
  match s.team t with
  | some x => (s.context x.ctx).dctag.toNat
  | none => 0

/-- Is a message a request whose answer writes a scalar register of a group? -/
def Msg.askedBy (uid sd : Nat) : Msg → Bool
  | .active m => m.uid == uid && m.sd == sd
  | .subReq r => r.uid == uid && r.sd == sd
  | .query _ _ u d _ _ _ => u == uid && d == sd
  | _ => false

/-- The answer to a request of another device has come: the oldest for which `f` holds waits for it no more. -/
def State.answered (s : State) (f : Msg → Bool) : State :=
  match takeFirst (fun e => f e.2.msg) s.outbox with
  | some (_, rest) => { s with outbox := rest }
  | none => s

/-- Remove the first occurrence of an element. -/
def dropFirst {α : Type} [DecidableEq α] (x : α) : List α → List α
  | [] => []
  | y :: r => if y = x then r else y :: dropFirst x r

/-- An answer that writes a scalar register of a group arrives (10 R307). -/
def State.answerScalar (s : State) (uid sd : Nat) (w : Word) : State :=
  { s with groups := s.groups.map fun e =>
      if e.2.uid = uid then (e.1, { e.2.setSr sd w with answers := dropFirst sd e.2.answers, asked := dropFirst sd e.2.asked }) else e }

/-- Take the `n`-th message of a kind off the fabric. -/
def State.takeMsg (s : State) (f : Msg → Bool) (n : Nat) : Option (Msg × State) :=
  match takeNth f n s.net with
  | some (m, rest) => some (m, { s with net := rest })
  | none => none

/-- Is the team saved or waiting to start again? Its pushes wait. -/
def State.away (s : State) (t : Nat) : Bool :=
  match s.team t with
  | some x => x.saved.isSome || x.restart
  | none => false

/-- The class, source and destination of a packet of classes 3 and 5, nodes as 1024 device + core or + 256 + slice (11 R329); none
for a packet that keeps no order, and for a push to a team that is away. Contributions keep theirs in EvCollective.lean. -/
def State.route (s : State) : Msg → Option (Nat × Nat × Nat)
  | .push d h _ team seg _ _ _ _ =>
    if s.away team then none
    else (s.segment team seg).map fun g => (3, 1024 * d + 256 + h, 1024 * s.dev + g.core)
  | .notice _ h idx _ => (SMap.find (s.slice h).subs idx).map fun e => (3, 1024 * e.dev + e.core, 1024 * s.dev + 256 + h)
  | .active m => some (5, 1024 * m.srcDev + m.srcCore, 1024 * s.dev + m.core)
  | .activeAns uid _ _ src => (s.coreOf uid).map fun c => (5, src, 1024 * s.dev + c)
  | _ => none

/-- The packets before the `n`-th that satisfies `f`. -/
def msgsBefore (f : Msg → Bool) : Nat → List Msg → List Msg
  | _, [] => []
  | 0, m :: r => if f m then [] else m :: msgsBefore f 0 r
  | n + 1, m :: r => m :: msgsBefore f (if f m then n else n + 1) r

/-- Take the `n`-th message of a kind, unless an earlier packet of its class from its source to its destination is still on its
way (11 R329). -/
def State.takeOrdered (s : State) (f : Msg → Bool) (n : Nat) : Option (Msg × State) :=
  match s.takeMsg f n with
  | some (m, s1) =>
    if (s.route m).isSome && (msgsBefore f n s.net).any (fun k => s.route k == s.route m) then none else some (m, s1)
  | none => none

/-- Is a push of the subscription that a handle names on its way to another device? -/
def State.pushFlies (s : State) (w : Word) : Bool := s.flying.any fun e => e.1 == w

/-- Address of a collective binding entry (11 R343). -/
def State.entryAddr (s : State) (cid : Nat) : Nat := s.cbtbase.toNat + 32 * cid

/-- Engine classes of 10 Table 10-6. -/
def clsIssue : Nat := 0
/-- Matrix unit. -/
def clsMatrix : Nat := 1
/-- Copy streamer. -/
def clsCopy : Nat := 2
/-- Collective engine. -/
def clsCollective : Nat := 3
/-- Fuller. -/
def clsFuller : Nat := 4
/-- Subscription pushes. -/
def clsPush : Nat := 5

/-- Has the engine class stopped for a team that is being pre-empted (10 R314)? -/
def State.engineStopped (s : State) (team cls : Nat) : Bool :=
  s.preempts.any fun p => p.team == team && p.acks.contains cls

end Sys2Proof.Machine
end

