-- ==== Sys2Proof/Machine/LaneInt.lean ====
section
/-! DEFINITION. Lane integer instructions, immediates, transfer and conversions between integers
(02 R64; 04 R116 to R123, R128). -/

namespace Sys2Proof.Machine

/-! ## The functions -/

/-- Bits [63:32] of a product of integers. -/
def highWord (x : Int) : Word := BitVec.ofNat 32 (wrap 64 x / 2 ^ 32)
/-- Number of one bits. -/
def popcount (x : Word) : Word := BitVec.ofNat 32 ((run 0 32).filter x.getLsbD).length
/-- Leading zero bits. -/
def leadingZeros (x : Word) : Word := BitVec.ofNat 32 (if x = 0 then 32 else 31 - Nat.log2 x.toNat)
/-- The bits in reverse order. -/
def reverseBits (x : Word) : Word := maskOf fun i => x.getLsbD (31 - i)
/-- Logical left shift; 32 or more gives 0 (04 Table 4-1). -/
def shiftLeft (x n : Word) : Word := if 32 ≤ n.toNat then 0 else x <<< n.toNat
/-- Logical right shift. -/
def shiftRight (x n : Word) : Word := if 32 ≤ n.toNat then 0 else x >>> n.toNat
/-- Arithmetic right shift; 32 or more gives copies of the sign. -/
def shiftArith (x n : Word) : Word := x.sshiftRight (min n.toNat 31)
/-- Position and effective length of a bit field (04 R117). -/
def fieldPos (f : Word) : Nat := f.toNat % 32
/-- Effective length. -/
def fieldLen (f : Word) : Nat := min (bits f.toNat 8 6) (min 32 (32 - fieldPos f))
/-- BFE, zero-extended. -/
def extractW (x f : Word) : Word := BitVec.ofNat 32 (bits x.toNat (fieldPos f) (fieldLen f))
/-- BFE, sign-extended. -/
def extractS (x f : Word) : Word :=
  if fieldLen f = 0 then 0 else BitVec.ofInt 32 (signed (fieldLen f) (x.toNat / 2 ^ fieldPos f))
/-- BFI. -/
def insertField (x f old : Word) : Word :=
  let m : Word := BitVec.ofNat 32 ((2 ^ fieldLen f - 1) * 2 ^ fieldPos f)
  (old &&& ~~~m) ||| ((x <<< fieldPos f) &&& m)

/-- The comparison of a condition code on integers (04 Table 4-2). -/
def intCond (c : Nat) (lt : Bool) (eq : Bool) (tst : Bool) : Bool :=
  match c with
  | 0 => eq
  | 1 => !eq
  | 2 => lt
  | 3 => lt || eq
  | 4 => !lt && !eq
  | 5 => !lt
  | 6 => tst
  | _ => !tst

/-- Compare two numbers of `n` bits, signed or not. -/
def compareInt (c n : Nat) (isSigned : Bool) (a b : Nat) : Bool :=
  intCond c (if isSigned then decide (signed n a < signed n b) else decide (a < b)) (a == b)
    ((BitVec.ofNat n a &&& BitVec.ofNat n b) != 0)

/-- Bits of an integer type code, and whether it is signed (02 Table 2-7). -/
def intBits (t : Nat) : Nat := 8 * 2 ^ (t / 2)
/-- Signedness of an integer type code. -/
def intSigned (t : Nat) : Bool := t % 2 == 0
/-- The value of an integer type in the low bits of a number. -/
def intValue (t x : Nat) : Int := if intSigned t then signed (intBits t) x else ((x % 2 ^ intBits t : Nat) : Int)
/-- Bounds of an integer type. -/
def intMin (t : Nat) : Int := if intSigned t then -((2 ^ (intBits t - 1) : Nat) : Int) else 0
/-- Upper bound. -/
def intMax (t : Nat) : Int := if intSigned t then ((2 ^ (intBits t - 1) : Nat) : Int) - 1 else ((2 ^ intBits t : Nat) : Int) - 1
/-- Clamp into a type: the value and SAT (04 R122). -/
def intClamp (t : Nat) (x : Int) : Int × Word :=
  if x < intMin t then (intMin t, fSat) else if intMax t < x then (intMax t, fSat) else (x, 0)

/-- A source of a type code as a number: one register or a pair. -/
def Ctx.typed (c : Ctx) (t a l : Nat) : Nat := if tyRegs t = 2 then c.g.src64 a l else c.num a l

/-- Complete a conversion: one register through the latch path, or a pair (04 R122). -/
def Ctx.convert (c : Ctx) (t : Nat) (w : BitVec 1) (d : Nat) (f : Nat → Nat × Word) : Out :=
  let rs := c.lanes.map fun l => (l, f l)
  if tyRegs t = 2 then
    c.writeMany ((rs.map fun e => wordWrites d e.1 [BitVec.ofNat 32 e.2.1, BitVec.ofNat 32 (e.2.1 / 2 ^ 32)]).flatten)
      (allFlags rs)
  else c.deliver w d (wordsOf rs) (allFlags rs)

/-- The register value of an integer result: extended to the register's width by its own signedness. -/
def intResult (t : Nat) (x : Int) : Nat := wrap (if tyRegs t = 2 then 64 else 32) x

/-! ## The instructions -/

/-- IADD (04 R116, Table 4-1). -/
def execIadd (b a : BitVec 7) (w : BitVec 1) (d : BitVec 7) (s : State) : Out :=
  issue (.iadd b a w d) s fun c => c.lane2 b.toNat a.toNat w d.toNat (fun x y => x + y)

/-- ISUB (04 R116, Table 4-1). -/
def execIsub (b a : BitVec 7) (w : BitVec 1) (d : BitVec 7) (s : State) : Out :=
  issue (.isub b a w d) s fun c => c.lane2 b.toNat a.toNat w d.toNat (fun x y => x - y)

/-- IMUL (04 R116, Table 4-1). -/
def execImul (b a : BitVec 7) (w : BitVec 1) (d : BitVec 7) (s : State) : Out :=
  issue (.imul b a w d) s fun c => c.lane2 b.toNat a.toNat w d.toNat (fun x y => x * y)

/-- IMULH.S32 (04 R116, Table 4-1). -/
def execImulhS32 (b a : BitVec 7) (w : BitVec 1) (d : BitVec 7) (s : State) : Out :=
  issue (.imulhS32 b a w d) s fun c => c.lane2 b.toNat a.toNat w d.toNat (fun x y => highWord (x.toInt * y.toInt))

/-- IMULH.W32 (04 R116, Table 4-1). -/
def execImulhW32 (b a : BitVec 7) (w : BitVec 1) (d : BitVec 7) (s : State) : Out :=
  issue (.imulhW32 b a w d) s fun c => c.lane2 b.toNat a.toNat w d.toNat (fun x y => highWord ((x.toNat : Int) * (y.toNat : Int)))

/-- IMIN.S32 (04 R116, Table 4-1). -/
def execIminS32 (b a : BitVec 7) (w : BitVec 1) (d : BitVec 7) (s : State) : Out :=
  issue (.iminS32 b a w d) s fun c => c.lane2 b.toNat a.toNat w d.toNat (fun x y => if x.toInt ≤ y.toInt then x else y)

/-- IMIN.W32 (04 R116, Table 4-1). -/
def execIminW32 (b a : BitVec 7) (w : BitVec 1) (d : BitVec 7) (s : State) : Out :=
  issue (.iminW32 b a w d) s fun c => c.lane2 b.toNat a.toNat w d.toNat (fun x y => if x.toNat ≤ y.toNat then x else y)

/-- IMAX.S32 (04 R116, Table 4-1). -/
def execImaxS32 (b a : BitVec 7) (w : BitVec 1) (d : BitVec 7) (s : State) : Out :=
  issue (.imaxS32 b a w d) s fun c => c.lane2 b.toNat a.toNat w d.toNat (fun x y => if x.toInt ≤ y.toInt then y else x)

/-- IMAX.W32 (04 R116, Table 4-1). -/
def execImaxW32 (b a : BitVec 7) (w : BitVec 1) (d : BitVec 7) (s : State) : Out :=
  issue (.imaxW32 b a w d) s fun c => c.lane2 b.toNat a.toNat w d.toNat (fun x y => if x.toNat ≤ y.toNat then y else x)

/-- AND (04 R116, Table 4-1). -/
def execAnd (b a : BitVec 7) (w : BitVec 1) (d : BitVec 7) (s : State) : Out :=
  issue (.and b a w d) s fun c => c.lane2 b.toNat a.toNat w d.toNat (fun x y => x &&& y)

/-- OR (04 R116, Table 4-1). -/
def execOr (b a : BitVec 7) (w : BitVec 1) (d : BitVec 7) (s : State) : Out :=
  issue (.or b a w d) s fun c => c.lane2 b.toNat a.toNat w d.toNat (fun x y => x ||| y)

/-- XOR (04 R116, Table 4-1). -/
def execXor (b a : BitVec 7) (w : BitVec 1) (d : BitVec 7) (s : State) : Out :=
  issue (.xor b a w d) s fun c => c.lane2 b.toNat a.toNat w d.toNat (fun x y => x ^^^ y)

/-- SHL (04 R116, Table 4-1). -/
def execShl (b a : BitVec 7) (w : BitVec 1) (d : BitVec 7) (s : State) : Out :=
  issue (.shl b a w d) s fun c => c.lane2 b.toNat a.toNat w d.toNat shiftLeft

/-- SHR (04 R116, Table 4-1). -/
def execShr (b a : BitVec 7) (w : BitVec 1) (d : BitVec 7) (s : State) : Out :=
  issue (.shr b a w d) s fun c => c.lane2 b.toNat a.toNat w d.toNat shiftRight

/-- SAR (04 R116, Table 4-1). -/
def execSar (b a : BitVec 7) (w : BitVec 1) (d : BitVec 7) (s : State) : Out :=
  issue (.sar b a w d) s fun c => c.lane2 b.toNat a.toNat w d.toNat shiftArith

/-- IMAD: va · vb + vd (04 R116, Table 4-1). -/
def execImad (b a : BitVec 7) (w : BitVec 1) (d : BitVec 7) (s : State) : Out :=
  issue (.imad b a w d) s fun c => c.lane3 b.toNat a.toNat w d.toNat (fun x y z => x * y + z)

/-- IABS (04 R116, Table 4-1). -/
def execIabs (a : BitVec 7) (w : BitVec 1) (d : BitVec 7) (s : State) : Out :=
  issue (.iabs a w d) s fun c => c.lane1 a.toNat w d.toNat (fun x => if x.toInt < 0 then 0 - x else x)

/-- INEG (04 R116, Table 4-1). -/
def execIneg (a : BitVec 7) (w : BitVec 1) (d : BitVec 7) (s : State) : Out :=
  issue (.ineg a w d) s fun c => c.lane1 a.toNat w d.toNat (fun x => 0 - x)

/-- POPC (04 R116, Table 4-1). -/
def execPopc (a : BitVec 7) (w : BitVec 1) (d : BitVec 7) (s : State) : Out :=
  issue (.popc a w d) s fun c => c.lane1 a.toNat w d.toNat popcount

/-- CLZ (04 R116, Table 4-1). -/
def execClz (a : BitVec 7) (w : BitVec 1) (d : BitVec 7) (s : State) : Out :=
  issue (.clz a w d) s fun c => c.lane1 a.toNat w d.toNat leadingZeros

/-- NOT (04 R116, Table 4-1). -/
def execNot (a : BitVec 7) (w : BitVec 1) (d : BitVec 7) (s : State) : Out :=
  issue (.not a w d) s fun c => c.lane1 a.toNat w d.toNat (fun x => ~~~x)

/-- BREV (04 R116, Table 4-1). -/
def execBrev (a : BitVec 7) (w : BitVec 1) (d : BitVec 7) (s : State) : Out :=
  issue (.brev a w d) s fun c => c.lane1 a.toNat w d.toNat reverseBits

/-- MOV (04 R116, Table 4-1). -/
def execMov (a : BitVec 7) (w : BitVec 1) (d : BitVec 7) (s : State) : Out :=
  issue (.mov a w d) s fun c => c.lane1 a.toNat w d.toNat (fun x => x)

/-- BFE.W32 (04 R117). -/
def execBfeW32 (b a : BitVec 7) (w : BitVec 1) (d : BitVec 7) (s : State) : Out :=
  issue (.bfeW32 b a w d) s fun c => c.lane2 b.toNat a.toNat w d.toNat extractW

/-- BFE.S32 (04 R117). -/
def execBfeS32 (b a : BitVec 7) (w : BitVec 1) (d : BitVec 7) (s : State) : Out :=
  issue (.bfeS32 b a w d) s fun c => c.lane2 b.toNat a.toNat w d.toNat extractS

/-- BFI (04 R117). -/
def execBfi (b a : BitVec 7) (w : BitVec 1) (d : BitVec 7) (s : State) : Out :=
  issue (.bfi b a w d) s fun c => c.lane3 b.toNat a.toNat w d.toNat insertField

/-- SEL (04 R120). -/
def execSel (p : BitVec 3) (b a : BitVec 7) (w : BitVec 1) (d : BitVec 7) (s : State) : Out :=
  issue (.sel p b a w d) s fun c => 
    c.deliver w d.toNat (c.map fun l => if c.g.pr p.toNat l then c.g.src a.toNat l else c.g.src b.toNat l) 0

/-- IADDC: a 33-bit sum with carry in and carry out in the predicate (04 R118). -/
def execIaddc (p : BitVec 3) (b a d : BitVec 7) (s : State) : Out :=
  issue (.iaddc p b a d) s fun c =>
    let t := fun l => c.num a.toNat l + c.num b.toNat l + (if c.g.pr p.toNat l then 1 else 0)
    c.done ((c.g.setLanes d.toNat (c.map fun l => BitVec.ofNat 32 (t l))).setPred p.toNat c.act
      (maskOf fun l => decide (2 ^ 32 ≤ t l)))

/-- LEA64 (04 R119). -/
def execLea64 (k : BitVec 3) (b a d : BitVec 7) (s : State) : Out :=
  issue (.lea64 k b a d) s fun c =>
    let t := fun l => wrap 64 ((c.g.src64 a.toNat l : Int) + (c.g.src b.toNat l).toInt * 2 ^ k.toNat)
    c.writeMany ((c.lanes.map fun l =>
      wordWrites d.toNat l [BitVec.ofNat 32 (t l), BitVec.ofNat 32 (t l / 2 ^ 32)]).flatten) 0

/-- ICMP: TY 0 S32, 1 W32, 2 S64, 3 W64 (04 R121). -/
def execIcmp (cc : BitVec 3) (b a : BitVec 7) (t : BitVec 2) (p : BitVec 5) (s : State) : Out :=
  issue (.icmp cc b a t p) s fun c =>
    let wide := decide (2 ≤ t.toNat)
    let x := fun r l => if wide then c.g.src64 r l else c.num r l
    c.done (c.g.setPred p.toNat c.act (maskOf fun l =>
      compareInt cc.toNat (if wide then 64 else 32) (t.toNat % 2 == 0) (x a.toNat l) (x b.toNat l)))

/-- CVT: saturating conversion between integer types (04 R122). -/
def execCvt (t y : BitVec 4) (a : BitVec 7) (w : BitVec 1) (d : BitVec 7) (s : State) : Out :=
  issue (.cvt t y a w d) s fun c =>
    c.convert t.toNat w d.toNat fun l =>
      let r := intClamp t.toNat (intValue y.toNat (c.typed y.toNat a.toNat l))
      (intResult t.toNat r.1, r.2)

/-- MOVI (02 R64, Table 2-9). -/
def execMovi (i : BitVec 16) (w : BitVec 1) (d : BitVec 7) (s : State) : Out :=
  issue (.movi i w d) s fun c => c.deliver w d.toNat (c.map fun _ => i.signExtend 32) 0

/-- MOVH: the high half (02 Table 2-9). -/
def execMovh (i : BitVec 16) (w : BitVec 1) (d : BitVec 7) (s : State) : Out :=
  issue (.movh i w d) s fun c => c.lane1 d.toNat w d.toNat fun x => i ++ x.extractLsb' 0 16

/-- IADD immediate (02 Table 2-9). -/
def execIaddImm (i : BitVec 16) (w : BitVec 1) (d : BitVec 7) (s : State) : Out :=
  issue (.iaddImm i w d) s fun c => c.lane1 d.toNat w d.toNat fun x => x + i.signExtend 32

/-- AND immediate (02 Table 2-9). -/
def execAndImm (i : BitVec 16) (w : BitVec 1) (d : BitVec 7) (s : State) : Out :=
  issue (.andImm i w d) s fun c => c.lane1 d.toNat w d.toNat fun x => x &&& i.zeroExtend 32

/-- BCAST (04 Table 4-4). -/
def execBcast (r : BitVec 8) (d : BitVec 7) (s : State) : Out :=
  issue (.bcast r d) s fun c => c.deliver 0 d.toNat (c.map fun _ => c.sv r.toNat) 0

end Sys2Proof.Machine
end

