-- ==== Sys2Proof/Machine/LaneFloat.lean ====
section
/-! DEFINITION. Float lane instructions: arithmetic, comparison, conversion, special functions, paired BF16
(02 R64; 04 R129 to R134). -/

namespace Sys2Proof.Machine

/-- The format of a float type code 8..10 (02 Table 2-7). -/
def floatFmt (t : Nat) : FFmt := if t = 8 then F32 else if t = 9 then F16 else BF16

/-- Is the type code a float type? -/
def isFloat (t : Nat) : Bool := decide (8 ≤ t)

/-- FCMP of one condition on decoded values, with INVALID (04 R131, Table 4-2). -/
def floatCond (c : Nat) (a b : Fp) : Bool × Word :=
  let nan := a.isNan || b.isNan
  let snan := a.isSnan || b.isSnan
  let eq := !nan && fpEq a b
  let lt := !nan && !eq && fpLt a b
  let ordered := decide (2 ≤ c) && decide (c ≤ 5)
  (match c with
    | 0 => eq
    | 1 => !eq
    | 2 => lt
    | 3 => lt || eq
    | 4 => !nan && !lt && !eq
    | 5 => !nan && !lt
    | 6 => !nan
    | _ => nan,
   flagIf (if ordered then nan else snan) fInvalid)

/-- Float to float (04 R132): exact where the format is no narrower. -/
def floatToFloat (src dst : FFmt) (m : RMode) (x : Nat) : Nat × Word :=
  let v := src.decode x
  let (r, w) := dst.deliver m v
  (r, w ||| flagIf v.isSnan fInvalid)

/-- Integer to float (04 R132). -/
def intToFloat (dst : FFmt) (m : RMode) (x : Int) : Nat × Word :=
  dst.deliver m (.fin (decide (x < 0)) x.natAbs 0)

/-- Float to integer (04 R132): the range is judged on the rounded integer. -/
def floatToInt (src : FFmt) (t : Nat) (m : RMode) (x : Nat) : Int × Word :=
  match src.decode x with
  | .nan _ => (0, fInvalid ||| fSat)
  | .inf n => (if n then intMin t else intMax t, fInvalid ||| fSat)
  | .fin n k e =>
    let (q, inexact) := roundShift m n k (-e)
    let v : Int := if n then -(q : Int) else q
    if v < intMin t then (intMin t, fInvalid ||| fSat)
    else if intMax t < v then (intMax t, fInvalid ||| fSat)
    else (v, flagIf inexact fInexact)

/-- FCVT of one value (04 R132). -/
def floatConvert (t y : Nat) (m : RMode) (x : Nat) : Nat × Word :=
  if isFloat t then
    if isFloat y then floatToFloat (floatFmt y) (floatFmt t) m (x % 2 ^ (floatFmt y).width)
    else intToFloat (floatFmt t) m (intValue y x)
  else
    let r := floatToInt (floatFmt y) t m (x % 2 ^ (floatFmt y).width)
    (intResult t r.1, r.2)

/-- A function on both BF16 elements of registers (04 R134). -/
def pairs (f : Nat → Nat → Nat → Nat × Word) (x y z : Nat) : Nat × Word :=
  let r0 := f (x % 2 ^ 16) (y % 2 ^ 16) (z % 2 ^ 16)
  let r1 := f (x / 2 ^ 16) (y / 2 ^ 16) (z / 2 ^ 16)
  (r0.1 + 2 ^ 16 * r1.1, r0.2 ||| r1.2)

/-- FADD (04 R129). -/
def execFadd (r : BitVec 3) (b a : BitVec 7) (w : BitVec 1) (d : BitVec 7) (s : State) : Out :=
  issue (.fadd r b a w d) s fun c =>
    c.floatLanes w d.toNat fun l => F32.add (.ofCode r.toNat) (c.num a.toNat l) (c.num b.toNat l)

/-- FSUB (04 R129). -/
def execFsub (r : BitVec 3) (b a : BitVec 7) (w : BitVec 1) (d : BitVec 7) (s : State) : Out :=
  issue (.fsub r b a w d) s fun c =>
    c.floatLanes w d.toNat fun l => F32.sub (.ofCode r.toNat) (c.num a.toNat l) (c.num b.toNat l)

/-- FMUL (04 R129). -/
def execFmul (r : BitVec 3) (b a : BitVec 7) (w : BitVec 1) (d : BitVec 7) (s : State) : Out :=
  issue (.fmul r b a w d) s fun c =>
    c.floatLanes w d.toNat fun l => F32.mul (.ofCode r.toNat) (c.num a.toNat l) (c.num b.toNat l)

/-- FFMA: one rounding (04 R129). -/
def execFfma (r : BitVec 3) (b a : BitVec 7) (w : BitVec 1) (d : BitVec 7) (s : State) : Out :=
  issue (.ffma r b a w d) s fun c =>
    c.floatLanes w d.toNat fun l =>
      F32.fma (.ofCode r.toNat) (c.num a.toNat l) (c.num b.toNat l) (c.num d.toNat l)

/-- FMIN (04 R130, 03 R88). -/
def execFmin (b a : BitVec 7) (w : BitVec 1) (d : BitVec 7) (s : State) : Out :=
  issue (.fmin b a w d) s fun c =>
    c.floatLanes w d.toNat fun l => f32MinMax false (c.num a.toNat l) (c.num b.toNat l)

/-- FMAX (04 R130, 03 R88). -/
def execFmax (b a : BitVec 7) (w : BitVec 1) (d : BitVec 7) (s : State) : Out :=
  issue (.fmax b a w d) s fun c =>
    c.floatLanes w d.toNat fun l => f32MinMax true (c.num a.toNat l) (c.num b.toNat l)

/-- FRCP (04 R133, Table 4-5). -/
def execFrcp (a : BitVec 7) (w : BitVec 1) (d : BitVec 7) (s : State) : Out :=
  issue (.frcp a w d) s fun c => c.floatLanes w d.toNat fun l => f32Special fpRcp (c.num a.toNat l)

/-- FRSQ (04 R133). -/
def execFrsq (a : BitVec 7) (w : BitVec 1) (d : BitVec 7) (s : State) : Out :=
  issue (.frsq a w d) s fun c => c.floatLanes w d.toNat fun l => f32Special fpRsqrt (c.num a.toNat l)

/-- FSQRT (04 R133). -/
def execFsqrt (a : BitVec 7) (w : BitVec 1) (d : BitVec 7) (s : State) : Out :=
  issue (.fsqrt a w d) s fun c => c.floatLanes w d.toNat fun l => f32Special fpSqrt (c.num a.toNat l)

/-- FEXP2 (04 R133). -/
def execFexp2 (a : BitVec 7) (w : BitVec 1) (d : BitVec 7) (s : State) : Out :=
  issue (.fexp2 a w d) s fun c => c.floatLanes w d.toNat fun l => f32Special fpExp2 (c.num a.toNat l)

/-- FLOG2 (04 R133). -/
def execFlog2 (a : BitVec 7) (w : BitVec 1) (d : BitVec 7) (s : State) : Out :=
  issue (.flog2 a w d) s fun c => c.floatLanes w d.toNat fun l => f32Special fpLog2 (c.num a.toNat l)

/-- FSIN (04 R133). -/
def execFsin (a : BitVec 7) (w : BitVec 1) (d : BitVec 7) (s : State) : Out :=
  issue (.fsin a w d) s fun c => c.floatLanes w d.toNat fun l => f32Special fpSin (c.num a.toNat l)

/-- FCOS (04 R133). -/
def execFcos (a : BitVec 7) (w : BitVec 1) (d : BitVec 7) (s : State) : Out :=
  issue (.fcos a w d) s fun c => c.floatLanes w d.toNat fun l => f32Special fpCos (c.num a.toNat l)

/-- FCMP: TY 0 F32, 1 F16, 2 B16 (04 R131). -/
def execFcmp (cc : BitVec 3) (b a : BitVec 7) (t : BitVec 2) (p : BitVec 5) (s : State) : Out :=
  issue (.fcmp cc b a t p) s fun c =>
    let f := floatFmt (8 + t.toNat)
    let r := fun l => floatCond cc.toNat (f.decode (c.num a.toNat l % 2 ^ f.width)) (f.decode (c.num b.toNat l % 2 ^ f.width))
    c.done ((c.g.setPred p.toNat c.act (maskOf fun l => (r l).1)).flag
      (allFlags (c.lanes.map fun l => (l, 0, (r l).2))))

/-- FCVT (04 R132). -/
def execFcvt (t y : BitVec 4) (r : BitVec 2) (a : BitVec 7) (w : BitVec 1) (d : BitVec 7) (s : State) : Out :=
  issue (.fcvt t y r a w d) s fun c =>
    c.convert t.toNat w d.toNat fun l => floatConvert t.toNat y.toNat (.ofCode r.toNat) (c.typed y.toNat a.toNat l)

/-- HADD2 (04 R134). -/
def execHadd2 (b a : BitVec 7) (w : BitVec 1) (d : BitVec 7) (s : State) : Out :=
  issue (.hadd2 b a w d) s fun c =>
    c.floatLanes w d.toNat fun l => pairs (fun x y _ => BF16.add .rn x y) (c.num a.toNat l) (c.num b.toNat l) 0

/-- HMUL2 (04 R134). -/
def execHmul2 (b a : BitVec 7) (w : BitVec 1) (d : BitVec 7) (s : State) : Out :=
  issue (.hmul2 b a w d) s fun c =>
    c.floatLanes w d.toNat fun l => pairs (fun x y _ => BF16.mul .rn x y) (c.num a.toNat l) (c.num b.toNat l) 0

/-- HFMA2: one rounding (04 R134). -/
def execHfma2 (b a : BitVec 7) (w : BitVec 1) (d : BitVec 7) (s : State) : Out :=
  issue (.hfma2 b a w d) s fun c =>
    c.floatLanes w d.toNat fun l =>
      pairs (BF16.fma .rn) (c.num a.toNat l) (c.num b.toNat l) (c.num d.toNat l)

/-- FADD immediate: BF16 widened (02 Table 2-9). -/
def execFaddImm (i : BitVec 16) (w : BitVec 1) (d : BitVec 7) (s : State) : Out :=
  issue (.faddImm i w d) s fun c =>
    c.floatLanes w d.toNat fun l => F32.add .rn (c.num d.toNat l) (bf16Imm i.toNat)

/-- FMUL immediate (02 Table 2-9). -/
def execFmulImm (i : BitVec 16) (w : BitVec 1) (d : BitVec 7) (s : State) : Out :=
  issue (.fmulImm i w d) s fun c =>
    c.floatLanes w d.toNat fun l => F32.mul .rn (c.num d.toNat l) (bf16Imm i.toNat)

/-- MOVI.F32 (02 Table 2-9). -/
def execMoviF32 (i : BitVec 16) (w : BitVec 1) (d : BitVec 7) (s : State) : Out :=
  issue (.moviF32 i w d) s fun c => c.deliver w d.toNat (c.map fun _ => BitVec.ofNat 32 (bf16Imm i.toNat)) 0

/-- MOVI.F16: the immediate rounded to F16, no flag (02 Table 2-9). -/
def execMoviF16 (i : BitVec 16) (w : BitVec 1) (d : BitVec 7) (s : State) : Out :=
  issue (.moviF16 i w d) s fun c =>
    c.deliver w d.toNat (c.map fun _ => BitVec.ofNat 32 (F16.deliver .rn (BF16.decode i.toNat)).1) 0

end Sys2Proof.Machine
end

