-- ==== Sys2Proof/Machine/GlobalMemory.lean ====
section
/-! DEFINITION. Issue of the global memory instructions (05 R147 to R177; 06 R215). What they do once their translation
checks have answered is in Access.lean. -/

namespace Sys2Proof.Machine

/-- LD, register index (05 R151). -/
def execLdReg (x b : BitVec 7) (k : BitVec 1) (z : BitVec 3) (d : BitVec 7) (s : State) : Out :=
  issue (.ldReg x b k z d) s fun c => c.access (szBytes z.toNat) (c.eaReg k b x) (.load z.toNat d.toNat)

/-- LD, immediate offset (05 R151). -/
def execLdImm (x b : BitVec 7) (k : BitVec 1) (z : BitVec 3) (d : BitVec 7) (s : State) : Out :=
  issue (.ldImm x b k z d) s fun c =>
    c.access (szBytes z.toNat) (c.eaImm k b x (szBytes z.toNat)) (.load z.toNat d.toNat)

/-- ST, register index (05 R151). -/
def execStReg (x b : BitVec 7) (k : BitVec 1) (z : BitVec 3) (d : BitVec 7) (s : State) : Out :=
  issue (.stReg x b k z d) s fun c => c.queued (szBytes z.toNat) (c.eaReg k b x) (.store z.toNat d.toNat)

/-- ST, immediate offset (05 R151). -/
def execStImm (x b : BitVec 7) (k : BitVec 1) (z : BitVec 3) (d : BitVec 7) (s : State) : Out :=
  issue (.stImm x b k z d) s fun c =>
    c.queued (szBytes z.toNat) (c.eaImm k b x (szBytes z.toNat)) (.store z.toNat d.toNat)

/-- Strong load (05 R154). -/
def execLdStrong (o sc : BitVec 3) (b : BitVec 7) (k : BitVec 1) (z : BitVec 3) (d : BitVec 7) (s : State) : Out :=
  issue (.ldStrong o sc b k z d) s fun c =>
    c.access (szBytes z.toNat) (c.eaBase k b) (.loadStrong z.toNat d.toNat o.toNat sc.toNat)

/-- Strong store (05 R154). -/
def execStStrong (o sc : BitVec 3) (b : BitVec 7) (k : BitVec 1) (z : BitVec 3) (d : BitVec 7) (s : State) : Out :=
  issue (.stStrong o sc b k z d) s fun c =>
    c.queued (szBytes z.toNat) (c.eaBase k b) (.storeStrong z.toNat d.toNat o.toNat sc.toNat)

/-- ATOM (05 R160): it takes a store-queue entry (08 R251). -/
def execAtom (e : BitVec 1) (o : BitVec 2) (sc : BitVec 3) (b : BitVec 7) (k : BitVec 1) (p : BitVec 4) (d : BitVec 7)
    (s : State) : Out :=
  issue (.atom e o sc b k p d) s fun c =>
    c.queued (if e = 1 then 8 else 4) (c.eaBase k b) (.atom p.toNat (e == 1) d.toNat o.toNat sc.toNat)

/-- Issue of UPD: alignment, then Translation (05 R165 to R167). -/
def Ctx.update (c : Ctx) (op : Nat) (ls : List (Nat × Nat)) (vd : Nat) : Out :=
  let bad := misaligned (UOp.ofCode op).size ls
  if bad ≠ 0 then c.trap { Trap.of cAlign with lanes := bad }
  else if ls.isEmpty then c.done c.g
  else c.publish.pend ls (.upd op vd)

/-- UPD, scalar base and register index (05 R165). -/
def execUpdScalarBase (i b : BitVec 7) (p : BitVec 4) (d : BitVec 7) (s : State) : Out :=
  issue (.updScalarBase i b p d) s fun c => c.update p.toNat (c.eaReg 0 b i) d.toNat

/-- UPD, vector base (05 R165). -/
def execUpdVectorBase (b : BitVec 7) (p : BitVec 4) (d : BitVec 7) (s : State) : Out :=
  issue (.updVectorBase b p d) s fun c => c.update p.toNat (c.eaBase 1 b) d.toNat

/-- Prefetch a line into a cache: no effect where translation fails, and a U sector is left alone (05 R176); a line that is there has
been used (09 R266). -/
def State.prefetch (s : State) (core n asid va : Nat) : State :=
  match s.translateBy (coreDie core) asid va needNone with
  | .error _ => s
  | .ok t =>
    let s1 := (run (t.tag / 128 * 4) 4).foldl (fun st key => if (st.uOp key).isSome then st else (st.readSec n key).1)
      (s.noteTranslation (niOf core) asid va)
    s1.setCache n ((s1.cache n).touch (t.tag / 128))

/-- Bring a line into its home slice (05 R176). -/
def State.prefetchHome (s : State) (core asid va : Nat) : State :=
  match s.translateBy (coreDie core) asid va needNone with
  | .error _ => s
  | .ok t =>
    (run (t.tag / 128 * 4) 4).foldl State.homeKeep (s.noteTranslation (niOf core) asid va)

/-- PREF.L1 (05 R176). -/
def execPrefL1 (b : BitVec 7) (k : BitVec 1) (s : State) : Out :=
  issue (.prefL1 b k) s fun c =>
    let s1 := (c.eaBase k b).foldl (fun (st : State) e => st.prefetch c.core c.cache c.asid e.2) c.s
    { c with s := s1 }.done c.g

/-- PREF.L2 (05 R176). -/
def execPrefL2 (b : BitVec 7) (k : BitVec 1) (s : State) : Out :=
  issue (.prefL2 b k) s fun c =>
    let s1 := (c.eaBase k b).foldl (fun (st : State) e => st.prefetchHome c.core c.asid e.2) c.s
    { c with s := s1 }.done c.g

/-- COLLAPSE (05 R170). -/
def execCollapse (b : BitVec 7) (k : BitVec 1) (s : State) : Out :=
  issue (.collapse b k) s fun c => c.access 1 (c.eaBase k b) .collapse

/-- CCTL.CLEAN (05 R177). -/
def execCctlClean (sc : BitVec 3) (b : BitVec 7) (k : BitVec 1) (s : State) : Out :=
  issue (.cctlClean sc b k) s fun c => c.access 1 (c.eaBase k b) (.cctl 3 sc.toNat)

/-- CCTL.INV (05 R177). -/
def execCctlInv (sc : BitVec 3) (b : BitVec 7) (k : BitVec 1) (s : State) : Out :=
  issue (.cctlInv sc b k) s fun c => c.access 1 (c.eaBase k b) (.cctl 4 sc.toNat)

/-- CCTL.CLINV (05 R177). -/
def execCctlClinv (sc : BitVec 3) (b : BitVec 7) (k : BitVec 1) (s : State) : Out :=
  issue (.cctlClinv sc b k) s fun c => c.access 1 (c.eaBase k b) (.cctl 5 sc.toNat)

/-- Does the acquire part of a fence hold: every atomic issued has performed (05 R175)? Loads perform before their
group issues again. -/
def State.acquired (s : State) (g : Group) : Bool :=
  !s.farPending g.uid && g.queue.all fun e => match e with
    | .atom _ _ _ _ _ _ => false
    | .store _ _ _ => true

/-- FENCE (05 R174, R175): scratchpad accesses have performed when their instruction issued, so kind .SPM holds at once; an .SC fence takes
its place in the order S at its issue (08 R249, R254). -/
def execFence (o sc k : BitVec 3) (s : State) : Out :=
  issue (.fence o sc k) s fun c =>
    let ok := k = 2 || (if o = 1 then c.s.acquired c.g else c.s.released c.g)
    let c := if c.p.isHeld then c else { c with s := c.s.scEvent c.core o.toNat [] }
    if !ok then c.hold .fence else c.done c.g

/-- WAITA (05 R172). -/
def execWaita (b a d : BitVec 8) (s : State) : Out :=
  issue (.waita b a d) s fun c =>
    c.accessOne 4 (c.g.sr64 a.toNat) (.waita d.toNat (c.sv b.toNat) (c.g.sr d.toNat))

/-- The address form of STLD and STST (06 R215). -/
def Ctx.slotAddr (c : Ctx) (x b : BitVec 7) (k : BitVec 1) : List (Nat × Nat) :=
  if k = 1 then c.eaBase k b else c.eaReg k b x

/-- STLD (06 R215). -/
def execStld (x b : BitVec 7) (k : BitVec 1) (d : BitVec 7) (s : State) : Out :=
  issue (.stld x b k d) s fun c => c.access 16 (c.slotAddr x b k) (.stld d.toNat)

/-- STST (06 R215). -/
def execStst (x b : BitVec 7) (k : BitVec 1) (d : BitVec 7) (s : State) : Out :=
  issue (.stst x b k d) s fun c => c.queued 16 (c.slotAddr x b k) (.stst d.toNat)

/-- SUBSCR (05 R178, R179): the slot line's checks, the block's alignment, then Translation. -/
def execSubscr (l : BitVec 8) (b : BitVec 7) (z : BitVec 2) (m : BitVec 1) (d : BitVec 7) (s : State) : Out :=
  issue (.subscr l b z m d) s fun c =>
    let line := (c.g.sr l.toNat).toNat
    let size := 8 * 2 ^ z.toNat
    if c.spSize c.g.seg ≤ line then c.trap (Trap.of cResource)
    else if line % 128 ≠ 0 then c.trap (Trap.of cAlign)
    else if c.g.sr64 (2 * b.toNat) % size ≠ 0 then c.trap (Trap.of cAlign)
    else c.publish.pend [(0, c.g.sr64 (2 * b.toNat))] (.subscr d.toNat (line / 128) size (m == 1))

end Sys2Proof.Machine
end

