-- ==== Sys2Proof/Machine/Access.lean ====
section
/-! DEFINITION. What a may-fault instruction does once its translation checks have answered (05 R149 to R179, 10 R307):
passing lanes commit, failing lanes make the trap with its replay mask. -/

namespace Sys2Proof.Machine

/-- A lane whose check passed. -/
abbrev Passed := List (Nat × Xl)

/-- The checks of an access's lanes. -/
structure Checked where
  pass : Passed
  /-- lane, kind and address of each failing lane -/
  fail : List (Nat × XKind × Nat)

/-- The permission an operation needs (05 Table 5-2). -/
def MemOp.need : MemOp → Need
  | .store _ _ => needW
  | .storeStrong _ _ _ _ => needW
  | .atom _ _ _ _ _ => needRW
  | .upd _ _ => needW
  | .stst _ => needW
  | .mxepi _ _ => needW
  | _ => needR

/-- Does the operation hit on a sector its L1 holds in a state (09 Table 9-3)? Near atomics count as writes; what performs at the
home, or asks a controller, never hits. -/
def MemOp.hitsIn (op : MemOp) (st : SecState) : Bool :=
  let reads := match st with
    | .u _ => false
    | _ => true
  let writes := st == .m || st == .e
  match op with
  | .load _ _ => reads
  | .loadStrong _ _ _ _ => reads
  | .sld _ => reads
  | .stld _ => reads
  | .waita _ _ _ => reads
  | .tcopy _ _ _ => reads
  | .launch _ => reads
  | .store _ _ => writes
  | .storeStrong _ _ _ _ => writes
  | .stst _ => writes
  | .atom _ _ _ _ scope => nearScope scope && writes
  | .upd o _ => st == .u (UOp.ofCode o)
  | .collapse => false
  | .cctl _ _ => false
  | .subscr _ _ _ _ => false
  | .mxepi _ _ => false

/-- An address after the remap filter of the core's network interface, with the rights of the synonym (09 R294). -/
def State.rewrite (s : State) (core asid va : Nat) : Nat × Nat × Need :=
  match s.remapFor (niOf core) asid va with
  | some e => (e.casid, e.cbase + va % 2 ^ e.bits, ⟨e.r, e.w, e.x⟩)
  | none => (asid, va, ⟨true, true, true⟩)

/-- The line on which an access of a core hits in its L1, if it does (09 R274, R294). -/
def State.hitLine (s : State) (core asid : Nat) (op : MemOp) (va : Nat) : Option Line :=
  let (ca, cva, _) := s.rewrite core asid va
  let c := s.cache (s.cacheOf core)
  match c.sector (secKey ca cva) with
  | some (st, _) => if op.hitsIn st && decide (va < 2 ^ vaBits) then c.line (secKey ca cva / 4) else none
  | none => none

/-- The leaf of an access that hits: it asks no controller. -/
def Leaf.none : Leaf := ⟨0, 0, 0, 0, 0, false, 0, false, false, false, false⟩

/-- Are the rights given those needed? -/
def Need.meets (n r : Need) : Bool := (!n.r || r.r) && (!n.w || r.w) && (!n.x || r.x)

/-- The fault with which the home of a line on another device has refused a request, if it has (09 R292). -/
def State.faultAbroad (s : State) (t : Xl) : Option XKind :=
  match s.placeOf t with
  | .remote d va => s.net.findSome? fun m => match m with
    | .xlFault e tag a mapped =>
      if e = d ∧ tag = s.dctagOf t.asid ∧ a / 128 = va / 128 then some (if mapped then .permission else .notMapped) else none
    | _ => none
  | _ => none

/-- Check one address of an access of a core (05 R149): the remap filter first (09 R294); a hit uses the rights held with the line,
and a miss or an upgrade those of the translating controller (09 R274). -/
def State.reach (s : State) (core asid : Nat) (op : MemOp) (va : Nat) : Except XKind Xl :=
  let (ca, cva, n) := s.rewrite core asid va
  match s.hitLine core asid op va with
  | some l =>
    if op.need.meets ⟨l.r && n.r, l.w && n.w, n.x⟩ then .ok ⟨ca, cva, Leaf.none, l.r && n.r, l.w && n.w, n.x⟩
    else .error .permission
  | none =>
    if 2 ^ vaBits ≤ va then .error .range
    else match s.lookupBy (coreDie core) ca cva with
      | .error k => .error k
      | .ok t =>
        match s.faultAbroad t with
        | some k => .error k
        | none =>
          if op.need.meets ⟨t.r && n.r, t.w && n.w, t.x && n.x⟩ then .ok ⟨t.asid, t.va, t.leaf, t.r && n.r, t.w && n.w, t.x && n.x⟩
          else .error .permission

/-- Check every lane (05 R149). -/
def State.checkLanes (s : State) (core asid : Nat) (op : MemOp) (ls : List (Nat × Nat)) : Checked :=
  ls.foldl (fun acc e =>
    match s.reach core asid op e.2 with
    | .ok t => { acc with pass := acc.pass ++ [(e.1, t)] }
    | .error k => { acc with fail := acc.fail ++ [(e.1, k, e.2)] }) ⟨[], []⟩

/-- What the lanes of an access leave in filters and translation caches: those that do not hit ask a controller, whose answer leaves its
translation cached (09 R274, R289); one that hits under an alias has used its remap entry (09 R266, R294). -/
def State.noteAll (s : State) (core asid : Nat) (op : MemOp) (ls : List (Nat × Nat)) : State :=
  ls.foldl (fun st e =>
    if (s.hitLine core asid op e.2).isNone then st.noteTranslation (niOf core) asid e.2 else st.useRemap (niOf core) asid e.2) s

/-- The group goes on after its checks: the pending instruction is done and its path moves to the next (all such
instructions are 32 bits long). -/
def State.resume (s : State) (key : Nat) (ps : PSlot) (g : Group) : State :=
  let g1 := { g with status := .running, pending := none }
  s.setGroup key (s.settle (match g1.path ps with
    | some p => g1.setPath ps (some (p.advance (p.pc + 4)))
    | none => g1))

/-- The path stays at the instruction, which it has issued, and waits there. -/
def State.park (s : State) (key : Nat) (ps : PSlot) (g : Group) (w : Wait) : State :=
  s.setGroup key ({ g with status := .running, pending := none }.setWait ps w)

/-- An access whose engine has no room leaves Translation, and its path waits to issue it again (06 R197, R220). -/
def State.blockAccess (s : State) (key : Nat) (pd : Pending) (g : Group) : State :=
  s.setGroup key ({ g with status := .running, pending := none,
                           stepDue := g.stepDue.filter fun e => e != (pd.slot, pd.pc) }.setWait pd.slot .operand)

/-- The translation-fault trap of failing lanes (10 Table 10-3, Table 10-4). -/
def faultTrap (one : Bool) (fail : List (Nat × XKind × Nat)) : Trap :=
  match fail with
  | [] => Trap.of cTranslation
  | (_, k, va) :: _ =>
    { Trap.of cTranslation with
      detail := k.code, va := va, lanes := if one then 0xFFFFFFFF else maskOfList (fail.map Prod.fst) }

/-- End an access: resume, or trap when lanes failed. A trap waits, the group still in Translation, while answers that
write scalar registers are outstanding (10 R310): `s0` is the state before the access. -/
def State.finishAccess (s : State) (key : Nat) (ps : PSlot) (g : Group) (one : Bool) (fail : List (Nat × XKind × Nat)) :
    State :=
  if fail.isEmpty then s.resume key ps g
  else (s.setGroup key { g with status := .running, pending := none }).raiseTrap key ps (faultTrap one fail)

/-- Does the queue hold an atomic, or is a far access on its way? A load performs after them (05 R152; log 14). -/
def State.loadMustWait (s : State) (g : Group) : Bool := !s.acquired g

/-- Perform the group's queue first. -/
def State.ordered (s : State) (key : Nat) (must : Bool) : State :=
  match s.group key with
  | some g => if must then s.landQueue key g.uid g.queue.length else s
  | none => s

/-- Read a run as the group's plain loads do: after its atomics, its queued stores over what the cache holds (05 R152). -/
def State.loadOwn (s : State) (key : Nat) (g : Group) (a n : Nat) : State × List Byte :=
  let s1 := s.ordered key (s.loadMustWait g)
  let q := match s1.group key with
    | some g1 => g1.queue
    | none => []
  let r := s1.loadRun (s1.cacheOf (key / 128)) a n
  (r.1, overlay q a r.2)

/-- Does the instruction form one address for the group? -/
def MemOp.single : MemOp → Bool
  | .sld _ => true
  | .waita _ _ _ => true
  | .subscr _ _ _ _ => true
  | .tcopy _ _ _ => true
  | .launch _ => true
  | .mxepi _ _ => true
  | _ => false

/-- A load's lanes commit: all perform at once, those that missed after those that hit, and before any later access of the group (01
R41, 08 R252); a plain load that hits in some lanes and misses in others splits the group (01 R39): its slot B waits for the data. The
lanes of the path that a guard masks off neither hit nor miss; slot B takes them (DESIGN CHOICE, log 97). -/
def State.commitLoad (s : State) (key : Nat) (pd : Pending) (dst : LoadDst) (plain : Bool) (ck : Checked) : State :=
  match s.group key with
  | none => s
  | some g =>
    let n := s.cacheOf (key / 128)
    let lanes : List LaneLoad := ck.pass.map fun e => ⟨e.1, e.2.tag, none⟩
    let hit := lanes.filter fun l => s.hits n (l.addr / 32)
    let miss := lanes.filter fun l => !s.hits n (l.addr / 32)
    if plain && ck.fail.isEmpty && !hit.isEmpty && !miss.isEmpty && pd.slot == .a && g.slotB.isNone && g.split.isNone then
      match g.slotA with
      | none => s
      | some p =>
        let mine := maskOfList (hit.map LaneLoad.lane)
        let pa := p.onLanes mine
        let pb := { (p.advance (p.pc + 4)).onLanes (~~~mine) with wait := .missData }
        let (s1, x) := s.performLoad key g ⟨pd.pc, .a, dst, hit⟩
        let (s2, y) := s1.performLoad key g ⟨pd.pc, .b, dst, miss⟩
        s2.resume key .a
          { (g.setPath .a (some pa)).setPath .b (some pb) with loads := g.loads ++ [x, y], split := some 0 }
    else
      let (s1, x) := s.performLoad key g ⟨pd.pc, pd.slot, dst, lanes⟩
      s1.finishAccess key pd.slot { g with loads := g.loads ++ (if lanes.isEmpty then [] else [x]) } pd.op.single ck.fail

/-- A store's lanes enter the queue as one entry, in lane order (05 R150, R152). -/
def State.commitStore (s : State) (key : Nat) (pd : Pending) (bytes : Group → Nat → List Byte) (ord scope : Nat)
    (ck : Checked) : State :=
  match s.group key with
  | none => s
  | some g =>
    let ws := ck.pass.map fun e => (e.2.tag, bytes g e.1)
    let q := if ws.isEmpty then g.queue else g.queue ++ [.store ws ord scope]
    s.finishAccess key pd.slot { g with queue := q } false ck.fail

/-- The operands of one lane of an atomic (05 R160). -/
def atomLane (g : Group) (pc : DWord) (ps : PSlot) (op : Nat) (wide : Bool) (vd l addr : Nat) : AtomLane :=
  let w := if wide then g.src64 vd l else (g.vr vd l).toNat
  if op = 1 then
    ⟨pc, ps, l, addr, w, if wide then g.src64 (vd + 2) l else (g.vr (vd + 1) l).toNat⟩
  else ⟨pc, ps, l, addr, 0, w⟩

/-- An atomic's lanes enter the queue (08 R251). -/
def State.commitAtom (s : State) (key : Nat) (pd : Pending) (op : Nat) (wide : Bool) (vd ord scope : Nat) (ck : Checked) :
    State :=
  match s.group key with
  | none => s
  | some g =>
    let ks := ck.pass.map fun e => atomLane g pd.pc pd.slot op wide vd e.1 e.2.tag
    let q := if ks.isEmpty then g.queue else g.queue ++ [.atom op wide vd ks ord scope]
    s.finishAccess key pd.slot { g with queue := q } false ck.fail

/-- The words a lane's update contributes (05 Table 5-6). -/
def updWords (g : Group) (op : UOp) (vd l : Nat) : List Word :=
  if op = .stat then [g.vr vd l, g.vr (vd + 1) l, g.vr (vd + 2) l, 0] else [g.src vd l]

/-- An update's lanes fold into the cache's copy, or go to the home as far accesses (05 R167), after every atomic and far access
of the group, and in lane order (05 R168). -/
def State.commitUpd (s : State) (key : Nat) (pd : Pending) (op : UOp) (vd : Nat) (ck : Checked) : State :=
  match s.group key with
  | none => s
  | some g0 =>
    let touches := ck.pass.any fun e => g0.queue.any fun q => match q with
      | .store ws _ _ => ws.any fun w => w.1 / 32 == e.2.tag / 32
      | .atom _ _ _ ks _ _ => ks.any fun k => k.addr / 32 == e.2.tag / 32
    let s0 := s.ordered key (touches || !s.acquired g0)
    let n := s0.cacheOf (key / 128)
    let s1 := ck.pass.foldl (fun st e =>
      let ws := updWords g0 op vd e.1
      if st.updatesAtHome e.2.tag then
        { st with net := st.net ++ [.far (st.asidOf g0) g0.uid (.upd op e.2.tag ws)] }
      else (st.landFar g0.uid).updateCopy n e.2.tag op (wordsNat ws)) s0
    match s1.group key with
    | none => s1
    | some g => s1.finishAccess key pd.slot g false ck.fail

/-- The agents that a collapse recalls: the L1s, and the devices, that hold the sector in U (09 R279). -/
def State.uHolders (s : State) (key : Nat) : List Nat :=
  (s.holders key).filterMap fun h => match h.2.1 with
    | .u _ => if h.1 = 256 ∨ h.1 = 257 then none else some h.1
    | _ => none

/-- Start a collapse that a group forces (05 R170, 09 R279): the home recalls every copy; the group does not wait. -/
def State.startCollapse (s : State) (uid key : Nat) : State :=
  let s1 := if (s.collapseRec key).isSome then s.collapseNow key else s
  match s1.uOp key with
  | none => s1
  | some op =>
    let s2 := (s1.uHolders key).foldl (fun st n => st.toHolder n 4 key) s1
    s2.setCollapse key (some ⟨key, op, s2.uHolders key, [], [], some uid⟩)

/-- COLLAPSE commits (05 R170): the sectors of passing lanes that are held in U. -/
def State.commitCollapse (s : State) (key : Nat) (pd : Pending) (ck : Checked) : State :=
  match s.group key with
  | none => s
  | some g0 =>
    let keys := (ck.pass.map fun e => e.2.tag / 32).eraseDups
    let s1 := keys.foldl (fun st k => st.startCollapse g0.uid k) s
    match s1.group key with
    | none => s1
    | some g => s1.finishAccess key pd.slot g false ck.fail

/-- The caches a CCTL scope names (05 Table 5-8). -/
def State.scopeCaches (s : State) (core scope : Nat) : List Nat :=
  match scope with
  | 0 => [s.cacheOf core]
  | 1 => [s.cacheOf core]
  | 2 => run (core / 4 * 4) 4
  | 3 => run (core / 128 * 128) 128 ++ [256 + core / 128]
  | _ => run 0 258

/-- CCTL of one sector in named caches (05 R177): functions 3 CLEAN, 4 INV, 5 CLINV. -/
def State.cctlSector (s : State) (fn : Nat) (ns : List Nat) (vault : Bool) (key : Nat) : State :=
  let s1 := (s.collapseNow key).drainWb key
  let s2 := (s1.holders key).foldl (fun st h =>
    if ns.contains h.1 then
      let st1 := if h.2.1 = .m then st.homeWrite key h.2.2 else st
      if fn = 3 then
        (if h.2.1 = .m then st1.setCache h.1 ((st1.cache h.1).put key .e h.2.2) else st1)
      else st1.setCache h.1 ((st1.cache h.1).drop key)
    else st) s1
  let s3 := if vault && fn != 4 then s2.flushHome key else s2
  s3.syncDir key

/-- CCTL commits (05 R177): the lines of passing lanes. -/
def State.commitCctl (s : State) (key : Nat) (pd : Pending) (fn scope : Nat) (ck : Checked) : State :=
  match s.group key with
  | none => s
  | some _ =>
    let s0 := s.ordered key true
    let ns := s0.scopeCaches (key / 128) scope
    let lines := (ck.pass.map fun e => e.2.tag / 128).eraseDups
    let s1 := lines.foldl (fun st l => (run (4 * l) 4).foldl (fun st k => st.cctlSector fn ns (decide (4 ≤ scope)) k) st) s0
    match s1.group key with
    | none => s1
    | some g => s1.finishAccess key pd.slot g false ck.fail

/-- The core keeps the watched sector in S (05 R173). -/
def State.watchSec (s : State) (addr : Nat) : State := (s.shareOut (addr / 32)).syncDir (addr / 32)

/-- A WAITA check commits (05 R172): the word read with .ACQ at .SYS; the path goes on or parks. -/
def State.commitWaita (s : State) (key : Nat) (pd : Pending) (sd : Nat) (away timeout : Word) (ck : Checked) : State :=
  let s0 := s.ordered key true
  match s0.group key, ck.pass with
  | some g, (_, t) :: _ =>
    let (s1, bs) := s0.loadBytes (s0.cacheOf (key / 128)) t.tag 4
    if BitVec.ofNat 32 (ofBytes bs) ≠ away then s1.resume key pd.slot (g.setSr sd 0)
    else
      (s1.watchSec t.tag).park key pd.slot g (.parked ⟨sd, (pd.lanes.headD (0, 0)).2, t.tag, away, if timeout = 0 then none else some timeout.toNat, pd.issued, s.now⟩)
  | some g, [] => s0.finishAccess key pd.slot g true ck.fail
  | none, _ => s0

/-- A fresh batch position of a class (06 R190). -/
def State.takePos (s : State) (key cls : Nat) : State × Nat :=
  match s.group key with
  | none => (s, s.nextPos)
  | some g =>
    ({ s.setGroup key { g with positions := g.positions ++ [⟨s.nextPos, cls, none⟩] } with nextPos := s.nextPos + 1 },
      s.nextPos)

/-- A group without one of its positions. -/
def Group.without (uid pos : Nat) (e : Nat × Group) : Nat × Group :=
  if e.2.uid = uid then (e.1, { e.2 with positions := e.2.positions.filter fun p => p.pos != pos }) else e

/-- A position completes (06 R193): the group, resident or saved, holds it no longer; its team may then be over. -/
def State.donePos (s : State) (uid pos : Nat) : State :=
  let s1 : State := { s with
    groups := s.groups.map (Group.without uid pos)
    teams := s.teams.map fun t => (t.1, { t.2 with held := t.2.held.map (Group.without uid pos) }) }
  match s1.groups.find? (fun e => e.2.uid == uid) with
  | some e => s1.reapTeam e.2.team
  | none => s1

/-- A failed subscription's handle (05 R180). -/
def failHandle (code : Nat) : Word := BitVec.ofNat 32 (2 ^ 31 + code)

/-- SUBSCR commits (05 R179): LINEBUSY, or the line is marked empty and the request goes to the home. -/
def State.commitSubscr (s : State) (key : Nat) (pd : Pending) (sd line size : Nat) (strict : Bool) (ck : Checked) : State :=
  match s.group key, ck.pass with
  | some g, (_, t) :: _ =>
    match s.segment g.team g.seg with
    | none => s
    | some seg =>
      if SMap.has seg.bound line then s.resume key pd.slot (g.setSr sd (failHandle 2))
      else
        let s1 := s.setSegment g.team g.seg
          { (seg.setFull line false) with bound := SMap.insert seg.bound line ⟨none, strict, g.uid, s.nextPos, none, false, false, t.tag, size⟩ }
        let (s2, pos) := s1.takePos key 2
        let r : SubReq := ⟨s.dev, key / 128, s.asidOf g, (s.context g.ctx).dctag.toNat, g.uid, sd, g.team, g.seg, line, t.asid, t.va, size, strict, pos⟩
        match s2.group key with
        | none => s2
        | some g2 =>
          let s3 : State := { s2 with net := s2.net ++ [.subReq r] }
          s3.resume key pd.slot { g2 with answers := g2.answers ++ [sd] }
  | some g, [] => s.finishAccess key pd.slot g true ck.fail
  | none, _ => s

/-- The bytes STST stores: W, M, S and a zero pad word (06 R215). -/
def ststBytes (vd : Nat) (g : Group) (l : Nat) : List Byte :=
  toBytes 16 (Triple.toNat (g.view vd l))

/-- Commit of the lane accesses and single-address accesses whose effect lies in memory alone. -/
def State.commit (s : State) (key : Nat) (pd : Pending) (ck : Checked) : State :=
  match s.group key with
  | none => s
  | some g =>
    match pd.op with
    | .load z vd => (s.ordered key (s.loadMustWait g)).commitLoad key pd (.vector vd z) true ck
    | .loadStrong z vd o _ =>
      ((s.ordered key (decide (o = 4) || s.loadMustWait g)).commitLoad key pd (.vector vd z) false ck).scEvent (key / 128) (if ck.pass.isEmpty then 0 else o)
        (ck.pass.map fun e => e.2.tag / 32)
    | .store z vd => s.commitStore key pd (fun g l => g.storeBytes z vd l) 0 1 ck
    | .storeStrong z vd o sc => s.commitStore key pd (fun g l => g.storeBytes z vd l) o sc ck
    | .atom op wide vd o sc => s.commitAtom key pd op wide vd o sc ck
    | .upd op vd => s.commitUpd key pd (UOp.ofCode op) vd ck
    | .collapse => (s.ordered key true).commitCollapse key pd ck
    | .cctl fn sc => s.commitCctl key pd fn sc ck
    | .sld sd => (s.ordered key (s.loadMustWait g)).commitLoad key pd (.scalar sd) false ck
    | .waita sd away t => s.commitWaita key pd sd away t ck
    | .subscr sd line size m => (s.ordered key true).commitSubscr key pd sd line size m ck
    | .stld vd => (s.ordered key (s.loadMustWait g)).commitLoad key pd (.view vd) false ck
    | .stst vd => s.commitStore key pd (ststBytes vd) 0 1 ck
    | _ => s

end Sys2Proof.Machine
end

