-- ==== Sys2Proof/Machine/Narrow.lean ====
section
/-! DEFINITION. Narrow formats, block scales, the matrix unit's exact chunk arithmetic, and ternary bytes
(03 R89 to R105). -/

namespace Sys2Proof.Machine

/-- The fields of a format word (03 Table 3-3). -/
structure NFmt where
  s : Nat
  e : Nat
  m : Nat
  bias : Int
  spec : Nat
  sat : Bool
  blk : Nat
  blen : Nat
  reserved : Nat
deriving DecidableEq, Repr

/-- Read a format word. -/
def NFmt.ofWord (w : Word) : NFmt :=
  let x := w.toNat
  ⟨bits x 0 1, bits x 1 3, bits x 4 3, signed 8 (bits x 7 8), bits x 15 2, bit x 17, bits x 18 3, bits x 21 4,
    bits x 25 7⟩

/-- Width of a code. -/
def NFmt.width (f : NFmt) : Nat := f.s + f.e + f.m

/-- The magnitude part of the largest finite code, for `E ≥ 1` (03 Table 3-5). -/
def NFmt.topMag (f : NFmt) : Nat :=
  match f.spec with
  | 0 => (2 ^ f.e - 1) * 2 ^ f.m - 1
  | 1 => 2 ^ (f.e + f.m) - 2
  | _ => 2 ^ (f.e + f.m) - 1

/-- Validity of a format word (03 Table 3-4). -/
def NFmt.valid (f : NFmt) : Bool :=
  decide (1 ≤ f.width) && decide (f.width ≤ 8)
  && decide (f.reserved = 0) && decide (f.spec ≠ 3) && decide (f.blk ≤ 2) && decide (f.blen ≤ 5)
  && (decide (f.blk = 0) == decide (f.blen = 0))
  && (decide (f.e ≠ 0) || decide (f.spec = 2))
  && (decide (f.spec ≠ 0) || (decide (2 ≤ f.e) && decide (1 ≤ f.m)))
  && (decide (f.spec ≠ 1) || decide (1 ≤ f.e))
  && (decide (f.e = 0) || decide (0 < f.topMag))
  && (if f.e = 0 then decide ((f.m : Int) - f.bias ≤ (if f.s = 1 then 127 else 128))
      else decide (((f.topMag / 2 ^ f.m : Nat) : Int) - f.bias ≤ 127))

/-- Is the word a valid format word (03 R90)? -/
def validFormat (w : Word) : Bool := (NFmt.ofWord w).valid

/-- Width in bits of the container of a code: 4 or 8 (03 R94). -/
def NFmt.container (f : NFmt) : Nat := if f.width ≤ 4 then 4 else 8

/-- Exponent of the format's subnormal spacing. -/
def NFmt.qmin (f : NFmt) : Int := if f.e = 0 then -f.bias else 1 - f.bias - (f.m : Int)

/-- The value of a code (03 R91). -/
def NFmt.decode (f : NFmt) (c : Nat) : Fp :=
  if f.e = 0 then
    let n : Int := if f.s = 1 then signed f.width c else ((c % 2 ^ f.width : Nat) : Int)
    .fin (decide (n < 0)) n.natAbs (-f.bias)
  else
    let neg := decide (f.s = 1) && bit c (f.width - 1)
    let ex := bits c f.m f.e
    let fr := bits c 0 f.m
    if f.spec = 0 ∧ ex = 2 ^ f.e - 1 then (if fr = 0 then .inf neg else .nan false)
    else if f.spec = 1 ∧ ex = 2 ^ f.e - 1 ∧ fr = 2 ^ f.m - 1 then .nan false
    else if ex = 0 then .fin neg fr f.qmin
    else .fin neg (2 ^ f.m + fr) (f.qmin + (ex : Int) - 1)

/-- The value of a code as F32 bits, always exact (03 R91). -/
def NFmt.toF32 (f : NFmt) (c : Nat) : Nat := (F32.deliver .rn (f.decode c)).1

/-- The canonical NaN code (03 Table 3-5). -/
def NFmt.nanCode (f : NFmt) : Nat :=
  if f.spec = 0 then (2 ^ f.e - 1) * 2 ^ f.m + 2 ^ (f.m - 1) else 2 ^ (f.e + f.m) - 1

/-- The code of a magnitude with a sign, for `E ≥ 1`. -/
def NFmt.signCode (f : NFmt) (neg : Bool) (mag : Nat) : Nat :=
  (if neg ∧ f.s = 1 then 2 ^ (f.width - 1) else 0) + mag

/-- The largest finite code of a sign; in an integer format the most positive or most negative code (03 R93). -/
def NFmt.largest (f : NFmt) (neg : Bool) : Nat :=
  if f.e = 0 then (if neg then 2 ^ f.m else 2 ^ f.m - 1) else f.signCode neg f.topMag

/-- The code of an infinity, for SPEC 0. -/
def NFmt.infCode (f : NFmt) (neg : Bool) : Nat := f.signCode neg ((2 ^ f.e - 1) * 2 ^ f.m)

/-- Does the mode round toward zero for this sign? -/
def towardZero (mode : RMode) (neg : Bool) : Bool :=
  match mode with
  | .rn => false
  | .rz => true
  | .rp => neg
  | .rm => !neg

/-- The outcome of a finite overflow (03 R93, Table 3-6). -/
def NFmt.overflow (f : NFmt) (mode : RMode) (neg : Bool) : Nat × Word :=
  let ov := fOverflow ||| fInexact
  if towardZero mode neg then (f.largest neg, ov ||| flagIf f.sat fSat)
  else if f.spec = 2 ∨ f.sat then (f.largest neg, ov ||| fSat)
  else if f.spec = 0 then (f.infCode neg, ov)
  else (f.nanCode, ov)

/-- Convert an F32 value into the format (03 R93): the code and the flags. In a format without fraction bits a tie between two normal
values has no even significand, both being 1; the larger magnitude is taken (DESIGN CHOICE, log 107). -/
def NFmt.encode (f : NFmt) (mode : RMode) (x : Nat) : Nat × Word :=
  match F32.decode x with
  | .nan s => if f.spec = 2 then (0, fInvalid) else (f.nanCode, flagIf s fInvalid)
  | .inf neg =>
    if neg ∧ f.s = 0 then (0, fSat ||| fInexact)
    else if f.spec = 2 ∨ f.sat then (f.largest neg, fSat)
    else if f.spec = 0 then (f.infCode neg, 0)
    else (f.nanCode, fInvalid)
  | .fin neg m e =>
    if m = 0 then (if neg ∧ f.s = 1 ∧ f.e ≠ 0 then 2 ^ (f.width - 1) else 0, 0)
    else if neg ∧ f.s = 0 then (0, fSat ||| fInexact)
    else if f.e = 0 then
      let (mant, inexact) := roundShift mode neg m (f.qmin - e)
      if (if neg then 2 ^ f.m else 2 ^ f.m - 1) < mant then f.overflow mode neg
      else ((if neg then 2 ^ f.width - mant else mant) % 2 ^ f.width, flagIf inexact fInexact)
    else
      let q := max (msb m e - (f.m : Int)) f.qmin
      let (mant, inexact) := roundShift mode neg m (q - e)
      let mag := (q - f.qmin).toNat * 2 ^ f.m + mant
      if f.topMag < mag then f.overflow mode neg
      else (f.signCode neg mag,
        flagIf inexact fInexact ||| flagIf (inexact && isTiny mode neg m e f.m (1 - f.bias)) fUnderflow)

/-- The value of a block-scale byte (03 R96). -/
def scaleValue (blk x : Nat) : Fp :=
  if blk = 1 then (if x = 255 then .nan false else .fin false 1 ((x : Int) - 127))
  else if 128 ≤ x ∨ x = 127 then .nan false
  else
    let ex := x / 8
    if ex = 0 then .fin false (x % 8) (-9) else .fin false (8 + x % 8) ((ex : Int) - 10)

/-! ## Exact sums (03 R97 to R99) -/

/-- The product of the matrix unit: a zero operand gives +0 whatever the other is (03 R97). Infinity times infinity is an infinity
with the xor of the signs (DESIGN CHOICE, log 127). -/
def mxMul (a b : Fp) : Fp :=
  if a.isZero || b.isZero then .fin false 0 0 else (fpMul a b).1

/-- An exact sum in progress: `m * 2^e`, and whether NaN, +infinity or −infinity terms have entered. -/
structure Acc where
  nan : Bool
  pinf : Bool
  ninf : Bool
  m : Int
  e : Int
deriving DecidableEq, Repr

/-- The empty sum. -/
def Acc.empty : Acc := ⟨false, false, false, 0, 0⟩

/-- Add a term exactly. -/
def Acc.add (a : Acc) (t : Fp) : Acc :=
  match t with
  | .nan _ => { a with nan := true }
  | .inf n => if n then { a with ninf := true } else { a with pinf := true }
  | .fin n m e =>
    if m = 0 then a
    else
      let e0 := min a.e e
      { a with m := a.m * ((2 ^ (a.e - e0).toNat : Nat) : Int) + align n m e e0, e := e0 }

/-- The sum as a value: NaN when a NaN entered or infinities of both signs met. -/
def Acc.value (a : Acc) : Fp :=
  if a.nan || (a.pinf && a.ninf) then .nan false
  else if a.pinf then .inf false
  else if a.ninf then .inf true
  else .fin (decide (a.m < 0)) a.m.natAbs a.e

/-- The exact sum of a list of terms. -/
def exactSum (ts : List Fp) : Fp := (ts.foldl Acc.add Acc.empty).value

/-- One chunk update of an accumulator element (03 R99): a zero sum is +0. -/
def chunkUpdate (c : Word) (terms : List Fp) : Word :=
  match exactSum (F32.decode c.toNat :: terms) with
  | .nan _ => BitVec.ofNat 32 F32.nan
  | .inf n => BitVec.ofNat 32 (F32.infinity n)
  | .fin n m e => if m = 0 then 0 else BitVec.ofNat 32 (F32.round .rn n m e).1

/-- A block result: the exact sum of the block's products times both scales (03 R98). -/
def blockResult (products : List Fp) (sa sb : Fp) : Fp :=
  if sa.isNan || sb.isNan then .nan false
  else if sa.isZero || sb.isZero then .fin false 0 0
  else mxMul (mxMul (exactSum products) sa) sb

/-- The three slices of a finite non-zero F32 operand (03 R102): hi, mid, lo. -/
def slices (x : Fp) : List Fp :=
  match x with
  | .fin n m e =>
    [.fin n (bits m 16 8) (e + 16), .fin n (bits m 8 8) (e + 8), .fin n (bits m 0 8) e]
  | y => [y]

/-- The contributions of one operand pair in FP32X6 or FP32X9 (03 R103, R104). -/
def synthTerms (nine : Bool) (a b : Fp) : List Fp :=
  match a, b with
  | .fin _ ma _, .fin _ mb _ =>
    if ma = 0 ∨ mb = 0 then []
    else
      let sa := (run 0 3).zip (slices a)
      let sb := (run 0 3).zip (slices b)
      (sa.map fun (i, x) => (sb.filter fun (j, _) => nine || decide (i + j ≤ 2)).map fun (_, y) => mxMul x y).flatten
  | _, _ => [mxMul a b]

/-! ## Ternary bytes (03 R105) -/

/-- The five trits of a byte, as 4-bit two's-complement fields from bit 0. -/
def tritsFrom : Nat → Nat → Nat
  | 0, _ => 0
  | n + 1, q =>
    let d := (q * 171) / 512
    let t := q - 3 * d
    (if t = 0 then 15 else t - 1) + 16 * tritsFrom n d

/-- TUNPK of a byte; an illegal byte gives zero (03 R105, 04 R136). -/
def tunpk (b : Nat) : Nat := if b ≤ 242 then tritsFrom 5 b else 0

end Sys2Proof.Machine
end

