-- ==== Sys2Proof/Machine/Matrix.lean ====
section
/-! DEFINITION. Matrix instructions as a group issues them (06 R195 to R211): control blocks, checks, and the core's
queue. What the unit does with a queued operation is in MatrixUnit.lean. -/

namespace Sys2Proof.Machine

/-- Rows or columns of a tile (01 R28). -/
def tileSide : Nat := 128

/-- The address a bank-permutation mode gives (06 R222). -/
def permute (n a : Nat) : Nat :=
  if n = 0 then a
  else a / 128 * 128 + 4 * (a / 4 % 32 ^^^ a / 128 % 2048 % 2 ^ n) + a % 4

/-! ## Unfold parameters -/

/-- The configuration words as fields (06 Table 6-4). -/
structure Unfold where
  xbase : Nat
  h : Nat
  w : Nat
  c : Nat
  ow : Nat
  dx : Nat
  dy : Nat
  sx : Nat
  sy : Nat
  kw : Nat
  kh : Nat
  px : Nat
  py : Nat

/-- Read the configuration words. -/
def Unfold.ofWords (ws : List Word) : Unfold :=
  let f := fun (i lo n : Nat) => bits (ws.getD i 0).toNat lo n
  ⟨f 0 0 18, f 1 0 16, f 1 16 16, f 2 0 16, f 2 16 16, f 3 28 4, f 3 24 4, f 3 20 4, f 3 16 4, f 3 8 8, f 3 0 8,
    f 4 8 8, f 4 0 8⟩

/-- Are the configuration words in range (06 Table 6-4)? -/
def goodUnfold (ws : List Word) : Bool :=
  let u := Unfold.ofWords ws
  bits (ws.getD 0 0).toNat 18 14 == 0 && bits (ws.getD 4 0).toNat 16 16 == 0 &&
    [u.h, u.w, u.c, u.ow, u.dx, u.dy, u.sx, u.sy, u.kw, u.kh].all fun x => decide (0 < x)

/-- The configuration a tile has once every queued MXCFG has been applied (06 R201). -/
def State.latestCfg (s : State) (core team seg tile : Nat) : Option (List Word) :=
  let queued := (s.core core).matq.filterMap fun p =>
    if p.team = team ∧ p.seg = seg ∧ p.tile = tile then
      match p.op with
      | .config ws => some ws
      | _ => none
    else none
  match queued.getLast? with
  | some ws => some ws
  | none => match s.segment team seg with
    | some x => match SMap.find x.cfg tile with
      | some c => if c.valid then some c.words else none
      | none => none
    | none => none

/-! ## Format words (06 R201) -/

/-- The lanes whose word is not a valid format word. -/
def Ctx.invalidWords (c : Ctx) (v : Nat) : Word := maskOfList (c.lanes.filter fun l => !validFormat (c.g.vr v l))

/-- Do two active lanes hold different words? -/
def Ctx.diverges (c : Ctx) (v : Nat) : Bool :=
  c.lanes.any fun l => c.lanes.any fun k => c.g.vr v l != c.g.vr v k

/-- The agreed word: the lowest active lane's. -/
def Ctx.agreed (c : Ctx) (v : Nat) : Word :=
  match c.lanes with
  | l :: _ => c.g.vr v l
  | [] => 0

/-- The widest container among the active lanes' words, in bits (06 R203). -/
def Ctx.widest (c : Ctx) (v : Nat) : Nat :=
  (c.lanes.map fun l => (NFmt.ofWord (c.g.vr v l)).container).foldl max 4

/-- The vote on format words: illegal-format, then format-divergence (06 R201). -/
def Ctx.vote (c : Ctx) (vs : List Nat) : Option Trap :=
  let bad := (vs.map c.invalidWords).foldl (· ||| ·) 0
  if bad ≠ 0 then some { Trap.of cFormat with lanes := bad }
  else if vs.any c.diverges then some (Trap.of cDivergence)
  else none

/-- Does an outstanding answer still write one of these registers in an active lane? -/
def Ctx.vectorsBusy (c : Ctx) (vs : List Nat) : Bool :=
  (c.s.busyRegs c.g).any fun e => vs.contains e.1 && lane c.act e.2

/-! ## MXLOOP (06 R200 to R203) -/

/-- Are the fields of Table 6-5 in range? -/
def goodLoop (ws : List Word) : Bool :=
  let w := fun i => (ws.getD i 0).toNat
  let virt := bit (w 4) 18
  (if virt then decide (w 0 < 2 ^ 31) && w 2 % 32 == 0 else decide (w 0 < 2 ^ 18) && w 0 % 16 == 0 && w 2 % 16 == 0)
  && decide (w 1 < 2 ^ 18) && w 1 % 16 == 0 && w 3 % 16 == 0
  && bits (w 4) 28 4 == 0 && decide (bits (w 4) 24 4 ≤ 5) && decide (bits (w 4) 20 4 ≤ 5) && !bit (w 4) 19
  && decide (1 ≤ bits (w 4) 0 16)
  && bits (w 5) 22 10 == 0 && decide (1 ≤ bits (w 5) 16 6) && decide (bits (w 5) 16 6 ≤ 32)
  && decide (1 ≤ bits (w 5) 8 8) && decide (bits (w 5) 8 8 ≤ 128)
  && decide (1 ≤ bits (w 5) 0 8) && decide (bits (w 5) 0 8 ≤ 128)
  && decide (w 6 < 2 ^ 18) && decide (w 7 < 2 ^ 18)

/-- The loop a control block describes. -/
def loopOf (ws : List Word) (fa fb : Word) : LoopCtl :=
  let w := fun i => (ws.getD i 0).toNat
  { aaddr := w 0, baddr := w 1, ainc := if bit (w 4) 18 then (w 2 : Int) else signed 32 (w 2), binc := signed 32 (w 3), aperm := bits (w 4) 20 4,
    bperm := bits (w 4) 24 4, virt := bit (w 4) 18, mode := bits (w 4) 16 2, left := bits (w 4) 0 16, step := 0,
    klast := bits (w 5) 16 6, n := bits (w 5) 8 8, m := bits (w 5) 0 8, ascl := w 6, bscl := w 7, fa := fa, fb := fb }

/-- Block length of the scales of A and B: A's when it has scales, else B's (06 R202). -/
def LoopCtl.blen (c : LoopCtl) : Nat :=
  let a := NFmt.ofWord c.fa
  if a.blk ≠ 0 then a.blen else (NFmt.ofWord c.fb).blen

/-- Blocks in a row or column of a step. -/
def LoopCtl.blocks (c : LoopCtl) : Nat := 32 / 2 ^ c.blen

/-- Do A's elements carry block scales? Only in MODE 0. -/
def LoopCtl.aBlk (c : LoopCtl) : Nat := if c.mode = 0 then (NFmt.ofWord c.fa).blk else 0
/-- Do B's? -/
def LoopCtl.bBlk (c : LoopCtl) : Nat := if c.mode = 0 then (NFmt.ofWord c.fb).blk else 0

/-- Bits of an element outside MODE 0. -/
def modeBits (mode : Nat) : Nat := if mode = 1 then 16 else 32

/-- The scratchpad spans the first and last step read, and a virtual A's tensor: start and length (06 R203). The check comes before
the vote on format words, so BLK and BLEN of the scale blocks are those of the lowest active lane's words, and BLEN is A's where A
has scales (log 98). -/
def LoopCtl.spans (c : LoopCtl) (wa wb : Nat) (cfg : Option (List Word)) : List (Int × Nat) :=
  let last : Int := (c.left : Int) - 1
  let two := fun (a inc : Int) (len : Nat) => [(a, len), (a + last * inc, len)]
  let area : Int := 128 * (c.blocks : Int)
  (if c.virt then
    match cfg with
    | some ws => let u := Unfold.ofWords ws
      [((u.xbase : Int), (u.w * u.h * u.c * wa + 7) / 8)]
    | none => []
  else two c.aaddr c.ainc (c.m * 4 * wa))
  ++ two c.baddr c.binc (c.n * 4 * wb)
  ++ (if c.aBlk ≠ 0 then two c.ascl area (c.m * c.blocks) else [])
  ++ (if c.bBlk ≠ 0 then two c.bscl area (c.n * c.blocks) else [])

/-- Does a span leave the declared scratchpad? -/
def outside (size : Nat) (x : Int × Nat) : Bool := decide (x.1 < 0) || decide ((size : Int) < x.1 + (x.2 : Int))

/-- The matrix-configuration checks on a loop whose words have been voted (06 R201). -/
def LoopCtl.badPair (c : LoopCtl) (cfg : Option (List Word)) : Bool :=
  (c.aBlk != 0 && c.bBlk != 0 && (NFmt.ofWord c.fa).blen != (NFmt.ofWord c.fb).blen)
  || (c.virt && c.aBlk != 0) || (c.ascl != 0 && c.aBlk == 0) || (c.bscl != 0 && c.bBlk == 0)
  || (c.virt && decide (2 ≤ c.mode)) || (c.virt && cfg.isNone)

/-- Positions a core's matrix queue holds (06 R197). -/
def matCapacity : Nat := 8

/-- Queue a matrix operation with the group's next position (06 R190, R197). -/
def Ctx.queueMat (c : Ctx) (tile : Nat) (g : Group) (op : MatOp) (k : Ctx → Group → Out) : Out :=
  if matCapacity ≤ (c.s.core c.core).matq.length then c.stall .operand
  else
    let x := c.s.core c.core
    let e : MatPos := ⟨c.s.nextPos, g.uid, g.team, g.seg, tile, op, []⟩
    let taken : Position := ⟨c.s.nextPos, 0, none⟩
    let s1 : State := { c.s with nextPos := c.s.nextPos + 1 }
    k { c with s := s1.setCore c.core { x with matq := x.matq ++ [e] } } { g with positions := g.positions ++ [taken] }

/-- MXLOOP (06 R200 to R203). -/
def execMxloop (f : BitVec 7) (a : BitVec 8) (t : BitVec 2) (s : State) : Out :=
  issue (.mxloop f a t) s fun c =>
    let ws := c.g.block a.toNat 8
    let narrow := loopMode c.g a.toNat == 0
    let vs := formatRegs c.g (.mxloop f a t)
    if narrow && decide (c.g.vregs ≤ f.toNat + 1) then c.trap (Trap.of cResource)
    else if c.vectorsBusy vs then c.stall .operand
    else
      let lp := loopOf ws (if narrow then c.agreed f.toNat else 0) (if narrow then c.agreed (f.toNat + 1) else 0)
      let cfg := c.s.latestCfg c.core c.g.team c.g.seg t.toNat
      let wa := if narrow then c.widest f.toNat else modeBits lp.mode
      let wb := if narrow then c.widest (f.toNat + 1) else modeBits lp.mode
      if goodLoop ws && (lp.spans wa wb cfg).any (outside (c.spSize c.g.seg)) then c.trap (Trap.of cResource)
      else match c.vote vs with
        | some trap => c.trap trap
        | none =>
          if !goodLoop ws || lp.badPair cfg then c.trap (Trap.of cMatrix)
          else c.queueMat t.toNat c.g (.loop lp) fun c' g => c'.done g

/-- MXZERO (06 R207). -/
def execMxzero (t : BitVec 2) (s : State) : Out :=
  issue (.mxzero t) s fun c => c.queueMat t.toNat c.g .zero fun c' g => c'.done g

/-- Undefined values for the registers an MXRD is to fill (06 Table 6-3; log 7). -/
def undefWrites (free vd cnt : Nat) (ls : List Nat) : List ((Nat × Nat) × Word) :=
  ((run 0 cnt).map fun k => ls.map fun l => ((vd + k, l), Config.freeWord (free + 32 * k + l))).flatten

/-- The registers and lanes that two MXRDs both fill. -/
def MatRead.shared (a b : MatRead) : List (Nat × Word) :=
  ((run a.vd a.cnt).filter fun v => decide (b.vd ≤ v) && decide (v < b.vd + b.cnt)).map fun v => (v, a.lanes &&& b.lanes)

/-- One more MXRD: what it shares with one before it is written by both before either BWAIT, so it stays undefined in both
(06 Table 6-3; log 92). -/
def addRead (rs : List MatRead) (r : MatRead) : List MatRead :=
  rs.map (fun k => { k with spoiled := k.spoiled ++ k.shared r })
    ++ [{ r with spoiled := (rs.map fun k => r.shared k).flatten }]

/-- MXRD (06 R208): until the BWAIT that covers it, its registers hold undefined values (06 Table 6-3). -/
def execMxrd (f : BitVec 7) (a : BitVec 8) (t : BitVec 2) (s : State) : Out :=
  issue (.mxrd f a t) s fun c =>
    let x := c.sv a.toNat
    let row := bits x.toNat 0 7
    let cnt := readCount x
    if c.g.vregs < f.toNat + cnt then c.trap (Trap.of cResource)
    else if 127 < row + cnt - 1 ∨ 2 ^ 11 ≤ x.toNat then c.trap (Trap.of cMatrix)
    else if c.vectorsBusy (run f.toNat cnt) then c.stall .operand
    else c.queueMat t.toNat c.g (.read f.toNat row (bits x.toNat 7 2) cnt c.act) fun c' g =>
      let r : MatRead := ⟨c.s.nextPos, none, f.toNat, cnt, c.act, none, []⟩
      { c' with s := { c'.s with free := c'.s.free + 128 } }.done
        { g.setMany (undefWrites c'.s.free f.toNat cnt c.lanes) with mxrd := addRead g.mxrd r }

/-- MXCFG (06 R199). -/
def execMxcfg (a : BitVec 8) (t : BitVec 2) (s : State) : Out :=
  issue (.mxcfg a t) s fun c =>
    let ws := c.g.block a.toNat 5
    if !goodUnfold ws then c.trap (Trap.of cMatrix)
    else c.queueMat t.toNat c.g (.config ws) fun c' g => c'.done g

/-- Does a scratchpad access that the group issued by a time wait for a full line? -/
def Group.spWaits (g : Group) (now : Nat) : Bool :=
  [g.slotA, g.slotB].any fun p => p.any fun x => match x.wait with
    | .emptyLine _ _ start _ _ => decide (start ≤ now)
    | _ => false

/-- OPFENCE (06 R195): scratchpad accesses have performed when their instruction issued, but for one that waits for a full
line; it waits for those issued before it. -/
def execOpfence (s : State) : Out :=
  issue .opfence s fun c =>
    let at_ := match c.taken with
      | some (.opfence t) => t
      | _ => c.s.now
    if c.g.spWaits at_ then c.hold (.opfence at_) else c.done c.g

/-! ## MXEPI (06 R209 to R211) -/

/-- Bits of an output element; a narrow one takes its container (06 R210). -/
def EpiCtl.elemBits (c : EpiCtl) : Nat :=
  match c.otype with
  | 0 => 32
  | 1 => 16
  | 2 => 16
  | _ => (NFmt.ofWord c.fmt).container

/-- Bytes of a stored row. -/
def rowBytes (n ebits : Nat) : Nat := (n * ebits + 7) / 8

/-- Are the fields of Table 6-7 in range, for elements of this width? -/
def goodEpi (ws : List Word) (ebits : Nat) : Bool :=
  let w := fun i => (ws.getD i 0).toNat
  let red := bits (w 0) 6 4
  let dest := bits (w 0) 0 2
  let otype := bits (w 0) 2 2
  let n := bits (w 3) 8 8
  bits (w 0) 11 21 == 0 && [0, 2, 5, 8].contains red && decide (dest ≤ 2) && bits (w 3) 16 16 == 0
  && decide (1 ≤ n) && decide (n ≤ 128) && decide (1 ≤ bits (w 3) 0 8) && decide (bits (w 3) 0 8 ≤ 128)
  && w 6 % 4 == 0 && decide ((rowBytes n ebits + 3) / 4 * 4 ≤ w 6)
  && (dest != 0 || w 5 == 0) && (dest != 1 || bits (w 5) 24 8 == 0) && (dest == 2 || w 7 == 0)
  && (red == 0 || (otype == 0 && dest != 0))

/-- The epilogue a control block describes. -/
def epiOf (ws : List Word) (peer : BitVec 128) (fmt : Word) : EpiCtl :=
  let w := fun i => (ws.getD i 0).toNat
  { clear := bit (w 0) 10, red := bits (w 0) 6 4, peer := peer, otype := bits (w 0) 2 2, dest := bits (w 0) 0 2,
    sca := ws.getD 1 0, scb := ws.getD 2 0, n := bits (w 3) 8 8, m := bits (w 3) 0 8, dlo := w 4, dhi := ws.getD 5 0,
    stride := w 6, seq := ws.getD 7 0, fmt := fmt }

/-- Bytes from the first to the last of the destination. -/
def EpiCtl.extent (c : EpiCtl) : Nat := (c.m - 1) * c.stride + rowBytes c.n c.elemBits

/-- The destination of DEST 1. -/
def EpiCtl.base (c : EpiCtl) : Nat := c.dlo + 2 ^ 32 * bits c.dhi.toNat 0 24

/-- MXEPI (06 R209 to R211). -/
def execMxepi (f : BitVec 7) (a : BitVec 8) (t : BitVec 2) (s : State) : Out :=
  issue (.mxepi f a t) s fun c =>
    let ws := c.g.block a.toNat 8
    let narrow := epiType c.g a.toNat == 3
    let vs := formatRegs c.g (.mxepi f a t)
    if narrow && decide (c.g.vregs ≤ f.toNat) then c.trap (Trap.of cResource)
    else if c.vectorsBusy vs then c.stall .operand
    else
      let pn := bits (ws.getD 0 (0 : Word)).toNat 4 2
      let peer := match c.s.segment c.g.team c.g.seg with
        | some x => SMap.getD x.peers pn 0
        | none => 0
      let ep := epiOf ws peer (if narrow then c.agreed f.toNat else 0)
      let ebits := if narrow then c.widest f.toNat else ep.elemBits
      let ok := goodEpi ws ebits
      if ok && ep.dest == 0 && decide (c.spSize c.g.seg < ep.dlo + (ep.m - 1) * ep.stride + rowBytes ep.n ebits) then
        c.trap (Trap.of cResource)
      else match c.vote vs with
        | some trap => c.trap trap
        | none =>
          if !ok || (narrow && (NFmt.ofWord ep.fmt).blk != 0) then c.trap (Trap.of cMatrix)
          else if ep.dest = 2 ∧ !peer.getLsbD 127 then c.trap { Trap.of cPeer with info := BitVec.ofNat 32 pn }
          else if ep.dest = 1 then
            (if matCapacity ≤ (c.s.core c.core).matq.length then c.stall .operand
            else c.publish.pend [(0, ep.base)] (.mxepi t.toNat ep))
          else
            c.queueMat t.toNat c.g (.epilogue ep) fun c' g => (if ep.dest = 2 then c'.publish else c').done g

/-- The 64 KiB pages of a run of bytes, as addresses (06 R211). -/
def pagesOf (a n : Nat) : List Nat := (run (a / 65536) ((a + n - 1) / 65536 - a / 65536 + 1)).map fun p => 65536 * p

/-- The lowest failing page of a list of pages, for a core. -/
def State.firstFail (s : State) (core asid : Nat) (need : Need) : List Nat → Option (Nat × XKind × Nat)
  | [] => none
  | p :: r => match s.translateBy (coreDie core) asid p need with
    | .error k => some (0, k, p)
    | .ok _ => s.firstFail core asid need r

/-- MXEPI with DEST 1 once its pages are checked (06 R211): queued, or a translation fault at the lowest failing page. -/
def State.commitEpi (s : State) (key : Nat) (pd : Pending) (tile : Nat) (ep : EpiCtl) : State :=
  match s.group key with
  | none => s
  | some g =>
    match s.firstFail (key / 128) (s.asidOf g) needW (pagesOf ep.base ep.extent) with
    | some f => s.finishAccess key pd.slot g true [f]
    | none =>
      let x := s.core (key / 128)
      if matCapacity ≤ x.matq.length then s.blockAccess key pd g
      else
        let e : MatPos := ⟨s.nextPos, g.uid, g.team, g.seg, tile, .epilogue ep, []⟩
        let taken : Position := ⟨s.nextPos, 0, none⟩
        let s1 : State := { s with nextPos := s.nextPos + 1 }
        (s1.setCore (key / 128) { x with matq := x.matq ++ [e] }).resume key pd.slot
          { g with positions := g.positions ++ [taken] }

end Sys2Proof.Machine
end

