-- ==== Sys2Proof/Machine/MatrixUnit.lean ====
section
/-! DEFINITION. What a core's matrix unit does with its queue (06 R197 to R212): each event takes one step of one
position that no earlier position on the same tile holds back. -/

namespace Sys2Proof.Machine

/-- Key of a tile element. -/
def tileKey (tile row col : Nat) : Nat := 16384 * tile + 128 * row + col

/-- A tile element. -/
def Segment.element (g : Segment) (tile row col : Nat) : Word := SMap.getD g.tiles (tileKey tile row col) 0

/-- Clear every element of a tile. -/
def Segment.clearTile (g : Segment) (tile : Nat) : Segment :=
  { g with tiles := g.tiles.filter fun e => e.1 / 16384 != tile }

/-- Do two positions name one tile? -/
def MatPos.sameTile (a b : MatPos) : Bool := a.team == b.team && a.seg == b.seg && a.tile == b.tile

/-- The first position of a queue that satisfies `f` and is first on its tile; `before` are the earlier ones. -/
def firstOnTile (f : MatPos → Bool) : List MatPos → List MatPos → Option MatPos
  | _, [] => none
  | before, e :: r =>
    if f e && !before.any (fun b => b.sameTile e) then some e else firstOnTile f (e :: before) r

/-- The position a core's unit may take a step of. -/
def State.matNext (s : State) (core : Nat) (f : MatPos → Bool) : Option MatPos :=
  firstOnTile (fun e => f e && !s.engineStopped e.team clsMatrix) [] (s.core core).matq

/-- A position leaves the queue. -/
def State.unqueueMat (s : State) (core pos : Nat) : State :=
  let x := s.core core
  s.setCore core { x with matq := x.matq.filter fun e => e.pos != pos }

/-- A position leaves the queue and completes (06 R193). -/
def State.completeMat (s : State) (core : Nat) (e : MatPos) : State := (s.unqueueMat core e.pos).donePos e.uid e.pos

/-! ## K-steps (06 R202 to R205) -/

/-- Where an element of an operand lies: its bit address before permutation, or none for an element that is +0. -/
def LoopCtl.aBit (c : LoopCtl) (u : Unfold) (w i k : Nat) : Option Nat :=
  if c.virt then
    let p := c.aaddr + i
    let kk := c.ainc.toNat + 32 * c.step + k
    let t := kk / u.c
    let ky := t / u.kw
    let y : Int := ((p / u.ow * u.sy + ky * u.dy : Nat) : Int) - (u.py : Int)
    let x : Int := ((p % u.ow * u.sx + t % u.kw * u.dx : Nat) : Int) - (u.px : Int)
    if u.kh ≤ ky ∨ y < 0 ∨ (u.h : Int) ≤ y ∨ x < 0 ∨ (u.w : Int) ≤ x then none
    else some (8 * u.xbase + ((y.toNat * u.w + x.toNat) * u.c + kk % u.c) * w)
  else some (8 * c.aaddr + (32 * i + k) * w)

/-- The scratchpad bytes of an element of `w` bits at a bit address, under a permutation mode (06 R222). -/
def spanOf (perm w b : Nat) : List Nat := (run (b / 8) (if w = 4 then 1 else w / 8)).map (permute perm)

/-- The code of `w` bits at a bit address. -/
def Segment.code (g : Segment) (perm w b : Nat) : Nat :=
  let x := ofBytes ((spanOf perm w b).map fun a => SMap.getD g.spad a 0)
  if w = 4 then bits x (b % 8) 4 else x

/-- The value of a code: the narrow format of MODE 0, BF16, or FP32. -/
def LoopCtl.value (c : LoopCtl) (fmt : Word) (code : Nat) : Fp :=
  match c.mode with
  | 0 => (NFmt.ofWord fmt).decode code
  | 1 => BF16.decode code
  | _ => F32.decode code

/-- Width of an element of an operand with this format word. -/
def LoopCtl.width (c : LoopCtl) (fmt : Word) : Nat :=
  if c.mode = 0 then (NFmt.ofWord fmt).container else modeBits c.mode

/-- K positions of the current step (06 R204). -/
def LoopCtl.kmax (c : LoopCtl) : Nat := if c.left = 1 then c.klast else 32

/-- Blocks of the step that have a position below kmax (03 R98). -/
def LoopCtl.usedBlocks (c : LoopCtl) : Nat := (c.kmax + 2 ^ c.blen - 1) / 2 ^ c.blen

/-- Address of a scale byte (06 Table 6-6). -/
def LoopCtl.scaleAddr (c : LoopCtl) (base row b : Nat) : Nat := base + c.step * 128 * c.blocks + row * c.blocks + b

/-- The scale bytes the current step reads for a row or column. -/
def LoopCtl.scaleReads (c : LoopCtl) (blk base r : Nat) : List Nat :=
  if blk = 0 then [] else (run 0 c.usedBlocks).map fun b => c.scaleAddr base r b

/-- The bytes the current step reads for row `i` of A, scales included (06 R204). -/
def LoopCtl.readsA (c : LoopCtl) (u : Unfold) (i : Nat) : List Nat :=
  ((run 0 c.kmax).map fun k => match c.aBit u (c.width c.fa) i k with
    | some b => spanOf c.aperm (c.width c.fa) b
    | none => []).flatten ++ c.scaleReads c.aBlk c.ascl i

/-- The bytes the current step reads for column `j` of B, scales included (06 R204). -/
def LoopCtl.readsB (c : LoopCtl) (j : Nat) : List Nat :=
  ((run 0 c.kmax).map fun k => spanOf c.bperm (c.width c.fb) (8 * c.baddr + (32 * j + k) * c.width c.fb)).flatten
    ++ c.scaleReads c.bBlk c.bscl j

/-- The bytes the current step reads (06 R204): those of positions below kmax, and of the blocks such a position lies in; for the
lines of other positions the last step does not wait (log 99). -/
def LoopCtl.reads (c : LoopCtl) (u : Unfold) : List Nat :=
  ((run 0 c.m).map (c.readsA u)).flatten ++ ((run 0 c.n).map c.readsB).flatten

/-- Are the operand lines of the current step full? -/
def LoopCtl.fetched (c : LoopCtl) (g : Segment) (u : Unfold) : Bool := (c.reads u).all fun a => g.isFull (a / 128)

/-- Row `i` of A in the current step. -/
def LoopCtl.rowA (c : LoopCtl) (g : Segment) (u : Unfold) (i : Nat) : List Fp :=
  (run 0 c.kmax).map fun k => match c.aBit u (c.width c.fa) i k with
    | some b => c.value c.fa (g.code c.aperm (c.width c.fa) b)
    | none => .fin false 0 0

/-- Column `j` of B in the current step. -/
def LoopCtl.colB (c : LoopCtl) (g : Segment) (j : Nat) : List Fp :=
  (run 0 c.kmax).map fun k => c.value c.fb (g.code c.bperm (c.width c.fb) (8 * c.baddr + (32 * j + k) * c.width c.fb))

/-- Block scales of a row or column; 1.0 where the operand has none. -/
def LoopCtl.scales (c : LoopCtl) (g : Segment) (blk base r : Nat) : List Fp :=
  (run 0 c.usedBlocks).map fun b =>
    if blk = 0 then .fin false 1 0 else scaleValue blk (SMap.getD g.spad (c.scaleAddr base r b) 0).toNat

/-- Block results: `n` products to a block, with the scales of A and B (03 R98). -/
def blockResults (n : Nat) : List Fp → List Fp → List Fp → List Fp
  | x :: xs, y :: ys, ps => blockResult (ps.take n) x y :: blockResults n xs ys (ps.drop n)
  | _, _, _ => []

/-- The contributions of a step to one element (06 R204). -/
def LoopCtl.terms (c : LoopCtl) (a b sa sb : List Fp) : List Fp :=
  match c.mode with
  | 0 =>
    let ps := a.zipWith mxMul b
    if c.aBlk = 0 ∧ c.bBlk = 0 then ps else blockResults (2 ^ c.blen) sa sb ps
  | 1 => a.zipWith mxMul b
  | 2 => (a.zipWith (synthTerms false) b).flatten
  | _ => (a.zipWith (synthTerms true) b).flatten

/-- The tile after the current step. -/
def LoopCtl.fold (c : LoopCtl) (g : Segment) (u : Unfold) (tile : Nat) : Segment :=
  let cols := (run 0 c.n).map fun j => (j, c.colB g j, c.scales g c.bBlk c.bscl j)
  let new := ((run 0 c.m).map fun i =>
    let a := c.rowA g u i
    let sa := c.scales g c.aBlk c.ascl i
    cols.map fun x => (tileKey tile i x.1, chunkUpdate (g.element tile i x.1) (c.terms a x.2.1 sa x.2.2))).flatten
  { g with tiles := SMap.putAll 0 g.tiles new }

/-- The loop with one step done. -/
def LoopCtl.advance (c : LoopCtl) : LoopCtl :=
  { c with
    left := c.left - 1
    step := c.step + 1
    aaddr := if c.virt then c.aaddr else ((c.aaddr : Int) + c.ainc).toNat
    baddr := ((c.baddr : Int) + c.binc).toNat }

/-- The unfold parameters a tile has now. -/
def Segment.unfold (g : Segment) (tile : Nat) : Unfold :=
  match SMap.find g.cfg tile with
  | some c => Unfold.ofWords c.words
  | none => Unfold.ofWords []

/-- The loop as it stood, or will stand, at step `t`. -/
def LoopCtl.atStep (c : LoopCtl) (t : Nat) : LoopCtl :=
  let d : Int := (t : Int) - (c.step : Int)
  { c with
    left := c.step + c.left - t
    step := t
    aaddr := if c.virt then c.aaddr else ((c.aaddr : Int) + d * c.ainc).toNat
    baddr := ((c.baddr : Int) + d * c.binc).toNat }

/-- Do bytes written now meet reads of an incomplete loop: those of a step it has done, or of a later step that finds their line
full already (06 Table 6-3)? A read that waits for its line follows the write that fills it. -/
def LoopCtl.meets (c : LoopCtl) (g : Segment) (bytes : List Nat) (reads : LoopCtl → List Nat) : Bool :=
  (run 0 (c.step + c.left)).any fun t =>
    (reads (c.atStep t)).any fun a => bytes.contains a && (decide (t < c.step) || g.isFull (a / 128))

/-- The tile elements, 128 row + column, that an incomplete loop computes from bytes written now. -/
def LoopCtl.spoils (c : LoopCtl) (g : Segment) (u : Unfold) (bytes : List Nat) : List Nat :=
  let rows := (run 0 c.m).filter fun i => c.meets g bytes fun k => k.readsA u i
  let cols := (run 0 c.n).filter fun j => c.meets g bytes fun k => k.readsB j
  (((run 0 c.m).map fun i => ((run 0 c.n).filter fun j => rows.contains i || cols.contains j).map fun j => 128 * i + j)).flatten

/-- The unfold parameters a queued position meets: those of the last MXCFG before it on its tile. -/
def Segment.unfoldFor (g : Segment) (q : List MatPos) (e : MatPos) : Unfold :=
  match (q.filterMap fun k => if k.sameTile e && decide (k.pos < e.pos) then
      (match k.op with
      | .config ws => some ws
      | _ => none) else none).getLast? with
  | some ws => Unfold.ofWords ws
  | none => g.unfold e.tile

/-- A queued position after a write of bytes of its segment. -/
def MatPos.touch (g : Segment) (q : List MatPos) (bytes : List Nat) (e : MatPos) : MatPos :=
  match e.op with
  | .loop c => { e with touched := e.touched ++ (c.spoils g (g.unfoldFor q e) bytes).filter fun k => !e.touched.contains k }
  | _ => e

/-- The elements of a completed loop that it computed from bytes overwritten meanwhile hold undefined values (06 Table 6-3). -/
def State.spoilTile (s : State) (e : MatPos) : State :=
  match s.segment e.team e.seg with
  | none => s
  | some g =>
    let new := (number s.free e.touched).map fun x => (tileKey e.tile (x.2 / 128) (x.2 % 128), Config.freeWord x.1)
    { s.setSegment e.team e.seg { g with tiles := SMap.putAll 0 g.tiles new } with free := s.free + e.touched.length }

/-- A loop whose current step's operand lines are full. -/
def State.loopReady (s : State) (e : MatPos) : Option (LoopCtl × Segment) :=
  match e.op, s.segment e.team e.seg with
  | .loop c, some g => if c.fetched g (g.unfold e.tile) then some (c, g) else none
  | _, _ => none

/-- MATRIX_K_STEP (06 R204): one step of a loop is folded; the last one completes the position, its elements computed from
overwritten bytes undefined (06 Table 6-3). -/
def execMatrixKStep (core : Nat) (s : State) : Out :=
  match s.matNext core (fun e => (s.loopReady e).isSome) with
  | none => .next s
  | some e =>
    match s.loopReady e with
    | none => .next s
    | some (c, g) =>
      let s1 := s.setSegment e.team e.seg (c.fold g (g.unfold e.tile) e.tile)
      if c.left ≤ 1 then .next ((if e.touched.isEmpty then s1 else s1.spoilTile e).completeMat core e)
      else
        let x := s1.core core
        let stepped : MatPos := { e with op := .loop c.advance }
        .next (s1.setCore core { x with matq := x.matq.map fun k => if k.pos = e.pos then stepped else k })

/-- TILE_CONFIG_APPLY (06 R199). -/
def execTileConfigApply (core : Nat) (s : State) : Out :=
  let isCfg := fun (e : MatPos) => match e.op with
    | .config _ => true
    | _ => false
  match s.matNext core isCfg with
  | some e =>
    match e.op, s.segment e.team e.seg with
    | .config ws, some g =>
      .next ((s.setSegment e.team e.seg { g with cfg := SMap.insert g.cfg e.tile ⟨true, ws⟩ }).completeMat core e)
    | _, _ => .next s
  | none => .next s

/-- TILE_ZERO_APPLY (06 R207). -/
def execTileZeroApply (core : Nat) (s : State) : Out :=
  match s.matNext core (fun e => e.op == .zero) with
  | some e =>
    match s.segment e.team e.seg with
    | some g => .next ((s.setSegment e.team e.seg (g.clearTile e.tile)).completeMat core e)
    | none => .next s
  | none => .next s

/-- The register writes of an MXRD (06 R208). -/
def tileReads (g : Segment) (tile vd row q cnt : Nat) (lanes : Word) : List ((Nat × Nat) × Word) :=
  ((run 0 cnt).map fun t => (lanesOf lanes).map fun l => ((vd + t, l), g.element tile (row + t) (32 * q + l))).flatten

/-- Hand an MXRD's elements to its group: they stand in the registers once a BWAIT covers the position. -/
def State.handRead (s : State) (uid pos : Nat) (xs : List ((Nat × Nat) × Word)) : State :=
  let gs : SMap Group := s.groups.map fun e =>
    if e.2.uid = uid then
      (e.1, { e.2 with mxrd := e.2.mxrd.map fun r => if r.pos = pos then { r with vals := some xs } else r })
    else e
  { s with groups := gs }

/-- TILE_READ_DELIVER (06 R208). -/
def execTileReadDeliver (core : Nat) (s : State) : Out :=
  let isRead := fun (e : MatPos) => match e.op with
    | .read _ _ _ _ _ => true
    | _ => false
  match s.matNext core isRead with
  | some e =>
    match e.op, s.segment e.team e.seg with
    | .read vd row q cnt ls, some g =>
      .next ((s.handRead e.uid e.pos (tileReads g e.tile vd row q cnt ls)).completeMat core e)
    | _, _ => .next s
  | none => .next s

/-! ## Epilogues (06 R210, R211) -/

/-- The epilogue's output code of an accumulator element (06 R210). -/
def EpiCtl.code (c : EpiCtl) (x : Word) : Nat :=
  let scale := (F32.mul .rn c.sca.toNat c.scb.toNat).1
  let v := (F32.mul .rn x.toNat scale).1
  match c.otype with
  | 0 => v
  | 1 => (floatToFloat F32 BF16 .rn v).1
  | 2 => (floatToFloat F32 F16 .rn v).1
  | _ => ((NFmt.ofWord c.fmt).encode .rn v).1

/-- Codes side by side as a number. -/
def packCodes (w : Nat) : List Nat → Nat
  | [] => 0
  | c :: r => c % 2 ^ w + 2 ^ w * packCodes w r

/-- The stored bytes of row `i`. -/
def EpiCtl.row (c : EpiCtl) (g : Segment) (tile i : Nat) : List Byte :=
  toBytes (rowBytes c.n c.elemBits) (packCodes c.elemBits ((run 0 c.n).map fun j => c.code (g.element tile i j)))

/-- Bytes a list is written in: elements, or single bytes for 4-bit containers. -/
def cutEvery (n : Nat) : Nat → Nat → List Byte → List (Nat × List Byte)
  | 0, _, _ => []
  | _, _, [] => []
  | fuel + 1, a, bs => (a, bs.take n) :: cutEvery n fuel (a + n) (bs.drop n)

/-- DEST 0: rows go to the scratchpad. -/
def EpiCtl.toSpad (c : EpiCtl) (g : Segment) (tile : Nat) : Segment :=
  (run 0 c.m).foldl (fun k i => k.write (c.dlo + i * c.stride) (c.row g tile i)) g

/-- DEST 1: each element a plain store, or a fold at its home in row-major order; DLO has no alignment, so an element may lie in two
sectors. -/
def EpiCtl.toMemory (c : EpiCtl) (s : State) (core asid : Nat) (g : Segment) (tile : Nat) : State :=
  (run 0 c.m).foldl (fun st i =>
    let w := max 1 (c.elemBits / 8)
    (cutEvery w 1024 (c.base + i * c.stride) (c.row g tile i)).foldl (fun st1 e =>
      if c.red = 0 then st1.storeAll (st1.cacheOf core) (cutBytes (st1.tagPieces asid e.1 e.2.length) e.2)
      else st1.foldAt asid e.1 (UOp.ofCode c.red) e.2) st) s

/-- The contribution of a DEST 2 epilogue (06 R211, 11 R345). -/
def EpiCtl.contribution (c : EpiCtl) (s : State) (e : MatPos) (ctx : Nat) (g : Segment) : Contribution :=
  let p := c.peer.toNat
  { cid := bits p 80 16, rank := bits p 96 8, seq := c.seq, tag := (s.context ctx).dctag.toNat, srcDev := s.dev,
    dstDev := bits p 64 8, base := bits p 0 56, dlo := c.dlo, dhi := c.dhi, stride := c.stride, red := c.red,
    rows := (run 0 c.m).map fun i => c.row g e.tile i, rowLen := rowBytes c.n c.elemBits, uid := e.uid, pos := e.pos,
    ctx := ctx }

/-- The collective-delivery machine check of a contribution at a context (11 R347). -/
def Contribution.check (c : Contribution) (answer : Nat) : Check :=
  ⟨5, answer, 0xFFFF, c.dstDev, 0, c.cid, c.rank, c.seq⟩

/-- Put a contribution on its way. -/
def State.postContribution (s : State) (c : Contribution) : State :=
  s.sendTo (c.cid % 2) c.dstDev c.tag (.contrib c)

/-- Send a contribution; one whose destination is unreachable completes with a machine check (11 R347). -/
def State.sendContribution (s : State) (c : Contribution) : State :=
  if c.dstDev ≠ s.dev ∧ !(s.remote c.dstDev).reachable then (s.donePos c.uid c.pos).logCheck c.ctx (c.check 4)
  else { s.postContribution c with sent := s.sent ++ [c] }

/-- The context of a team. -/
def State.teamCtx (s : State) (t : Nat) : Nat :=
  match s.team t with
  | some x => x.ctx
  | none => 0

/-- The epilogue's writes. -/
def State.runEpilogue (s : State) (core : Nat) (e : MatPos) (c : EpiCtl) (g : Segment) : State :=
  let ctx := s.teamCtx e.team
  let out := match c.dest with
    | 0 => s.setSegment e.team e.seg (c.toSpad g e.tile)
    | 1 => c.toMemory s core (s.context ctx).asid.toNat g e.tile
    | _ => s
  let clear := match out.segment e.team e.seg with
    | some k => if c.clear then out.setSegment e.team e.seg (k.clearTile e.tile) else out
    | none => out
  if c.dest = 2 then (clear.unqueueMat core e.pos).sendContribution (c.contribution s e ctx g)
  else clear.completeMat core e

/-- EPILOGUE_RUN (06 R210, R211); no contribution leaves once the collective engine has stopped for the team (10 Table 10-6). -/
def execEpilogueRun (core : Nat) (s : State) : Out :=
  let isEpi := fun (e : MatPos) => match e.op with
    | .epilogue c => !(c.dest == 2 && s.engineStopped e.team clsCollective)
    | _ => false
  match s.matNext core isEpi with
  | some e =>
    match e.op, s.segment e.team e.seg with
    | .epilogue c, some g => .next (s.runEpilogue core e c g)
    | _, _ => .next s
  | none => .next s

end Sys2Proof.Machine
end

