-- ==== Sys2Proof/Machine/Copy.lean ====
section
/-! DEFINITION. Tile copies (06 R216 to R224): the shape record, its checks, and what the copy streamer does. -/

namespace Sys2Proof.Machine

/-- Read a shape record (06 Table 6-10). -/
def Shape.ofBytes (bs : List Byte) : Shape :=
  { base := fieldAt bs 0 8, fmt := BitVec.ofNat 32 (fieldAt bs 8 4), etype := fieldAt bs 12 1, rank := fieldAt bs 13 1,
    circ := fieldAt bs 14 1, grid := fieldAt bs 15 1, ext := (run 0 5).map fun d => fieldAt bs (16 + 4 * d) 4,
    str := (run 0 4).map fun d => signed 64 (fieldAt bs (40 + 8 * d) 8), repl := BitVec.ofNat 256 (fieldAt bs 72 32),
    red := fieldAt bs 104 1 }

/-- Bits of an element (06 Table 6-10). -/
def Shape.ebits (h : Shape) : Nat :=
  match h.etype with
  | 0 => (NFmt.ofWord h.fmt).container
  | 1 => 8
  | 2 => 16
  | _ => 32

/-- Bytes in which elements move: a pair of 4-bit containers moves as one byte (06 R218). -/
def Shape.unit (h : Shape) : Nat := max 1 (h.ebits / 8)

/-- Extents of a box (06 Table 6-11). -/
def boxOf (ws : List Word) : List Nat :=
  let w := fun i => (ws.getD i 0).toNat
  [bits (w 5) 0 16, bits (w 5) 16 16, bits (w 6) 0 16, bits (w 6) 16 16, bits (w 7) 0 16]

/-- Origin of a box. -/
def orgOf (ws : List Word) : List Int := (run 0 5).map fun d => signed 32 (ws.getD d 0).toNat

/-- The copy that a captured record, layout word `ls` and box registers `xs` describe; 4-bit elements count in pairs. -/
def copyOf (g : Group) (out : Bool) (h : Shape) (ls xs : List Word) (pos : Nat) : CopyJob :=
  let w := fun i => (ls.getD i 0).toNat
  let two := h.ebits == 4
  let half := fun (l : List Nat) => match l with
    | x :: r => (if two then x / 2 else x) :: r
    | [] => []
  let halfI := fun (l : List Int) => match l with
    | x :: r => (if two then x / 2 else x) :: r
    | [] => []
  { pos := pos, uid := g.uid, team := g.team, seg := g.seg, ctx := g.ctx, out := out, shape := { h with ext := half h.ext },
    perm := bits (w 0) 18 4, sbase := bits (w 0) 0 18, istride := bits (w 1) 0 16, mstride := bits (w 1) 16 16,
    ostride := w 2, org := halfI (orgOf xs), box := half (boxOf xs), lines := [], next := 0, failed := [], touched := [] }

/-- The copy-shape conditions of 06 R217 on a record's bytes, the layout word and the box registers. -/
def goodShape (out : Bool) (bs : List Byte) (ls xs : List Word) : Bool :=
  let h := Shape.ofBytes bs
  let box := boxOf xs
  let org := orgOf xs
  fieldAt bs 36 4 == 0 && fieldAt bs 105 23 == 0 && bits h.circ 5 3 == 0
  && bits (ls.getD 0 (0 : Word)).toNat 22 10 == 0 && bits (xs.getD 7 (0 : Word)).toNat 16 16 == 0
  && decide (1 ≤ h.rank) && decide (h.rank ≤ 5) && decide (h.etype ≤ 3) && (h.etype == 0 || h.fmt == 0)
  && ((run 0 5).all fun d =>
    if d < h.rank then decide (1 ≤ h.ext.getD d 0) && decide (h.ext.getD d 0 < 2 ^ 31) && decide (1 ≤ box.getD d 0)
    else h.ext.getD d 0 == 1 && org.getD d 0 == 0 && box.getD d 0 == 1 && !bit h.circ d)
  && decide (bits (ls.getD 0 (0 : Word)).toNat 18 4 ≤ 5) && decide (h.red ≤ 7)
  && (out || h.red == 0) && (h.red == 0 || h.etype == 3) && (out || h.repl == 0) && (h.repl == 0 || h.grid == 0)
  && (h.ebits != 4 || (org.getD 0 0 % 2 == 0 && box.getD 0 0 % 2 == 0 && h.ext.getD 0 0 % 2 == 0))

/-! ## The box -/

/-- Row `n` of a box: its indices i1..i4, i1 fastest. -/
def CopyJob.rowIndex (j : CopyJob) (n : Nat) : List Nat :=
  let b := fun d => j.box.getD d 1
  [n % b 1, n / b 1 % b 2, n / (b 1 * b 2) % b 3, n / (b 1 * b 2 * b 3)]

/-- Rows of a box. -/
def CopyJob.rows (j : CopyJob) : Nat := j.box.getD 1 1 * j.box.getD 2 1 * j.box.getD 3 1 * j.box.getD 4 1

/-- Scratchpad address, before permutation, of an element (06 R218). -/
def CopyJob.spadAt (j : CopyJob) (i0 : Nat) (r : List Nat) : Nat :=
  let i := fun d => r.getD (d - 1) 0
  j.sbase + i0 * j.shape.unit + i 1 * j.istride + i 2 * j.mstride + (i 3 + j.box.getD 3 1 * i 4) * j.ostride

/-- The coordinate in a dimension, or none when it is out of range (06 R218). -/
def CopyJob.coord (j : CopyJob) (d i : Nat) : Option Nat :=
  let c := j.org.getD d 0 + (i : Int)
  let e := j.shape.ext.getD d 1
  if bit j.shape.circ d then some (c % (e : Int)).toNat
  else if c < 0 ∨ (e : Int) ≤ c then none
  else some c.toNat

/-- Memory address of an in-range element (06 R218). -/
def CopyJob.memAt (j : CopyJob) (i0 : Nat) (r : List Nat) : Option Int :=
  ((run 0 5).zip (i0 :: r)).foldl (fun acc e =>
    match acc, j.coord e.1 e.2 with
    | some a, some c =>
      some (a + (c : Int) * (if e.1 = 0 then (j.shape.unit : Int) else if e.1 < j.shape.rank then j.shape.str.getD (e.1 - 1) 0 else 0))
    | _, _ => none) (some (j.shape.base : Int))

/-- The elements of a row: scratchpad address and memory address, none for an element out of range. -/
def CopyJob.row (j : CopyJob) (n : Nat) : List (Nat × Option Int) :=
  (run 0 (j.box.getD 0 1)).map fun i => (j.spadAt i (j.rowIndex n), j.memAt i (j.rowIndex n))

/-- Every element of the box, i0 fastest. -/
def CopyJob.elements (j : CopyJob) : List (Nat × Option Int) := ((run 0 j.rows).map j.row).flatten

/-- One past the last scratchpad byte of the box. -/
def CopyJob.spadEnd (j : CopyJob) : Nat :=
  j.spadAt (j.box.getD 0 1 - 1) ((run 1 4).map fun d => j.box.getD d 1 - 1) + j.shape.unit

/-- The scratchpad lines the box touches, ascending. -/
def CopyJob.spadLines (j : CopyJob) : List Nat :=
  SMap.keys ((j.elements.map fun e => (run e.1 j.shape.unit).map fun a => a / 128).flatten.foldl
    (fun (m : SMap Unit) l => SMap.insert m l ()) [])

/-- The devices a copy writes (06 R218, R224). -/
def CopyJob.devices (j : CopyJob) : List Nat :=
  if j.shape.repl = 0 then [j.shape.grid] else (run 0 256).filter fun d => j.shape.repl.getLsbD d

/-- The 64 KiB pages the in-range elements touch on the issuing device, ascending (06 R219). -/
def CopyJob.pages (j : CopyJob) : List Nat :=
  SMap.keys ((j.elements.map fun e => match e.2 with
    | some a => (pagesOf (wrap 64 a) j.shape.unit)
    | none => []).flatten.foldl (fun (m : SMap Unit) p => SMap.insert m p ()) [])

/-! ## Issue -/

/-- Issue of TCOPY: the record's alignment, then Translation (06 R219). -/
def Ctx.copy (c : Ctx) (out : Bool) (x r l : Nat) : Out :=
  let a := c.g.sr64 r
  if a % 128 ≠ 0 then c.trap { Trap.of cAlign with va := a }
  else if out then c.publish.pend [(0, a)] (.tcopy out l x)
  else c.pend [(0, a)] (.tcopy out l x)

/-- TCOPY.IN (06 R216 to R220). -/
def execTcopyIn (x r l : BitVec 8) (s : State) : Out :=
  issue (.tcopyIn x r l) s fun c => c.copy false x.toNat r.toNat l.toNat

/-- TCOPY.OUT (06 R216 to R221). -/
def execTcopyOut (x r l : BitVec 8) (s : State) : Out :=
  issue (.tcopyOut x r l) s fun c => c.copy true x.toNat r.toNat l.toNat

/-- The issue-time causes after the record's read, in the order of 06 R219, where 10 R309 puts resource-overrun before two of them
(DEDUCED, log 121). FAULTVA is the page of the lowest failing address; a BASE above 2^56 - 1 whose elements touch no failing page gives
its own (log 100). -/
def State.copyTrap (s : State) (core : Nat) (g : Group) (seg : Segment) (size : Nat) (bs : List Byte) (ls xs : List Word) (j : CopyJob) :
    Option Trap :=
  let h := Shape.ofBytes bs
  let bound := !j.out && goodShape j.out bs ls xs && j.spadLines.any fun l => SMap.has seg.bound l
  if !goodShape j.out bs ls xs || bound then some (Trap.of cShape)
  else if h.etype = 0 ∧ !validFormat h.fmt then some (Trap.of cFormat)
  else if size < j.spadEnd then some (Trap.of cResource)
  else if h.base % h.unit ≠ 0 ∨ h.str.any (fun x => x % (h.unit : Int) != 0) then some (Trap.of cAlign)
  else
    let fails := s.firstFail core (s.asidOf g) (if j.out then needW else needR) j.pages
    if 2 ^ 56 ≤ h.base then
      some { Trap.of cTranslation with
        detail := XKind.range.code, va := match fails with
          | some (_, _, va) => va
          | none => h.base / 65536 * 65536 }
    else if j.devices.contains s.dev then
      match fails with
      | some (_, k, va) => some { Trap.of cTranslation with detail := k.code, va := va }
      | none => none
    else none

/-- Pending-copy count at which a line holds a further copy (06 R220). -/
def pendLimit : Nat := 16

/-- TCOPY once its record's page is checked: the record is captured and checked, the lines of an IN box are emptied and
counted, and the copy is queued (06 R217 to R220). -/
def State.commitCopy (s : State) (key : Nat) (pd : Pending) (out : Bool) (l x : Nat) (ck : Checked) : State :=
  match s.group key, ck.pass with
  | some g0, (_, t) :: _ =>
    let (s1, bs) := s.loadOwn key g0 t.tag 128
    match s1.group key, s1.segment g0.team g0.seg with
    | some g, some seg =>
      let ls := g.block l 3
      let xs := g.block x 8
      let j0 := copyOf g out (Shape.ofBytes bs) ls xs s1.nextPos
      let size := match s1.team g.team with
        | some y => y.scratch
        | none => 0
      match s1.copyTrap (key / 128) g seg size bs ls xs j0 with
      | some trap => (s1.setGroup key { g with status := .running, pending := none }).raiseTrap key pd.slot trap
      | none =>
        let lines := if out then [] else j0.spadLines
        if lines.any fun k => decide (pendLimit ≤ SMap.getD seg.pend k 0) then s1.blockAccess key pd g
        else
          let seg1 := lines.foldl (fun (k : Segment) n =>
            { (k.setFull n false) with pend := SMap.insert k.pend n (SMap.getD k.pend n 0 + 1) }) seg
          let c := s1.core (key / 128)
          let job : CopyJob := { j0 with lines := lines }
          let taken : Position := ⟨s1.nextPos, 1, none⟩
          let s2 : State := { s1 with nextPos := s1.nextPos + 1 }
          ((s2.setSegment g.team g.seg seg1).setCore (key / 128) { c with copies := c.copies ++ [job] }).resume key pd.slot
            { g with positions := g.positions ++ [taken] }
    | _, _ => s1
  | some g, [] => s.finishAccess key pd.slot g true ck.fail
  | none, _ => s

/-! ## Scratchpad writes that meet the engines (06 Table 6-3) -/

/-- A copy after a write of bytes of its segment: an outward one computes undefined bytes from those it reads. -/
def CopyJob.touch (bytes : List Nat) (j : CopyJob) : CopyJob :=
  if j.out then
    { j with touched := j.touched ++ bytes.filter fun a =>
        !j.touched.contains a && j.elements.any fun e => (run e.1 j.shape.unit).any fun x => permute j.perm x == a }
  else j

/-- A write of scratchpad bytes by STS or by a TCOPY.IN meets the incomplete MXLOOPs and TCOPY.OUTs of the segment (06 Table
6-3). -/
def State.touch (s : State) (team seg : Nat) (bytes : List Nat) : State :=
  match s.segment team seg with
  | none => s
  | some g =>
    let c := s.core g.core
    let mine := fun (t k : Nat) => t == team && k == seg
    if c.matq.any (fun e => mine e.team e.seg) || c.copies.any (fun j => mine j.team j.seg) then
      s.setCore g.core { c with
        matq := c.matq.map fun e => if mine e.team e.seg then e.touch g c.matq bytes else e
        copies := c.copies.map fun j => if mine j.team j.seg then j.touch bytes else j }
    else s

/-! ## The copy streamer -/

/-- The first copy of a core that may take a step in a direction. -/
def State.copyNext (s : State) (core : Nat) (out : Bool) : Option CopyJob :=
  (s.core core).copies.find? fun j => j.out == out && !s.engineStopped j.team clsCopy

/-- Replace a copy, or take it away when none is given. -/
def State.setCopy (s : State) (core pos : Nat) (j : Option CopyJob) : State :=
  let x := s.core core
  s.setCore core { x with copies := (x.copies.map fun k =>
    if k.pos = pos then j.toList else [k]).flatten }

/-- Does a copy reach the memory of a device through this device's caches: its own, or a page of that device which the context
maps here, whose lines L1s of this device may hold (08 R250, R261)? -/
def State.throughCache (s : State) (j : CopyJob) (dev va : Nat) : Bool :=
  dev == s.dev || match s.keyPlace (s.tagFor (s.context j.ctx).asid.toNat va / 32) with
    | some (.remote d _) => d == dev
    | _ => false

/-- Read one element's bytes for the issuing group: a plain load, or another device's memory (06 R218, R220). -/
def State.copyLoad (s : State) (core : Nat) (j : CopyJob) (a : Int) : State × List Byte :=
  let asid := (s.context j.ctx).asid.toNat
  let va := wrap 64 a
  if s.throughCache j j.shape.grid va then s.loadRun (s.cacheOf core) (s.tagFor asid va) j.shape.unit
  else (s.newPacket (core / 128) j.shape.grid 0 (lineSpread asid va), s.readPlace asid (.remote j.shape.grid va) j.shape.unit)

/-- The scratchpad bytes of an element of a copy, permuted (06 R222). -/
def CopyJob.spadBytes (j : CopyJob) (e : Nat × Option Int) : List Nat := (run e.1 j.shape.unit).map (permute j.perm)

/-- The elements of an inward copy that begin in a line; their bytes may reach into the next. -/
def CopyJob.starting (j : CopyJob) (line : Nat) : List (Nat × Option Int) := j.elements.filter fun e => e.1 / 128 == line

/-- The elements that begin in a line are read once each and written; those that reach into the line began in one that completed
before (06 R220). -/
def State.copyLine (s : State) (core : Nat) (j : CopyJob) (line : Nat) : State :=
  (j.starting line).foldl (fun (st : State) e =>
    let (st1, bs) := match e.2 with
      | some a => st.copyLoad core j a
      | none => (st, (run 0 j.shape.unit).map fun _ => (0 : Byte))
    match st1.segment j.team j.seg with
    | some g => st1.setSegment j.team j.seg (((j.spadBytes e).zip bs).foldl (fun k w => k.write w.1 [w.2]) g)
    | none => st1) s

/-- The pending count of a line falls; the line is full at 0. -/
def Segment.countDown (g : Segment) (line : Nat) : Segment :=
  let n := SMap.getD g.pend line 0 - 1
  if n = 0 then { (g.setFull line true) with pend := SMap.erase g.pend line }
  else { g with pend := SMap.insert g.pend line n }

/-- COPY_IN_LINE (06 R220): the next line of the core's first inward copy. -/
def execCopyInLine (core : Nat) (s : State) : Out :=
  match s.copyNext core false with
  | none => .next s
  | some j =>
    match j.lines with
    | [] => .next ((s.setCopy core j.pos none).donePos j.uid j.pos)
    | line :: rest =>
      let s1 := (s.copyLine core j line).touch j.team j.seg ((j.starting line).map j.spadBytes).flatten
      let s2 := match s1.segment j.team j.seg with
        | some g => s1.setSegment j.team j.seg (g.countDown line)
        | none => s1
      if rest.isEmpty then .next ((s2.setCopy core j.pos none).donePos j.uid j.pos)
      else .next (s2.setCopy core j.pos (some { j with lines := rest }))

/-- The fold of a copy's RED code (06 Table 6-10). -/
def copyOp (red : Nat) : UOp :=
  match red with
  | 1 => .addS32
  | 2 => .addF32
  | 3 => .minS32
  | 4 => .maxS32
  | 5 => .minF32
  | 6 => .maxF32
  | _ => .orB32

/-- Is a replica that of a copy on a device? -/
def Replica.isOf (r : Replica) (pos dev : Nat) : Bool := r.pos == pos && r.dev == dev

/-- A copy writes an element on another device: what it finds there is kept, in case the device refuses it (06 R224). -/
def State.noteReplica (s : State) (j : CopyJob) (dev va : Nat) (old : List Byte) : State :=
  let keep := fun (r : Replica) => if SMap.has r.wrote va then r else { r with wrote := SMap.insert r.wrote va old }
  if s.replicas.any fun r => r.isOf j.pos dev then
    { s with replicas := s.replicas.map fun r => if r.isOf j.pos dev then keep r else r }
  else { s with replicas := s.replicas ++ [⟨j.pos, j.ctx, dev, false, [(va, old)]⟩] }

/-- Write or fold one element on one device (06 R221, R224). -/
def State.copyStore (s : State) (core : Nat) (j : CopyJob) (red dev va : Nat) (bs : List Byte) : State :=
  let asid := (s.context j.ctx).asid.toNat
  let op := copyOp red
  if s.throughCache j dev va then
    let t := s.tagFor asid va
    if red = 0 then s.storeAll (s.cacheOf core) [(t, bs)]
    else s.performFar (.upd op t [BitVec.ofNat 32 (ofBytes bs)])
  else
    let tag := (s.context j.ctx).dctag.toNat
    let old := s.readPlace asid (.remote dev va) j.shape.unit
    ((s.noteReplica j dev va old).sendTo (core / 128) dev tag (.element s.dev tag j.pos va red bs)).writePlace asid (.remote dev va)
      (if red = 0 then bs else toBytes 4 (op.element (ofBytes old) (ofBytes bs)))

/-- Can a copy of the context reach a device: is it this one, or a reachable member of the device set (06 R224, 11 R337)? -/
def State.copyReaches (s : State) (ctx dev : Nat) : Bool :=
  dev == s.dev || ((s.remote dev).reachable && (s.context ctx).devset.getLsbD dev)

/-- The memory line of an element. -/
def elementLine (e : Nat × Option Int) : Option Nat := e.2.map fun a => wrap 64 a / 128

/-- The next elements of an outward copy that lie in one 128-byte line, in linear order; those out of range go along (06 R221,
R223). -/
def CopyJob.lineRun (j : CopyJob) : List (Nat × Option Int) :=
  let rest := j.elements.drop j.next
  match rest.findSome? elementLine with
  | some l => rest.takeWhile fun e => e.2.isNone || elementLine e == some l
  | none => rest

/-- Is an element computed from bytes that were overwritten before the copy completed (06 Table 6-3)? -/
def CopyJob.spoiled (j : CopyJob) (e : Nat × Option Int) : Bool := (j.spadBytes e).any j.touched.contains

/-- Deliver elements to a device. -/
def State.copyRun (s : State) (core : Nat) (j : CopyJob) (es : List (Nat × Option Int)) (dev : Nat) : State :=
  es.foldl (fun (st : State) e =>
    match e.2, st.segment j.team j.seg with
    | some a, some g => st.copyStore core j j.shape.red dev (wrap 64 a) ((j.spadBytes e).map fun x => SMap.getD g.spad x 0)
    | _, _ => st) s

/-- The address of an element in range. -/
def elementAddr (e : Nat × Option Int) : Option Nat := e.2.map (wrap 64)

/-- The memory elements that end with an undefined value: those whose last element, in linear order, is computed from overwritten bytes;
with a fold, those into which any such element goes (06 R196, R221). -/
def CopyJob.spoiledAddrs (j : CopyJob) : List Nat :=
  ((j.elements.filter j.spoiled).filterMap elementAddr).eraseDups.filter fun a =>
    j.shape.red != 0 || (j.elements.reverse.find? fun e => elementAddr e == some a).any j.spoiled

/-- The elements computed from overwritten bytes hold undefined values; they were written, with their pushes, before (06 Table 6-3; 00
R8). -/
def State.spoilCopy (s : State) (j : CopyJob) (dev : Nat) : State :=
  j.spoiledAddrs.foldl (fun (st : State) a =>
    let asid := (st.context j.ctx).asid.toNat
    let bs := (run st.free j.shape.unit).map Config.freeByte
    { (if st.throughCache j dev a then st.homeStore (st.tagFor asid a) bs
      else st.writePlace asid (.remote dev a) bs) with free := st.free + j.shape.unit }) s

/-- Has a device reported a page fault of a copy (06 R224)? -/
def State.copyFaulted (s : State) (pos dev : Nat) : Bool := s.replicas.any fun r => r.isOf pos dev && r.failed

/-- Another device reports that it could not write an element of a copy: the write is dropped there, and the first report of a device is
logged, also one that comes when the copy has ended (06 R224). -/
def State.takeCopyFault (s : State) (pos dev va : Nat) : State :=
  match s.replicas.find? fun r => r.isOf pos dev with
  | none => s
  | some r =>
    let s1 : State := { s with replicas := s.replicas.map fun r => if r.isOf pos dev then { r with failed := true } else r }
    let s2 := match SMap.find r.wrote va with
      | some old => s1.writePlace (s1.context r.ctx).asid.toNat (.remote dev va) old
      | none => s1
    if r.failed then s2 else s2.logCheck r.ctx (Check.of 4 dev 0)

/-- Devices that a copy cannot reach now and could before (06 R224). -/
def State.newFailures (s : State) (j : CopyJob) : List Nat :=
  j.devices.filter fun d => !j.failed.contains d && !s.copyReaches j.ctx d

/-- COPY_OUT_ELEMENTS (06 R221, R223, R224): the next elements of one memory line go to every device of the copy; a device that
cannot be reached is reported once, and like one that has reported a page fault gets no more. -/
def execCopyOutElements (core : Nat) (s : State) : Out :=
  match s.copyNext core true with
  | none => .next s
  | some j =>
    let bad := s.newFailures j
    let es := j.lineRun
    let j1 := { j with next := j.next + es.length, failed := j.failed ++ bad }
    let live := j.devices.filter fun d => !j1.failed.contains d && !s.copyFaulted j.pos d
    let s1 := bad.foldl (fun (st : State) d => st.logCheck j.ctx (Check.of 4 d 0)) s
    let s2 := live.foldl (fun st d => st.copyRun core j es d) s1
    if j.elements.length ≤ j1.next then
      .next (((live.foldl (fun st d => st.spoilCopy j d) s2).setCopy core j.pos none).donePos j.uid j.pos)
    else .next (s2.setCopy core j.pos (some j1))

end Sys2Proof.Machine
end

