-- ==== Sys2Proof/Machine/CrossLane.lean ====
section
/-! DEFINITION. Cross-lane instructions: shuffles, reductions, scans, transfers, votes
(04 R128, R137 to R139). -/

namespace Sys2Proof.Machine

/-- A shuffle: the source lane's value where it is an active lane, else the lane's own (04 R137). -/
def Ctx.shuffle (c : Ctx) (b a d : Nat) (f : Int → Int → Int) : Out :=
  c.write d (c.map fun l =>
    let j := f l ((c.num b l % 32 : Nat) : Int)
    if 0 ≤ j ∧ j < 32 ∧ lane c.act j.toNat then c.g.src a j.toNat else c.g.src a l) 0

/-- SHFL.IDX (04 R137). -/
def execShflIdx (b a d : BitVec 7) (s : State) : Out :=
  issue (.shflIdx b a d) s fun c => c.shuffle b.toNat a.toNat d.toNat fun _ n => n

/-- SHFL.UP (04 R137). -/
def execShflUp (b a d : BitVec 7) (s : State) : Out :=
  issue (.shflUp b a d) s fun c => c.shuffle b.toNat a.toNat d.toNat fun l n => l - n

/-- SHFL.DN (04 R137). -/
def execShflDn (b a d : BitVec 7) (s : State) : Out :=
  issue (.shflDn b a d) s fun c => c.shuffle b.toNat a.toNat d.toNat fun l n => l + n

/-- SHFL.XOR (04 R137). -/
def execShflXor (b a d : BitVec 7) (s : State) : Out :=
  issue (.shflXor b a d) s fun c => c.shuffle b.toNat a.toNat d.toNat fun l n => ((l.toNat ^^^ n.toNat : Nat) : Int)

/-- A cross-lane operator on words, with its flags (04 Table 4-6). -/
def crossOp (o a b : Nat) : Nat × Word :=
  match o with
  | 0 => ((a + b) % 2 ^ 32, 0)
  | 1 => (signedMin a b, 0)
  | 2 => (min a b, 0)
  | 3 => (signedMax a b, 0)
  | 4 => (max a b, 0)
  | 5 => ((BitVec.ofNat 32 a &&& BitVec.ofNat 32 b).toNat, 0)
  | 6 => ((BitVec.ofNat 32 a ||| BitVec.ofNat 32 b).toNat, 0)
  | 7 => ((BitVec.ofNat 32 a ^^^ BitVec.ofNat 32 b).toNat, 0)
  | 8 => F32.add .rn a b
  | 9 => f32MinMax false a b
  | _ => f32MinMax true a b

/-- Identity of a cross-lane operator (04 Table 4-6). -/
def crossIdentity (o : Nat) : Nat :=
  match o with
  | 1 => 0x7FFFFFFF
  | 2 => 0xFFFFFFFF
  | 3 => 0x80000000
  | 5 => 0xFFFFFFFF
  | 9 => 0x7F800000
  | 10 => 0xFF800000
  | _ => 0

/-- The prefix folds f(0), f(1), … of values in lane order, with the flags of all steps (04 R138). The fold of one value takes no
step of arithmetic, so a NaN there keeps its bits and sets no flag (DESIGN CHOICE, log 108). -/
def prefixFolds (o : Nat) : List Nat → List Nat × Word
  | [] => ([], 0)
  | x :: r =>
    let y := r.foldl (fun (acc : List Nat × Nat × Word) v =>
      let t := crossOp o acc.2.1 v
      (acc.1 ++ [t.1], t.1, acc.2.2 ||| t.2)) ([x], x, 0)
    (y.1, y.2.2)

/-- The values of a register in the active lanes, in lane order. -/
def Ctx.column (c : Ctx) (a : Nat) : List Nat := c.lanes.map fun l => c.num a l

/-- REDL (04 R138). -/
def execRedl (o : BitVec 4) (a d : BitVec 7) (s : State) : Out :=
  issue (.redl o a d) s fun c =>
    let f := prefixFolds o.toNat (c.column a.toNat)
    c.write d.toNat (c.map fun _ => BitVec.ofNat 32 (f.1.getLastD 0)) f.2

/-- SCANL.INC (04 R138). -/
def execScanlInc (o : BitVec 4) (a d : BitVec 7) (s : State) : Out :=
  issue (.scanlInc o a d) s fun c =>
    let f := prefixFolds o.toNat (c.column a.toNat)
    c.write d.toNat (c.lanes.zip (f.1.map fun x => BitVec.ofNat 32 x)) f.2

/-- SCANL.EXC (04 R138): the last fold is not delivered, so its step's flags are not either. -/
def execScanlExc (o : BitVec 4) (a d : BitVec 7) (s : State) : Out :=
  issue (.scanlExc o a d) s fun c =>
    let f := prefixFolds o.toNat ((c.column a.toNat).dropLast)
    c.write d.toNat (c.lanes.zip ((crossIdentity o.toNat :: f.1).map fun x => BitVec.ofNat 32 x)) f.2

/-- RDLANE: the lane named by the lowest active lane's vi (04 Table 4-4). -/
def execRdlane (i : BitVec 7) (r : BitVec 8) (a : BitVec 7) (s : State) : Out :=
  issue (.rdlane i r a) s fun c =>
    match c.lanes with
    | [] => c.done c.g
    | l :: _ => c.scalar r.toNat (c.g.src a.toNat (c.num i.toNat l % 32))

/-- VOTE.BALLOT (04 Table 4-4). -/
def execVoteBallot (r : BitVec 8) (n : BitVec 7) (s : State) : Out :=
  issue (.voteBallot r n) s fun c =>
    if c.act = 0 then c.done c.g else c.scalar r.toNat (c.g.pred n.toNat &&& c.act)

/-- ACTMASK (04 Table 4-4). -/
def execActmask (r : BitVec 8) (s : State) : Out :=
  issue (.actmask r) s fun c => if c.act = 0 then c.done c.g else c.scalar r.toNat c.act

/-- MATCH: the mask of active lanes with an equal value (04 Table 4-4). -/
def execMatchLanes (a d : BitVec 7) (s : State) : Out :=
  issue (.matchLanes a d) s fun c =>
    c.write d.toNat (c.map fun l => maskOf fun j => lane c.act j && (c.g.src a.toNat j == c.g.src a.toNat l)) 0

end Sys2Proof.Machine
end

