-- ==== Sys2Proof/Machine/EvCache.lean ====
section
/-! DEFINITION. The coherence protocol's own steps: requests at a home, forwarded reads, invalidates, write-backs, the
collapse tree (09 R275 to R284). An access that needs one of them performs it itself, by the same operations; these events
let each happen earlier, on its own. An event whose condition does not hold changes nothing. -/

namespace Sys2Proof.Machine

/-! ## What waits for a sector -/

/-- The key of the sector of an address. -/
def State.sectorOf (s : State) (asid va : Nat) : Nat := s.tagFor asid va / 32

/-- The keys of the sectors an access in Translation names. -/
def State.pendingKeys (s : State) (g : Group) (pd : Pending) : List Nat :=
  pd.lanes.map fun l => s.sectorOf (s.asidOf g) l.2

/-- Does the operation read memory through the cache? -/
def MemOp.reads : MemOp → Bool
  | .load _ _ => true
  | .loadStrong _ _ _ _ => true
  | .sld _ => true
  | .stld _ => true
  | .waita _ _ _ => true
  | _ => false

/-- Does it update in update-only mode with this operator? -/
def MemOp.updates (o : UOp) : MemOp → Bool
  | .upd c _ => UOp.ofCode c == o
  | _ => false

/-- Does a lane of an outstanding load still have to read the sector? -/
def Load.wants (key : Nat) (x : Load) : Bool :=
  x.lanes.any fun l => l.bytes.isNone && l.addr / 32 == key

/-- Does a queue entry write the sector? -/
def QEntry.wants (key : Nat) : QEntry → Bool
  | .store ws _ _ => ws.any fun w => w.1 / 32 == key
  | .atom _ _ _ ks _ _ => ks.any fun k => k.addr / 32 == key

/-- Does a group's access in Translation satisfy `f` at the sector? -/
def State.pendingAt (s : State) (g : Group) (f : MemOp → Bool) (key : Nat) : Bool :=
  match g.pending with
  | some pd => f pd.op && (s.pendingKeys g pd).contains key
  | none => false

/-- The groups whose core uses a cache. -/
def State.groupsOf (s : State) (n : Nat) : List Group :=
  (s.groups.filter fun e => s.cacheOf (e.1 / 128) == n).map Prod.snd

/-- Does a group on a cache have a read of the sector outstanding? -/
def State.wantsRead (s : State) (n key : Nat) : Bool :=
  (s.groupsOf n).any fun g => g.loads.any (Load.wants key) || s.pendingAt g MemOp.reads key

/-- Does a group on a cache have a write of the sector outstanding that the cache performs? -/
def State.wantsWrite (s : State) (n key : Nat) : Bool :=
  !s.subscribed key && (s.groupsOf n).any fun g => g.queue.any fun e => e.wants key && !s.entryFar e

/-- Is a queue entry an atomic? -/
def QEntry.isAtom : QEntry → Bool
  | .atom _ _ _ _ _ _ => true
  | .store _ _ _ => false

/-- Does a group on a cache have a store of the sector outstanding that the cache performs? An atomic gains its sector only as
it performs, so that no recall comes between (05 R164). -/
def State.wantsStore (s : State) (n key : Nat) : Bool :=
  !s.subscribed key && (s.groupsOf n).any fun g => g.queue.any fun e => e.wants key && !s.entryFar e && !e.isAtom

/-- Does an agent other than the cache have an access outstanding for which `f` holds? -/
def State.wantedElsewhere (s : State) (n : Nat) (f : State → Nat → Bool) : Bool :=
  (s.groups.map fun e => s.cacheOf (e.1 / 128)).any fun m => m != n && f s m

/-- Is a far access to the sector on its way? -/
def State.farWants (s : State) (key : Nat) : Bool :=
  s.net.any fun m => match m with
    | .far _ _ op => op.reach.any fun r => r.1 / 32 == key
    | _ => false

/-! ## The caches of other devices -/

/-- May the die-0 die-level cache of another device take part in a line (09 R270, R277): it is reachable, the line is homed on
this device, and the context's device set names it? -/
def State.sharesLine (s : State) (n : Nat) (t : Xl) : Bool :=
  let listed := match s.ctxOfAsid t.asid with
    | some c => (s.context c).devset.getLsbD (cacheDev n)
    | none => false
  n % 512 == 256 && (s.remote (cacheDev n)).reachable && listed && (t.leaf.host || t.leaf.dev == s.dev)

/-- A request of another device's die-level cache, by tag and address: what it does to a sector it may have, or the refusal. -/
def State.serveAbroad (s : State) (n tag va : Nat) (need : Need) (f : State → Xl → State) : State :=
  match s.lookupAbroad tag va need with
  | .error k => if (s.remote (cacheDev n)).reachable then s.refuseAbroad (cacheDev n) tag va k else s
  | .ok t => if s.sharesLine n t then (f s t).toHolder n 2 (t.tag / 32) else s

/-- Bytes that another device has put into a copy it holds: the model does not hold what its programs compute, so they are free
values (log 106). -/
def State.freeSector (s : State) : State × SectorData :=
  let u := (run 0 8).foldl (fun (u : State × Nat) _ =>
    let f := u.1.fresh
    (f.1, u.2 * 2 ^ 32 + f.2.toNat)) (s, 0)
  (u.1, BitVec.ofNat 256 u.2)

/-- A copy that another device holds takes the bytes its programs put there. -/
def State.foreignBytes (s : State) (n key : Nat) (f : SecState → SecState) : State :=
  match (s.cache n).sector key with
  | some (st, _) =>
    let u := s.freeSector
    (u.1.setCache n ((u.1.cache n).put key (f st) u.2)).syncDir key
  | none => s

/-! ## Requests at the home -/

/-- MISS_REQUEST (09 R275): a read that misses, or an upgrade for a write, that some access waits for; rights come from its translation
(09 R274). Another device's cache, which sends for its programs, names the address space by the domain context tag (11 R337). -/
def execMissRequest (cache asid va : Nat) (write : Bool) (s : State) : Out :=
  let n := s.localCache cache
  let need := if write then needW else needR
  if 512 ≤ n then
    .next (s.serveAbroad n asid va need fun st t =>
      let key := t.tag / 32
      if write then (if st.subscribed key then st else (st.ownSec n key).1.foreignBytes n key fun _ => .m)
      else (st.readSec n key).1)
  else match s.translateBy (some (n / 128)) asid va need with
  | .error _ => .next s
  | .ok t =>
    let key := t.tag / 32
    if write then .next (if s.wantsStore n key then (s.ownSec n key).1 else s)
    else .next (if s.wantsRead n key then (s.readSec n key).1 else s)

/-- Does a cache hold a sector in U with an operator, and no collapse takes it away? -/
def State.holdsU (s : State) (n key : Nat) (o : UOp) : Bool :=
  match (s.cache n).sector key with
  | some (.u k, _) => k == o && (s.collapseRec key).isNone
  | _ => false

/-- U_GRANT_REQUEST (09 R278): a grant that an update waits for, or that another device sends, by domain context tag. -/
def execUGrantRequest (cache asid va : Nat) (op : BitVec 4) (s : State) : Out :=
  let o := UOp.ofCode op.toNat
  let n := s.localCache cache
  let may := fun (st : State) (t : Xl) => !st.holdsU n (t.tag / 32) o && !st.updatesAtHome t.tag
  if 512 ≤ n then
    .next (if op.toNat < 12 then s.serveAbroad n asid va needW fun st t =>
        if may st t then (st.grantU n (t.tag / 32) o).foreignBytes n (t.tag / 32) id else st
      else s)
  else match s.translateBy (some (n / 128)) asid va needW with
  | .error _ => .next s
  | .ok t =>
    .next (if ((s.groupsOf n).any fun g => s.pendingAt g (MemOp.updates o) (t.tag / 32)) && may s t then s.grantU n (t.tag / 32) o else s)

/-- May the `n`-th far access perform: no earlier one of its group is on its way (08 R263)? -/
def overtakesFar (uid n : Nat) (net : List Msg) : Bool :=
  let far := net.filterMap fun m => match m with
    | .far _ u _ => some u
    | _ => none
  (far.take n).contains uid

/-- Is a message a far access? -/
def Msg.isFar : Msg → Bool
  | .far _ _ _ => true
  | _ => false

/-- FAR_ACCESS (05 R162, R167): it performs at its home. -/
def execFarAccess (n : Nat) (s : State) : Out :=
  match takeNth Msg.isFar n s.net with
  | some (.far _ uid op, rest) =>
    if overtakesFar uid n s.net then .next s
    else
      let s1 : State := { s with net := rest }
      .next (s1.performFor uid op).endAll
  | _ => .next s

/-- The home takes the buffered data; the write-back then completes as a clean notice (09 Table 9-4). -/
def State.supply (s : State) (n key : Nat) (d : SectorData) : State :=
  let s1 := s.homeWrite key d
  let c := s1.cache n
  s1.setCache n { c with wbuf := SMap.insert c.wbuf key (d, true) }

/-- The caches that answer for an agent: a die-level cache answers with the L1s it includes (09 R269, R270). -/
def State.answering (s : State) (n key : Nat) (m : Nat) : Bool :=
  m == n || (n / 2 == 128 && (s.includes key (n - 256) m || (n == 256 && m == 257 && s.remoteLine key)))

/-- What the write-back buffer of a cache that answers for an agent still has to supply of a sector, and that cache (09 Table 9-4). -/
def State.owing (s : State) (n key : Nat) : Option (Nat × SectorData) :=
  s.caches.findSome? fun e =>
    if s.answering n key e.1 then match SMap.find e.2.wbuf key with
      | some (d, false) => some (e.1, d)
      | _ => none
    else none

/-- Does a home on another device send to this device for a line, whose accesses are not in the model: does the cache stand for this
device there (09 R270)? -/
def State.fromAbroad (s : State) (n key : Nat) : Bool := n == 256 && (s.homeDevice key).isSome

/-- The first cache but one that has a read of a sector outstanding. -/
def State.reader (s : State) (n key : Nat) : Option Nat :=
  (s.groups.map fun e => s.cacheOf (e.1 / 128)).find? fun m => m != n && s.wantsRead m key

/-- FORWARDED_READ (09 Tables 9-3, 9-4): an M or E owner answers a read of another agent, here or at a home on another device, and keeps
the sector in S. From a write-back buffer the data goes to the requester, which takes S, and to the home. An owner that holds neither
answers "gone", and the home's own copy stands. -/
def execForwardedRead (cache asid va : Nat) (s : State) : Out :=
  let key := s.sectorOf asid va
  let n := s.localCache cache
  let owner := (s.holders key).any fun h => s.answering n key h.1 && (h.2.1 == .m || h.2.1 == .e)
  match s.reader n key with
  | some m =>
    .next (if owner then (s.shareAt key (s.answering n key)).syncDir key
      else if (s.owing n key).isSome then (s.missAtHome m key).1 else s)
  | none =>
    if !s.fromAbroad n key then .next s
    else if owner then .next ((s.shareAt key (s.answering n key)).syncDir key)
    else match s.owing n key with
      | some (m, d) => .next (s.supply m key d)
      | none => .next s

/-- A home on another device takes back a sector because an agent there writes it: every copy here goes, M data to the home first, and
the sector there then holds what that agent wrote, which are free values (log 106). -/
def State.writtenAbroad (s : State) (key : Nat) : State :=
  let u := (s.invalidateAll key).freeSector
  match u.1.keyPlace key with
  | some p => u.1.writePlace (keyAsid key) p (secBytes u.2 0 32)
  | none => u.1

/-- The copies of the caches for which `f` holds go, M data to the home. -/
def State.takeBack (s : State) (key : Nat) (f : Nat → Bool) : State :=
  ((s.holders key).foldl (fun st h =>
    if f h.1 then
      let st1 := if h.2.1 = .m then (st.toHolder h.1 1 key).homeWrite key h.2.2 else st.toHolder h.1 1 key
      st1.setCache h.1 ((st1.cache h.1).drop key)
    else st) s).syncDir key

/-- INVALIDATE (09 Tables 9-3, 9-4): a copy goes because another agent, here or at a home on another device, writes the sector; M data,
and data in the write-back buffer, go to the home. -/
def execInvalidate (cache asid va : Nat) (s : State) : Out :=
  let key := s.sectorOf asid va
  let n := s.localCache cache
  let wanted := s.wantedElsewhere n (fun st m => st.wantsWrite m key) || s.farWants key
  if (s.uOp key).isSome then .next s
  else if s.fromAbroad n key then .next (s.writtenAbroad key)
  else if !wanted then .next s
  else if (s.holders key).any (fun h => s.answering n key h.1) then .next (s.takeBack key (s.answering n key))
  else match s.owing n key with
    | some (m, d) => .next (s.supply m key d)
    | none => .next s

/-- DISCOVERY_BROADCAST (09 R277). -/
def execDiscoveryBroadcast (asid va : Nat) (s : State) : Out := .next (s.discover (s.sectorOf asid va / 4))

/-! ## Write-backs (09 R284) -/

/-- WRITE_BACK (09 R284): a write-back of a buffer reaches its home; the spec does not say which goes first, the model takes the lowest
sector key (DESIGN CHOICE, log 111). -/
def execWriteBack (cache : Nat) (s : State) : Out :=
  match (s.cache (s.localCache cache)).wbuf.find? (fun e => !e.2.2) with
  | none => .next s
  | some (key, d, _) => .next (s.supply (s.localCache cache) key d)

/-- WRITE_BACK_ACK (09 R284): the entry is freed. -/
def execWriteBackAck (cache : Nat) (s : State) : Out :=
  let c := s.cache (s.localCache cache)
  match c.wbuf.find? (fun e => e.2.2) with
  | none => .next s
  | some (key, _, _) => .next (s.setCache (s.localCache cache) { c with wbuf := SMap.erase c.wbuf key })

/-! ## The collapse tree (09 R279 to R282) -/

/-- RECALL_FOR_COLLAPSE (09 R279 steps 2 to 4): the cache sends its copy, or answers "none". A recall from a home on another device
reaches the die-0 die-level cache, which recalls the L1s of both dies, forms the device partial Q and sends it to that home, where it
is folded; copies of other devices fold there too, unseen here. -/
def execRecallForCollapse (cache asid va : Nat) (s : State) : Out :=
  let key := s.sectorOf asid va
  let n := s.localCache cache
  if s.fromAbroad n key then .next (s.collapseNow key).endAll
  else match s.collapseRec key with
  | none => .next s
  | some c =>
    if !c.asked.contains n then .next s
    else
      let c1 := { c with asked := c.asked.filter (· != n) }
      match (s.cache n).sector key with
      | some (.u _, d) =>
        .next ((s.setCache n ((s.cache n).drop key)).setCollapse key (some { c1 with copies := SMap.insert c1.copies n d }))
      | _ => .next (s.setCollapse key (some c1))

/-- The copies of a die up to a cache number leave their places, and the die's partial is their fold over its base
(09 R280). -/
def State.foldUpTo (s : State) (key : Nat) (c : Collapse) (d n : Nat) : State :=
  let ph := s.holderOf key d
  let base := match s.dieBase key d with
    | some p => p
    | none => c.op.identity
  let part := ((s.dieCopies key d).filter fun e => decide (e.1 ≤ n)).foldl (fun p e => c.op.merge p e.2) base
  let x := s.slice ph
  let s1 := s.setSlice ph { x with
    park := x.park.filter (fun e => !(e.1.1 == key && decide (e.1.2 ≤ n))), die := SMap.erase x.die key }
  s1.setCollapse key (some { c with
    copies := c.copies.filter (fun e => !(e.1 / 128 == d && decide (e.1 ≤ n))), partials := SMap.insert c.partials d part })

/-- U_COPY_ARRIVAL (09 R280): a copy folds into its die's partial in the order of cache numbers, so that no copy of a
lower number is still to come. -/
def execUCopyArrival (cache asid va : Nat) (s : State) : Out :=
  let key := s.sectorOf asid va
  let n := s.localCache cache
  match s.collapseRec key with
  | none => .next s
  | some c =>
    let lower := fun (m : Nat) => m / 128 == n / 128 && decide (m < n)
    if decide (n < 256) && SMap.has c.copies n && !c.asked.any lower && !(SMap.keys c.copies).any lower then
      .next (s.foldUpTo key c (n / 128) n)
    else .next s

/-- PARTIAL_ARRIVAL (09 R279 step 5): with no copy of an L1 still to come and every other device's partial here, the home folds
the partials, its own die's first and those of other devices last, and writes the collapse. -/
def execPartialArrival (_die asid va : Nat) (s : State) : Out :=
  let key := s.sectorOf asid va
  match s.collapseRec key with
  | none => .next s
  | some c => .next (if c.asked.isEmpty && c.copies.all (fun e => decide (512 ≤ e.1)) then (s.collapseNow key).endAll else s)

/-- The line that leaves an L1 when one more comes into a set: with all 8 ways in use the least recently used (09 R266). -/
def State.victim (s : State) (n set : Nat) : Option Nat :=
  let same := (s.cache n).lines.filter fun l => l.tag % s.setsOf n == set
  if same.length < 8 then none else same.getLast?.map Line.tag

/-- Does the operation bring the line of a sector into its L1: a read, or a write or update that performs there (05 R153, R162, R167)?
A copy, a clean and a subscription bring none; an MXEPI writes when its position is reached. -/
def State.fills (s : State) (op : MemOp) (key : Nat) : Bool :=
  match op with
  | .load _ _ => true
  | .loadStrong _ _ _ _ => true
  | .sld _ => true
  | .stld _ => true
  | .waita _ _ _ => true
  | .launch _ => true
  | .store _ _ => !s.subscribed key
  | .storeStrong _ _ _ _ => !s.subscribed key
  | .stst _ => !s.subscribed key
  | .atom _ _ _ _ scope => nearScope scope && !s.subscribed key
  | .upd _ _ => !s.updatesAtHome (32 * key)
  | .collapse => false
  | .cctl _ _ => false
  | .subscr _ _ _ _ => false
  | .tcopy _ _ _ => false
  | .mxepi _ _ => false

/-- Does an access of a group on a cache wait to bring a line into a set? -/
def State.fillsSet (s : State) (n set : Nat) : Bool :=
  let new := fun (key : Nat) => key / 4 % s.setsOf n == set && ((s.cache n).line (key / 4)).isNone
  (s.groupsOf n).any fun g =>
    (g.pending.any fun pd => (s.pendingKeys g pd).any fun k => new k && s.fills pd.op k) || g.queue.any fun e => match e with
      | .store ws _ _ => ws.any fun w => new (w.1 / 32) && !s.subscribed (w.1 / 32)
      | .atom _ _ _ ks _ scope => nearScope scope && ks.any fun k => new (k.addr / 32) && !s.subscribed (k.addr / 32)

/-- U_COPY_EVICTION (09 R281, 13 R374): a U copy of the least recently used line of a full set of an L1 leaves for a line that an access
waits for. -/
def execUCopyEviction (cache asid va : Nat) (s : State) : Out :=
  let key := s.sectorOf asid va
  let n := s.localCache cache
  let set := key / 4 % s.setsOf n
  match (s.cache n).sector key with
  | some (.u op, d) =>
    .next (if decide (n < 256) && s.victim n set == some (key / 4) && s.fillsSet n set then s.evictU n key op d else s)
  | _ => .next s

end Sys2Proof.Machine
end

