-- ==== Sys2Proof/Machine/Start.lean ====
section
/-! DEFINITION. Kernel headers, launch packets, and a group as it starts (01 R18, R19; 02 R79, R80). -/

namespace Sys2Proof.Machine

/-- A kernel header's fields (02 Table 2-13). -/
structure Header where
  regsP : Nat
  regsC : Nat
  sregs : Nat
  barriers : Nat
  acctiles : Nat
  producer : Nat
  divstack : Nat
  restartable : Bool
  scratch : Nat
deriving DecidableEq, Repr

/-- Read a header. -/
def Header.ofBytes (bs : List Byte) : Header :=
  ⟨fieldAt bs 6 1, fieldAt bs 7 1, fieldAt bs 8 1, fieldAt bs 9 1, fieldAt bs 10 1, fieldAt bs 11 1, fieldAt bs 12 1,
    bit (fieldAt bs 13 1) 0, fieldAt bs 16 4⟩

/-- MAGIC and VERSION (02 R79). -/
def goodMagic (bs : List Byte) : Bool := fieldAt bs 0 4 == 0x314B4C47 && fieldAt bs 4 2 == 1

/-- Reserved bytes 0 and every field in the range of 01 Table 1-11. -/
def goodHeader (bs : List Byte) : Bool :=
  let h := Header.ofBytes bs
  fieldAt bs 13 1 / 2 == 0 && fieldAt bs 14 2 == 0 && fieldAt bs 24 40 == 0
  && decide (1 ≤ h.regsP) && decide (h.regsP ≤ 124) && decide (1 ≤ h.regsC) && decide (h.regsC ≤ 124)
  && decide (h.sregs ≤ 192) && decide (h.barriers ≤ 16) && decide (h.acctiles ≤ 4) && decide (h.producer ≤ 63)
  && decide (h.scratch ≤ 262144) && h.scratch % 128 == 0

/-- Bytes of a header. -/
def headerBytes : Nat := 64

/-- Vector registers at a group's start: v0 holds the lane index (01 Table 1-1). -/
def startVector : SMap Word := (run 1 31).map fun l => (l, BitVec.ofNat 32 l)

/-- Scalar registers from their first words, the others 0. -/
def startScalars (ws : List Word) : SMap Word := SMap.putAll 0 [] (number 0 ws)

/-- GSTAT at a group's start: ELT 0xB (01 Table 1-5). -/
def startGstat : Word := 0x0B000000

/-- The entry path of a kernel (01 R19). -/
def entryPath (kaddr : Nat) : Path :=
  ⟨0xFFFFFFFF, BitVec.ofNat 64 (kaddr + headerBytes), none, 0, 0, 0, none, .ready⟩

/-- Who a starting group is. -/
structure Birth where
  uid : Nat
  ctx : Nat
  team : Nat
  seg : Nat
  segGrp : Nat
  grpid : Nat
  producer : Bool
  priv : Priv
  arena : Option Nat
  freeze : Freeze

/-- A group as it starts (01 Table 1-1, R19). -/
def Group.start (b : Birth) (h : Header) (kaddr : Nat) (scalars : List Word) (now : Nat) : Group :=
  { uid := b.uid, ctx := b.ctx, team := b.team, seg := b.seg, segGrp := b.segGrp, grpid := b.grpid,
    producer := b.producer, priv := b.priv, vregs := if b.producer then h.regsP else h.regsC, sregs := h.sregs,
    barriers := h.barriers, tiles := h.acctiles, divstack := h.divstack, v := startVector, b := [],
    s := startScalars scalars, p := [], gstat := startGstat, slotA := some (entryPath kaddr), slotB := none, ex := 0,
    dsp := 0, batch := [], positions := [], mxrd := [], queue := [], loads := [], answers := [], asked := [],
    pending := none, chain := none, fuse := none, split := none, nextB := false, since := now, ready := false, stop := none, status := .running,
    freeze := b.freeze, before := none, svcPend := false, cause := 0, trapSlot := .a, mcheck := [], reeval := false, savedFrz := false, stepDue := [], arena := b.arena }

/-- A segment as it starts (01 R14, Table 1-1). -/
def Segment.start (core groups : Nat) : Segment := ⟨core, groups, [], [], [], [], [], [], []⟩

end Sys2Proof.Machine
end

