-- ==== Sys2Proof/Machine/Sync.lean ====
section
/-! DEFINITION. Team barriers, events, device-side launch and active messages, as a group issues them (07 R225 to
R235). -/

namespace Sys2Proof.Machine

/-! ## Team barriers -/

/-- A barrier at the start of a team. -/
def Barrier.empty : Barrier := ⟨false, [], []⟩

/-- A team's barrier. -/
def Team.barrier (t : Team) (n : Nat) : Barrier := SMap.getD t.bars n Barrier.empty

/-- Would an arrival of the lanes be a third one (07 R227)? -/
def Barrier.overrun (b : Barrier) (grp : Nat) (m : Word) : Bool :=
  m &&& SMap.getD b.ac grp 0 &&& SMap.getD b.an grp 0 != 0

/-- Make an arrival of the lanes: toward the phase in progress, else toward the next. -/
def Barrier.arrive (b : Barrier) (grp : Nat) (m : Word) : Barrier :=
  let ac := SMap.getD b.ac grp 0
  { b with
    ac := SMap.put 0 b.ac grp (ac ||| m)
    an := SMap.put 0 b.an grp (SMap.getD b.an grp 0 ||| (m &&& ac)) }

/-- Has every arrival of the lanes been made to a completed phase (07 R228)? -/
def Barrier.passed (b : Barrier) (grp : Nat) (m : Word) : Bool :=
  m &&& (SMap.getD b.ac grp 0 ||| SMap.getD b.an grp 0) == 0

/-- An arrival of the group's lanes at a team's barrier, with its completion check. -/
def State.arriveAt (s : State) (g : Group) (n : Nat) (m : Word) : State :=
  match s.team g.team with
  | none => s
  | some t =>
    s.setTeam g.team { t with
      bars := SMap.insert t.bars n (((t.barrier n).arrive g.grpid m).check t.grps (s.exMasks g.team)) }

/-- The barrier an instruction names, of the issuing group's team. -/
def Ctx.barrier (c : Ctx) (n : Nat) : Barrier :=
  match c.s.team c.g.team with
  | some t => t.barrier n
  | none => Barrier.empty

/-- The trap of a third arrival. -/
def overrunTrap (n : Nat) : Trap := { Trap.of cBarrier with info := BitVec.ofNat 32 n }

/-- BAR.ARV (07 R227). -/
def execBarArv (n : BitVec 4) (s : State) : Out :=
  issue (.barArv n) s fun c =>
    if (c.barrier n.toNat).overrun c.g.grpid c.p.mask then c.trap (overrunTrap n.toNat)
    else if !c.s.released c.g then c.hold .arrive
    else { c with s := c.s.arriveAt c.g n.toNat c.p.mask }.done c.g

/-- The wait of BAR.WAIT and BAR.SYNC: it ends when the lanes' arrivals have passed and the acquire holds
(07 R228, R229). -/
def Ctx.barrierWait (c : Ctx) (n : Nat) : Out :=
  if (c.barrier n).passed c.g.grpid c.p.mask && c.s.acquired c.g then c.done c.g
  else
    match c.s.group c.key with
    | none => .fault .noIssuingGroup
    | some g => .next (c.s.setGroup c.key (c.s.atBoundary (g.setWait c.ps (.barrier n))))

/-- BAR.WAIT (07 R228). -/
def execBarWait (n : BitVec 4) (s : State) : Out :=
  issue (.barWait n) s fun c => c.barrierWait n.toNat

/-- BAR.SYNC (07 R228): an arrival, once, and the wait. -/
def execBarSync (n : BitVec 4) (s : State) : Out :=
  issue (.barSync n) s fun c =>
    if c.p.inBarrier then c.barrierWait n.toNat
    else if (c.barrier n.toNat).overrun c.g.grpid c.p.mask then c.trap (overrunTrap n.toNat)
    else if !c.s.released c.g then c.hold .arrive
    else { c with s := c.s.arriveAt c.g n.toNat c.p.mask }.barrierWait n.toNat

/-! ## Events -/

/-- Launches whose wait mask is wholly set become eligible, for good (07 R232). -/
def Context.settleEvents (c : Context) : Context :=
  { c with launches := c.launches.map fun l =>
      let wait := BitVec.ofNat 256 (bits l.packet.toNat 512 256)
      if wait &&& ~~~c.events = 0 then { l with eligible := true } else l }

/-- The event unit applies one request, the clear before the set (07 R232). -/
def Context.applyEvents (c : Context) (clear set : BitVec 256) : Context :=
  { c with events := (c.events &&& ~~~clear) ||| set }.settleEvents

/-- The event unit of a context applies one request. -/
def State.eventNow (s : State) (ctx : Nat) (clear set : BitVec 256) : State :=
  s.setContext ctx ((s.context ctx).applyEvents clear set)

/-- The event a scalar names: its low eight bits. -/
def eventBit (x : Word) : BitVec 256 := BitVec.ofNat 256 (2 ^ (x.toNat % 256))

/-- Is a path in the hold of an EVSET it has issued? -/
def Path.inEvset (p : Path) : Bool :=
  match p.wait with
  | .held (.evset _) => true
  | _ => false

/-- EVSET (07 R231): it names its event and counts for the restartable flag (10 R317) at its issue. -/
def execEvset (a : BitVec 8) (s : State) : Out :=
  issue (.evset a) s fun c =>
    let c := c.publish
    let m := match c.taken with
      | some (.evset m) => m
      | _ => eventBit (c.sv a.toNat)
    if !c.s.released c.g then c.hold (.evset m)
    else { c with s := c.s.eventNow c.g.ctx 0 m }.done c.g

/-- EVCLR (07 R231): it waits for an EVSET of the group that still holds the other path. -/
def execEvclr (a : BitVec 8) (s : State) : Out :=
  issue (.evclr a) s fun c =>
    if (c.g.path c.ps.other).any Path.inEvset then c.stall .operand
    else
      let c := c.publish
      { c with s := c.s.eventNow c.g.ctx (eventBit (c.sv a.toNat)) 0 }.done c.g

/-! ## Device-side launch and active messages -/

/-- Everything a group has issued performs: its queue, its far accesses, the collapses it forced (05 R175). -/
def State.releaseAll (s : State) (key : Nat) : State :=
  match s.group key with
  | none => s
  | some g => (s.landQueue key g.uid g.queue.length).landCollapses g.uid

/-- Intake stops while the context is halted or being terminated, and while 256 launches are unretired (10 R298). -/
def State.intakeOpen (s : State) (ctx : Nat) : Bool :=
  let c := s.context ctx
  (c.state == 0 || c.state == 1) && decide (c.launches.length < 256)

/-- A packet goes to the context's device launch queue (07 R233): the machine and the group with it queued, or with QUEUEFULL while
intake has stopped; none while the queue is full and intake goes on. -/
def State.submit (s : State) (g : Group) (sd : Nat) (p : BitVec 1024) : Option (State × Group) :=
  let x := s.context g.ctx
  if 64 ≤ x.devq.length then (if s.intakeOpen g.ctx then none else some (s, g.setSr sd 1))
  else some (s.setContext g.ctx { x with devq := x.devq ++ [⟨p, g.uid, sd, s.now⟩] }, { g with answers := g.answers ++ [sd] })

/-- LAUNCH (07 R233): with the device launch queue full it holds its path, the packet read. -/
def execLaunch (a d : BitVec 8) (s : State) : Out :=
  issue (.launch a d) s fun c =>
    match c.taken with
    | some (.launch p) =>
      match c.s.submit c.g d.toNat p with
      | some (s1, g) => { c with s := s1 }.done g
      | none => c.hold (.launch p)
    | _ => c.accessOne 128 (c.g.sr64 a.toNat) (.launch d.toNat)

/-- LAUNCH once its address is translated (07 R233): the packet is read, the release holds, the packet is queued; with the queue full
the group leaves Translation and the path is held (01 R36, R44). -/
def State.commitLaunch (s : State) (key : Nat) (pd : Pending) (sd : Nat) (ck : Checked) : State :=
  match s.group key, ck.pass with
  | some g0, (_, t) :: _ =>
    let (s1, bs) := s.loadOwn key g0 t.tag 128
    let s2 := s1.releaseAll key
    match s2.group key with
    | none => s2
    | some g =>
      let p : BitVec 1024 := BitVec.ofNat 1024 (ofBytes bs)
      if pktField p 2 48 16 ≠ (s2.context g.ctx).asid.toNat then s2.resume key pd.slot (g.setSr sd 2)
      else match s2.submit g sd p with
        | some (s3, g3) => s3.resume key pd.slot g3
        | none => s2.park key pd.slot g (.held (.launch p))
  | some g, [] => s.finishAccess key pd.slot g true ck.fail
  | none, _ => s

/-- Is the block of SENDAM laid out as 07 R235 says? -/
def goodBlock (w0 w1 : Word) : Bool := bits w0.toNat 16 16 == 0 && bits w1.toNat 12 20 == 0

/-- SENDAM (07 R235): it takes its block and counts for the restartable flag (10 R317) at its issue; after its release, the message goes
out; a bad block or an unreachable device answers at once. -/
def execSendam (n : BitVec 3) (a d : BitVec 8) (s : State) : Out :=
  issue (.sendam n a d) s fun c =>
    let c := c.publish
    let block := match c.taken with
      | some (.sendam ws) => ws
      | _ => c.g.block a.toNat (n.toNat + 2)
    if !c.s.released c.g then c.hold (.sendam block)
    else
      let w0 := block.getD 0 0
      let w1 := block.getD 1 0
      let dev := bits w0.toNat 8 8
      if !goodBlock w0 w1 then c.done (c.g.setSr d.toNat 4)
      else if dev ≠ c.s.dev && !(c.s.remote dev).reachable then c.done (c.g.setSr d.toNat 2)
      else
        let m : ActiveMsg := ⟨c.g.ctx, bits w0.toNat 0 8, bits w1.toNat 0 12,
          block.drop 2, c.core, c.s.dev, c.g.uid, d.toNat,
          (c.s.context c.g.ctx).dctag.toNat⟩
        { c with s := c.s.sendTo (c.core / 128) dev m.dctag (.active m) }.done { c.g with answers := c.g.answers ++ [d.toNat] }

end Sys2Proof.Machine
end

