-- ==== Sys2Proof/Machine/EvCore.lean ====
section
/-! DEFINITION. What happens to a group between its issues: answers, translation, waits that end, traps that start
service (01 R43 to R46; 05 R149 to R173; 07 R240; 10 R307 to R312). An event whose condition does not hold changes
nothing. -/

namespace Sys2Proof.Machine

/-- Is the group running and not Frozen? -/
def Group.live (g : Group) : Bool := g.status == .running && !g.frozen

/-- May a path that waits for an operand try again: its registers have arrived and the store queue has room (01 R44)? A path
in the hold of an instruction it has issued stays in it until that instruction completes (01 R36). -/
def State.mayRetry (s : State) (key : Nat) (g : Group) (p : Path) : Bool :=
  match p.wait with
  | .operand =>
    match s.codeAt (key / 128) (s.asidOf g) p.pc.toNat with
    | .ok (.ok i) => !s.registersBusy g p i && decide (g.queue.length < 16)
    | _ => true
  | _ => false

/-- A path that may try again is ready. -/
def State.retryPath (s : State) (key : Nat) (g : Group) (p : Option Path) : Option Path :=
  match p with
  | some x => if s.mayRetry key g x then some { x with wait := .ready } else some x
  | none => none

/-- OPERAND_ARRIVAL (01 R44). -/
def execOperandArrival (core slot : Nat) (s : State) : Out :=
  let key := groupKey core slot
  match s.group key with
  | none => .next s
  | some g => .next (s.setGroup key { g with slotA := s.retryPath key g g.slotA, slotB := s.retryPath key g g.slotB })

/-- LOAD_DATA_RETURN (05 R152): the group's oldest load whose data is there. -/
def execLoadDataReturn (core slot : Nat) (s : State) : Out :=
  let key := groupKey core slot
  .next ((s.returnLoad key).groupEnd key)

/-- The refusals of homes on other devices that an access has taken are gone (09 R292). -/
def State.takeRefusals (s : State) (tag : Nat) (lanes : List (Nat × Nat)) : State :=
  { s with net := s.net.filter fun m => match m with
      | .xlFault _ t a _ => t != tag || !lanes.any fun l => l.2 / 128 == a / 128
      | _ => true }

/-- The access of a group in Translation, once every check has answered. -/
def State.answerAccess (s : State) (key : Nat) (g : Group) (pd : Pending) : State :=
  let asid := s.asidOf g
  let core := key / 128
  let ck := s.checkLanes core asid pd.op pd.lanes
  let s1 := (s.takeRefusals (s.context g.ctx).dctag.toNat pd.lanes).noteAll core asid pd.op pd.lanes
  match pd.op with
  | .tcopy out l x => s1.commitCopy key pd out l x ck
  | .launch sd => s1.commitLaunch key pd sd ck
  | .mxepi tile c => s1.commitEpi key pd tile c
  | _ => s1.commit key pd ck

/-- Did the access end in a trap? -/
def State.trapped (s : State) (key : Nat) (g : Group) : Bool :=
  match s.group key with
  | some g' => g'.status == .trapped || (g'.freeze.halt && !g.freeze.halt)
  | none => false

/-- TRANSLATION_ACK (10 R307): passing lanes commit; failing lanes trap, once the group's scalar answers are there
(10 R310). -/
def execTranslationAck (core slot : Nat) (s : State) : Out :=
  let key := groupKey core slot
  match s.group key with
  | none => .next s
  | some g =>
    match g.pending with
    | none => .next s
    | some pd =>
      let s1 := s.answerAccess key g pd
      if s1.trapped key g && !s.trapReady g then .next s else .next s1

/-- STORE_QUEUE_DRAIN (01 R31); a group whose last access has performed elsewhere is Done (01 R43). -/
def execStoreQueueDrain (core slot : Nat) (s : State) : Out :=
  let key := groupKey core slot
  match s.group key with
  | none => .next s
  | some g =>
    if g.queue.isEmpty then .next (s.groupEnd key)
    else if s.mayDrain g then .next ((s.drainOne key).groupEnd key) else .next s

/-- Are the lines of an empty-line wait full that has not been woken? -/
def State.linesFull (s : State) (team : Nat) (w : Wait) : Bool :=
  match w with
  | .emptyLine k ls _ false _ =>
    match s.segment team k with
    | some g => ls.all g.isFull
    | none => false
  | _ => false

/-- The wait of a path whose lines are full: it issues its read again, and is in it until that completes (01 R36). -/
def Wait.filled : Wait → Wait
  | .emptyLine k ls start _ take => .emptyLine k ls start true take
  | w => w

/-- A path whose lines have become full may issue its read again. -/
def State.wakeLines (s : State) (team : Nat) (p : Option Path) : Option Path :=
  match p with
  | some x => if s.linesFull team x.wait then some { x with wait := x.wait.filled } else some x
  | none => none

/-- LINE_FILL_WAKE (01 R44). -/
def execLineFillWake (core slot : Nat) (s : State) : Out :=
  let key := groupKey core slot
  match s.group key with
  | none => .next s
  | some g => .next (s.setGroup key { g with slotA := s.wakeLines g.team g.slotA, slotB := s.wakeLines g.team g.slotB })

/-- Has a path's stall passed the limit of GSTAT.ELT (01 Table 1-5)? -/
def stalledPast (g : Group) (now : Nat) (p : Option Path) : Bool :=
  let elt := bits g.gstat.toNat 24 4
  match p with
  | some x => match x.wait with
    | .emptyLine _ _ start false _ => elt != 0 && decide (start + 2 ^ (elt + 9) < now)
    | _ => false
  | none => false

/-- The slot whose stall has passed the limit with its lines still empty, and whose trap may be taken: a fill wins (01 R45), slot A
goes first, and slot B of a wave split, whose own lines are what a trap of slot A waits for, does not wait for itself (10 R310). -/
def State.expired (s : State) (g : Group) : Option PSlot :=
  let past := fun (p : Option Path) => stalledPast g s.now p && !(match p with
    | some x => s.linesFull g.team x.wait
    | none => false)
  if past g.slotA && s.trapReady g then some .a else if past g.slotB && g.answers.isEmpty && !g.completing then some .b else none

/-- EMPTY_LINE_TIMEOUT (05 R157); never inside a latch chain (01 R24). -/
def execEmptyLineTimeout (core slot : Nat) (s : State) : Out :=
  let key := groupKey core slot
  match s.group key with
  | none => .next s
  | some g =>
    match s.expired g with
    | some ps => if g.live && !g.inIssue then .next (s.raiseTrap key ps (Trap.of cEmptyLine)) else .next s
    | none => .next s

/-! ## WAITA (05 R172, R173) -/

/-- The slot of an event that names slot B or not. -/
def slotOf (b : Bool) : PSlot := if b then .b else .a

/-- The watch of a parked path. -/
def Group.watch (g : Group) (ps : PSlot) : Option Watch :=
  match g.path ps with
  | some p => match p.wait with
    | .parked w => some w
    | _ => none
  | none => none

/-- A parked path goes on, its wake code written. -/
def State.wake (s : State) (key : Nat) (ps : PSlot) (sd : Nat) (code : Word) : State :=
  match s.group key with
  | none => s
  | some g =>
    match g.path ps with
    | none => s
    | some p =>
      let g1 := (g.setPath ps (some (p.advance (p.pc + 4)))).setSr sd code
      s.setGroup key (s.settle g1)

/-- Read the watched word: a translation fault, or the state after the read and whether it differs. -/
def State.checkWatch (s : State) (core asid : Nat) (w : Watch) : Except XKind (State × Bool) :=
  match s.loadVirt core asid w.va 4 with
  | .error k => .error k
  | .ok (s1, bs) => .ok (s1, BitVec.ofNat 32 (ofBytes bs) != w.away)

/-- The translation fault of a check: the WAITA traps, not parked any more. -/
def State.watchFault (s : State) (key : Nat) (g : Group) (ps : PSlot) (k : XKind) (va : Nat) : State :=
  if s.trapReady g then
    (s.setGroup key (g.setWait ps .ready)).raiseTrap key ps { Trap.of cTranslation with detail := k.code, va := va }
  else s

/-- Is a check due: the core's cache no longer keeps the watched sector in S, or it was lost and is back with another
word (05 R172, R173)? -/
def State.checkDue (s : State) (core : Nat) (w : Watch) : Bool :=
  !s.keeps (s.cacheOf core) (w.addr / 32) || BitVec.ofNat 32 (ofBytes (s.peekRun w.addr 4)) != w.away

/-- The parked path has read its word now. -/
def State.checkedNow (s : State) (key : Nat) (ps : PSlot) (w : Watch) : State :=
  match s.group key with
  | some g => s.setGroup key (g.setWait ps (.parked { w with checked := s.now }))
  | none => s

/-- WAITA_CHECK (05 R172): the watched sector was invalidated or lost, so the word is read again. -/
def execWaitaCheck (core slot : Nat) (slotB : Bool) (s : State) : Out :=
  let key := groupKey core slot
  match s.group key with
  | none => .next s
  | some g =>
    match g.watch (slotOf slotB) with
    | none => .next s
    | some w =>
      if !g.live || g.inIssue || !s.checkDue core w then .next s
      else match s.checkWatch core (s.asidOf g) w with
        | .error k => .next (s.watchFault key g (slotOf slotB) k w.va)
        | .ok (s1, changed) => .next (if changed then s1.wake key (slotOf slotB) w.sd 1 else (s1.checkedNow key (slotOf slotB) w).watchSec w.addr)

/-- Has the timeout of a watch expired? It counts from issue. -/
def Watch.expired (w : Watch) (now : Nat) : Bool :=
  match w.timeout with
  | some t => decide (w.issued + t ≤ now)
  | none => false

/-- WAITA_TIMEOUT (05 R172): a change wins over the timeout (01 R45). -/
def execWaitaTimeout (core slot : Nat) (slotB : Bool) (s : State) : Out :=
  let key := groupKey core slot
  match s.group key with
  | none => .next s
  | some g =>
    match g.watch (slotOf slotB) with
    | none => .next s
    | some w =>
      if !g.live || g.inIssue || !w.expired s.now then .next s
      else match s.checkWatch core (s.asidOf g) w with
        | .error k => .next (s.watchFault key g (slotOf slotB) k w.va)
        | .ok (s1, changed) => .next (s1.wake key (slotOf slotB) w.sd (if changed then 1 else 2))

/-! ## Traps and fetch -/

/-- Does a header serve as a trap-service header (07 R240)? -/
def goodService (bs : List Byte) : Bool :=
  let h := Header.ofBytes bs
  goodMagic bs && goodHeader bs && decide (h.regsP ≤ 32) && decide (h.regsC ≤ 32) && decide (6 ≤ h.sregs)
  && decide (h.sregs ≤ 64) && h.producer == 0 && h.scratch == 0 && h.barriers == 0 && h.acctiles == 0 && h.divstack == 0

/-- The service group of a trapped group (07 R240). It takes the trapped group's place in its team, and the producer role (DESIGN
CHOICE, log 120). -/
def serviceGroup (s : State) (core slot : Nat) (g : Group) (bs : List Byte) (tsvc : Nat) : Group :=
  let rec0 := s.recordAddr g.ctx core slot
  let b : Birth := ⟨s.nextUid, g.ctx, g.team, g.seg, g.segGrp, g.grpid, true, .supervisor, none,
    { Freeze.none with halt := (s.context g.ctx).state == 2 }⟩
  Group.start b (Header.ofBytes bs) tsvc
    [0, 0, BitVec.ofNat 32 rec0, BitVec.ofNat 32 (rec0 / 2 ^ 32), BitVec.ofNat 32 slot, BitVec.ofNat 32 g.cause] s.now

/-- Start service for the trapped group in a slot, or halt the context naming the cause (07 R240). -/
def State.startService (s : State) (core slot : Nat) (g : Group) : State :=
  let tsvc := (s.context g.ctx).tsvc.toNat
  if tsvc = 0 then s.haltContext g.ctx core g.cause
  else match s.loadVirt core (s.asidOf g) tsvc headerBytes with
    | .error _ => s.haltContext g.ctx core g.cause
    | .ok (s1, bs) =>
      if !goodService bs then s1.haltContext g.ctx core g.cause
      else
        let s2 := { s1 with nextUid := s1.nextUid + 1 }.setCore core { s1.core core with serving := slot }
        (s2.setGroup (groupKey core slot) { g with svcPend := false }).setGroup (groupKey core serviceSlot)
          (serviceGroup s1 core slot g bs tsvc)

/-- TRAP_SERVICE_START (07 R240): the service slot is free, and the oldest waiting trap of the core is served. -/
def execTrapServiceStart (core : Nat) (s : State) : Out :=
  let x := s.core core
  match x.trapq, s.group (groupKey core serviceSlot) with
  | slot :: rest, none =>
    let s1 := s.setCore core { x with trapq := rest }
    match s1.group (groupKey core slot) with
    | some g => .next (if g.status = .trapped ∧ g.svcPend then s1.startService core slot g else s1)
    | none => .next s1
  | _, _ => .next s

/-- The machine-check trap of damaged data (10 R312). -/
def dataTrap (pc addr : DWord) : Trap :=
  { Trap.of cMachine with detail := 1, va := addr.toNat, precise := false, pc := some pc }

/-- MACHINE_CHECK (10 R312): taken at the group's next boundary, never inside a latch chain (01 R24). -/
def execMachineCheck (core slot : Nat) (s : State) : Out :=
  let key := groupKey core slot
  match s.group key with
  | none => .next s
  | some g =>
    match g.mcheck with
    | [] => .next s
    | (pc, ps, addr) :: rest =>
      if g.status = .running ∧ !g.inIssue ∧ s.trapReady g then
        .next ((s.setGroup key { g with mcheck := rest }).raiseTrap key ps (dataTrap pc addr))
      else .next s

/-- Raise a trap at the issue point, or wait first for what the group has issued. -/
def State.trapHere (s : State) (g : Group) (t : Trap) : State :=
  if s.trapReady g then s.trapIssue s.cur.key s.cur.pslot t
  else s.setGroup s.cur.key (g.stopAt s.cur.pslot .operand)

/-- The path at the issue point that is about to fetch its next instruction, with its group: none in a latch chain or fused sequence,
which is fetched before it begins (01 R24), or when the path may not issue. -/
def State.fetching (s : State) : Option (Group × Path) :=
  match s.group s.cur.key with
  | none => none
  | some g =>
    if g.status = .running ∧ !g.inIssue ∧ g.mayIssue s.cur.pslot then (g.path s.cur.pslot).map fun p => (g, p) else none

/-- FETCH_TRAP (10 R308): the path at the issue point cannot fetch its next instruction. -/
def execFetchTrap (s : State) : Out :=
  match s.fetching with
  | none => .next s
  | some (g, p) =>
      match s.codeAt s.cur.core (s.asidOf g) p.pc.toNat with
      | .error k => .next (s.trapHere g { Trap.of cFetch with detail := k.code })
      | .ok _ => .next s

/-- UNASSIGNED_ENCODING (02 R72): the word the path is about to issue is no assigned encoding. -/
def execUnassignedEncoding (word : BitVec 32) (s : State) : Out :=
  match s.fetching with
  | none => .next s
  | some (g, p) =>
      match s.codeAt s.cur.core (s.asidOf g) p.pc.toNat with
      | .ok (.error (.unassigned w)) => .next (if w = word then s.trapHere g (Trap.of cIllegal) else s)
      | _ => .next s

end Sys2Proof.Machine
end

