-- ==== Sys2Proof/Machine/Placement.lean ====
section
/-! DEFINITION. Which cores a team fits on, and starting a team there (01 R11, R15, R17; 02 R56; 09 R271; 10 R303 to
R305). -/

namespace Sys2Proof.Machine

/-! ## What a launch packet asks for (02 Table 2-14) -/

/-- The resources a packet declares, as a header does. -/
def Header.ofPacket (p : BitVec 1024) : Header :=
  ⟨pktField p 3 17 7, pktField p 3 24 7, pktField p 3 31 8, pktField p 3 39 5, pktField p 3 44 3, pktField p 3 47 6,
    pktField p 1 56 8, pktField p 0 60 1 == 1, 128 * pktField p 4 0 12⟩

/-- Groups of a team. -/
def teamGrps (p : BitVec 1024) : Nat := pktField p 3 0 11 + 1
/-- Groups of a full segment. -/
def segGrps (p : BitVec 1024) : Nat := pktField p 3 11 6 + 1
/-- Segments of a team (10 R299). -/
def segCount (p : BitVec 1024) : Nat := (teamGrps p + segGrps p - 1) / segGrps p
/-- Groups of a segment. -/
def segSize (p : BitVec 1024) (k : Nat) : Nat := min (segGrps p) (teamGrps p - k * segGrps p)
/-- FUSEDL1. -/
def fusedLaunch (p : BitVec 1024) : Bool := pktField p 0 61 1 == 1
/-- PRIORITY. -/
def priorityOf (p : BitVec 1024) : Nat := pktField p 0 56 4
/-- Kernel address. -/
def kernelOf (p : BitVec 1024) : Nat := pktField p 0 0 56
/-- Vector registers a segment needs (01 R17). -/
def segRegs (p : BitVec 1024) (k : Nat) : Nat :=
  (Header.ofPacket p).regsP + (Header.ofPacket p).regsC * (segSize p k - 1)

/-! ## Fit (01 R17, 09 R271, 10 R304) -/

/-- Is a team on its cores? -/
def Team.resident (t : Team) : Bool := t.saved.isNone && !t.restart

/-- The groups on a core; the service slot does not count (07 R240). -/
def State.onCore (s : State) (core : Nat) : List Group :=
  (s.groups.filter fun e => e.1 / 128 == core && decide (e.1 % 128 < 64)).map Prod.snd

/-- The resident teams with a segment on a core for which `f` holds, once for each segment. -/
def State.segsWhere (s : State) (f : Nat → Bool) : List Team :=
  (s.teams.map fun e => if e.2.resident then (e.2.segs.filter fun k => f k.2.core).map fun _ => e.2 else []).flatten

/-- Sum of a number over a list. -/
def total {α : Type} (f : α → Nat) (l : List α) : Nat := l.foldl (fun n x => n + f x) 0

/-- Does a segment fit on a core (01 R17)? -/
def State.segFits (s : State) (p : BitVec 1024) (k core : Nat) : Bool :=
  let gs := s.onCore core
  let ts := s.segsWhere (· == core)
  decide (total Group.vregs gs + segRegs p k ≤ 4096) && decide (gs.length + segSize p k ≤ 64)
  && decide (total Team.scratch ts + (Header.ofPacket p).scratch ≤ 262144)
  && decide (total (fun t => (Header.ofPacket t.packet).acctiles) ts + (Header.ofPacket p).acctiles ≤ 4)

/-- May the cluster of a core hold a segment of this launch: its other segments, those of handlers too, have the same FUSEDL1
(09 R271)? -/
def State.modeFits (s : State) (p : BitVec 1024) (core : Nat) : Bool :=
  (s.segsWhere fun c => c / 4 == core / 4).all fun t => t.fused == fusedLaunch p

/-- The lowest-numbered cores of a list that take segments `k`, `k + 1`, … in order. -/
def State.chooseCores (s : State) (p : BitVec 1024) : Nat → List Nat → List Nat
  | _, [] => []
  | k, c :: r =>
    if k < segCount p ∧ s.modeFits p c ∧ s.segFits p k c then c :: s.chooseCores p (k + 1) r
    else s.chooseCores p k r

/-- Quadrant `k` of the device, 0..7, has cores 32k..32k + 31 (10 R304). -/
def quadCores (k : Nat) : List Nat := run (32 * k) 32

/-- Resident groups of a quadrant. -/
def State.quadGroups (s : State) (k : Nat) : Nat :=
  (s.groups.filter fun e => e.1 / 128 / 32 == k && decide (e.1 % 128 < 64)).length

/-- The cores a team would take in a quadrant that is not reserved for another launch. -/
def State.fitsQuad (s : State) (owner : Nat × Nat) (p : BitVec 1024) (k : Nat) : Option (List Nat) :=
  let free := match SMap.find s.reserved k with
    | some o => o == owner
    | none => true
  let cs := s.chooseCores p 0 (quadCores k)
  if free && cs.length == segCount p then some cs else none

/-- The element of a list with the least measure, the first among equals. -/
def leastBy {α : Type} (f : α → Nat) : List α → Option α
  | [] => none
  | x :: r => match leastBy f r with
    | some y => if f y < f x then some y else some x
    | none => some x

/-- The cores a team takes: the fitting quadrant with the fewest groups (10 R304). -/
def State.fitsDevice (s : State) (owner : Nat × Nat) (p : BitVec 1024) : Option (List Nat) :=
  match leastBy s.quadGroups ((run 0 8).filter fun k => (s.fitsQuad owner p k).isSome) with
  | some k => s.fitsQuad owner p k
  | none => none

/-- The lowest free arena slots of a context, `n` of them, or none when too few are free (10 R305). -/
def Context.freeSlots (c : Context) (n : Nat) : Option (List Nat) :=
  let fs := ((run 0 (c.arena.length + n)).filter fun a => !c.arena.contains a && decide (a < c.divslots.toNat)).take n
  if fs.length = n then some fs else none

/-- The lowest free group slot of a core. -/
def State.freeSlot (s : State) (core : Nat) : Option Nat :=
  (run 0 64).find? fun k => !SMap.has s.groups (groupKey core k)

/-! ## Cluster mode (09 R271) -/

/-- Clean and invalidate an L1: M data to the homes, U copies evicted (09 R271, R281). -/
def State.emptyCache (s : State) (n : Nat) : State :=
  (((s.cache n).lines.map Line.tag).foldl (fun st t => st.evictLine n t) s).flushWb n

/-- Bring a core's cluster into the mode a launch needs. -/
def State.clusterMode (s : State) (fused : Bool) (core : Nat) : State :=
  let c := core / 4
  if s.fusedClusters.contains c = fused then s
  else
    let s1 := (run (4 * c) 4).foldl State.emptyCache s
    { s1 with fusedClusters := if fused then s1.fusedClusters ++ [c] else s1.fusedClusters.filter (· != c) }

/-- What a core does before a segment of a launch is placed on it: cluster mode, and its instruction cache is
invalidated (02 R56). -/
def State.prepareCore (s : State) (fused : Bool) (core : Nat) : State :=
  let s1 := s.clusterMode fused core
  s1.setCore core { s1.core core with icache := [] }

/-! ## Starting a team -/

/-- The segments of a team on its cores. -/
def startSegs (p : BitVec 1024) (cores : List Nat) : SMap Segment :=
  (number 0 cores).map fun e => (e.1, Segment.start e.2 (segSize p e.1))

/-- Group `n` of a team starts on its core. -/
def State.startGroup (s : State) (ctx team : Nat) (p : BitVec 1024) (cores : List Nat) (arena : Option Nat) (n : Nat) :
    State :=
  let k := n / segGrps p
  let core := cores.getD k 0
  let h := Header.ofPacket p
  match s.freeSlot core with
  | none => s
  | some slot =>
    let b : Birth := ⟨s.nextUid, ctx, team, k, n % segGrps p, n, n % segGrps p == h.producer, .user, arena, Freeze.none⟩
    let arg := pktField p 1 0 56
    let g := Group.start b h (kernelOf p) [BitVec.ofNat 32 arg, BitVec.ofNat 32 (arg / 2 ^ 32)] s.now
    { s.setGroup (groupKey core slot) g with nextUid := s.nextUid + 1 }

/-- All groups of a team start; `arena` holds their slots in GRPID order, and is empty when DIVSTACK is 0. -/
def State.startGroups (s : State) (ctx team : Nat) (p : BitVec 1024) (cores arena : List Nat) : State :=
  (run 0 (teamGrps p)).foldl (fun st n => st.startGroup ctx team p cores arena[n]? n)
    (cores.foldl (fun st c => st.prepareCore (fusedLaunch p) c) s)

/-- Team `n` of a launch as it starts: coordinates x fastest (01 R53). -/
def Team.start (ctx num : Nat) (p : BitVec 1024) (n : Nat) (cores : List Nat) : Team :=
  let gx := pktField p 2 0 16
  let gy := pktField p 2 16 16
  { ctx := ctx, launch := num, handler := false, packet := p, x := n % gx, y := n / gx % gy, z := n / gx / gy,
    grps := teamGrps p, segs := startSegs p cores, scratch := (Header.ofPacket p).scratch, bars := [],
    restartable := (Header.ofPacket p).restartable, fused := fusedLaunch p, saved := none, held := [], heldMat := [],
    heldCopy := [], restart := false, since := 0 }

/-- Teams of a grid. -/
def gridTeams (p : BitVec 1024) : Nat := pktField p 2 0 16 * pktField p 2 16 16 * pktField p 2 32 16

end Sys2Proof.Machine
end

