-- ==== Sys2Proof/Machine/EvDistributor.lean ====
section
/-! DEFINITION. The distributor: intake, dependences, placement, reservation, retirement (10 R297 to R305; 12 R357,
R358). An event whose condition does not hold changes nothing. -/

namespace Sys2Proof.Machine

/-! ## Reads of the distributor -/

/-- Read one piece of a run at its home, with the data of its owner (09 Table 9-3). -/
def State.homePiece (s : State) (asid va n : Nat) : Except XKind (State × List Byte) :=
  match s.translate asid va needR with
  | .error k => .error k
  | .ok t =>
    let key := t.tag / 32
    let s1 := ((s.collapseNow key).shareOut key).syncDir key
    .ok (s1, secBytes (s1.homeRead key) (t.tag % 32) n)

/-- Read a run at its home as a plain load with read permission. -/
def State.homeLoad (s : State) (asid va n : Nat) : Except XKind (State × List Byte) :=
  (pieces (n / 32 + 2) va n).foldl (fun acc p =>
    match acc with
    | .error k => .error k
    | .ok (st, bs) => match st.homePiece asid p.1 p.2 with
      | .error k => .error k
      | .ok (st1, b) => .ok (st1, bs ++ b)) (.ok (s, []))

/-! ## Host queues (12 R357, R358) -/

/-- A port's queue. -/
def Port.queue (p : Port) (q : Nat) : HostQueue := SMap.getD p.queues q HostQueue.reset
/-- Replace a port's queue. -/
def State.setQueue (s : State) (p q : Nat) (x : HostQueue) : State :=
  s.setPort p { s.port p with queues := SMap.insert (s.port p).queues q x }

/-- ENABLE. -/
def HostQueue.enabled (x : HostQueue) : Bool := x.qctl.getLsbD 31
/-- LOC: rings in device memory. -/
def HostQueue.inDevice (x : HostQueue) : Bool := x.qctl.getLsbD 30
/-- QCTX. -/
def HostQueue.slot (x : HostQueue) : Nat := bits x.qctl.toNat 8 6
/-- Entries of the ring. -/
def HostQueue.entries (x : HostQueue) : Nat := 2 ^ bits x.qctl.toNat 0 4
/-- May the distributor take the entry at QHEAD? -/
def HostQueue.ready (x : HostQueue) : Bool :=
  x.enabled && x.qtail != x.qhead && decide ((x.qhead - x.chead).toNat < x.entries)

/-- ENABLE := 0; the counts read 0 (12 R357). -/
def HostQueue.stop (x : HostQueue) (err : Bool) : HostQueue :=
  { x with qctl := (x.qctl &&& 0x7FFFFFFF) ||| (if err then 0x20000000 else 0), qtail := 0, qhead := 0, chead := 0 }

/-- Read entry QHEAD of a queue: over the port's bus, or in the context (12 R357). -/
def State.readEntry (s : State) (p : Nat) (x : HostQueue) : Option (State × List Byte) :=
  let a := x.qbase.toNat + 128 * (x.qhead.toNat % x.entries)
  if x.inDevice then
    match s.homeLoad (s.context x.slot).asid.toNat a 128 with
    | .ok r => some r
    | .error _ => none
  else if (s.port p).up then some (s, Memory.readN (s.port p).hostMem a 128) else none

/-- Send an MSI-X vector through one port (12 R350). -/
def State.msix (s : State) (p vector what : Nat) : State :=
  s.setPort p { s.port p with msix := (s.port p).msix ++ [(vector, what)] }

/-- Write a completion record, as two words in order, and send the queue's vector (12 R358). The queue's registers are those of
the moment the record is written (DESIGN CHOICE, log 134). -/
def State.complete (s : State) (p q : Nat) (n : Word) (num code : Nat) : State :=
  let x := (s.port p).queue q
  let a := x.cbase.toNat + 16 * (n.toNat % x.entries)
  let lo := layout 8 [(0, num), (4, code)]
  let hi := layout 8 [(0, n.toNat)]
  let s1 :=
    if x.inDevice then
      let asid := (s.context x.slot).asid.toNat
      (s.writeVirt asid a lo).writeVirt asid (a + 8) hi
    else s.setPort p { s.port p with hostMem := Memory.writeN (Memory.writeN (s.port p).hostMem a lo) (a + 8) hi }
  s1.msix p q n.toNat

/-- A packet's own answer: the completion record of a rejected host packet, or LAUNCH's code (10 R299). -/
def State.answerLaunch (s : State) (o : Option DevPacket) (p q : Nat) (n : Word) (code : Nat) : State :=
  match o with
  | some d => s.answerScalar d.uid d.sd (BitVec.ofNat 32 (0x100 + code))
  | none => s.complete p q n 0xFFFFFFFF code

/-! ## Intake (10 R298, R299) -/

/-- Heads of a context's queues that may be taken, in tie order: port 0, port 1, the device queue. -/
def State.heads (s : State) (ctx : Nat) : List (Nat × Option (Nat × Nat)) :=
  let host := fun p : Nat => (run 0 16).filterMap fun q =>
    let x := (s.port p).queue q
    if x.slot = ctx ∧ x.ready then some (x.since, some (p, q)) else none
  host 0 ++ host 1 ++ match (s.context ctx).devq with
    | d :: _ => [(d.since, none)]
    | [] => []

/-- Do a packet's reserved fields, extents and values stand (02 R80, 01 Table 1-11)? -/
def goodPacket (p : BitVec 1024) : Bool :=
  let h := Header.ofPacket p
  pktField p 0 62 2 == 0 && pktField p 3 53 11 == 0 && pktField p 4 12 4 == 0
  && pktField p 2 0 16 != 0 && pktField p 2 16 16 != 0 && pktField p 2 32 16 != 0
  && decide (1 ≤ h.regsP) && decide (h.regsP ≤ 124) && decide (1 ≤ h.regsC) && decide (h.regsC ≤ 124)
  && decide (h.sregs ≤ 192) && decide (h.barriers ≤ 16) && decide (h.acctiles ≤ 4) && decide (h.scratch ≤ 262144)

/-- Are the segments whole: at most 32, and none with no more groups than PRODUCER (10 R299)? -/
def goodSegments (p : BitVec 1024) : Bool :=
  let prod := (Header.ofPacket p).producer
  decide (segCount p ≤ 32) && decide (prod < segGrps p) && decide (prod < segSize p (segCount p - 1))

/-- The checks of 10 Table 10-2 from HDRMAGIC on; 0 accepts. -/
def packetCode (c : Context) (host : Bool) (p : BitVec 1024) (hdr : List Byte) : Nat :=
  let h := Header.ofPacket p
  if !goodMagic hdr then 0x02
  else if !goodHeader hdr then 0x03
  else if kernelOf p % 256 ≠ 0 ∨ pktField p 1 0 56 % 8 ≠ 0 then 0x04
  else if !goodPacket p || (host && pktField p 2 48 16 != c.asid.toNat) then 0x05
  else if Header.ofBytes hdr ≠ h then 0x06
  else if !goodSegments p then 0x07
  else if 4096 < segRegs p 0 then 0x08
  else if h.divstack ≠ 0 ∧ c.divslots.toNat < teamGrps p then 0x09
  else 0

/-- The check of a packet: its launch error code, and the state after the header was read (10 R299). A context that is
not created has no address space to read the header in. -/
def State.checkPacket (s : State) (ctx : Nat) (host : Bool) (p : BitVec 1024) : State × Nat :=
  let c := s.context ctx
  if c.state = 0 then (s, 0x0A)
  else match s.homeLoad c.asid.toNat (kernelOf p) headerBytes with
    | .error _ => (s, 0x01)
    | .ok (s1, hdr) => (s1, packetCode c host p hdr)

/-- Accept a packet: it takes the next launch number and waits as Blocked (10 R298, R300). -/
def State.accept (s : State) (ctx : Nat) (p : BitVec 1024) (o : Origin) : State :=
  let c := s.context ctx
  let l : Launch := ⟨c.nextLaunch, p, o, .blocked, false, 0, s.nextOrder, 0⟩
  { s.setContext ctx ({ c with
      nextLaunch := (c.nextLaunch + 1) % 2 ^ 32, launches := c.launches ++ [l] } : Context).settleEvents with
    nextOrder := s.nextOrder + 1 }

/-- The distributor takes the entry at the head of a host queue. -/
def State.takeHost (s : State) (ctx p q : Nat) : State :=
  let x := (s.port p).queue q
  match s.readEntry p x with
  | none => s.setQueue p q (x.stop true)
  | some (s1, bs) =>
    let pkt : BitVec 1024 := BitVec.ofNat 1024 (ofBytes bs)
    let s2 := s1.setQueue p q { x with qhead := x.qhead + 1, since := s.now }
    let (s3, code) := s2.checkPacket ctx true pkt
    if code = 0 then s3.accept ctx pkt (.host p q x.qhead) else s3.answerLaunch none p q x.qhead code

/-- The team of a group by its unique number. -/
def State.teamOf (s : State) (uid : Nat) : Option Nat :=
  (s.groups.find? fun e => e.2.uid == uid).map fun e => e.2.team

/-- The distributor takes the head of a context's device queue; ACCEPTED clears the launching team's flag (07 R234,
10 R317). -/
def State.takeDevice (s : State) (ctx : Nat) : State :=
  let c := s.context ctx
  match c.devq with
  | [] => s
  | d :: rest =>
    let rest' := match rest with
      | [] => []
      | e :: r => { e with since := s.now } :: r
    let (s1, code) := (s.setContext ctx { c with devq := rest' }).checkPacket ctx false d.packet
    if code = 0 then
      let s2 := (s1.accept ctx d.packet .device).answerScalar d.uid d.sd 0
      match s2.teamOf d.uid with
      | some t => s2.clearRestart t
      | none => s2
    else s1.answerLaunch (some d) 0 0 0 code

/-- LAUNCH_INTAKE (10 R298): the head that reached its place first. -/
def execLaunchIntake (ctx : Nat) (s : State) : Out :=
  if !s.intakeOpen ctx then .next s
  else match leastBy Prod.fst (s.heads ctx) with
    | none => .next s
    | some (_, some (p, q)) => .next (s.takeHost ctx p q)
    | some (_, none) => .next (s.takeDevice ctx)

/-! ## Dependences (10 R300, R301) -/

/-- The granules of a range entry, first and past the last, clipped at the top of the space (02 R81). -/
def granules (p : BitVec 1024) (i : Nat) : Nat × Nat :=
  let e := bits p.toNat (320 + 24 * i) 24
  let base := pktField p 4 16 48
  let lo := base + bits e 10 9 * 2 ^ bits e 19 5
  (min lo (2 ^ 48), min (lo + bits e 0 10 * 2 ^ bits e 19 5) (2 ^ 48))

/-- Do two granule intervals share a granule? -/
def shares (a b : Nat × Nat) : Bool := decide (a.1 < a.2) && decide (b.1 < b.2) && decide (a.1 < b.2) && decide (b.1 < a.2)

/-- Does E's write set overlap L's read set or write set? -/
def conflicts (e l : BitVec 1024) : Bool :=
  (run 4 4).any fun i => (run 0 8).any fun j => shares (granules e i) (granules l j)

/-- Is launch number a smaller than b (10 R298)? -/
def smaller (a b : Nat) : Bool :=
  let d := (BitVec.ofNat 32 b - BitVec.ofNat 32 a).toNat
  decide (1 ≤ d) && decide (d < 2 ^ 31)

/-- May a launch leave Blocked (10 R301)? -/
def Context.mayStart (c : Context) (l : Launch) : Bool :=
  l.state == .blocked && l.eligible && !c.launches.any fun e => smaller e.num l.num && conflicts e.packet l.packet

/-- A launch that may leave Blocked becomes Active, and its first team waits for placement. -/
def Context.unblock (c : Context) (num now : Nat) : Context :=
  let up := fun (l : Launch) => if l.num == num && c.mayStart l then { l with state := .active, since := now } else l
  { c with launches := c.launches.map up }

/-- LAUNCH_UNBLOCK (10 R301). -/
def execLaunchUnblock (ctx num : Nat) (s : State) : Out :=
  .next (s.setContext ctx ((s.context ctx).unblock num s.now))

/-! ## Placement (10 R303 to R305) -/

/-- A team that waits for placement: a launch's next team, or a team discarded for restart (10 R318). -/
structure Work where
  ctx : Nat
  launch : Launch
  again : Option (Nat × Team)

/-- The teams that wait for placement: running contexts, Active launches. -/
def State.works (s : State) : List Work :=
  (s.contexts.map fun e =>
    if e.2.state = 1 then
      ((e.2.launches.filter fun l => l.state == .active).map fun l =>
        ((s.teams.filter fun t => t.2.ctx == e.1 && t.2.launch == l.num && t.2.restart).map fun t => ⟨e.1, l, some t⟩)
        ++ (if l.next < gridTeams l.packet then [⟨e.1, l, none⟩] else [])).flatten
    else []).flatten

/-- Order of acceptance of an unretired launch on the device (10 R303). -/
def State.launchOrder (s : State) (ctx num : Nat) : Nat :=
  match (s.context ctx).launches.find? fun l => l.num == num with
  | some l => l.order
  | none => 0

/-- Linear index of a team in its grid (01 R53). -/
def Team.index (t : Team) : Nat :=
  t.x + pktField t.packet 2 0 16 * (t.y + pktField t.packet 2 16 16 * t.z)

/-- Does a rank go before another, its earliest differing number deciding? -/
def rankBefore : List Nat → List Nat → Bool
  | a :: r, b :: q => if a = b then rankBefore r q else decide (a < b)
  | _, _ => false

/-- The rank of a team for cores: the highest PRIORITY, then teams that have started, then the launch accepted earliest, then the
team's index (10 R303, R316). A discarded team counts as a restored one does (DESIGN CHOICE, log 122). -/
def rankOf (priority : Nat) (started : Bool) (order index : Nat) : List Nat :=
  [15 - priority, if started then 0 else 1, order, index]

/-- The rank of work. -/
def Work.rank (w : Work) : List Nat :=
  rankOf (priorityOf w.launch.packet) w.again.isSome w.launch.order (match w.again with
    | some (_, x) => x.index
    | none => w.launch.next)

/-- The rank of a saved team. -/
def State.savedRank (s : State) (x : Team) : List Nat :=
  rankOf (priorityOf x.packet) true (s.launchOrder x.ctx x.launch) x.index

/-- The element of a list whose rank goes first. -/
def firstBy {α : Type} (rank : α → List Nat) : List α → Option α
  | [] => none
  | w :: r => match firstBy rank r with
    | some v => if rankBefore (rank v) (rank w) then some v else some w
    | none => some w

/-- The name under which a team that waits reserves a quadrant: a launch's next team by context and launch number, a team that has
started by its number. -/
def Work.owner (w : Work) : Nat × Nat :=
  match w.again with
  | some (t, _) => (64, t)
  | none => (w.ctx, w.launch.num)

/-- The name of a saved team. -/
def savedOwner (t : Nat) : Nat × Nat := (64, t)

/-- Address of a save slot. -/
def Context.saveAddr (c : Context) (n : Nat) : Nat := c.savebase.toNat + n * c.saveslotsz.toNat

/-- A packet with the bits of another where a mask has them. -/
def withBits (p q mask : BitVec 1024) : BitVec 1024 := (p &&& ~~~mask) ||| (q &&& mask)

/-- TEAMGRPS and SEGGRPS of a packet: QW3 [10:0] and [16:11] (02 Table 2-14). -/
def cutMask : BitVec 1024 := BitVec.ofNat 1024 (0x1FFFF * 2 ^ 192)

/-- PRODUCER: QW3 [52:47]. -/
def producerMask : BitVec 1024 := BitVec.ofNat 1024 (0x3F * 2 ^ 239)

/-- The packet of a saved team with that of its image: how many groups the team has and how they are cut into segments stay, since a
restored team keeps its segment sizes and its group numbering (10 R316); so does its PRODUCER where the image's names no group of every
segment (10 R299). -/
def keepCut (saved p : BitVec 1024) : BitVec 1024 :=
  let q := withBits p saved cutMask
  if goodSegments q then q else withBits q saved producerMask

/-- A team as the header of an image names it (10 Table 10-8): what its PACKET declares holds on the cores that take it (10 R320; log
52). -/
def Team.named (x : Team) (hd : List Byte) : Team :=
  let p := keepCut x.packet (BitVec.ofNat 1024 (fieldAt hd 128 128))
  { x with launch := fieldAt hd 8 4, x := fieldAt hd 12 2, y := fieldAt hd 14 2, z := fieldAt hd 16 2, packet := p,
           scratch := (Header.ofPacket p).scratch, fused := fusedLaunch p }

/-- MAGIC of an image. -/
def imageMagic : Nat := 0x31565354

/-- Does an image belong to this device and have its size (10 R320)? -/
def goodImage (bs : List Byte) (size : Nat) : Bool :=
  fieldAt bs 0 4 == imageMagic && fieldAt bs 4 4 == Config.impl.toNat && fieldAt bs 24 4 == size

/-- A group in the role, and within the limits, that its team's packet declares (01 R15, Table 1-11; 10 R320); one without an arena slot
has no room to spill. -/
def Group.declare (g : Group) (p : BitVec 1024) : Group :=
  let h := Header.ofPacket p
  let leads := g.segGrp == h.producer
  { g with producer := leads, vregs := if leads then h.regsP else h.regsC, sregs := h.sregs, barriers := h.barriers, tiles := h.acctiles,
           divstack := if g.arena.isSome then h.divstack else 0 }

/-- Bytes of a group block. -/
def groupBlockSize (g : Group) : Nat := (1024 + (4 * g.sregs + 127) / 128 * 128 + 128 * g.vregs + 255) / 256 * 256

/-- Bytes of a segment block. -/
def segmentBlockSize (t : Team) : Nat := (8192 + t.scratch + 65536 * (Header.ofPacket t.packet).acctiles + 255) / 256 * 256

/-- Bytes of the image of a saved team, its groups as its packet declares them. -/
def Team.imageSize (x : Team) : Nat :=
  256 + x.segs.length * segmentBlockSize x + total (fun e => groupBlockSize (e.2.declare x.packet)) x.held

/-- A saved team as its image names it; none where the image cannot be read, is another device's, or has not the size of the team it
names (10 R320). -/
def State.savedImage (s : State) (x : Team) (slot : Nat) : Option Team :=
  let c := s.context x.ctx
  match s.homeLoad c.asid.toNat (c.saveAddr slot) 256 with
  | .ok (_, hd) => if goodImage hd (x.named hd).imageSize then some (x.named hd) else none
  | .error _ => none

/-- A team as it waits to be restored: as its image names it, or as it was saved where that names none. -/
def State.asSaved (s : State) (x : Team) : Team := (x.saved.bind (s.savedImage x)).getD x

/-- The saved teams, as their images name them, that firmware has not been told it cannot restore (10 R320). -/
def State.savedTeams (s : State) : SMap Team :=
  (s.teams.filter fun t => t.2.saved.isSome && !s.fwNotes.contains (.notRestored t.1)).map fun t => (t.1, s.asSaved t.2)

/-- The arena slots a team's groups take: those it holds, or the lowest free ones; none needed when DIVSTACK is 0. -/
def State.arenaFor (s : State) (w : Work) : Option (List Nat) :=
  if (Header.ofPacket w.launch.packet).divstack = 0 then some []
  else match w.again with
    | some (_, t) => some (t.held.filterMap fun e => e.2.arena)
    | none => (s.context w.ctx).freeSlots (teamGrps w.launch.packet)

/-- The cores and arena slots of work that can be placed now. -/
def State.siteOf (s : State) (w : Work) : Option (List Nat × List Nat) :=
  match s.fitsDevice w.owner w.launch.packet, s.arenaFor w with
  | some cs, some as => some (cs, as)
  | _, _ => none

/-- A launch has started one more team; the wait of the team after it begins. -/
def Context.countTeam (c : Context) (num now : Nat) : Context :=
  { c with launches := c.launches.map fun l => if l.num = num then { l with next := l.next + 1, since := now } else l }

/-- A reserved quadrant, the one with the fewest resident groups of those not reserved; any of them would hold a team if every
resident segment were gone (10 R303). -/
def State.reserveFor (s : State) (o : Nat × Nat) : State :=
  match leastBy s.quadGroups ((run 0 8).filter fun k => !SMap.has s.reserved k) with
  | none => s
  | some k => { s with reserved := SMap.insert s.reserved k o, awaiting := s.awaiting.filter (· != o) }

/-- The teams that have waited 100 us reserve one at a time, in the order in which they did so, while a quadrant is free (10
R303). -/
def State.serveAwaiting (s : State) : State := s.awaiting.foldl State.reserveFor s

/-- Reservations are released, and the teams that wait for one are served (10 R303). -/
def State.release (s : State) (f : Nat × Nat → Bool) : State :=
  State.serveAwaiting { s with reserved := s.reserved.filter (fun e => !f e.2), awaiting := s.awaiting.filter fun o => !f o }

/-- Place a team. -/
def State.place (s : State) (w : Work) (cores arena : List Nat) : State :=
  let p := w.launch.packet
  let num := w.launch.num
  let s0 := s.release (· == w.owner)
  match w.again with
  | some (t, x) =>
    let x1 : Team := { x with segs := startSegs p cores, bars := [], held := [], restart := false, restartable := true }
    (s0.setTeam t x1).startGroups w.ctx t p cores arena
  | none =>
    let c := s0.context w.ctx
    let s1 := s0.setContext w.ctx { c.countTeam num s0.now with arena := c.arena ++ arena }
    let s2 : State := { s1 with nextTeam := s1.nextTeam + 1 }
    (s2.setTeam s1.nextTeam (Team.start w.ctx num p w.launch.next cores)).startGroups w.ctx s1.nextTeam p cores arena

/-- Does a saved team that fits go before work of a rank (10 R303, R316)? -/
def State.savedFirst (s : State) (rank : List Nat) : Bool :=
  s.savedTeams.any fun t => rankBefore (s.savedRank t.2) rank && (s.fitsDevice (savedOwner t.1) t.2.packet).isSome

/-- The work that is placed next: the first in rank of what fits, unless a saved team that fits goes before it. -/
def State.nextWork (s : State) : Option Work :=
  match firstBy Work.rank (s.works.filter fun w => (s.siteOf w).isSome) with
  | some w => if s.savedFirst w.rank then none else some w
  | none => none

/-- TEAM_PLACEMENT (10 R303, R304, R316): the first team in order that fits. When firmware asks for the restore of a saved team is
open: TEAM_RESTORE is that request (log 15). -/
def execTeamPlacement (s : State) : Out :=
  match s.nextWork with
  | none => .next s
  | some w => match s.siteOf w with
    | none => .next s
    | some (cs, as) => .next (s.place w cs as)

/-- Since when work waits. -/
def Work.since (w : Work) : Nat :=
  match w.again with
  | some (_, x) => x.since
  | none => w.launch.since

/-- The teams of a launch that wait for cores, fit on none, and neither hold a reservation nor wait for one, each with the time its
wait began. A team that lacks arena slots alone fits. -/
def State.waiters (s : State) (ctx num : Nat) : List (Nat × (Nat × Nat)) :=
  let misfit := fun o p => (s.fitsDevice o p).isNone && !s.awaiting.contains o && !s.reserved.any fun e => e.2 == o
  let saved := s.savedTeams.filter fun t => t.2.ctx == ctx && t.2.launch == num && misfit (savedOwner t.1) t.2.packet
  let others := s.works.filter fun w => w.ctx == ctx && w.launch.num == num && misfit w.owner w.launch.packet
  saved.map (fun t => (t.2.since, savedOwner t.1)) ++ others.map fun w => (w.since, w.owner)

/-- QUADRANT_RESERVATION (10 R303): a team of the launch has waited 100 us without fitting: the one that has waited longest takes its
turn (log 48). -/
def execQuadrantReservation (ctx num : Nat) (s : State) : Out :=
  match leastBy Prod.fst (s.waiters ctx num) with
  | none => .next s
  | some (_, o) => .next { s with awaiting := s.awaiting ++ [o] }.serveAwaiting

/-! ## Retirement (10 R302) -/

/-- Have all teams of a launch started and finished, with their positions? -/
def State.launchOver (s : State) (ctx : Nat) (l : Launch) : Bool :=
  l.state == .active && decide (gridTeams l.packet ≤ l.next)
  && !s.teams.any fun t => t.2.ctx == ctx && t.2.launch == l.num && !t.2.handler

/-- LAUNCH_RETIRE (10 R302, 12 R358): the SETMASK events, then the completion record of a host packet. -/
def execLaunchRetire (ctx num : Nat) (s : State) : Out :=
  match (s.context ctx).launches.find? (fun l => l.num == num && s.launchOver ctx l) with
  | none => .next s
  | some l =>
    let s1 := s.eventNow ctx 0 (BitVec.ofNat 256 (bits l.packet.toNat 768 256))
    let c := s1.context ctx
    let s2 := s1.setContext ctx { c with launches := c.launches.filter fun k => k.num != num }
    let s3 := s2.release (· == (ctx, num))
    .next (match l.origin with
      | .host p q n => s3.complete p q n num 0
      | .device => s3)

end Sys2Proof.Machine
end

