-- ==== Sys2Proof/Machine/Scratchpad.lean ====
section
/-! DEFINITION. Scratchpad and team-window instructions (05 R156 to R159, R184). Each performs when it issues, so one
group's accesses to a segment perform in program order. -/

namespace Sys2Proof.Machine

/-- The subscription a handle names (05 Table 5-9): home device, slice, entry, generation; none for a failure. -/
def handleParts (h : Word) : Option (Nat × Nat × Nat × BitVec 6) :=
  if h.getLsbD 31 then none
  else some (bits h.toNat 22 8, bits h.toNat 16 6, bits h.toNat 6 10, BitVec.ofNat 6 (bits h.toNat 0 6))

/-- The empty notices for lines that go from full to empty and are bound to STRICT subscriptions, each with the home's
device (05 R157). A STRICT SUBSCR whose home has not answered, by push 0 or handle, binds its line without a home to tell: emptying the
line then sends no notice (DESIGN CHOICE, log 114). -/
def Segment.notices (seg : Segment) (dev : Nat) (lines : List Nat) : List (Nat × Msg) :=
  lines.filterMap fun l =>
    match seg.isFull l, SMap.find seg.bound l with
    | true, some b =>
      match b.strict, b.handle.bind handleParts with
      | true, some (d, sl, en, gen) => some (d, .notice dev sl en gen)
      | _, _ => none
    | _, _ => none

/-- The lapse tag of a subscription whose home is lost: SEQ past the last push, OVR all ones, DATA kept (05 R189). Before push 0
there is no last SEQ, and SEQ is 0; TIME is kept as DATA is (log 103). -/
def Segment.lapseTag (g : Segment) (line : Nat) (b : Bound) : Segment :=
  let q := match b.last with
    | some x => x + 1
    | none => 0
  (g.write (128 * line + 112) (toBytes 4 q.toNat ++ toBytes 4 0xFFFFFFFF)).setFull line true

/-- The lapse tags that a restored segment has still to get; it takes no more pushes on those lines (05 R189; log 89). -/
def Segment.lapseDue (g : Segment) : Segment :=
  let k := (g.bound.filter fun e => e.2.due).foldl (fun k e => k.lapseTag e.1 e.2) g
  { k with bound := k.bound.map fun e => (e.1, { e.2 with due := false }) }

/-- Empty lines of a segment, sending the notices. -/
def State.emptyLines (s : State) (t k : Nat) (lines : List Nat) : State :=
  match s.segment t k with
  | none => s
  | some seg =>
    (seg.notices s.dev lines).foldl (fun st m => st.sendTo (seg.core / 128) m.1 (s.tagOfTeam t) m.2)
      (s.setSegment t k (lines.foldl (fun g l => g.setFull l false) seg))

/-- What LDS and LDS.TAKE read: register writes of each lane. -/
def spReads (seg : Segment) (z vd : Nat) (ls : List (Nat × Nat)) : List ((Nat × Nat) × Word) :=
  (ls.map fun e => wordWrites vd e.1 (loadWords z (seg.read e.2 (szBytes z)))).flatten

/-- The lines of the addresses that are not full. -/
def emptyOf (seg : Segment) (ls : List (Nat × Nat)) : List Nat := (linesOf ls).filter fun l => !seg.isFull l

/-- When the read a path is in first found a line empty: now, unless it waits already. -/
def Ctx.stallStart (c : Ctx) : Nat :=
  match c.p.wait with
  | .emptyLine _ _ start _ _ => start
  | _ => c.s.now

/-- Does a path wait in an LDS.TAKE of these lines of the segment that could take them now, issued before `start`, or then
by a group of a lower GRPID (05 Table 5-4)? -/
def takesFirst (g : Group) (seg : Segment) (k : Nat) (lines : List Nat) (start grpid : Nat)
    (p : Option Path) : Bool :=
  match p with
  | none => false
  | some x =>
    match x.wait with
    | .emptyLine j ls from_ _ true =>
      j == k && ls.any lines.contains && ls.all seg.isFull
        && (decide (from_ < start) || (from_ == start && decide (g.grpid < grpid)))
    | _ => false

/-- Does an older LDS.TAKE of the team take these lines first (05 Table 5-4)? -/
def State.olderTake (s : State) (team : Nat) (seg : Segment) (k : Nat) (lines : List Nat) (start grpid : Nat) : Bool :=
  s.groups.any fun e => e.2.team == team && e.2.status == .running && !e.2.frozen
    && (takesFirst e.2 seg k lines start grpid e.2.slotA || takesFirst e.2 seg k lines start grpid e.2.slotB)

/-- Wait in Empty-line for lines to become full (05 R157), in an LDS.TAKE or not. -/
def Ctx.waitLines (c : Ctx) (k : Nat) (ls : List (Nat × Nat)) (take : Bool) : Out :=
  c.stall (.emptyLine k (linesOf ls) c.stallStart false take)

/-- LDS that splits the group (01 R39, 05 R157): slot A goes on with the lanes whose lines are full, slot B waits for the
data of the others in the LDS it has issued, and stands at the next instruction once it has them: no trap record shows it before (10
R310), a save has it at that LDS (10 Table 10-7), and GSTAT.ELT limits its stall. The lanes of the path that a guard masks off neither
hit nor miss; slot B takes them (DESIGN CHOICE, log 97). -/
def Ctx.splitLds (c : Ctx) (k z vd : Nat) (seg : Segment) (hit miss : List (Nat × Nat)) : Out :=
  let mine := maskOfList (hit.map Prod.fst)
  let pa := c.p.onLanes mine
  let pb := { c.p.onLanes (~~~mine) with wait := .emptyLine k (linesOf miss) c.s.now false false }
  let g1 := c.g.setMany (spReads seg z vd hit)
  c.done { (g1.setPath .a (some pa)).setPath .b (some pb) with split := some 0 }

/-- Is the path in a read of the segment that it has issued, its lines empty? -/
def Path.readsSegment (p : Path) (k : Nat) : Bool :=
  match p.wait with
  | .emptyLine j _ _ _ _ => j == k
  | _ => false

/-- Does the other slot's path wait in a read of the segment that it issued first (05 R158; 08 R250, R252; DEDUCED,
log 137)? -/
def Ctx.readsFirst (c : Ctx) (k : Nat) : Bool := !c.p.isHeld && (c.g.path c.ps.other).any fun p =>
  p.readsSegment k && c.s.readsBefore c.key c.g p.wait

/-- A scratchpad access with an active lane waits before issue for an earlier acquire atomic of its group (08 Table 8-3 row 5), and for
a read of its segment that the other path has issued. -/
def Ctx.inOrder (c : Ctx) (k : Nat) (f : Out) : Out :=
  if c.act ≠ 0 ∧ (c.s.acquiring c.g || c.readsFirst k) then c.stall c.p.blocked else f

/-- LDS (05 Table 5-3). -/
def execLds (x : BitVec 7) (w : BitVec 1) (i : BitVec 7) (z : BitVec 3) (d : BitVec 7) (s : State) : Out :=
  issue (.lds x w i z d) s fun c =>
    let n := szBytes z.toNat
    let ls := c.spAddr w x i n
    let k := c.spSeg w x
    c.spCheck k n n ls <| c.inOrder k <|
      match c.s.segment c.g.team k with
      | none => c.done c.g
      | some seg =>
        if (emptyOf seg ls).isEmpty then c.writeMany (spReads seg z.toNat d.toNat ls) 0
        else
          let hit := ls.filter fun e => seg.isFull (e.2 / 128)
          let miss := ls.filter fun e => !seg.isFull (e.2 / 128)
          if !hit.isEmpty && !c.p.isHeld && c.ps == .a && c.g.slotB.isNone && c.g.split.isNone then
            c.splitLds k z.toNat d.toNat seg hit miss
          else c.waitLines k ls false

/-- STS (05 Table 5-3): lanes perform in ascending order; the bytes may meet the engines (06 Table 6-3). -/
def execSts (x : BitVec 7) (w : BitVec 1) (i : BitVec 7) (z : BitVec 3) (d : BitVec 7) (s : State) : Out :=
  issue (.sts x w i z d) s fun c =>
    let n := szBytes z.toNat
    let ls := c.spAddr w x i n
    let k := c.spSeg w x
    c.spCheck k n n ls <| c.inOrder k <|
      match c.s.segment c.g.team k with
      | none => c.done c.g
      | some seg =>
        let seg' := ls.foldl (fun g e => g.write e.2 (c.g.storeBytes z.toNat d.toNat e.1)) seg
        { c with s := (c.s.setSegment c.g.team k seg').touch c.g.team k (ls.map fun (e : Nat × Nat) => run e.2 n).flatten }.done c.g

/-- LDS.TAKE (05 Table 5-3): reads and empties in one step, after an older one that waits for its lines (05 Table 5-4). -/
def execLdsTake (x : BitVec 7) (w : BitVec 1) (i : BitVec 7) (z : BitVec 3) (d : BitVec 7) (s : State) : Out :=
  issue (.ldsTake x w i z d) s fun c =>
    let n := szBytes z.toNat
    let ls := c.spAddr w x i n
    let k := c.spSeg w x
    c.spCheck k n n ls <| c.inOrder k <|
      match c.s.segment c.g.team k with
      | none => c.done c.g
      | some seg =>
        if (emptyOf seg ls).isEmpty && !c.s.olderTake c.g.team seg k (linesOf ls) c.stallStart c.g.grpid then
          { c with s := c.s.emptyLines c.g.team k (linesOf ls) }.writeMany (spReads seg z.toNat d.toNat ls) 0
        else c.waitLines k ls true

/-- SPFILL (05 Table 5-3, R157): a release, so every earlier access of the group has performed before the lines read
full; the path waits before issue until then. -/
def execSpfill (x : BitVec 7) (w : BitVec 1) (i : BitVec 7) (s : State) : Out :=
  issue (.spfill x w i) s fun c =>
    let ls := c.spAddr w x i 128
    let k := c.spSeg w x
    c.spCheck k 1 1 ls <|
      if ls.isEmpty then c.done c.g
      else if !c.s.released c.g then c.stall .operand
      else match c.s.segment c.g.team k with
        | none => c.done c.g
        | some seg =>
          { c with s := c.s.setSegment c.g.team k ((linesOf ls).foldl (fun g l => g.setFull l true) seg) }.done c.g

/-- SPCLEAR (05 Table 5-3). -/
def execSpclear (x : BitVec 7) (w : BitVec 1) (i : BitVec 7) (s : State) : Out :=
  issue (.spclear x w i) s fun c =>
    let ls := c.spAddr w x i 128
    let k := c.spSeg w x
    c.spCheck k 1 1 ls <| c.inOrder k <| { c with s := c.s.emptyLines c.g.team k (linesOf ls) }.done c.g

end Sys2Proof.Machine
end

