-- ==== Sys2Proof/Machine/EvPreempt.lean ====
section
/-! DEFINITION. Pre-emption: the collector, the save image and its restore (10 R314 to R320; 05 R188). -/

namespace Sys2Proof.Machine

/-! ## Requests and acknowledgements (10 R314) -/

/-- Change the groups of a team. -/
def State.mapTeam (s : State) (t : Nat) (f : Group → Group) : State :=
  { s with groups := s.groups.map fun e => if e.2.team = t ∧ e.1 % 128 < 64 then (e.1, f e.2) else e }

/-- Set or clear the pre-emption freeze of a group; one that is thawed looks at its waits (01 R46). -/
def Group.setPreempt (b : Bool) (g : Group) : Group := ({ g with freeze := { g.freeze with preempt := b } } : Group).reevaluate

/-- Are all groups of the team Done? -/
def State.allDone (s : State) (t : Nat) : Bool := (s.teamGroups t).all fun e => e.2.status == .done

/-- Start the pre-emption of a resident team that is not over; a second request merges with the first (10 Table 10-7). -/
def State.requestPreempt (s : State) (t : Nat) (cmd : Option Nat) : State :=
  match s.team t with
  | none => s
  | some x =>
    if !x.resident || s.allDone t then s
    else if s.preempts.any (fun p => p.team == t) then
      let merge := fun (p : Preempt) => if p.team = t ∧ p.cmd = none then { p with cmd := cmd } else p
      { s with preempts := s.preempts.map merge }
    else { s.mapTeam t (Group.setPreempt true) with preempts := s.preempts ++ [⟨t, [], cmd, none⟩] }

/-- PREEMPT_REQUEST (10 R314 step 1). -/
def execPreemptRequest (team : Nat) (s : State) : Out := .next (s.requestPreempt team none)

/-- Steps 1 and 2 for a group: at a boundary, with everything it issued complete. -/
def State.groupQuiet (s : State) (g : Group) : Bool :=
  !g.inIssue && !g.completing && g.pending.isNone && g.loads.isEmpty && g.answers.isEmpty && g.queue.isEmpty
  && !s.farPending g.uid && (g.status == .trapped || (g.dueStep.isNone && g.mcheck.isEmpty))

/-- Steps 1 and 2 for a team; no service group of it is running (10 Table 10-7). -/
def State.teamQuiet (s : State) (t : Nat) : Bool :=
  (s.teamGroups t).all (fun e => s.groupQuiet e.2)
  && !s.groups.any fun e => e.2.team == t && decide (64 ≤ e.1 % 128)

/-- Is a message a push to the team? -/
def Msg.pushTo (t : Nat) : Msg → Bool
  | .push _ _ _ team _ _ _ _ _ => team == t
  | _ => false

/-- Subscription entries of a device's team in a slice. -/
def State.subsOf (s : State) (h dev t : Nat) : List (Nat × SubEntry) :=
  (s.slice h).subs.filter fun e => e.2.team == t && e.2.dev == dev

/-- Those of a team here. -/
def State.teamSubs (s : State) (h t : Nat) : List (Nat × SubEntry) := s.subsOf h s.dev t

/-- The reachable other devices that home subscriptions of a team's segments (05 R179). -/
def State.homeDevices (s : State) (t : Nat) : List Nat :=
  let segs := match s.team t with
    | some x => x.segs
    | none => []
  let of := fun (b : Bound) => (b.handle.bind handleParts).map fun p => p.1
  ((segs.map fun g => g.2.bound.filterMap fun b => of b.2).flatten.filter fun d =>
    d != s.dev && (s.remote d).reachable).eraseDups

/-- Has an engine class reached its point (10 Table 10-6)? -/
def State.classStopped (s : State) (t cls : Nat) : Bool :=
  match cls with
  | 0 => s.teamQuiet t
  | 3 => !(s.teamGroups t).any fun e => s.sent.any fun c => c.uid == e.2.uid
  | 4 => (s.teamGroups t).all fun e => (s.forcedBy e.2.uid).isEmpty
  | 5 => s.slices.all (fun h => (s.teamSubs h.1 t).all fun e => e.2.park) && !s.net.any (Msg.pushTo t)
    && s.preempts.any (fun p => p.team == t && p.homes == some [])
  | _ => true

/-- Once a team's groups are quiet, the homes of its subscriptions on other devices are asked to park their entries (05 R188). -/
def State.askHomes (s : State) (t : Nat) : State :=
  let ds := s.homeDevices t
  let note := fun (p : Preempt) => if p.team = t ∧ p.homes = none then { p with homes := some ds } else p
  ds.foldl (fun st d => st.sendTo 0 d (s.tagOfTeam t) (.park s.dev (s.tagOfTeam t) t true [])) { s with preempts := s.preempts.map note }

/-- ENGINE_ACK (10 R314 step 3): the engines are stopped after steps 1 and 2. -/
def execEngineAck (team cls : Nat) (s : State) : Out :=
  let may := s.preempts.any fun p => p.team == team && decide (cls < 6) && !p.acks.contains cls
    && (cls == 0 || p.acks.contains 0) && s.classStopped team cls
  let ack := fun (p : Preempt) => if p.team = team then { p with acks := p.acks ++ [cls] } else p
  if may then
    let s1 : State := { s with preempts := s.preempts.map ack }
    .next (if cls = 0 then s1.askHomes team else s1)
  else .next s

/-- Park a device's team's entries in a slice. -/
def State.parkIn (s : State) (h dev t : Nat) : State :=
  let x := s.slice h
  let put := fun (e : Nat × SubEntry) => if e.2.team = t ∧ e.2.dev = dev then (e.1, { e.2 with park := true }) else e
  s.setSlice h { x with subs := x.subs.map put }

/-- An entry of a team that runs again: its core, and the pending push of a COALESCE entry goes out (05 R188). -/
def State.rebind (s : State) (h : Nat) (cores : List (Nat × Nat)) (e : Nat × SubEntry) : State :=
  let core := match SMap.find cores e.2.seg with
    | some c => c
    | none => e.2.core
  let x := s.slice h
  let keep := if e.2.strict then e.2.held else []
  let s1 := s.setSlice h { x with subs := SMap.insert x.subs e.1 { e.2 with core := core, park := false, held := keep } }
  match e.2.strict, e.2.held with
  | false, p :: _ => s1.sendPush h e.1 { e.2 with strict := e.2.state == .lapsed } p
  | _, _ => s1

/-- The entries of a device's team that runs again are unparked here (05 R188). -/
def State.unparkHere (s : State) (dev t : Nat) (cores : List (Nat × Nat)) : State :=
  (SMap.keys s.slices).foldl (fun st h => (st.subsOf h dev t).foldl (fun u e => u.rebind h cores e) st) s

/-- The cores of a team's segments. -/
def coresOf (segs : SMap Segment) : List (Nat × Nat) := segs.map fun g => (g.1, g.2.core)

/-- A team runs again: its entries are unparked at their homes, here and on other devices (05 R188). -/
def State.unpark (s : State) (t : Nat) (segs : SMap Segment) : State :=
  (s.homeDevices t).foldl (fun st d => st.sendTo 0 d (s.tagOfTeam t) (.park s.dev (s.tagOfTeam t) t false (coresOf segs))) (s.unparkHere s.dev t (coresOf segs))

/-- Is a message a request to park or unpark the team, or an answer to one? -/
def Msg.isPark (t : Nat) : Msg → Bool
  | .park _ _ team _ _ => team == t
  | .parkAck _ team => team == t
  | _ => false

/-- The entries of a team of another device are parked here as it asks. -/
def State.parkAsked (s : State) : Msg → State
  | .park dev _ t true _ => (SMap.keys s.slices).foldl (fun st h => st.parkIn h dev t) s
  | _ => s

/-- Does a request to park still wait for a push to be written that a home here sent for one of the team's entries (05 R188)? -/
def State.parkWaits (s : State) : Msg → Bool
  | .park dev _ t true _ =>
    s.slices.any fun h => (s.subsOf h.1 dev t).any fun e => s.pushFlies (handleOf s.dev h.1 e.1 e.2.gen)
  | _ => false

/-- What a request or answer about parking does (05 R188). -/
def State.takePark (s : State) : Msg → State
  | .park dev tag t true _ => s.sendTo 0 dev tag (.parkAck s.dev t)
  | .park dev _ t false cores => s.unparkHere dev t cores
  | .parkAck dev t =>
    let note := fun (p : Preempt) => if p.team = t then { p with homes := p.homes.map fun l => l.filter (· != dev) } else p
    { s with preempts := s.preempts.map note }
  | _ => s

/-- SUBSCRIPTION_PARK (05 R188): once the team's groups are quiet, its entries in the slice; also what another device asks of the
homes here for its team, acknowledged once every push sent for it has been written, or answers. -/
def execSubscriptionPark (slice team : Nat) (s : State) : Out :=
  let s1 := if s.preempts.any (fun p => p.team == team && p.acks.contains 0) then s.parkIn slice s.dev team else s
  let s2 := (s1.net.filter (Msg.isPark team)).foldl State.parkAsked s1
  match s2.takeMsg (fun m => m.isPark team && !s2.parkWaits m) 0 with
  | some (m, s3) => .next (s3.takePark m)
  | none => .next s2

/-! ## The save image (10 R319, Tables 10-8 to 10-10) -/

/-- Pad a byte list with zeros to a multiple of `n`. -/
def padTo (n : Nat) (bs : List Byte) : List Byte := bs ++ List.replicate ((n - bs.length % n) % n) 0

/-- The 128 bytes of a packet. -/
def packetBytes (p : BitVec 1024) : List Byte := toBytes 128 p.toNat

/-- The bits of a number given by a predicate on `0 .. n - 1`. -/
def bitsOf (n : Nat) (f : Nat → Bool) : Nat := ((run 0 n).map fun i => if f i then 2 ^ i else 0).foldl (· + ·) 0

/-- The team header (10 Table 10-8). -/
def teamHeader (t : Team) (size : Nat) : List Byte :=
  layout 128 [(0, imageMagic), (4, Config.impl.toNat), (8, t.launch), (12, t.x), (14, t.y), (16, t.z),
    (18, bitsOf 16 fun n => (t.barrier n).ph), (20, if t.restartable then 1 else 0), (24, size)] ++ packetBytes t.packet

/-- The configuration of a tile in an image. -/
def cfgBytes (c : Option TileCfg) : List Byte :=
  match c with
  | some c => layout 32 ((0, if c.valid then 1 else 0) :: (run 0 5).map fun i => (4 + 4 * i, (c.words.getD i 0).toNat))
  | none => layout 32 []

/-- Bytes private to the implementation (log 30). -/
def privateBytes (free n : Nat) : List Byte := (run free n).map Config.privateByte

/-- A segment block (10 Table 10-9). -/
def segmentBlock (t : Team) (g : Segment) (free : Nat) : List Byte :=
  let tiles := (Header.ofPacket t.packet).acctiles
  padTo 256 (privateBytes free 256
    ++ toBytes 256 (bitsOf 2048 fun i => SMap.getD g.full i false)
    ++ ((run 0 4).map fun n => toBytes 16 (SMap.getD g.peers n 0).toNat).flatten
    ++ ((run 0 4).map fun n => cfgBytes (SMap.find g.cfg n)).flatten
    ++ privateBytes (free + 256) 4608
    ++ List.replicate 2880 0
    ++ (run 0 t.scratch).map (fun a => SMap.getD g.spad a 0)
    ++ ((run 0 (16384 * tiles)).map fun e => toBytes 4 (SMap.getD g.tiles e 0).toNat).flatten)

/-- Can the path issue, as far as its wait goes: it is ready, the lines it read empty have become full, or its lanes' arrivals have
passed the barrier (01 R43, R44)? -/
def Path.canIssue (t : Team) (grp : Nat) (p : Path) : Bool :=
  match p.wait with
  | .ready => !p.atJoin
  | .emptyLine _ _ _ woken _ => woken
  | .barrier n => (t.barrier n).passed grp p.mask
  | _ => false

/-- The code of a wait: Parked, Empty-line, Barrier, or none of these (01 R43). -/
def waitCode (p : Option Path) : Nat :=
  match p with
  | some x => match x.wait with
    | .parked _ => 3
    | .emptyLine _ _ _ _ _ => 5
    | .barrier _ => 4
    | _ => 1
  | none => 1

/-- The code that the waits of a running group's slots give (01 R43, Table 1-8). -/
def Group.runCode (t : Team) (g : Group) : Nat :=
  if g.slotA.any (Path.canIssue t g.grpid) || g.slotB.any (Path.canIssue t g.grpid) then 0
  else if waitCode g.slotA = 3 ∨ waitCode g.slotB = 3 then 3
  else if waitCode g.slotA = 5 ∨ waitCode g.slotB = 5 then 5
  else if waitCode g.slotA = 4 ∨ waitCode g.slotB = 4 then 4
  else 1

/-- The state code of a group (01 Table 1-8); of a Frozen one that which it held before. -/
def Group.stateCode (t : Team) (g : Group) : Nat :=
  match g.status with
  | .done => 8
  | .trapped => 6
  | .translation => 2
  | .running => g.before.getD (g.runCode t)

/-- XFLAGS. -/
def Group.xflags (g : Group) : Nat :=
  (if g.freeze.host || g.freeze.halt || g.freeze.step then 1 else 0) + (if g.status = .trapped ∧ g.svcPend then 2 else 0)

/-- Arrival masks of a group at the team's barriers. -/
def barrierFields (t : Team) (grp : Nat) : List (Nat × Nat) :=
  ((run 0 16).map fun n =>
    [(96 + 8 * n, (SMap.getD (t.barrier n).ac grp 0).toNat), (100 + 8 * n, (SMap.getD (t.barrier n).an grp 0).toNat)]).flatten

/-- A group block; `trec` is the trap record of a Trapped group (10 Table 10-10). -/
def groupBlock (t : Team) (g : Group) (trec : List Byte) : List Byte :=
  let pred := fun (l : Nat) => toBytes 4 (bitsOf 32 fun n => g.pr n l)
  padTo 256 (layout 256 ([(0, g.gstat.toNat), (4, g.stateCode t), (5, g.dsp), (7, g.xflags), (8, g.ex.toNat),
      (80, (g.counter 0).toNat), (84, (g.counter 1).toNat), (88, (g.counter 2).toNat)]
      ++ pathFields 16 g.slotA ++ pathFields 48 g.slotB ++ barrierFields t g.grpid)
    ++ trec
    ++ ((run 0 32).map pred).flatten ++ List.replicate 384 0
    ++ padTo 128 ((run 0 g.sregs).map fun r => toBytes 4 (g.sr r).toNat).flatten
    ++ ((run 0 g.vregs).map fun r => ((run 0 32).map fun l => toBytes 4 (g.vr r l).toNat).flatten).flatten)

/-- Groups of a team in GRPID order, with their keys. -/
def State.inOrder (s : State) (t : Nat) : List (Nat × Group) :=
  let gs := s.teamGroups t
  (gs.foldl (fun (m : SMap (Nat × Group)) e => SMap.insert m e.2.grpid e) []).map Prod.snd

/-- The record of a Trapped group as memory holds it, else zeros. -/
def State.trapBytes (s : State) (key : Nat) (g : Group) : List Byte :=
  if g.status = .trapped then
    match s.homeLoad (s.asidOf g) (s.recordAddr g.ctx (key / 128) (key % 128)) 256 with
    | .ok (_, bs) => bs
    | .error _ => List.replicate 256 0
  else List.replicate 256 0

/-- The image of a team: header, segment blocks, group blocks (10 R319). -/
def State.imageOf (s : State) (t : Nat) (x : Team) : List Byte :=
  let segs := ((number 0 x.segs).map fun e => segmentBlock x e.2.2 (s.free + 4864 * e.1)).flatten
  let grps := ((s.inOrder t).map fun e => groupBlock x e.2 (s.trapBytes e.1 e.2)).flatten
  let body := segs ++ grps
  teamHeader x (256 + body.length) ++ body

/-- Write a run at the homes with write permission, each line as one write (log 83); the first failure stops it. -/
def State.homeWriteRun (s : State) (asid va : Nat) (bs : List Byte) : Except XKind State :=
  (cutBytes (cuts 128 (bs.length / 128 + 2) va bs.length) bs).foldl (fun acc w =>
    match acc with
    | .error k => .error k
    | .ok st => match st.translate asid w.1 needW with
      | .ok t => .ok (st.homeRun t.tag w.2)
      | .error k => .error k) (.ok s)

/-- A run of bytes becomes undefined: a save slot (10 R319), or the staging area of a collective (11 R390; log 7). -/
def State.spoilRun (s : State) (asid va size : Nat) : State :=
  let s1 := (cuts 256 (size / 256 + 2) va size).foldl (fun st w =>
    st.writeVirt asid w.1 ((run (st.free + (w.1 - va)) w.2).map Config.freeByte)) s
  { s1 with free := s1.free + size }

/-! ## The decision (10 R318, R319) -/

/-- The team's positions leave the engines of a core, and its slots the trap queue. -/
def Core.without (c : Core) (t : Nat) (slots : List Nat) : Core :=
  { c with matq := c.matq.filter (fun m => m.team != t), copies := c.copies.filter (fun j => j.team != t),
           trapq := c.trapq.filter fun k => !slots.contains k }

/-- The team leaves its cores. -/
def State.vacate (s : State) (t : Nat) : State :=
  let mine := s.teamGroups t
  let slotsOn := fun (core : Nat) => (mine.filter fun e => e.1 / 128 == core).map fun e => e.1 % 128
  { s with groups := s.groups.filter (fun e => !(e.2.team == t && decide (e.1 % 128 < 64))),
           cores := s.cores.map fun e => (e.1, e.2.without t (slotsOn e.1)) }

/-- Discard a team for restart: it keeps its launch, coordinates and arena slots (10 R318). -/
def State.discard (s : State) (t : Nat) (x : Team) : State :=
  let gs := s.inOrder t
  (s.vacate t).setTeam t { x with held := gs, restart := true, since := s.now }

/-- A pre-emption ends: its record goes, and a PREEMPT command that waits for it learns the result; it completes with
the last of its teams, and HALT instructions that waited for it take their turn (12 R356, Table 12-5). -/
def State.endPreempt (s : State) (t result : Nat) : State :=
  let cmd := (s.preempts.find? fun p => p.team == t).any fun p => p.cmd.isSome
  let s1 : State := { s with preempts := s.preempts.filter fun p => p.team != t }
  if !cmd then s1
  else
    let code := if bits s1.ctxstat.toNat 0 8 = 0 then result else bits s1.ctxstat.toNat 0 8
    let busy := s1.preempts.any fun p => p.cmd.isSome
    let s2 : State := { s1 with ctxstat := BitVec.ofNat 32 ((if busy then 2 ^ 31 else 0) + code) }
    if busy then s2
    else s2.halts.foldl (fun st h => st.haltContext h.1 h.2 0) { s2 with halts := [] }

/-- Firmware is told, once. -/
def State.tell (s : State) (n : FwNote) : State :=
  if s.fwNotes.contains n then s else { s with fwNotes := s.fwNotes ++ [n] }

/-- A team that is not pre-empted after all is thawed, its entries released with the pushes they keep (05 R188, 10 R319). -/
def State.giveBack (s : State) (t result : Nat) : State :=
  let segs := match s.team t with
    | some x => x.segs
    | none => []
  ((s.unpark t segs).mapTeam t (Group.setPreempt false)).endPreempt t result

/-- A team that cannot be saved is given back, and firmware is told (10 R319). -/
def State.cannotSave (s : State) (t result : Nat) : State := (s.giveBack t result).tell (.notSaved t result)

/-- The lowest free save slot. -/
def Context.saveSlot (c : Context) : Option Nat :=
  (run 0 (c.saveUsed.length + 1)).find? fun n => !c.saveUsed.contains n && decide (n < c.saveslots.toNat)

/-- Save a team whole: its image in the slot, its engine work with it (10 R319). -/
def State.save (s : State) (t : Nat) (x : Team) : State :=
  let c := s.context x.ctx
  let img := s.imageOf t x
  match c.saveSlot with
  | none => s.cannotSave t 3
  | some n =>
    if c.saveslotsz.toNat < img.length then s.cannotSave t 3
    else match s.homeWriteRun c.asid.toNat (c.saveAddr n) img with
      | .error _ => (s.spoilRun c.asid.toNat (c.saveAddr n) c.saveslotsz.toNat).cannotSave t 4
      | .ok s1 =>
        let gs := (s1.inOrder t).map fun e => (e.1, { e.2 with savedFrz := bit e.2.xflags 0 })
        let mats := (s1.cores.map fun e => e.2.matq.filter fun m => m.team == t).flatten
        let cps := (s1.cores.map fun e => e.2.copies.filter fun j => j.team == t).flatten
        let c1 := s1.context x.ctx
        let s2 := (s1.vacate t).setContext x.ctx { c1 with saveUsed := c1.saveUsed ++ [n] }
        let y : Team := { x with saved := some n, held := gs, heldMat := mats, heldCopy := cps, since := s.now }
        let s3 : State := { s2.setTeam t y with free := s2.free + 4864 * x.segs.length }
        s3.endPreempt t 0

/-- PREEMPT_DECIDE (10 R314 step 4, R318). -/
def execPreemptDecide (team : Nat) (s : State) : Out :=
  match s.preempts.find? (fun p => p.team == team) with
  | none => .next s
  | some p =>
    match s.team team with
    | none => .next (s.endPreempt team 0)
    | some x =>
      if s.allDone team then .next (s.giveBack team 0)
      else if (run 0 6).all (fun c => p.acks.contains c) && s.teamQuiet team then
        if x.restartable && !(s.teamGroups team).any (fun e => e.2.status == .trapped) then
          .next ((s.discard team x).endPreempt team 0)
        else .next (s.save team x)
      else .next s

/-! ## Restore (10 R316, R320; 01 R46) -/

/-- A restored path: where it still stands at its instruction it keeps its wait and its replay mask, to be looked at again. -/
def restoredWait (old new : Option Path) : Option Path :=
  match old, new with
  | some o, some n => if o.pc = n.pc then some { n with wait := o.wait, replay := o.replay } else some n
  | _, n => n

/-- What holds a restored group: a group saved as held is held by what holds it now; HOSTFRZ that software has changed holds it as
a host freeze does, or frees it (10 R320). -/
def Group.restoredFreeze (g : Group) (held halted : Bool) : Freeze :=
  if held then
    let f := { g.freeze with preempt := false, halt := g.freeze.halt && halted }
    if g.savedFrz then f else { f with host := true }
  else { Freeze.none with halt := halted }

/-- Words of a byte list from an offset. -/
def wordAt (bs : List Byte) (off : Nat) : Word := BitVec.ofNat 32 (fieldAt bs off 4)

/-- A group as its block says, what the image does not hold as it was saved (10 Table 10-10, R313). -/
def Group.restore (g : Group) (bs : List Byte) (halted : Bool) : Group :=
  let ex := wordAt bs 8
  let ps := fitPaths (restoredWait g.slotA (pathOf bs 16)) (restoredWait g.slotB (pathOf bs 48)) ex
  let xf := fieldAt bs 7 1
  let sOff := 1024
  let vOff := sOff + (4 * g.sregs + 127) / 128 * 128
  Group.reevaluate { g with
    gstat := wordAt bs 0 &&& 0x0FC0003F
    status := match fieldAt bs 4 1 with
      | 6 => .trapped
      | 8 => .done
      | _ => .running
    svcPend := fieldAt bs 4 1 == 6 && bit xf 1
    dsp := fieldAt bs 5 1
    freeze := g.restoredFreeze (bit xf 0) halted
    before := if fieldAt bs 4 1 = 6 ∨ fieldAt bs 4 1 = 8 then none else some (fieldAt bs 4 1)
    ex := ex
    slotA := ps.1
    slotB := ps.2
    reeval := true
    split := if ps.2.isSome then g.split else none
    batch := SMap.putAll 0 [] ((run 0 3).map fun k => (k, wordAt bs (80 + 4 * k)))
    p := SMap.putAll 0 [] ((run 0 32).map fun n => (n, maskOf fun l => bit (fieldAt bs (512 + 4 * l) 4) n))
    s := SMap.putAll 0 [] ((run 0 g.sregs).map fun r => (r, wordAt bs (sOff + 4 * r)))
    v := SMap.putAll 0 [] (((run 0 g.vregs).map fun r =>
      (run 0 32).map fun l => (32 * r + l, wordAt bs (vOff + 128 * r + 4 * l))).flatten)
    ready := false
    stop := none }

/-- A tile configuration from an image. -/
def cfgOf (bs : List Byte) : TileCfg := ⟨fieldAt bs 0 1 == 1, (run 0 5).map fun i => wordAt bs (4 + 4 * i)⟩

/-- A segment as its block says, on its new core (10 Table 10-9). -/
def Segment.restore (g : Segment) (t : Team) (bs : List Byte) (core : Nat) : Segment :=
  let fe := fieldAt bs 256 256
  let spad := bs.drop 8192
  let tiles := spad.drop t.scratch
  { g with
    core := core
    full := SMap.putAll false [] ((run 0 2048).map fun i => (i, bit fe i))
    peers := SMap.putAll 0 [] ((run 0 4).map fun n => (n, BitVec.ofNat 128 (fieldAt bs (512 + 16 * n) 16)))
    cfg := (run 0 (Header.ofPacket t.packet).acctiles).map fun n => (n, cfgOf ((bs.drop (576 + 32 * n)).take 32))
    spad := SMap.putAll 0 [] (number 0 (spad.take t.scratch))
    tiles := SMap.putAll 0 []
      ((run 0 (16384 * (Header.ofPacket t.packet).acctiles)).map fun e => (e, wordAt tiles (4 * e))) }

/-- The barriers as an image gives them: phase bits from the header, masks from the group blocks. -/
def restoreBarriers (ph : Nat) (blocks : List (Nat × List Byte)) : SMap Barrier :=
  (run 0 16).map fun n =>
    (n, ⟨bit ph n, SMap.putAll 0 [] (blocks.map fun b => (b.1, wordAt b.2 (96 + 8 * n))),
      SMap.putAll 0 [] (blocks.map fun b => (b.1, wordAt b.2 (100 + 8 * n)))⟩)

/-- Cut blocks of the given sizes from a byte list. -/
def cutBlocks : List Nat → List Byte → List (List Byte)
  | [], _ => []
  | n :: r, bs => bs.take n :: cutBlocks r (bs.drop n)

/-- Put a restored group on its core, its record in the new record slot when it is Trapped (10 R310), and queue it when
its service had not started (10 R316); a record that cannot be written halts the context (12 R356). -/
def State.putRestored (s : State) (core : Nat) (g : Group) (bs : List Byte) : State :=
  match s.freeSlot core with
  | none => s
  | some slot =>
    let s1 := s.setGroup (groupKey core slot) (if g.status = .running ∧ !g.frozen then s.settle g else g)
    if g.status = .trapped then
      match s1.homeWriteRun (s1.asidOf g) (s1.recordAddr g.ctx core slot) ((bs.drop 256).take 256) with
      | .error _ => s1.haltContext g.ctx core g.cause
      | .ok s2 => if g.svcPend then s2.queueService (groupKey core slot) else s2
    else s1

/-- A core's engines take back a team's positions. -/
def Core.takeBack (c : Core) (mats : List MatPos) (cps : List CopyJob) : Core :=
  { c with matq := c.matq ++ mats, copies := c.copies ++ cps }

/-- Restore a team, as its image names it, onto cores (10 R316). -/
def State.restoreOn (s : State) (t : Nat) (x : Team) (slot : Nat) (img : List Byte) (cores : List Nat) : State :=
  let k := x.segs.length
  let gs := x.held.map fun e => e.2.declare x.packet
  let blocks := cutBlocks (List.replicate k (segmentBlockSize x) ++ gs.map groupBlockSize) (img.drop 256)
  let segs : SMap Segment := (number 0 (x.segs.zip blocks)).map fun e =>
    (e.2.1.1, (e.2.1.2.restore x e.2.2 (cores.getD e.1 0)).lapseDue)
  let gbs := gs.zip (blocks.drop k)
  let y : Team := { x with
    segs := segs, restartable := bit (fieldAt img 20 1) 0, bars := restoreBarriers (fieldAt img 18 2) (gbs.map fun e => (e.1.grpid, e.2)),
    saved := none, held := [], heldMat := [], heldCopy := [] }
  let c := s.context x.ctx
  let halted := c.state == 2
  let s0 := s.release (· == savedOwner t)
  let s1 := (s0.setContext x.ctx { c with saveUsed := c.saveUsed.filter (· != slot) }).setTeam t y
  let s2 := cores.foldl (fun st n => st.prepareCore x.fused n) s1
  let s3 := gbs.foldl (fun st e => st.putRestored (cores.getD e.1.seg 0) (e.1.restore e.2 halted) e.2) s2
  let s4 := (number 0 cores).foldl (fun st e => st.setCore e.2
    ((st.core e.2).takeBack (x.heldMat.filter fun m => m.seg == e.1) (x.heldCopy.filter fun j => j.seg == e.1))) s3
  s4.unpark t segs

/-- Have the matrix queues of the cores room for the team's positions (06 R197; log 96)? -/
def State.queuesFit (s : State) (x : Team) (cores : List Nat) : Bool :=
  (number 0 cores).all fun e =>
    decide ((s.core e.2).matq.length + (x.heldMat.filter fun m => m.seg == e.1).length ≤ matCapacity)

/-- Does nothing that fits go before a saved team: no work, no other saved team (10 R303, R316)? -/
def State.mayRestore (s : State) (t : Nat) (x : Team) : Bool :=
  let rank := s.savedRank x
  !s.works.any (fun w => rankBefore w.rank rank && (s.siteOf w).isSome)
  && !s.savedTeams.any fun y => y.1 != t && rankBefore (s.savedRank y.2) rank && (s.fitsDevice (savedOwner y.1) y.2.packet).isSome

/-- TEAM_RESTORE (10 R316, R320): the team its image names fits and goes first; of an image that is not this device's or cannot be
read, firmware is told (log 15). -/
def execTeamRestore (team : Nat) (s : State) : Out :=
  match s.team team with
  | none => .next s
  | some x => match x.saved with
    | none => .next s
    | some slot => match s.savedImage x slot with
      | none => .next (s.tell (.notRestored team))
      | some y => match s.fitsDevice (savedOwner team) y.packet with
        | none => .next s
        | some cores =>
          let c := s.context x.ctx
          if !s.queuesFit y cores || !s.mayRestore team y then .next s
          else match s.homeLoad c.asid.toNat (c.saveAddr slot) y.imageSize with
            | .error _ => .next (s.tell (.notRestored team))
            | .ok (s1, img) => .next (s1.restoreOn team y slot img cores)

end Sys2Proof.Machine
end

