-- ==== Sys2Proof/Machine/EvCollective.lean ====
section
/-! DEFINITION. Collective engines: answers, staging, performing, resends (11 R343 to R348, R390). -/

namespace Sys2Proof.Machine

/-! ## Binding (11 R343, R344) -/

/-- A binding entry as a number. -/
def State.bindingOf (s : State) (cid : Nat) : Nat := ofBytes (Memory.readN s.mem (s.entryAddr cid) 32)

/-- Is an entry bound? -/
def goodBinding (e : Nat) : Bool := bit e 0 && bits e 1 103 == 0 && bits e 248 8 == 0

/-- The collective of a contribution: active, or bound by its entry; a CID whose records were lost answers NOBIND until
its entry is rewritten (11 R348). -/
def State.collectiveOf (s : State) (cid : Nat) : Option Collective :=
  match SMap.find s.collectives cid with
  | some k => some k
  | none =>
    let e := s.bindingOf cid
    if SMap.has s.lostCids cid || !goodBinding e then none
    else some ⟨BitVec.ofNat 32 (bits e 128 32), bits e 120 8, bits e 104 16, bits e 192 56, bits e 160 32, [], [], []⟩

/-- The address space a contribution writes in: the context its tag maps to; a context on one device only has tag 0 and is
the sender's. -/
def State.boundCtx (s : State) (c : Contribution) : Option Nat :=
  if c.tag = 0 then (if c.srcDev = s.dev then some c.ctx else none)
  else match s.contexts.find? (fun e => e.2.state != 0 && e.2.dctag.toNat == c.tag) with
    | some e => some e.1
    | none => none

/-! ## Answers (11 R345, Table 11-6; R390) -/

/-- The record of a step. -/
def Collective.stepRec (k : Collective) (q : Word) : StepRec := SMap.getD k.recs q.toNat ⟨0, 0⟩

/-- May a contribution perform: every lower rank of its step and every step below have (11 R346)? -/
def Collective.inTurn (k : Collective) (c : Contribution) : Bool := c.seq == k.low && c.rank == (k.stepRec c.seq).folded

/-- Stored row length rounded up to a multiple of 4. -/
def Contribution.rowRoom (c : Contribution) : Nat := (c.rowLen + 3) / 4 * 4

/-- Room a staged contribution takes (11 R390). -/
def Contribution.room (c : Contribution) : Nat := 128 + (c.rows.length * c.rowRoom + 127) / 128 * 128

/-- Address of a row. -/
def Contribution.rowAddr (c : Contribution) (i : Nat) : Nat := c.base + c.dlo + i * c.stride

/-- The flag word, if any. -/
def Contribution.flag (c : Contribution) : Option Nat := if c.dhi = 0xFFFFFFFF then none else some (c.base + c.dhi.toNat)

/-- Are all pages of a run writable? -/
def State.writable (s : State) (asid a n : Nat) : Bool :=
  n == 0 || (pagesOf a n).all fun p =>
    match s.translate asid p needW with
    | .ok _ => true
    | .error _ => false

/-- Are the pages of the target rows, of the flag and, for one that is staged, of STAGE writable? -/
def State.targetOk (s : State) (asid : Nat) (k : Collective) (c : Contribution) : Bool :=
  (run 0 c.rows.length).all (fun i => s.writable asid (c.rowAddr i) c.rowLen)
  && (match c.flag with
    | some a => s.writable asid a 4
    | none => true)
  && (k.inTurn c || s.writable asid k.stage k.stagesz)

/-- Active CIDs of an engine, die (CID mod 2), without one. -/
def State.activeOn (s : State) (die cid : Nat) : Nat :=
  (s.collectives.filter fun e => e.1 % 2 == die && e.1 != cid).length

/-- Must a contribution wait: its step is too far ahead, the engine is full, or there is no room to stage it? -/
def State.mustBusy (s : State) (k : Collective) (c : Contribution) : Bool :=
  decide (16 ≤ (c.seq - k.low).toNat) || decide (256 ≤ s.activeOn (c.cid % 2) c.cid)
  || (!k.inTurn c && decide (k.stagesz < total Contribution.room k.staged + c.room))

/-- The answer to a contribution: the first row of Table 11-6 that applies. -/
def State.answerTo (s : State) (c : Contribution) : Answer :=
  match s.collectiveOf c.cid, s.boundCtx c with
  | some k, some ctx =>
    if k.tag ≠ c.tag then .nobind
    else if k.ranksm1 < c.rank then .badrank
    else if 2 ^ 31 ≤ (c.seq - k.low).toNat then .dup
    else if (k.stepRec c.seq).arrived.getLsbD c.rank then .dup
    else if s.mustBusy k c then .busy
    else if !s.targetOk (s.context ctx).asid.toNat k c then .fault
    else .accept
  | _, _ => .nobind

/-! ## Performing (11 R346) -/

/-- Rows are written, or folded word by word at their homes; a row whose page no longer translates is left out (DESIGN CHOICE,
log 131). -/
def State.performRows (s : State) (asid : Nat) (c : Contribution) : State :=
  (number 0 c.rows).foldl (fun st r =>
    let a := c.rowAddr r.1
    if c.red = 0 then
      match st.homeWriteRun asid a r.2 with
      | .ok st1 => st1
      | .error _ => st
    else (cutEvery 4 (r.2.length / 4 + 1) a r.2).foldl (fun st1 e => st1.foldAt asid e.1 (UOp.ofCode c.red) e.2) st) s

/-- The flag word has 1 added. -/
def State.performFlag (s : State) (asid : Nat) (c : Contribution) : State :=
  match c.flag with
  | some a => s.foldAt asid a .addW32 (toBytes 4 1)
  | none => s

/-- The record after a rank has performed: a complete step advances LOW. -/
def Collective.performed (k : Collective) (q : Word) : Collective :=
  let r := k.stepRec q
  if r.folded = k.ranksm1 then { k with low := k.low + 1, recs := SMap.erase k.recs q.toNat }
  else { k with recs := SMap.insert k.recs q.toNat { r with folded := r.folded + 1 } }

/-- Perform a contribution and every staged one that is then in turn; `n` bounds their number. -/
def State.performFrom (s : State) (asid : Nat) (k : Collective) (c : Contribution) : Nat → State × Collective
  | 0 => (s, k)
  | n + 1 =>
    let s1 := (s.performRows asid c).performFlag asid c
    let k1 := k.performed c.seq
    match takeFirst k1.inTurn k1.staged with
    | some (d, rest) => s1.performFrom asid { k1 with staged := rest } d n
    | none => (s1, k1)

/-- Keep an active collective, or write LOW back when every recorded step is complete (11 R344); the bytes of STAGE are then
undefined (11 R390). -/
def State.keepCollective (s : State) (asid cid : Nat) (k : Collective) : State :=
  if k.recs.isEmpty && k.staged.isEmpty then
    State.spoilRun { s with
      collectives := SMap.erase s.collectives cid, mem := Memory.writeN s.mem (s.entryAddr cid + 16) (toBytes 4 k.low.toNat) }
      asid k.stage k.stagesz
  else { s with collectives := SMap.insert s.collectives cid k }

/-- Accept a contribution: its ARRIVED bit is set, and it folds now or is staged. -/
def State.acceptContribution (s : State) (k : Collective) (ctx : Nat) (c : Contribution) : State :=
  let r := k.stepRec c.seq
  let bitMask : BitVec 256 := BitVec.ofNat 256 (2 ^ c.rank)
  let mine := if c.srcDev = s.dev ∧ !k.senders.contains c.ctx then [c.ctx] else []
  let k1 := { k with
    recs := SMap.insert k.recs c.seq.toNat { r with arrived := r.arrived ||| bitMask }, senders := k.senders ++ mine }
  if k1.inTurn c then
    let (s1, k2) := s.performFrom (s.context ctx).asid.toNat k1 c (k1.staged.length + 1)
    s1.keepCollective (s.context ctx).asid.toNat c.cid k2
  else s.keepCollective (s.context ctx).asid.toNat c.cid { k1 with staged := k1.staged ++ [c] }

/-- What an answer does at the destination. A FAULT whose bound context is the sending context of this device gives one record
(DESIGN CHOICE, log 132). -/
def State.serveContribution (s : State) (c : Contribution) (a : Answer) : State :=
  match s.collectiveOf c.cid, s.boundCtx c with
  | some k, some ctx =>
    match a with
    | .accept => s.acceptContribution k ctx c
    | .fault => if c.srcDev ≠ s.dev ∨ ctx ≠ c.ctx then s.logCheck ctx (c.check 3) else s
    | _ => s
  | _, _ => s

/-- CONTRIBUTION_ARRIVAL (11 R345): contributions of one source arrive in order (11 R329). -/
def execContributionArrival (n : Nat) (s : State) : Out :=
  let isC := fun (m : Msg) => match m with
    | .contrib _ => true
    | _ => false
  match s.takeMsg isC n with
  | some (.contrib c, s1) =>
    let earlier := ((s.net.filter isC).take n).any fun m => match m with
      | .contrib d => d.srcDev == c.srcDev
      | _ => false
    if earlier then .next s
    else
      let a := s1.answerTo c
      .next ((s1.serveContribution c a).sendTo (c.cid % 2) c.srcDev c.tag (.contribAns c a))
  | _ => .next s

/-! ## The sender (11 R347) -/

/-- Is it the same contribution: identifier, rank, step, position? -/
def Contribution.same (a b : Contribution) : Bool := a.cid == b.cid && a.rank == b.rank && a.seq == b.seq && a.pos == b.pos

/-- The position of a contribution completes. -/
def State.finishContribution (s : State) (c : Contribution) : State :=
  { s with sent := s.sent.filter fun d => !d.same c }.donePos c.uid c.pos

/-- The sender's side of an answer. -/
def State.takeAnswer (s : State) (c : Contribution) (a : Answer) : State :=
  if !s.sent.any (fun d => d.same c) then s
  else match a with
    | .accept => s.finishContribution c
    | .dup => s.finishContribution c
    | .busy => s
    | .nobind => (s.finishContribution c).logCheck c.ctx (c.check 1)
    | .badrank => (s.finishContribution c).logCheck c.ctx (c.check 2)
    | .fault => (s.finishContribution c).logCheck c.ctx (c.check 3)
    | .unreachable => (s.finishContribution c).logCheck c.ctx (c.check 4)

/-- CONTRIBUTION_ANSWER (11 R347). -/
def execContributionAnswer (n : Nat) (s : State) : Out :=
  match s.takeMsg (fun m => match m with
      | .contribAns _ _ => true
      | _ => false) n with
  | some (.contribAns c a, s1) => .next ((s1.answered fun m => m == .contrib c).takeAnswer c a)
  | _ => .next s

/-- Send the `n`-th unanswered contribution again, with the same identifier. -/
def State.resendContribution (s : State) (n : Nat) : State :=
  match s.sent[n]? with
  | some c => s.postContribution c
  | none => s

/-- BUSY_RESEND (11 R347). -/
def execBusyResend (n : Nat) (s : State) : Out := .next (s.resendContribution n)

/-- ANSWER_TIMEOUT (11 R347). -/
def execAnswerTimeout (n : Nat) (s : State) : Out := .next (s.resendContribution n)

end Sys2Proof.Machine
end

