-- ==== Sys2Proof/Machine/Standing.lean ====
section
/-! DEFINITION. UNSUB and SUBST (05 R185, R186). SUBSCR is in GlobalMemory.lean. -/

namespace Sys2Proof.Machine

/-- What answers a message about a subscription whose home's device cannot be reached: an UNSUB removes what is left here, and a
SUBST gets a status the spec does not give (05 R189; log 102). -/
def State.answerHere (s : State) (m : Msg) : State :=
  match m with
  | .unsub _ _ uid team seg h pos => { s with net := s.net ++ [.unsubAns uid team seg h pos] }
  | .query _ _ uid sd _ _ _ => { s with net := s.net ++ [.queryAns s.dev uid sd (Config.freeWord s.free)], free := s.free + 1 }
  | _ => s

/-- A message about a handle: into this device's fabric, or to the handle's home device. -/
def State.sendHome (s : State) (core tag : Nat) (h : Word) (m : Msg) : State :=
  match handleParts h with
  | some (dev, _, _, _) =>
    if dev = s.dev || (s.remote dev).reachable then s.sendTo (core / 128) dev tag m else s.answerHere m
  | none => s.sendTo (core / 128) s.dev tag m

/-- The domain context tag of an issuing group's context (11 R337). -/
def Ctx.tag (c : Ctx) : Nat := (c.s.context c.g.ctx).dctag.toNat

/-- UNSUB (05 R185): it takes a position of the subscription class. -/
def execUnsub (a : BitVec 8) (s : State) : Out :=
  issue (.unsub a) s fun c =>
    let h := c.sv a.toNat
    let c := c.publish
    let pos := c.s.nextPos
    let s1 : State := { c.s with nextPos := pos + 1 }
    let taken : Position := ⟨pos, 2, none⟩
    { c with s := s1.sendHome c.core c.tag h (.unsub c.s.dev c.tag c.g.uid c.g.team c.g.seg h pos) }.done
      { c.g with positions := c.g.positions ++ [taken] }

/-- SUBST (05 R186): the home answers from the entry; the answer is an acquire (14 R380). -/
def execSubst (a d : BitVec 8) (s : State) : Out :=
  issue (.subst a d) s fun c =>
    let h := c.sv a.toNat
    { c with s := c.s.sendHome c.core c.tag h (.query c.s.dev c.tag c.g.uid d.toNat c.g.team c.g.seg h) }.done
      { c.g with answers := c.g.answers ++ [d.toNat], asked := c.g.asked ++ [d.toNat] }

end Sys2Proof.Machine
end

