-- ==== Sys2Proof/Machine/EvSubs.lean ====
section
/-! DEFINITION. Subscriptions at their home and at the subscriber (05 R179 to R189, 09 R287). -/

namespace Sys2Proof.Machine

/-! ## Installing an entry (05 R179, 09 R287) -/

/-- Entries of a slice's table. -/
def subCapacity : Nat := 1024

/-- The lowest free entry. -/
def Slice.freeEntry (x : Slice) : Option Nat := (run 0 subCapacity).find? fun n => !SMap.has x.subs n

/-- The generation of the next use of an entry: it advances each time the entry is reused. -/
def Slice.nextGen (x : Slice) (n : Nat) : BitVec 6 :=
  match SMap.find x.gens n with
  | some g => g + 1
  | none => 0

/-- No sector of the line stays in U, E or M (05 R179, 09 R275). -/
def State.settleLine (s : State) (key : Nat) : State :=
  (run (key / 4 * 4) 4).foldl (fun st k => ((st.collapseNow k).shareOut k).syncDir k) (s.revokeHot (key / 4))

/-- The entry a request makes for a block of an address space here (09 Table 9-5). -/
def newEntry (r : SubReq) (asid core : Nat) (gen : BitVec 6) : SubEntry :=
  { block := r.block, size := r.size, dev := r.dev, core := core, team := r.team, seg := r.seg, line := r.line,
    asid := asid, ctx := r.space, strict := r.strict, state := .active, seq := 1, dlv := r.strict, held := [], gen := gen,
    park := false, inc := 0 }

/-- The core of a segment here. -/
def State.segCore (s : State) (t k : Nat) : Nat :=
  match s.segment t k with
  | some g => g.core
  | none => 0

/-- Install an entry in a settled line: push 0 with the block as it stands, then the handle. -/
def State.install (s : State) (r : SubReq) (asid n : Nat) : State :=
  let key := secKey asid r.block
  let h := s.homeAt key
  let x := s.slice h
  let gen := x.nextGen n
  let core := if r.dev = s.dev then s.segCore r.team r.seg else r.core
  let e := { newEntry r asid core gen with inc := if r.dev = s.dev then (s.cache core).inc else (s.remote r.dev).inc }
  let s2 := s.setSlice h { x with subs := SMap.insert x.subs n e, gens := SMap.insert x.gens n gen }
  let s3 := (run (key / 4 * 4) 4).foldl State.syncDir s2
  let p : Push := ⟨s3.blockBytes asid r.block r.size, 0, 0, BitVec.ofNat 64 s3.fabric⟩
  (s3.sendPush h n e p).sendTo (dieOf h) r.dev r.dctag (.subAns s.dev r.uid r.sd (handleOf s.dev h n gen) r.pos)

/-- Answer a request with a failure (05 R180). -/
def State.refuse (s : State) (r : SubReq) (code : Nat) : State :=
  s.sendTo 0 r.dev r.dctag (.subAns s.dev r.uid r.sd (failHandle code) r.pos)

/-- A request in an address space here, whose block it names by its canonical tag: a block of host memory fails, one homed on another
device goes there; at its home the line is settled, and the entry installed unless the table is full (05 R179). -/
def State.subscribeIn (s : State) (r : SubReq) (asid : Nat) : State :=
  let key := secKey asid r.block
  match s.keyPlace key with
  | some (.host _ _) => s.refuse r 4
  | some (.remote d _) =>
    if (s.remote d).reachable then s.sendTo 0 d r.dctag (.subReq r) else s.refuse r 3
  | _ =>
    let s1 := s.settleLine key
    match (s1.slice (s1.homeAt key)).freeEntry with
    | some n => s1.install r asid n
    | none => s1.refuse r 1

/-- A request at its home. One from another device is in the address space its tag maps to here, UNREACHABLE where none does (11
R337); its page must be mapped, and one that devices may share, or the requester gets the fault (09 R292; log 101). -/
def State.subscribe (s : State) (r : SubReq) : State :=
  if r.dev = s.dev then s.subscribeIn r r.asid
  else if (s.ctxOfTag r.dctag).isNone then s.refuse r 3
  else match s.lookupAbroad r.dctag r.block needNone with
    | .ok t => s.subscribeIn { r with block := t.va } t.asid
    | .error k => s.refuseAbroad r.dev r.dctag r.block k

/-- SUBSCRIBE_REQUEST (05 R179). -/
def execSubscribeRequest (n : Nat) (s : State) : Out :=
  match s.takeMsg (fun m => match m with
      | .subReq _ => true
      | _ => false) n with
  | some (.subReq r, s1) => .next (s1.subscribe r)
  | _ => .next s

/-! ## Answers -/

/-- Change the bindings a SUBSCR made. -/
def Segment.mapBound (g : Segment) (uid pos : Nat) (f : Bound → Option Bound) : Segment :=
  { g with bound := g.bound.filterMap fun e =>
      if e.2.uid = uid ∧ e.2.pos = pos then (f e.2).map fun b => (e.1, b) else some e }

/-- Change them wherever they are. -/
def State.mapBound (s : State) (uid pos : Nat) (f : Bound → Option Bound) : State :=
  { s with teams := s.teams.map fun t =>
      (t.1, { t.2 with segs := t.2.segs.map fun g => (g.1, g.2.mapBound uid pos f) }) }

/-- The bindings of a segment but those of a subscription. -/
def Segment.unbindHandle (g : Segment) (w : Word) : Segment :=
  { g with bound := g.bound.filter fun e => e.2.handle != some w }

/-- Release the binding of a subscription of a segment (05 R185). -/
def State.unbindHandle (s : State) (team seg : Nat) (w : Word) : State :=
  { s with teams := s.teams.map fun t =>
      if t.1 = team then (t.1, { t.2 with segs := t.2.segs.map fun g => if g.1 = seg then (g.1, g.2.unbindHandle w) else g })
      else t }

/-- A home on another device has installed a subscription of this device: no sector of its line stays in U, E or M here (05 R179, 09
R275). -/
def State.settleAbroad (s : State) (b : Bound) : State :=
  if b.handle.isNone && s.remoteLine (b.block / 32) then s.settleLine (b.block / 32) else s

/-- The bindings that a SUBSCR made. -/
def State.boundOf (s : State) (uid pos : Nat) : List Bound :=
  (s.teams.map fun t => (t.2.segs.map fun g => (g.2.bound.map Prod.snd).filter fun b => b.uid == uid && b.pos == pos).flatten).flatten

/-- Is a push of the subscription that a handle names on its way? -/
def State.pushComes (s : State) (w : Word) : Bool :=
  s.net.any fun m => match m with
    | .push d h idx _ _ _ _ _ gen => handleOf d h idx gen == w
    | _ => false

/-- Is a message an answer about a subscription? -/
def Msg.isSubAnswer : Msg → Bool
  | .subAns _ _ _ _ _ => true
  | .unsubAns _ _ _ _ _ => true
  | .queryAns _ _ _ _ => true
  | _ => false

/-- Is a message the SUBSCR or UNSUB of a position? -/
def Msg.ofPosition (uid pos : Nat) : Msg → Bool
  | .subReq r => r.uid == uid && r.pos == pos
  | .unsub _ _ u _ _ _ p => u == uid && p == pos
  | _ => false

/-- A home on another device has made a subscription for a team that ended with its context meanwhile: it is asked to remove it (12 Table
12-5). -/
def State.disown (s : State) (uid pos : Nat) (w : Word) : State :=
  match s.outbox.findSome? (fun e => match e.2.msg with
      | .subReq r => if r.uid = uid ∧ r.pos = pos ∧ (s.team r.team).isNone then some (e.1, r) else none
      | _ => none) with
  | some (d, r) => s.sendTo 0 d r.dctag (.unsub s.dev r.dctag uid r.team r.seg w pos)
  | none => s

/-- SUBSCRIBE_ANSWER (05 R179, R185 to R187): the handle of a SUBSCR; a failure unbinds the line and completes the position. The
answer to an UNSUB releases the line and completes its position once every push sent before it has been written;
that to a SUBST is its status. -/
def execSubscribeAnswer (n : Nat) (s : State) : Out :=
  match s.takeMsg Msg.isSubAnswer n with
  | some (.subAns _ uid sd w pos, s1) =>
    let s2 := ((if w.getLsbD 31 then s1 else s1.disown uid pos w).answered (Msg.ofPosition uid pos)).answerScalar uid sd w
    .next (if w.getLsbD 31 then (s2.mapBound uid pos fun _ => none).donePos uid pos
      else ((s2.boundOf uid pos).foldl State.settleAbroad s2).mapBound uid pos fun b => some { b with handle := some w })
  | some (.unsubAns uid team seg w pos, s1) =>
    .next (if s1.pushComes w then s else ((s1.answered (Msg.ofPosition uid pos)).unbindHandle team seg w).donePos uid pos)
  | some (.queryAns _ uid sd w, s1) => .next ((s1.answered (Msg.askedBy uid sd)).answerScalar uid sd w)
  | _ => .next s

/-! ## Pushes at the subscriber (05 R181, R183) -/

/-- The 128 bytes of a slot line (05 Table 5-10). -/
def slotLine (p : Push) (ovr : Nat) : List Byte :=
  p.data ++ List.replicate (112 - p.data.length) 0 ++ toBytes 4 p.seq.toNat ++ toBytes 4 ovr ++ toBytes 8 p.time.toNat

/-- OVR of a line after a push: a COALESCE push on a full line counts what the line did not show. -/
def newOvr (strict full first : Bool) (old c : Nat) : Nat :=
  if strict then c else if first then 0 else if full then (old + 1 + c) % 2 ^ 32 else c

/-- A push writes the slot line and sets it full; it names the entry it comes from. -/
def Segment.takePush (g : Segment) (line : Nat) (strict : Bool) (p : Push) (handle : Word) : Segment :=
  let first := match SMap.find g.bound line with
    | some b => b.last.isNone
    | none => false
  let old := ofBytes (g.read (128 * line + 116) 4)
  let g1 := (g.write (128 * line) (slotLine p (newOvr strict (g.isFull line) first old p.ovr.toNat))).setFull line true
  let note := fun (b : Bound) => { b with last := some p.seq, handle := some handle }
  { g1 with bound := g1.bound.map fun e => if e.1 = line then (e.1, note e.2) else e }

/-- Deliver a push to a resident team; push 0 completes the position of its SUBSCR (05 R187). A push to a team that is
over, or of a subscription whose home was lost (05 R189), writes nothing. -/
def State.deliverPush (s : State) (team seg line : Nat) (strict : Bool) (p : Push) (handle : Word) : State :=
  match s.segment team seg with
  | none => s
  | some g =>
    let s1 := s.setSegment team seg (g.takePush line strict p handle)
    match SMap.find g.bound line with
    | some b =>
      if b.lapsed then s
      else
        let s2 := s1.settleAbroad b
        if b.last.isNone then s2.donePos b.uid b.pos else s2
    | none => s1

/-- Is a message a push of an entry? -/
def Msg.pushOf (d h idx : Nat) (gen : BitVec 6) : Msg → Bool
  | .push e a b _ _ _ _ _ c => e == d && a == h && b == idx && c == gen
  | _ => false

/-- Is a message a push? -/
def Msg.isPush : Msg → Bool
  | .push _ _ _ _ _ _ _ _ _ => true
  | _ => false

/-- The home of a subscription on another device learns that a push has been written (05 R187, R188). -/
def State.reportWritten (s : State) (d team : Nat) (handle : Word) : State :=
  if d = s.dev then s else s.sendTo 0 d (s.tagOfTeam team) (.written handle)

/-- PUSH_ARRIVAL (05 R182, R183): pushes from one slice to one core, those of one subscription among them, arrive in the order
they were sent (11 R329). -/
def execPushArrival (n : Nat) (s : State) : Out :=
  match s.takeOrdered Msg.isPush n with
  | some (.push d h idx team seg line strict p gen, s1) =>
    .next (if s.away team then s else (s1.deliverPush team seg line strict p (handleOf d h idx gen)).reportWritten d team (handleOf d h idx gen))
  | _ => .next s

/-! ## Notices, removal and queries at the home -/

/-- An empty notice: DLV clears, and the next held push goes out; the lapse push lapses the subscription (05 R184). -/
def State.takeNotice (s : State) (h idx : Nat) (gen : BitVec 6) : State :=
  let x := s.slice h
  match SMap.find x.subs idx with
  | none => s
  | some e =>
    if !e.strict || e.gen != gen then s
    else match e.held with
      | [] => s.setSlice h { x with subs := SMap.insert x.subs idx { e with dlv := false } }
      | p :: rest =>
        let lapse := e.state == .lapsePending && rest.isEmpty
        let e1 := { e with dlv := true, held := rest, state := if lapse then .lapsed else e.state }
        let s1 := (s.setSlice h { x with subs := SMap.insert x.subs idx e1 }).sendPush h idx e p
        (run (secKey e.asid e.block / 4 * 4) 4).foldl State.syncDir s1

/-- EMPTY_NOTICE_ARRIVAL (05 R184), in the order sent (11 R329). -/
def execEmptyNoticeArrival (n : Nat) (s : State) : Out :=
  match s.takeOrdered (fun m => match m with
      | .notice _ _ _ _ => true
      | _ => false) n with
  | some (.notice _ h idx gen, s1) => .next (s1.takeNotice h idx gen)
  | _ => .next s

/-- The entry a handle names for its owner: another segment's, a stale one and a failure name none (05 R185, R186). -/
def State.ownEntry (s : State) (dev team seg : Nat) (w : Word) : Option (Nat × Nat × SubEntry) :=
  match handleParts w with
  | none => none
  | some (d, h, idx, gen) =>
    match SMap.find (s.slice h).subs idx with
    | some e =>
      if d = s.dev ∧ e.gen = gen ∧ e.dev = dev ∧ e.team = team ∧ e.seg = seg then some (h, idx, e) else none
    | none => none

/-- Remove an entry; its line's subscribed sectors return to shared with the last live one (09 R287). -/
def State.removeEntry (s : State) (h idx : Nat) (e : SubEntry) : State :=
  let x := s.slice h
  (run (secKey e.asid e.block / 4 * 4) 4).foldl State.syncDir
    (s.setSlice h { x with subs := SMap.erase x.subs idx })

/-- The homes remove subscriptions: of a lost subscriber, of a context that ends (09 R286, 12 Table 12-5). -/
def State.dropSubscribers (s : State) (f : SubEntry → Bool) : State :=
  s.slices.foldl (fun st h => (h.2.subs.filter fun e => f e.2).foldl (fun k e => k.removeEntry h.1 e.1 e.2) st) s

/-- The entry of a subscription goes at its home (05 R185). -/
def State.unsubscribe (s : State) (dev team seg : Nat) (w : Word) : State :=
  match s.ownEntry dev team seg w with
  | none => s
  | some (h, idx, e) => s.removeEntry h idx e

/-- UNSUBSCRIBE_REQUEST (05 R185, R187): the entry goes at once; the answer, which completes the position, follows the pushes already
sent: a subscriber's core takes it after them, and one of another device is sent it when those have been written. -/
def execUnsubscribeRequest (n : Nat) (s : State) : Out :=
  match s.takeMsg (fun m => match m with
      | .unsub _ _ _ _ _ _ _ => true
      | _ => false) n with
  | some (.unsub dev tag uid team seg w pos, s1) =>
    .next (if dev = s.dev ∧ s.away team then s
      else if dev ≠ s.dev ∧ s.pushFlies w then s.unsubscribe dev team seg w
      else (s1.unsubscribe dev team seg w).sendTo 0 dev tag (.unsubAns uid team seg w pos))
  | _ => .next s

/-- The status word (05 Table 5-11). -/
def SubEntry.status (e : SubEntry) : Word :=
  let st := match e.state with
    | .active => 1
    | .lapsePending => 2
    | .lapsed => 3
  let sz := match e.size with
    | 8 => 0
    | 16 => 1
    | 32 => 2
    | _ => 3
  BitVec.ofNat 32 (st * 2 ^ 30 + (if e.strict then 2 ^ 29 else 0) + sz * 2 ^ 27
    + (if e.strict && e.dlv then 8 else 0) + (if e.strict then e.held.length else 0))

/-- STATUS_QUERY (05 R186): the status as the home has it, to the register of the SUBST. -/
def execStatusQuery (n : Nat) (s : State) : Out :=
  match s.takeMsg (fun m => match m with
      | .query _ _ _ _ _ _ _ => true
      | _ => false) n with
  | some (.query dev tag uid sd team seg w, s1) =>
    let v := match s.ownEntry dev team seg w with
      | some (_, _, e) => e.status
      | none => 0
    .next (if dev = s.dev then s1.answerScalar uid sd v else s1.sendTo 0 dev tag (.queryAns s.dev uid sd v))
  | _ => .next s

end Sys2Proof.Machine
end

