-- ==== Sys2Proof/Machine/EvFabric.lean ====
section
/-! DEFINITION. Cheyn links at work and devices that become unreachable (11 R338 to R342; 05 R189). An event whose
condition does not hold changes nothing. -/

namespace Sys2Proof.Machine

/-! ## Flits (11 R339 to R341) -/

/-- Does a flit pass its CRC, its reserved bits zero? -/
def goodFlit (f : BitVec 512) : Bool :=
  crc32c (f.toNat % 2 ^ 480) == flitField f 480 32 && flitField f 28 3 == 0

/-- SEQ of a flit. -/
def seqOf (f : BitVec 512) : BitVec 12 := BitVec.ofNat 12 (flitField f 0 12)

/-- Does ACKSEQ `a` cover a flit? -/
def ackCovers (a : BitVec 12) (f : BitVec 512) : Bool := decide ((a - seqOf f).toNat < 2048)

/-- The replay buffer drops what an ACKSEQ covers; an advance ends a row of retrains. -/
def Link.acked (l : Link) (a : BitVec 12) : Link :=
  let rest := l.replay.filter fun e => !ackCovers a e.1
  { l with replay := rest, retrains := if rest.length < l.replay.length then 0 else l.retrains }

/-- A retrain keeps the buffers and resends every unacknowledged flit (11 R341). That the count of a flit's transmissions starts again at
1, and that the resend at a bring-up counts none, are the model's (DESIGN CHOICE, log 124). -/
def Link.retrain (l : Link) : Link :=
  { l with wire := l.wire ++ l.replay.map Prod.fst, replay := l.replay.map (fun e => (e.1, 1, e.2.2)), retrains := l.retrains + 1 }

/-- Resend one flit; one that needs an eighth transmission starts a retrain. -/
def Link.resend (l : Link) (q : BitVec 12) : Link :=
  match l.replay.find? (fun e => seqOf e.1 == q) with
  | none => l
  | some (f, n, _) =>
    if 7 ≤ n then l.retrain
    else { l with
      wire := l.wire ++ [f]
      replay := l.replay.map fun e => if seqOf e.1 = q then (e.1, e.2.1 + 1, e.2.2) else e }

/-- The next flit in order goes to the router, and its buffer unit is to be returned (11 R327, R340). -/
def Link.deliver (l : Link) (f : BitVec 512) : Link :=
  { l with delivered := l.delivered ++ [f], expect := l.expect + 1, owed := l.owed ++ [clsOf f] }

/-- Deliver the held flits that follow in order; `n` bounds their number. -/
def Link.deliverHeld (l : Link) : Nat → Link
  | 0 => l
  | n + 1 =>
    match takeFirst (fun f => seqOf f == l.expect) l.reorder with
    | some (f, rest) =>
      ({ l with reorder := rest }.deliver f).deliverHeld n
    | none => l

/-- Is a data flit one that has been delivered before, or is held already? -/
def Link.repeats (l : Link) (f : BitVec 512) : Bool :=
  flitField f 15 1 == 0 && (decide (2048 ≤ (seqOf f - l.expect).toNat) || l.reorder.any fun g => seqOf g == seqOf f)

/-- A good data flit arrives: delivered with what it releases, a closed gap being reported at once; or held behind a gap, a full reorder
buffer starting a retrain (11 R340, R341). -/
def Link.takeData (l : Link) (f : BitVec 512) : Link :=
  if seqOf f = l.expect then
    let l1 := { l with nakSent := false }.deliver f
    let l2 := l1.deliverHeld l1.reorder.length
    if l.nakSent then l2.sendIdle false else l2
  else
    let l1 := { l with reorder := l.reorder ++ [f], nakSent := true }
    let l2 := if l.nakSent then l1 else l1.sendIdle true
    if replayCapacity ≤ l2.reorder.length then l2.retrain else l2

/-- Credits that a flit returns (11 Table 11-4). -/
def Link.credited (l : Link) (f : BitVec 512) : Link :=
  let c := flitField f 45 3
  let n := flitField f 32 13
  if n = 0 then l else { l with credits := SMap.insert l.credits c (SMap.getD l.credits c 0 + n) }

/-- A flit that passed its checks: its credits, its ACKSEQ, its NAK, the resent flit ahead of those that waited for room in the replay
buffer (11 R341 step 2), its data. A data flit that repeats one is discarded with all it carries (11 R340). -/
def Link.take (l : Link) (f : BitVec 512) : Link :=
  if l.repeats f then l
  else
    let a := BitVec.ofNat 12 (flitField f 16 12)
    let l1 := (l.credited f).acked a
    let l2 := (if flitField f 31 1 = 1 then l1.resend (a + 1) else l1).flow
    if flitField f 15 1 = 1 then l2 else l2.takeData f

/-- Change a link end that is up. -/
def State.onLink (s : State) (k : Nat) (f : Link → Link) : State :=
  if (s.link k).up && decide (k < 16) then s.setLink k (f (s.link k)) else s

/-- FLIT_RECEIVE (11 R340, R341). -/
def execFlitReceive (link : Nat) (flit : BitVec 512) (s : State) : Out :=
  .next (if goodFlit flit then s.onLink link (fun l => l.take flit) else s)

/-- NAK_RECEIVE (11 R341 step 2). -/
def execNakReceive (link : Nat) (ackSeq : BitVec 12) (s : State) : Out :=
  .next (s.onLink link fun l => ((l.acked ackSeq).resend (ackSeq + 1)).flow)

/-- NAK_RESEND_TIMEOUT (11 R341 step 4): the gap is still open. -/
def execNakResendTimeout (link : Nat) (s : State) : Out :=
  .next (s.onLink link fun l => if l.nakSent then l.sendIdle true else l)

/-- ACK_STALL_TIMEOUT (11 R341 step 4): the oldest unacknowledged flit. -/
def execAckStallTimeout (link : Nat) (s : State) : Out :=
  .next (s.onLink link fun l => match l.replay with
    | e :: _ => l.resend (seqOf e.1)
    | [] => l)

/-- LINK_RETRAIN (11 R341). -/
def execLinkRetrain (link : Nat) (s : State) : Out := .next (s.onLink link Link.retrain)

/-- Payload of a flit. -/
def payloadOf (f : BitVec 512) : BitVec 432 := BitVec.ofNat 432 (flitField f 48 432)

/-- The packets of a link for which `f` holds, by class and device, that go on over another link: of the ordered classes first what the
replay buffer still holds, then what waits (11 R338). -/
def Link.moving (l : Link) (f : Nat → Nat → Bool) : List (Nat × Nat × Nat × BitVec 432) :=
  (l.replay.filterMap fun e => match e.2.2 with
    | some d => if 3 ≤ clsOf e.1 ∧ f (clsOf e.1) d then some (clsOf e.1, d, 0, payloadOf e.1) else none
    | none => none)
  ++ (l.waiting.map fun e => (e.2.filter fun p => f e.1 p.1).map fun p => (e.1, p.1, p.2.1, p.2.2)).flatten

/-- The link without them: a flit that was sent stays in the replay buffer until an ACKSEQ covers it (11 R340), but moves no second
time. -/
def Link.moved (l : Link) (f : Nat → Nat → Bool) : Link :=
  { l with
    replay := l.replay.map fun e => match e.2.2 with
      | some d => if 3 ≤ clsOf e.1 ∧ f (clsOf e.1) d then (e.1, e.2.1, none) else e
      | none => e
    waiting := (l.waiting.map fun e => (e.1, e.2.filter fun p => !f e.1 p.1)).filter fun e => !e.2.isEmpty }

/-- Packets leave a link for those they now go over, in order; the packets of classes 0 to 2 among them are spread anew by their line
addresses. -/
def State.moveFrom (s : State) (k : Nat) (f : Nat → Nat → Bool) : State :=
  let l := s.link k
  (l.moving f).foldl (fun st e => st.packet (k / 8) e.2.1 e.1 e.2.2.1 e.2.2.2) (s.setLink k (l.moved f))

/-- Is a link of the die up? -/
def State.dieLinked (s : State) (die : Nat) : Bool := (run (8 * die) 8).any fun k => (s.link k).up

/-- A link is down: what it held goes over links of its die that are up, if there is one (11 R338). -/
def State.failOver (s : State) (k : Nat) : State := if s.dieLinked (k / 8) then s.moveFrom k fun _ _ => true else s

/-- A link is up: the ordered packets that it is the first link for come back from those that are up, and what waits at the links of the die
that are down goes (11 R338; log 4). -/
def State.failBack (s : State) (k : Nat) : State :=
  ((run (k / 8 * 8) 8).filter fun j => j != k).foldl (fun st j =>
    st.moveFrom j fun c d => !(st.link j).up || (decide (3 ≤ c) && st.linkFor (k / 8) d c 0 == some k)) s

/-- LINK_DOWN (11 R341): after three retrains in a row. -/
def execLinkDown (link : Nat) (s : State) : Out :=
  let l := s.link link
  if l.up && decide (3 ≤ l.retrains) then .next ((s.setLink link { l with up := false }).failOver link) else .next s

/-- A link trains: it keeps its replay buffer and resends it, sends what waits for it, and takes what is to go over it. -/
def State.trainLink (s : State) (link : Nat) (portNum : BitVec 8) : State :=
  let l := s.link link
  (s.setLink link ({ l with
    up := true, portNum := portNum, retrains := 0, wire := l.wire ++ l.replay.map Prod.fst } : Link).flow).failBack link

/-- Link 0's port number is the device's number, and a link that reports another is kept down (11 R335). -/
def State.renumber (s : State) (portNum : BitVec 8) : State :=
  (run 1 15).foldl (fun st k =>
    if (st.link k).up && (st.link k).portNum != portNum then (st.setLink k { st.link k with up := false }).failOver k else st)
    { s with dev := portNum.toNat }

/-- LINK_BRING_UP (11 R335, R341): a link that reports another port number than link 0 is kept down. -/
def execLinkBringUp (link : Nat) (portNum : BitVec 8) (s : State) : Out :=
  let l := s.link link
  if l.up || decide (16 ≤ link) then .next s
  else if link = 0 then .next ((s.renumber portNum).trainLink 0 portNum)
  else if portNum ≠ (s.link 0).portNum then .next (s.setLink link { l with portNum := portNum })
  else .next (s.trainLink link portNum)

/-! ## Unreachable devices (11 R342) -/

/-- Is a binding's home on the device? -/
def Bound.homedOn (b : Bound) (dev : Nat) : Bool :=
  match b.handle.bind handleParts with
  | some (d, _, _, _) => d == dev
  | none => false

/-- A subscription's home is lost: its line takes no more pushes, and the lapse tag is written for a resident team, kept for one that
is saved (05 R189; log 89). -/
def Segment.lapseBound (g : Segment) (saved : Bool) (line : Nat) (b : Bound) : Segment :=
  let g1 := if saved then g else g.lapseTag line b
  { g1 with bound := SMap.insert g1.bound line { b with due := saved, lapsed := true } }

/-- Lapse the subscriptions that are homed on a device. The position of a SUBSCR whose push 0 has not come by then stays open
(DESIGN CHOICE, log 117). -/
def State.lapseHomed (s : State) (dev : Nat) : State :=
  let seg := fun (saved : Bool) (g : Segment) =>
    (g.bound.filter fun e => e.2.homedOn dev && !e.2.lapsed).foldl (fun k e => k.lapseBound saved e.1 e.2) g
  { s with teams := s.teams.map fun t =>
      (t.1, { t.2 with segs := t.2.segs.map fun g => (g.1, seg t.2.saved.isSome g.2) }) }

/-- Is an answer of the group for a scalar register outstanding? -/
def State.awaits (s : State) (uid sd : Nat) : Bool := s.groups.any fun e => e.2.uid == uid && e.2.answers.contains sd

/-- A request to a device that is lost is answered here: SENDAM and SUBSCR with UNREACHABLE, SUBST with a value the spec
does not give, UNSUB as complete (05 R180, R189; 07 Table 7-2). A SUBSCR with its push 0 written and its answer not taken has
failed (DESIGN CHOICE, log 128). -/
def State.answerLost (s : State) (m : Msg) : State :=
  match m with
  | .active a => if s.awaits a.uid a.sd then s.answerScalar a.uid a.sd 2 else s
  | .subReq r =>
    if s.awaits r.uid r.sd then
      ((s.answerScalar r.uid r.sd (failHandle 3)).mapBound r.uid r.pos fun _ => none).donePos r.uid r.pos
    else s
  | .query _ _ uid sd _ _ _ =>
    if s.awaits uid sd then
      let (s1, w) := s.fresh
      s1.answerScalar uid sd w
    else s
  | .unsub _ _ uid team seg w pos => (s.unbindHandle team seg w).donePos uid pos
  | _ => s

/-- Contributions to a lost device complete with a machine check (11 R347). -/
def State.failContributions (s : State) (dev : Nat) : State :=
  (s.sent.filter fun c => c.dstDev == dev).foldl (fun st c => (st.donePos c.uid c.pos).logCheck c.ctx (c.check 4))
    { s with sent := s.sent.filter fun c => c.dstDev != dev }

/-- Is a message of an incarnation of a device that is lost: one of its pushes, notices, requests or answers (09 R286)? Messages that
were delivered before keep their effects (11 R342). -/
def Msg.fromDevice (dev : Nat) : Msg → Bool
  | .push d _ _ _ _ _ _ _ _ => d == dev
  | .subReq r => r.dev == dev
  | .unsub d _ _ _ _ _ _ => d == dev
  | .query d _ _ _ _ _ _ => d == dev
  | .notice d _ _ _ => d == dev
  | .subAns d _ _ _ _ => d == dev
  | .unsubAns _ _ _ w _ => (handleParts w).any fun p => p.1 == dev
  | .queryAns d _ _ _ => d == dev
  | .contribAns c _ => c.dstDev == dev
  | .xlFault d _ _ _ => d == dev
  | .copyFault _ d _ => d == dev
  | .park d _ _ _ _ => d == dev
  | .parkAck d _ => d == dev
  | .active m => m.srcDev == dev
  | .activeAns _ _ _ src => src / 1024 == dev
  | .contrib c => c.srcDev == dev
  | _ => false

/-- A record that names a line, to the context that owns it (12 Table 12-9). -/
def State.logLine (s : State) (kind core key : Nat) : State :=
  match s.ctxOfAsid (keyAsid key) with
  | some c => s.logCheck c { Check.of kind s.dev (keyVa key / 128 * 128) with core := core }
  | none => s

/-- Core number of a record: an L1's core, else none. -/
def coreField (n : Nat) : Nat := if n < 256 then n else 0xFFFF

/-- Every copy of one sector in a lost cache: U and M copies are lost with a record, the others silently (09 R286). -/
def State.loseSector (s : State) (n key : Nat) : State :=
  match (s.cache n).sector key with
  | none => s
  | some (st, _) =>
    let s1 := (s.setCache n ((s.cache n).drop key)).syncDir key
    match st with
    | .u _ => s1.logLine 2 (coreField n) key
    | .m => s1.logLine 3 (coreField n) key
    | _ => s1

/-- The keys of a cache's sectors. -/
def Cache.keys (c : Cache) : List Nat := (c.lines.map fun l => (SMap.keys l.secs).map fun k => 4 * l.tag + k).flatten

/-- A collapse goes on without a lost agent: its recall is answered "none", a copy on its way is lost (09 R286). -/
def State.loseInCollapses (s : State) (n : Nat) : State :=
  let keys := (s.slices.map fun h => (h.2.colls.filter fun c => SMap.has c.copies n).map Collapse.key).flatten
  let drop := fun (c : Collapse) => { c with asked := c.asked.filter (· != n), copies := SMap.erase c.copies n }
  keys.foldl (fun st k => st.logLine 2 (coreField n) k)
    { s with slices := s.slices.map fun h => (h.1, { h.2 with colls := h.2.colls.map drop }) }

/-- Everything the loss of another device's incarnation does here (09 R286): its messages are discarded, the copies its die-0 die-level
cache held are lost, its subscriptions go, and what waits for it is answered. -/
def State.loseIncarnation (s : State) (dev : Nat) : State :=
  let s1 : State := { s with
    remotes := SMap.insert s.remotes dev { s.remote dev with reachable := false }, net := s.net.filter fun m => !m.fromDevice dev }
  let mine := s1.outbox.filter fun e => e.1 == dev
  let s2 := mine.foldl (fun st e => st.answerLost e.2.msg)
    { s1 with
      outbox := s1.outbox.filter (fun e => e.1 != dev), flying := s1.flying.filter (fun e => e.2 != dev)
      replicas := s1.replicas.filter fun r => r.dev != dev }
  let n := 512 * (dev + 1) + 256
  let s3 := (((s2.cache n).keys.foldl (fun st k => st.loseSector n k) s2).loseInCollapses n)
  let gone := fun (p : Preempt) => { p with homes := p.homes.map fun l => l.filter (· != dev) }
  let s4 : State := { s3 with preempts := s3.preempts.map gone }
  (s4.lapseHomed dev).dropSubscribers fun e => e.dev == dev

/-- Another device is unreachable (11 R342): it is lost, and the contributions it has not answered complete (11 R347). -/
def State.loseDevice (s : State) (dev : Nat) : State := (s.loseIncarnation dev).failContributions dev

/-- Another device rejoins: what it had is lost, and it is back under its next incarnation (09 R285, R286). Contributions to one that
stayed in reach are sent again (11 R347). -/
def State.rejoinDevice (s : State) (dev : Nat) : State :=
  let s1 := s.loseIncarnation dev
  let r := s1.remote dev
  { s1 with remotes := SMap.insert s1.remotes dev { r with reachable := true, inc := r.inc + 1 } }

/-! ## Messages of other devices (09 R285, R286, R292; 11 R337) -/

/-- A far operation at other addresses. -/
def FarOp.at_ (f : Nat → Nat) : FarOp → FarOp
  | .atom u vd o w k ord => .atom u vd o w { k with addr := f k.addr } ord
  | .upd o a v => .upd o (f a) v
  | .store ws ord => .store (ws.map fun e => (f e.1, e.2)) ord

/-- The permission a far operation needs. -/
def FarOp.need : FarOp → Need
  | .atom _ _ _ _ _ _ => needRW
  | _ => needW

/-- A far access of another device performs at its home here, in the address space of its tag, and is answered; or is refused. -/
def State.farAbroad (s : State) (dev tag : Nat) (op : FarOp) : State :=
  match op.reach.findSome? (fun r => match s.lookupAbroad tag (tagVa r.1) op.need with
    | .error k => some (r.1, k)
    | .ok _ => none) with
  | some (a, k) => s.refuseAbroad dev tag (tagVa a) k
  | none =>
    let here := fun (a : Nat) => match s.lookupAbroad tag (tagVa a) op.need with
      | .ok t => t.tag
      | .error _ => a
    let s1 := match op.at_ here with
      | .atom _ _ o w k _ => (s.homeRmw k.addr (if w then 8 else 4) (atomFn o w k)).1
      | x => s.performFar x
    match op.reach with
    | r :: _ => s1.linePacket (dieOf (homeOf (here r.1 / 32))) dev 2 (here r.1 / 32)
    | [] => s1

/-- An element of another device's TCOPY.OUT is written or folded here, or its page reported (06 R221, R224). -/
def State.takeElement (s : State) (dev tag pos va red : Nat) (bs : List Byte) : State :=
  match s.lookupAbroad tag va needW with
  | .error _ => s.sendTo (dieOf (homeSlice tag va)) dev tag (.copyFault pos s.dev va)
  | .ok t => if red = 0 then s.homeRun t.tag bs else s.foldAt t.asid t.va (copyOp red) bs

/-- Does an access in Translation wait for a line of another device that a refusal names? -/
def State.asksAbroad (s : State) (tag va : Nat) : Bool :=
  s.groups.any fun e => (s.context e.2.ctx).dctag.toNat == tag
    && e.2.pending.any fun pd => pd.lanes.any fun l => l.2 / 128 == va / 128

/-- Is a message one whose tag its own rule looks at (11 R337)? -/
def Msg.checksTag : Msg → Bool
  | .subReq _ => true
  | .active _ => true
  | .contrib _ => true
  | _ => false

/-- A parcel of another device arrives: one of its next incarnation shows that it has rejoined, one of an older incarnation is discarded,
and so is one whose tag is not mapped here unless its own rule answers it (11 R337; for the messages without a row a DESIGN CHOICE,
log 130). -/
def State.arrive (s : State) (p : Parcel) : State :=
  let s1 := if p.inc = (s.remote p.dev).inc + 1 then s.rejoinDevice p.dev else s
  if p.dev = s.dev ∨ !(s1.remote p.dev).reachable ∨ p.inc ≠ (s1.remote p.dev).inc then s1
  else match p.msg with
    | .far _ _ op => s1.farAbroad p.dev p.tag op
    | .element _ _ pos va red bs => s1.takeElement p.dev p.tag pos va red bs
    | .copyFault pos _ va => s1.takeCopyFault pos p.dev va
    | .written w => { s1 with flying := dropFirst (w, p.dev) s1.flying }
    | .xlFault _ _ va mapped =>
      if s1.asksAbroad p.tag va then { s1 with net := s1.net ++ [.xlFault p.dev p.tag va mapped] } else s1
    | m => if m.checksTag || (s1.ctxOfTag p.tag).isSome then { s1 with net := s1.net ++ [m] } else s1

/-- DEVICE_UNREACHABLE (11 R342): no link toward the device has been up for 1 ms. Whether a link is up toward it depends on the
device's own end and the plane between, which the model does not hold, so the event is the outcome of the watch (log 4). -/
def execDeviceUnreachable (dev : Nat) (s : State) : Out := .next (if dev = s.dev then s else s.loseDevice dev)

end Sys2Proof.Machine
end

