-- ==== Sys2Proof/Machine/Boot.lean ====
section
/-! DEFINITION. Firmware images and bring-up (12 R362, R363, R370). -/

namespace Sys2Proof.Machine

/-! ## Images (12 Table 12-7) -/

/-- Bytes of a signature. -/
def sigBytes : Nat := 2420
/-- Bytes of an image header. -/
def imageHeader : Nat := 256

/-- A run of an image's bytes; a byte never staged reads as erased flash (log 5). -/
def Image.read (m : Image) (a n : Nat) : List Byte := (run a n).map fun i => SMap.getD m.bytes i 0

/-- SVN, LENGTH and KEYSLOT. -/
def Image.svn (m : Image) : Nat := ofBytes (m.read 4 4)
/-- Payload bytes. -/
def Image.payload (m : Image) : Nat := ofBytes (m.read 8 4)
/-- Key slot. -/
def Image.keySlot (m : Image) : Nat := ofBytes (m.read 12 1)

/-- Is the header laid out as Table 12-7 says? -/
def Image.goodHead (m : Image) : Bool :=
  ofBytes (m.read 0 4) == 0x57465850 && decide (m.keySlot < 4) && ofBytes (m.read 13 243) == 0

/-- Digest of header and payload. -/
def Image.digest (m : Image) : BitVec 256 := Config.sha3_256 (m.read 0 (imageHeader + m.payload))

/-- Does the signature verify under the image's key? -/
def Image.signed (m : Image) : Bool :=
  Config.mldsaVerify m.keySlot m.digest (m.read (imageHeader + m.payload) sigBytes)

/-- The verification of 12 R362: 0, or 2 signature, 3 key revoked, 4 rollback. -/
def Firmware.verify (f : Firmware) (m : Image) : Nat :=
  if !m.signed then 2 else if f.revoked.getLsbD m.keySlot then 3 else if m.svn < f.svn.toNat then 4 else 0

/-- The boot code of the image that boot ROM loads: the committed one, else the running one, else the one shipped with the
module; 1 when there is none (12 R362). -/
def Firmware.bootCode (f : Firmware) : Nat :=
  match f.committed, f.active with
  | some m, _ => f.verify m
  | none, some m => f.verify m
  | none, none =>
    if !f.shipped then 1 else if !f.shippedSigned then 2
    else if (run 0 4).any fun k => f.revoked.getLsbD k && Config.shippedSlot % 4 == k then 3
    else if Config.shippedSvn < f.svn.toNat then 4 else 0

/-- The image that runs after a successful boot, and its digest on record. -/
def Firmware.boot (f : Firmware) : Firmware :=
  match f.committed, f.active with
  | some m, _ => { f with active := some m, committed := none, digests := f.digests ++ [some m.digest] }
  | none, some m => { f with digests := f.digests ++ [some m.digest] }
  | none, none => { f with digests := f.digests ++ [none] }

/-- The mailbox after a reset; an image that was not committed is gone (12 R366). -/
def Firmware.restart (f : Firmware) (cold : Bool) : Firmware :=
  { f with mbcmd := 0, busy := false, result := 0, arg0 := 0, arg1 := 0, arg2 := 0, buf := [], staging := none,
           digests := if cold then [] else f.digests }

/-! ## The module budget -/

/-- The module budget in watts: 600 to 1,500 in steps of 100 (12 R360, Table 12-6; log 42). -/
def moduleBudget : Nat := 600 + 100 * (Config.carrierStrap % 10)

/-! ## Corrected errors (12 R361, R368) -/

/-- Island of a vault's interface (12 Table 12-13). -/
def vaultIsland (c : Nat) : Nat := 8 * dieOf c + 5

/-- An island counts corrected errors, saturating; how many there were the spec does not say (12 R361, R368; log 7). -/
def State.countCorrected (s : State) (i : Nat) : State :=
  let (s1, w) := s.fresh
  let n := (SMap.getD s.power.icorr i 0).toNat + w.toNat
  { s1 with power := { s1.power with icorr := SMap.put 0 s1.power.icorr i (BitVec.ofNat 32 (min n (2 ^ 32 - 1))) } }

/-! ## Bring-up (12 R370) -/

/-- Every cache is empty with the next incarnation (09 R285). -/
def State.nextCaches (s : State) : SMap Cache := (run 0 258).map fun n => (n, { Cache.empty with inc := (s.cache n).inc + 1 })

/-- A port keeps its link, the memory behind it and what it has sent; its registers reset. -/
def Port.restart (p : Port) : Port := { Port.reset with up := p.up, hostMem := p.hostMem, msix := p.msix, readData := p.readData }

/-- A link after it has trained again; one that reports another port number than link 0 is kept down (11 R335). -/
def Link.restart (l : Link) (zero : BitVec 8) : Link := { Link.reset with portNum := l.portNum, up := l.portNum == zero }

/-- Is a Strait bridge up? -/
def State.bridge (s : State) (q : Nat) : Bool := SMap.getD s.bridgesUp q true

/-- The contexts here that a lost CID concerns: the bound one, and those that have contributed (11 R348); a CID with tag 0 is bound to
its sender's. A sender on another device gets its record with the answer NOBIND. -/
def State.concerned (s : State) (k : Collective) : List Nat :=
  let bound := (s.ctxOfTag k.tag).toList
  bound ++ k.senders.filter fun c => !bound.contains c

/-- Step records are lost (11 R348): their CIDs answer NOBIND until a host rewrites the binding entry, and both contexts get a check that
names each. The record's ANSWER is 1 (NOBIND), its RANK and SEQ are 0: the model's choice (log 125). -/
def State.loseRecords (s : State) (f : Nat → Bool) : State :=
  let lost := s.collectives.filter fun e => f e.1
  lost.foldl (fun st e => (st.concerned e.2).foldl (fun u c => u.logCheck c ⟨5, 1, 0xFFFF, u.dev, 0, e.1, 0, 0⟩) st)
    { s with collectives := s.collectives.filter (fun e => !f e.1), lostCids := (SMap.keys lost).foldl (fun m cid => SMap.insert m cid []) s.lostCids }

/-- A reset: every context goes, every incarnation advances, memory is cleared, and bring-up runs from firmware
verification; a failed verification or bridge leaves the device in RECOVERY (12 R362, R370; 11 R334, R348). -/
def State.bringUp (s0 : State) (cold : Bool) : State :=
  let s := s0.loseRecords fun _ => true
  let fw := s.firmware.restart cold
  let code := fw.bootCode
  let bridges := if cold then [] else s.bridgesUp
  let good := code == 0 && (run 0 4).all fun q => SMap.getD bridges q true
  { State.reset with
    dev := s.dev
    inc := s.inc + 1
    free := s.free
    agenda := s.agenda
    nextUid := s.nextUid
    nextTeam := s.nextTeam
    nextPos := s.nextPos
    nextOrder := s.nextOrder
    caches := s.nextCaches
    lostCids := s.lostCids
    ports := s.ports.map fun e => (e.1, e.2.restart)
    remotes := s.remotes
    links := s.links.map fun e => (e.1, e.2.restart (s.link 0).portNum)
    bridgesUp := bridges
    firmware := if code = 0 then fw.boot else fw
    ready := good
    recovery := !good
    bootCode := BitVec.ofNat 8 code }

/-- A device machine check goes to every context (12 Table 12-9, kind 6). -/
def State.deviceCheck (s : State) : State :=
  (SMap.keys (s.contexts.filter fun e => e.2.state != 0)).foldl (fun st c => st.logCheck c (Check.of 6 s.dev 0)) s

end Sys2Proof.Machine
end

