-- ==== Sys2Proof/Machine/EvTranslation.lean ====
section
/-! DEFINITION. Translation at its own pace: requests, remap answers, shootdown, page migration, hot lines (07 R245; 09
R289 to R296; 11 R330 to R332). An event whose condition does not hold changes nothing. -/

namespace Sys2Proof.Machine

/-- The proxy slice of a home slice on the other die (09 R269). -/
def proxyOf (h : Nat) : Nat := partialHolder h (1 - dieOf h)

/-- TRANSLATION_REQUEST (09 R289): the controller of the line's home, or of its proxy, finds the page and keeps a valid
leaf. -/
def execTranslationRequest (mc asid va : Nat) (s : State) : Out :=
  let h := homeSlice asid va
  if mc ≠ h ∧ mc ≠ proxyOf h then .next s
  else match s.entryAt mc asid va with
    | .leaf l => .next (s.setSlice mc ((s.slice mc).keepLeaf l))
    | _ => .next s

/-- REMAP_ANSWER (09 R294): an synonym page installs a remap entry at the requesting network interface. -/
def execRemapAnswer (node asid va : Nat) (s : State) : Out :=
  match s.entryBy (some (node / 32)) asid va with
  | .synonym _ _ _ _ _ _ => .next (if node < 64 then s.noteTranslation node asid va else s)
  | _ => .next s

/-! ## Shootdown (07 R245, 09 R295) -/

/-- Does a page overlap the bytes of a shootdown? -/
def Shootdown.covers (d : Shootdown) (asid base bytes : Nat) : Bool :=
  asid == d.asid && overlaps base bytes d.base d.bytes

/-- Does a sector lie in the pages? -/
def Shootdown.sector (d : Shootdown) (key : Nat) : Bool := d.covers (keyAsid key) (keyVa key) 32

/-- Every sector key some cache, buffer or slice lists. -/
def State.listedKeys (s : State) : List Nat :=
  ((s.caches.map fun c =>
      (c.2.lines.map fun l => (SMap.keys l.secs).map fun k => 4 * l.tag + k).flatten ++ SMap.keys c.2.wbuf).flatten
    ++ (s.slices.map fun x => SMap.keys x.2.l2 ++ SMap.keys x.2.die ++ (x.2.park.map fun e => e.1.1)
      ++ x.2.colls.map Collapse.key).flatten).eraseDups

/-- A sector of the pages leaves every cache, its data to the place from which its line came in (07 R245). -/
def State.purge (s : State) (key : Nat) : State := ((s.collapseNow key).invalidateAll key).dropHome key

/-- The lapse push of a shot-down subscription: its data as at the home, OVR all ones (05 R189). -/
def State.lapsePush (s : State) (e : SubEntry) : Push :=
  ⟨s.blockBytes e.asid e.block e.size, e.seq, 0xFFFFFFFF, BitVec.ofNat 64 s.fabric⟩

/-- Lapse a subscription: its lapse push goes out, behind the held pushes of a STRICT one; a parked COALESCE entry keeps it as its
newest push (05 R184, R188, 07 R245). -/
def State.lapse (s : State) (h idx : Nat) (e : SubEntry) : State :=
  let x := s.slice h
  let p := s.lapsePush e
  let put := fun (k : SubEntry) => s.setSlice h { x with subs := SMap.insert x.subs idx k }
  if e.state != .active then s
  else if e.strict && (e.dlv || !e.held.isEmpty) then
    put { e with seq := e.seq + 1, held := e.held ++ [p], state := .lapsePending }
  else if !e.strict && e.park then put { e with seq := e.seq + 1, held := [p], state := .lapsed }
  else (put { e with seq := e.seq + 1, dlv := e.strict, state := .lapsed }).sendPush h idx { e with strict := true } p

/-- An instruction cache without the halfwords of some sectors: keys of halfwords are `VA / 2`, of sectors `VA / 32`. -/
def Core.dropCode (c : Core) (f : Nat → Bool) : Core := { c with icache := c.icache.filter fun e => !f (e.1 / 16) }

/-- Does a slice serve a sector, as its home or as its proxy on the other die? -/
def servesKey (h key : Nat) : Bool := homeOf key == h || proxyOf (homeOf key) == h

/-- What a memory controller and its slice do: lapse, purge the caches, instruction caches among them, of the lines the slice serves,
and drop translations. A line that the other controller of its two lets in meanwhile goes when that one does the same. -/
def State.shootSlice (s : State) (h : Nat) (d : Shootdown) : State :=
  let s1 := ((s.slice h).subs.filter fun e => d.covers e.2.asid e.2.block e.2.size).foldl
    (fun st e => st.lapse h e.1 e.2) s
  let s2 := (s1.listedKeys.filter fun k => d.sector k && servesKey h k).foldl State.purge s1
  let s3 := ((s2.slice h).hot.filter fun t => d.sector (4 * t)).foldl State.revokeHot s2
  let keep := fun (l : Leaf) => !d.covers l.asid l.base (2 ^ l.bits)
  let x := s3.slice h
  let s4 := [h, proxyOf h].foldl (fun st k => st.setSlice k { st.slice k with frames := (st.slice k).frames.filter keep })
    (s3.setSlice h { x with tcache := x.tcache.filter keep })
  { s4 with cores := s4.cores.map fun e => (e.1, e.2.dropCode fun k => d.sector k && servesKey h k) }

/-- What a network interface does: its remap entries for the pages go, as synonym or as canonical. -/
def State.shootNode (s : State) (n : Nat) (d : Shootdown) : State :=
  let keep := fun (e : RemapEntry) => !d.covers e.asid e.base (2 ^ e.bits) && !d.covers e.casid e.cbase (2 ^ e.bits)
  { s with remap := SMap.insert s.remap n ((SMap.getD s.remap n []).filter keep) }

/-- An agent processes a shootdown and has still to acknowledge it. -/
def State.shoot (s : State) (agent : Nat) (d : Shootdown) : State :=
  if d.todo.contains agent then
    let s1 := if agent < 64 then s.shootSlice agent d else s.shootNode (agent - 64) d
    let move := fun (k : Shootdown) =>
      if k.madeBy d.uid d.slot then { k with todo := k.todo.filter (· != agent), acks := k.acks ++ [agent] } else k
    { s1 with shootdowns := s1.shootdowns.map move }
  else s

/-- SHOOTDOWN_BROADCAST (09 R295 steps 1 to 3). -/
def execShootdownBroadcast (agent : Nat) (s : State) : Out := .next (s.shootdowns.foldl (fun st d => st.shoot agent d) s)

/-- Does a tagged access lie in the pages? -/
def Shootdown.access (d : Shootdown) (a n : Nat) : Bool := d.covers (tagAsid a) (tagVa a) n

/-- Does a group still have an access to the pages to perform? -/
def Group.busyIn (g : Group) (d : Shootdown) : Bool :=
  g.queue.any (fun e => match e with
    | .store ws _ _ => ws.any fun w => d.access w.1 w.2.length
    | .atom _ wide _ ks _ _ => ks.any fun k => d.access k.addr (if wide then 8 else 4))
  || g.loads.any fun x => x.lanes.any fun l => l.bytes.isNone && d.access l.addr x.size

/-- Does a queued MXEPI or copy of the core still reach the pages (07 R245)? -/
def State.enginesBusyIn (s : State) (c : Core) (d : Shootdown) : Bool :=
  c.matq.any (fun m => match m.op with
    | .epilogue e => e.dest == 1 && d.covers (s.context (s.teamCtx m.team)).asid.toNat e.base e.extent
    | _ => false)
  || c.copies.any fun j => j.pages.any fun p => d.covers (s.context j.ctx).asid.toNat p 65536

/-- Is every access checked before the shootdown over? -/
def State.drainedFor (s : State) (d : Shootdown) : Bool :=
  !s.groups.any (fun e => e.2.busyIn d)
  && !s.net.any (fun m => match m with
    | .far _ _ op => op.reach.any fun r => d.access r.1 r.2
    | .subReq r => r.dev == s.dev && d.covers r.asid r.block r.size
    | _ => false)
  && !s.cores.any fun e => s.enginesBusyIn e.2 d

/-- SHOOTDOWN_ACK (09 R295 step 4). -/
def execShootdownAck (agent : Nat) (s : State) : Out :=
  .next { s with shootdowns := s.shootdowns.map fun d =>
    if d.acks.contains agent && s.drainedFor d then { d with acks := d.acks.filter (· != agent) } else d }

/-! ## Page migration (09 R296) -/

/-- The physical address of the entry that ends a walk. -/
def walkSlot (mem : List Host.Cell) (asid va : Nat) : List (Nat × Nat × Nat × Bool × Bool) → Nat → Nat
  | [], a => a
  | (lo, n, size, leafOk, tableOk) :: r, table =>
    let a := table + 8 * bits va lo n
    match Pte.ofNat asid va size leafOk tableOk (ofBytes (Memory.readN mem a 8)) with
    | .table next => walkSlot mem asid va r next
    | _ => a

/-- Move a run of physical bytes. -/
def Memory.move (m : List Host.Cell) (old new n : Nat) : List Host.Cell :=
  let inside := fun (lo : Nat) (e : Host.Cell) => decide (lo ≤ e.1) && decide (e.1 < lo + n)
  (m.filter (inside old)).foldl (fun k e => Memory.write k (e.1 - old + new) e.2) (m.filter fun e => !inside new e)

/-- The root table of an address space. -/
def State.rootOf (s : State) (asid : Nat) : Nat :=
  match s.ctxOfAsid asid with
  | some c => (s.context c).ptroot.toNat
  | none => 0

/-- PAGE_MIGRATION (09 R296): a 64 KiB or 2 MiB page of this device moves to another frame; its entry and every cached
translation follow. -/
def execPageMigration (asid va frame : Nat) (s : State) : Out :=
  match s.walk asid va with
  | .leaf l =>
    let size := 2 ^ l.bits
    let new := frame * 65536
    if l.bits = 30 ∨ l.host ∨ l.dev ≠ s.dev ∨ new % size ≠ 0 ∨ vaultBytes < new + size ∨ vaultBytes < l.frame * 65536 + size then
      .next s
    else
      let a := walkSlot s.mem asid va ptLevels (s.rootOf asid)
      let e := ofBytes (Memory.readN s.mem a 8)
      let m1 := Memory.move s.mem (l.frame * 65536) new size
      let m2 := Memory.writeN m1 a (toBytes 8 (e - bits e 16 40 * 65536 + new))
      let fix := fun (k : Leaf) => if k = l then { k with frame := frame } else k
      let hot := (s.slices.map fun h => h.2.hot.filter fun t => keyAsid (4 * t) == asid && overlaps (keyVa (4 * t)) 128 l.base size).flatten
      let s1 := hot.foldl State.revokeHot s
      .next { s1 with mem := m2, slices := s1.slices.map fun h => (h.1, { h.2 with tcache := h.2.tcache.map fix, frames := h.2.frames.map fix }) }
  | _ => .next s

/-! ## Hot lines (11 R330, R331) -/

/-- Is every held sector of a line in S, none in U anywhere, and none on its way home in a write-back buffer, so that the home has its
value (11 R330)? -/
def State.onlyShared (s : State) (tag : Nat) : Bool :=
  (run (4 * tag) 4).all fun k =>
    (s.holders k).all (fun h => h.2.1 == .s) && (s.uOp k).isNone && !s.caches.any fun e => e.2.owes k

/-- Quadrant of a slice within its die. -/
def quadOf (h : Nat) : Nat := h % 32 / 8

/-- The helper that serves a quadrant of the home's die. -/
def helperFor (h q : Nat) : Nat := if q = (quadOf h ^^^ 1) then h ^^^ 8 else h ^^^ 16

/-- Network interfaces of the other three quadrants of the home's die, with the helper of each (log 11). -/
def redirects (h : Nat) : List (Nat × Nat) :=
  ((run 0 32).filter fun i => i / 8 != quadOf h).map fun i => (32 * dieOf h + i, helperFor h (i / 8))

/-- Reads of a line that qualify it within one window: 256, from three quadrants (11 R330). -/
def hotReads : Nat := 256

/-- Has a slice served enough read misses for a line in the window (11 R330)? -/
def State.readsEnough (s : State) (h tag : Nat) : Bool :=
  let rs := (s.slice h).reads.filter fun r => decide (s.fabric < r.1 + hotWindow) && r.2.1 == tag
  decide (hotReads ≤ rs.length) && decide (3 ≤ (rs.map fun r => r.2.2).eraseDups.length)

/-- Replicas of a line go to a helper (11 R331). -/
def State.replicate (s : State) (tag helper : Nat) : State :=
  let x := s.slice helper
  s.setSlice helper { x with
    replica := (run (4 * tag) 4).foldl (fun m k => SMap.insert m k (s.homeRead k)) x.replica
    helped := SMap.insert x.helped tag [] }

/-- The redirect entry of a network interface for a hot line; a full interface drops its oldest (DESIGN CHOICE, log 123). -/
def State.redirectAt (s : State) (tag : Nat) (e : Nat × Nat) : State :=
  { s with redirect := SMap.insert s.redirect e.1 (keepFirst 32 (⟨tag, e.2⟩ :: SMap.getD s.redirect e.1 [])) }

/-- HOT_LINE_MARK (11 R330, R331): a much-read shared line without subscription and U sector becomes hot; the seventeenth of a slice
revokes the oldest. Its helpers take replicas, and the other quadrants of the die are redirected to them. -/
def execHotLineMark (asid va : Nat) (s : State) : Out :=
  let key := s.tagFor asid va / 32
  let tag := key / 4
  let h := s.homeAt key
  let x := s.slice h
  if x.hot.contains tag || s.subscribed key || !s.onlyShared tag || !s.readsEnough h tag then .next s
  else
    let s1 := match x.hot with
      | t :: _ => if 16 ≤ x.hot.length then s.revokeHot t else s
      | [] => s
    let y := s1.slice h
    let s2 := (helpersOf h).foldl (fun st k => st.replicate tag k) (s1.setSlice h { y with hot := y.hot ++ [tag] })
    .next ((redirects h).foldl (fun st e => st.redirectAt tag e) s2)

end Sys2Proof.Machine
end

