-- ==== Sys2Proof/Machine/EvHost.lean ====
section
/-! DEFINITION. What the host ports do: semaphores, status bits, context commands, descriptors, host queues, windows,
registers (12 R350 to R358). -/

namespace Sys2Proof.Machine

/-! ## Ports and semaphores (12 R351 to R353) -/

/-- A write that arrives from a port shows that its link is up again (log 4). -/
def State.fromPort (s : State) (p : BitVec 1) : State :=
  let x := s.port p.toNat
  if x.up then s else s.setPort p.toNat { x with up := true }

/-- OWNER of a semaphore. -/
def State.owner (s : State) (n : Nat) : BitVec 2 := SMap.getD s.sems n 0

/-- A port's own code. -/
def portCode (p : BitVec 1) : BitVec 2 := BitVec.ofNat 2 (p.toNat + 1)

/-- SEMERR of a port is set. -/
def State.semErr (s : State) (p : BitVec 1) : State := s.setPort p.toNat { s.port p.toNat with semerr := true }

/-- A write to a guarded register: dropped with SEMERR from a port that does not own the semaphore (12 R352). -/
def State.guarded (s : State) (p : BitVec 1) (sem : Nat) (k : State → State) : State :=
  if s.owner sem = portCode p then k s else s.semErr p

/-- The control space but for its always-answering part ignores writes until READY is set (12 R370). -/
def State.whenReady (s : State) (p : BitVec 1) (k : State → State) : State :=
  let s1 := s.fromPort p
  if s1.ready then k s1 else s1

/-- What OWNER becomes (12 Table 12-3). -/
def nextOwner (own code : BitVec 2) (v : Nat) : BitVec 2 :=
  if own = 0 ∧ v % 4 = code.toNat then code else if own = code ∧ v % 4 = 0 then 0 else own

/-- SEMAPHORE_WRITE (12 R352). -/
def execSemaphoreWrite (port : BitVec 1) (sem : BitVec 3) (val : BitVec 32) (s : State) : Out :=
  let s1 := s.fromPort port
  .next { s1 with sems := SMap.put 0 s1.sems sem.toNat (nextOwner (s1.owner sem.toNat) (portCode port) val.toNat) }

/-- Both ports write their codes to one semaphore in a cycle: a free one goes to the port that lost the last such tie, the
first to port 0 (12 R353). -/
def State.semTie (s : State) (sem : BitVec 3) : State :=
  if s.owner sem.toNat ≠ 0 then s
  else
    let winner : BitVec 1 := match s.tieLoser with
      | some p => p
      | none => 0
    { s with sems := SMap.put 0 s.sems sem.toNat (portCode winner), tieLoser := some (winner + 1) }

/-- PSTAT_CLEAR (12 R351). -/
def execPstatClear (port : BitVec 1) (val : BitVec 32) (s : State) : Out :=
  let s1 := s.fromPort port
  let x := s1.port port.toNat
  .next (s1.setPort port.toNat
    { x with semerr := x.semerr && !val.getLsbD 0, winerr := x.winerr && !val.getLsbD 1 })

/-- PORT_LINK_DOWN (12 R353): every semaphore the port holds is released. -/
def execPortLinkDown (port : BitVec 1) (s : State) : Out :=
  let s1 := s.setPort port.toNat { s.port port.toNat with up := false }
  .next { s1 with sems := s1.sems.filter fun e => e.2 != portCode port }

/-! ## Context commands (12 R356) -/

/-- The slot a command names. -/
def State.cmdSlot (s : State) : Nat := s.ctxarg.toNat % 64

/-- CTXSTAT after a command that has completed. -/
def State.cmdDone (s : State) (result : Nat) : State := { s with ctxstat := BitVec.ofNat 32 result }

/-- A command from a port: dropped while BUSY, guarded by SEM0; from a STATE not listed it completes with result 2. -/
def State.command (s : State) (p : BitVec 1) (code : Nat) (states : List Nat) (k : State → Nat → State) : State :=
  s.whenReady p fun s1 => s1.guarded p 0 fun s2 =>
    if s2.ctxstat.getLsbD 31 then s2
    else
      let s3 : State := { s2 with ctxcmd := BitVec.ofNat 32 code }
      if states.contains (s3.context s3.cmdSlot).state.toNat then k s3 s3.cmdSlot else s3.cmdDone 2

/-- Is a number a power of two in 16..65,536? -/
def goodLogSize (n : Nat) : Bool := (run 4 13).any fun e => n == 2 ^ e

/-- CREATE's checks: alignments, MCLOGSZ, DEVSET against DCTAG (12 Tables 12-4, 12-5). -/
def Context.valid (c : Context) (dev : Nat) : Bool :=
  c.ptroot.toNat % 4096 == 0 && c.divbase.toNat % 16384 == 0 && c.saveslotsz.toNat % 256 == 0
  && c.trbase.toNat % 256 == 0 && c.mclogbase.toNat % 64 == 0 && goodLogSize c.mclogsz.toNat
  && (if c.dctag = 0 then c.devset == 0 else c.devset.getLsbD dev)

/-- A context as CREATE starts it. -/
def Context.create (c : Context) : Context :=
  { c with state := 1, events := 0, nextLaunch := 0, mccount := 0, devq := [], launches := [], arena := [], saveUsed := [] }

/-- CTX_CREATE. -/
def execCtxCreate (port : BitVec 1) (s : State) : Out :=
  .next (s.command port 1 [0] fun st n =>
    let c := st.context n
    if c.valid st.dev then (st.setContext n c.create).cmdDone 0 else st.cmdDone 1)

/-- CTX_HALT: the notice names the host. -/
def execCtxHalt (port : BitVec 1) (s : State) : Out :=
  .next (s.command port 2 [1] fun st n => (st.haltContext n 0 0x100).cmdDone 0)

/-- Change the freeze causes of a context's groups, resident and saved; service groups are spared unless `all`. -/
def State.setFreeze (s : State) (ctx : Nat) (all : Bool) (f : Freeze → Freeze) : State :=
  let g := fun (x : Group) => { x with freeze := f x.freeze }
  { s with
    groups := s.groups.map fun e => if e.2.ctx = ctx ∧ (all ∨ e.1 % 128 < 64) then (e.1, (g e.2).reevaluate) else e
    teams := s.teams.map fun t =>
      if t.2.ctx = ctx then (t.1, { t.2 with held := t.2.held.map fun h => (h.1, g h.2) }) else t }

/-- CTX_RESUME: teams and launch queues thaw (01 R46). -/
def execCtxResume (port : BitVec 1) (s : State) : Out :=
  .next (s.command port 3 [2] fun st n =>
    (((st.setContext n { st.context n with state := 1 }).setFreeze n true fun x => { x with halt := false })).cmdDone 0)

/-- CTX_FREEZE: every team freezes at its next issue boundary; engines go on. -/
def execCtxFreeze (port : BitVec 1) (s : State) : Out :=
  .next (s.command port 5 [1] fun st n => (st.setFreeze n false fun x => { x with host := true }).cmdDone 0)

/-- CTX_THAW. -/
def execCtxThaw (port : BitVec 1) (s : State) : Out :=
  .next (s.command port 6 [1] fun st n => (st.setFreeze n false fun x => { x with host := false }).cmdDone 0)

/-- PREEMPT of every team of a context: BUSY until the last is saved or discarded. -/
def State.preemptAll (s : State) (port ctx : Nat) : State :=
  let ts := SMap.keys (s.teams.filter fun t => t.2.ctx == ctx)
  let s1 := ts.foldl (fun st t => st.requestPreempt t (some port)) s
  if s1.preempts.any (fun p => p.cmd.isSome) then { s1 with ctxstat := 0x80000000 } else s1.cmdDone 0

/-- CTX_PREEMPT. -/
def execCtxPreempt (port : BitVec 1) (s : State) : Out :=
  .next (s.command port 7 [1, 2] fun st n => st.preemptAll port.toNat n)

/-- Everything of an address space is shot down (07 R245). -/
def State.shootAll (s : State) (asid : Nat) : State :=
  let d : Shootdown := ⟨s.nextUid, .a, asid, 0, 2 ^ 56, [], []⟩
  (run 0 64).foldl (fun st n => st.shootNode n d) ((run 0 64).foldl (fun st h => st.shootSlice h d) s)

/-- The engines of a core and its queues forget a context. -/
def Core.forget (c : Core) (teams slots : List Nat) (ctx : Nat) : Core :=
  { c with
    matq := c.matq.filter fun m => !teams.contains m.team
    copies := c.copies.filter fun j => !teams.contains j.team
    msgq := c.msgq.filter fun j => j.ctx != ctx
    trapq := c.trapq.filter fun k => !slots.contains k }

/-- The subscriptions of a context end (12 Table 12-5): its entries in homes here, its requests on their way to a home here, and those
that homes on other devices hold, which are asked to remove them; one whose handle is still to come is removed when it comes. -/
def State.endSubscriptions (s : State) (n : Nat) : State :=
  let mine := s.teams.filter fun t => t.2.ctx == n
  let ended := fun (team : Nat) => SMap.has mine team
  let asks := (mine.map fun t => (t.2.segs.map fun g => g.2.bound.filterMap fun e => match e.2.handle with
    | some w => some (t.1, g.1, e.2, w)
    | none => none).flatten).flatten
  let tag := (s.context n).dctag.toNat
  let s1 := s.dropSubscribers fun e => e.dev == s.dev && ended e.team
  let s2 : State := { s1 with net := s1.net.filter fun m => match m with
    | .subReq r => !(r.dev == s.dev && ended r.team)
    | _ => true }
  asks.foldl (fun st a => match handleParts a.2.2.2 with
    | some (d, _, _, _) =>
      if d = st.dev || !(st.remote d).reachable || a.2.2.1.lapsed then st
      else st.sendTo 0 d tag (.unsub st.dev tag a.2.2.1.uid a.1 a.2.1 a.2.2.2 a.2.2.1.pos)
    | none => st) s2

/-- End a context (12 Table 12-5): what its groups have issued performs, then groups, teams, queues, launches and
subscriptions go, the address space is shot down, and the slot is free. Its packets that a host queue still holds stay in their ring,
where intake meets them as any other packet: the model's choice (log 126). -/
def State.terminate (s : State) (n : Nat) : State :=
  let s1 := (s.groups.filter fun e => e.2.ctx == n).foldl (fun st e => (st.landAll e.1).landCollapses e.2.uid)
    (s.setContext n { s.context n with state := 3 })
  let keys := SMap.keys (s1.groups.filter fun e => e.2.ctx == n)
  let uids := (s1.groups.filter fun e => e.2.ctx == n).map fun e => e.2.uid
  let teams := SMap.keys (s1.teams.filter fun t => t.2.ctx == n)
  let slots := fun (core : Nat) => (keys.filter fun k => k / 128 == core).map fun k => k % 128
  let s2 := s1.endSubscriptions n
  let s3 : State := { s2 with
    groups := s2.groups.filter fun e => e.2.ctx != n
    teams := s2.teams.filter fun t => t.2.ctx != n
    cores := s2.cores.map fun e => (e.1, e.2.forget teams (slots e.1) n)
    shootdowns := s2.shootdowns.filter fun d => !uids.contains d.uid
    replicas := s2.replicas.filter fun r => r.ctx != n
    sent := s2.sent.filter fun c => c.ctx != n }
  let s4 := teams.foldl (fun st t => st.endPreempt t 0) (s3.release fun o => o.1 == n || (o.1 == 64 && teams.contains o.2))
  let s5 := s4.shootAll (s4.context n).asid.toNat
  s5.setContext n { s5.context n with state := 0, devq := [], launches := [], arena := [], saveUsed := [] }

/-- CTX_TERMINATE. -/
def execCtxTerminate (port : BitVec 1) (s : State) : Out :=
  .next (s.command port 4 [1, 2] fun st n => (st.terminate n).cmdDone 0)

/-- CTX_BAD_CODE: a code outside 1..7. -/
def execCtxBadCode (port : BitVec 1) (code : BitVec 32) (s : State) : Out :=
  if 1 ≤ code.toNat ∧ code.toNat ≤ 7 then .next s
  else .next (s.whenReady port fun s1 => s1.guarded port 0 fun s2 =>
    if s2.ctxstat.getLsbD 31 then s2 else { s2 with ctxcmd := code }.cmdDone 1)

/-! ## Descriptors (12 R355) -/

/-- May a field be written in every STATE? -/
def anyField : DescField → Bool
  | .flags => true
  | .tsvc => true
  | .htb => true
  | .htsize => true
  | _ => false

/-- A descriptor with a field written; TSVC, HTB and HTSIZE as WRSYS writes them. A 64-bit value of which one half breaks R242 is
dropped whole (DESIGN CHOICE, log 133). -/
def Context.writeField (c : Context) (f : DescField) (v : Nat) : Context :=
  match f with
  | .asid => { c with asid := BitVec.ofNat 16 v }
  | .dctag => { c with dctag := BitVec.ofNat 16 v }
  | .flags => { c with flags := BitVec.ofNat 8 (v % 2) }
  | .ptroot => { c with ptroot := BitVec.ofNat 64 v }
  | .divbase => { c with divbase := BitVec.ofNat 64 v }
  | .divslots => { c with divslots := BitVec.ofNat 32 v }
  | .saveslotsz => { c with saveslotsz := BitVec.ofNat 32 v }
  | .trbase => { c with trbase := BitVec.ofNat 64 v }
  | .savebase => { c with savebase := BitVec.ofNat 64 v }
  | .saveslots => { c with saveslots := BitVec.ofNat 32 v }
  | .mclogsz => { c with mclogsz := BitVec.ofNat 32 v }
  | .mclogbase => { c with mclogbase := BitVec.ofNat 64 v }
  | .tsvc => if v % 256 = 0 ∧ v % 2 ^ 64 < 2 ^ 56 then { c with tsvc := BitVec.ofNat 64 v } else c
  | .htb => if v % 16 = 0 ∧ v % 2 ^ 64 < 2 ^ 56 then { c with htb := BitVec.ofNat 64 v } else c
  | .htsize => c.writeSys 0x014 (BitVec.ofNat 32 v)
  | .devset => { c with devset := BitVec.ofNat 256 v }

/-- Write a field of a descriptor slot: a Free field of a slot in use is dropped with SEMERR (12 R355). -/
def State.writeDesc (s : State) (p : BitVec 1) (slot : Nat) (f : DescField) (v : Nat) : State :=
  let c := s.context slot
  if anyField f || c.state == 0 then s.setContext slot (c.writeField f v) else s.semErr p

/-- DESCRIPTOR_WRITE (12 R355). -/
def execDescriptorWrite (port : BitVec 1) (slot : BitVec 6) (field : DescField) (val : BitVec 256) (s : State) : Out :=
  .next (s.whenReady port fun s1 => s1.guarded port 0 fun s2 => s2.writeDesc port slot.toNat field val.toNat)

/-! ## Host queues (12 R357) -/

/-- The bits of QCTL a write sets, ENABLE and QERR aside. -/
def qctlMask : Word := 0x40003F0F

/-- May a queue be enabled: QSIZE 4..12, bases aligned, QCTX in STATE 1 or 2? -/
def State.queueOk (s : State) (x : HostQueue) : Bool :=
  let n := bits x.qctl.toNat 0 4
  let st := (s.context x.slot).state
  decide (4 ≤ n) && decide (n ≤ 12) && x.qbase.toNat % 4096 == 0 && x.cbase.toNat % 4096 == 0 && (st == 1 || st == 2)

/-- QUEUE_ENABLE (12 R357): a write of QCTL with ENABLE; a queue that is enabled drops it. -/
def execQueueEnable (port : BitVec 1) (q : BitVec 4) (val : BitVec 32) (s : State) : Out :=
  .next (s.whenReady port fun s1 =>
    let x := (s1.port port.toNat).queue q.toNat
    if x.enabled then s1
    else
      let y := { x with qctl := (x.qctl &&& 0x20000000) ||| (val &&& qctlMask) }
      if s1.queueOk y then
        s1.setQueue port.toNat q.toNat { y with
          qctl := (val &&& qctlMask) ||| 0x80000000, qtail := 0, qhead := 0, chead := 0, since := s1.now }
      else s1.setQueue port.toNat q.toNat { y with qctl := y.qctl ||| 0x20000000 })

/-- QUEUE_DISABLE (12 R357). -/
def execQueueDisable (port : BitVec 1) (q : BitVec 4) (s : State) : Out :=
  .next (s.whenReady port fun s1 =>
    let x := (s1.port port.toNat).queue q.toNat
    if x.enabled then s1.setQueue port.toNat q.toNat (x.stop false) else s1)

/-- QTAIL_WRITE (12 R357): more entries than the ring holds stop the queue. -/
def execQtailWrite (port : BitVec 1) (q : BitVec 4) (val : BitVec 32) (s : State) : Out :=
  .next (s.whenReady port fun s1 =>
    let x := (s1.port port.toNat).queue q.toNat
    if !x.enabled then s1
    else if x.entries < (val - x.qhead).toNat then s1.setQueue port.toNat q.toNat (x.stop true)
    else s1.setQueue port.toNat q.toNat { x with qtail := val, since := if x.qtail = x.qhead then s1.now else x.since })

/-- CHEAD_WRITE (12 R357). -/
def execCheadWrite (port : BitVec 1) (q : BitVec 4) (val : BitVec 32) (s : State) : Out :=
  .next (s.whenReady port fun s1 =>
    let x := (s1.port port.toNat).queue q.toNat
    if !x.enabled || decide (2 ^ 31 ≤ (x.qhead - val).toNat) then s1
    else s1.setQueue port.toNat q.toNat { x with chead := val })

/-! ## Windows (12 R354) -/

/-- A window access that fails: WINERR, and a read completes with Unsupported Request. -/
def State.winFail (s : State) (p : BitVec 1) (write : Bool) : State :=
  let x := s.port p.toNat
  s.setPort p.toNat { x with winerr := true, readData := if write then x.readData else none }

/-- A window read completes with data. -/
def State.winData (s : State) (p : BitVec 1) (bs : List Byte) : State :=
  s.setPort p.toNat { s.port p.toNat with readData := some bs }

/-- The lost CIDs whose binding entry, where CBTBASE has it now, no host has rewritten since the loss (11 R348). -/
def State.stillLost (s : State) : SMap (List (Nat × Nat)) :=
  s.lostCids.filter fun c => !c.2.any fun r => overlaps (s.entryAddr c.1) 32 r.1 r.2

/-- A host writes a run of bytes: every CID whose binding entry it meets may bind again (11 R348). The entry need not be in use yet:
the run is kept for a CBTBASE that a host sets later. -/
def State.rebindCids (s : State) (pa n : Nat) : State :=
  let t := { s with lostCids := s.lostCids.map fun (c : Nat × List (Nat × Nat)) => (c.1, (pa, n) :: c.2) }
  { t with lostCids := t.stillLost }

/-- CBTBASE moves: an entry that a host has already written there since the loss counts as rewritten (11 R348). -/
def State.setCbtbase (s : State) (v : BitVec 64) : State :=
  let t := { s with cbtbase := BitVec.ofNat 64 (v.toNat / 2 ^ 21 * 2 ^ 21) }
  { t with lostCids := t.stillLost }

/-- The same for a run of bytes at a virtual address. -/
def State.rebindAt (s : State) (asid va n : Nat) : State :=
  (cuts 128 (n / 128 + 2) va n).foldl (fun st w => match st.lookup asid w.1 with
    | .ok t => match st.placeOf t with
      | .vault pa => st.rebindCids pa w.2
      | _ => st
    | .error _ => st) s

/-- An access through a window whose address is physical: a write of bytes, or a read of `n` (none given). -/
def State.winPhysical (s : State) (p : BitVec 1) (pa n : Nat) (w : Option (List Byte)) : State :=
  if vaultBytes < pa + n then s.winFail p w.isSome
  else match w with
    | some bs => { s with mem := Memory.writeN s.mem pa bs }.rebindCids pa n
    | none => s.winData p (Memory.readN s.mem pa n)

/-- An access through a window whose address is virtual in a running context. -/
def State.winVirtual (s : State) (p : BitVec 1) (slot va n : Nat) (w : Option (List Byte)) : State :=
  let c := s.context slot
  if c.state ≠ 1 then s.winFail p w.isSome
  else match w with
    | some bs => match s.homeWriteRun c.asid.toNat va bs with
      | .ok s1 => s1.rebindAt c.asid.toNat va n
      | .error _ => s.winFail p true
    | none => match s.homeLoad c.asid.toNat va n with
      | .ok (s1, bs) => s1.winData p bs
      | .error _ => s.winFail p false

/-- An access of `n` bytes at a BAR2 offset (12 R354); until READY it completes with Unsupported Request (12 R370). -/
def State.window (s : State) (port : BitVec 1) (offset : BitVec 28) (n : Nat) (w : Option (List Byte)) : State :=
  let s1 := s.fromPort port
  let x := s1.port port.toNat
  if !s1.ready then (if w.isSome then s1 else s1.setPort port.toNat { x with readData := none })
  else
    let k := offset.toNat / 2 ^ 26
    let ctl := SMap.getD x.winctx k 0
    let a := (SMap.getD x.winbase k 0).toNat + offset.toNat % 2 ^ 26
    if ctl.getLsbD 31 then s1.winPhysical port a n w else s1.winVirtual port (ctl.toNat % 64) a n w

/-- WINDOW_ACCESS (12 R354): eight bytes. -/
def execWindowAccess (port : BitVec 1) (offset : BitVec 28) (write : Bool) (data : BitVec 64) (s : State) : Out :=
  .next (s.window port offset 8 (if write then some (toBytes 8 data.toNat) else none))

/-- Payload bytes of a request (12 Table 12-1). -/
def maxPayload : Nat := 512

/-- A window read or write of another size, up to the maximum payload. -/
def State.windowOf (s : State) (port : BitVec 1) (offset : BitVec 28) (n : Nat) (w : Option (List Byte)) : State :=
  if n = 0 ∨ maxPayload < n then s else s.window port offset n w

/-! ## Other registers (12 Table 12-2) -/

/-- A queue register written while the queue is disabled: QBASE, CBASE, and QCTL without ENABLE. -/
def HostQueue.writeReg (x : HostQueue) (off : Nat) (v : BitVec 64) : HostQueue :=
  if x.enabled then x
  else match off with
    | 0x00 => { x with qbase := v }
    | 0x08 => { x with cbase := v }
    | 0x10 => if v.getLsbD 31 then x else { x with qctl := (x.qctl &&& 0x20000000) ||| (BitVec.ofNat 32 v.toNat &&& qctlMask) }
    | _ => x

/-- A window register written (12 Table 12-10). -/
def Port.writeWindow (x : Port) (w off : Nat) (v : BitVec 64) : Port :=
  match off with
  | 0 => { x with winctx := SMap.put 0 x.winctx w (BitVec.ofNat 32 v.toNat &&& 0x8000003F) }
  | 8 => { x with winbase := SMap.put 0 x.winbase w (v &&& 0x00FFFFFFFFFFF000) }
  | _ => x

/-- A mailbox argument or buffer word written; nothing while a command runs (12 R365). -/
def Firmware.writeReg (f : Firmware) (off : Nat) (v : BitVec 64) : Firmware :=
  if f.busy then f
  else if off = 0x08 then { f with arg0 := v }
  else if off = 0x10 then { f with arg1 := v }
  else if off = 0x18 then { f with arg2 := v }
  else if 0x1000 ≤ off ∧ off + 8 ≤ 0x10000 then { f with buf := SMap.putAll 0 f.buf (number (off - 0x1000) (toBytes 8 v.toNat)) }
  else f

/-- The fields of a descriptor: first byte and size (12 Table 12-4). -/
def descFields : List (DescField × Nat × Nat) :=
  [(.asid, 0, 2), (.dctag, 2, 2), (.flags, 5, 1), (.ptroot, 8, 8), (.divbase, 16, 8), (.divslots, 24, 4), (.saveslotsz, 28, 4),
    (.trbase, 32, 8), (.savebase, 40, 8), (.saveslots, 48, 4), (.mclogsz, 52, 4), (.mclogbase, 56, 8), (.tsvc, 64, 8), (.htb, 72, 8),
    (.htsize, 80, 4), (.devset, 88, 32)]

/-- The value of a field. -/
def Context.readField (c : Context) (f : DescField) : Nat :=
  match f with
  | .asid => c.asid.toNat
  | .dctag => c.dctag.toNat
  | .flags => c.flags.toNat
  | .ptroot => c.ptroot.toNat
  | .divbase => c.divbase.toNat
  | .divslots => c.divslots.toNat
  | .saveslotsz => c.saveslotsz.toNat
  | .trbase => c.trbase.toNat
  | .savebase => c.savebase.toNat
  | .saveslots => c.saveslots.toNat
  | .mclogsz => c.mclogsz.toNat
  | .mclogbase => c.mclogbase.toNat
  | .tsvc => c.tsvc.toNat
  | .htb => c.htb.toNat
  | .htsize => c.htsize.toNat
  | .devset => c.devset.toNat

/-- A descriptor's 128 bytes as a host reads them (12 Table 12-4). -/
def Context.bytes (c : Context) : List Byte :=
  layout 128 ((4, c.state.toNat) :: (84, c.mccount.toNat) :: descFields.map fun f => (f.2.1, c.readField f.1))

/-- A number of `n` bytes with the bytes of a list written from byte `at_` on. -/
def patch (v n at_ : Nat) (bs : List Byte) : Nat :=
  ofBytes ((number 0 (toBytes n v)).map fun e => if at_ ≤ e.1 then (bs[e.1 - at_]?).getD e.2 else e.2)

/-- Write eight bytes at a byte of a descriptor: every field they reach; STATE, MCCOUNT and the zero bytes take none. -/
def State.writeDescBytes (s : State) (p : BitVec 1) (slot off : Nat) (bs : List Byte) : State :=
  (descFields.filter fun f => overlaps off bs.length f.2.1 f.2.2).foldl (fun st f =>
    let old := (st.context slot).readField f.1
    let new := if f.2.1 ≤ off then patch old f.2.2 (off - f.2.1) bs else patch old f.2.2 0 (bs.drop (f.2.1 - off))
    st.writeDesc p slot f.1 new) s

/-- The semaphore that guards a byte of the control space (12 Table 12-2). -/
def guardOf (off : Nat) : Option Nat :=
  if 0x48 ≤ off ∧ off < 0x50 then some 3
  else if (0x100 ≤ off ∧ off < 0x108) ∨ (0x1000 ≤ off ∧ off < 0x3000) then some 0
  else if 0x20000 ≤ off ∧ off < 0x30000 then some 1
  else if 0x30000 ≤ off ∧ off < 0x30024 then some 2
  else none

/-- A register of the control space without a command of its own; a write to a guarded byte of no register changes nothing else. -/
def State.writeReg (s : State) (p : BitVec 1) (off : Nat) (v : BitVec 64) : State :=
  if off = 0x48 then s.guarded p 3 fun st => st.setCbtbase v
  else if off = 0x104 then s.guarded p 0 fun st => { st with ctxarg := BitVec.ofNat 32 v.toNat }
  else if 0x1000 ≤ off ∧ off < 0x3000 then
    s.guarded p 0 fun st => st.writeDescBytes p ((off - 0x1000) / 128) (off % 128) (toBytes 8 v.toNat)
  else if 0x10000 ≤ off ∧ off < 0x10400 then
    let q := (off - 0x10000) / 64
    s.setQueue p.toNat q (((s.port p.toNat).queue q).writeReg (off % 64) v)
  else if 0x11000 ≤ off ∧ off < 0x11040 then
    s.setPort p.toNat ((s.port p.toNat).writeWindow ((off - 0x11000) / 16) (off % 16) v)
  else if 0x30000 ≤ off ∧ off < 0x30020 ∧ off % 2 = 0 then
    s.guarded p 2 fun st =>
      { st with power := { st.power with share := SMap.insert st.power.share ((off - 0x30000) / 2) (BitVec.ofNat 16 v.toNat) } }
  else match guardOf off with
    | some g => s.guarded p g id
    | none => s

/-- REGISTER_WRITE (12 R351, R365): the mailbox answers in every state; other offsets ignore the write. -/
def execRegisterWrite (port : BitVec 1) (offset : BitVec 26) (val : BitVec 64) (s : State) : Out :=
  let off := offset.toNat
  if 0x20000 ≤ off ∧ off < 0x30000 then
    .next ((s.fromPort port).guarded port 1 fun st => { st with firmware := st.firmware.writeReg (off - 0x20000) val })
  else .next (s.whenReady port fun s1 => s1.writeReg port off val)

/-! ## Reads of the control space (12 R351) -/

/-- DEVSTAT. -/
def State.devstat (s : State) : Nat :=
  (if s.ready then 1 else 0) + (if s.recovery then 2 else 0) + (if s.thermtrip then 4 else 0) + s.dev % 256 * 2 ^ 8
    + s.bootCode.toNat * 2 ^ 16

/-- The registers that answer in every state of the device (12 R370): offset, bytes and value. -/
def State.alwaysRegs (s : State) (p : BitVec 1) : List (Nat × Nat × Nat) :=
  let x := s.port p.toNat
  let f := s.firmware
  [(0x00, 4, Config.impl.toNat), (0x08, 4, s.devstat), (0x40, 4, (if x.semerr then 1 else 0) + (if x.winerr then 2 else 0)),
    (0x20000, 4, f.mbcmd.toNat), (0x20004, 4, f.result.toNat + (if f.busy then 2 ^ 31 else 0)), (0x20008, 8, f.arg0.toNat),
    (0x20010, 8, f.arg1.toNat), (0x20018, 8, f.arg2.toNat)]
  ++ (run 0 8).map fun n => (0x10 + 4 * n, 4, (s.owner n).toNat)

/-- The registers of a host queue (12 Table 12-11). -/
def HostQueue.regs (x : HostQueue) (base : Nat) : List (Nat × Nat × Nat) :=
  [(base, 8, x.qbase.toNat), (base + 8, 8, x.cbase.toNat), (base + 0x10, 4, x.qctl.toNat), (base + 0x18, 4, x.qtail.toNat),
    (base + 0x1C, 4, x.qhead.toNat), (base + 0x20, 4, x.chead.toNat)]

/-- The registers of the power block (12 Table 12-14). -/
def Power.regs (p : Power) : List (Nat × Nat × Nat) :=
  [(0x30024, 4, moduleBudget), (0x30028, 4, if p.lastDrop then 1 else 0)]
  ++ ((run 0 16).map fun i => (0x30000 + 2 * i, 2, (SMap.getD p.share i 4095).toNat))
  ++ ((run 0 16).map fun i => [(0x30100 + 16 * i, 4, (SMap.getD p.ipwr i 0).toNat), (0x30104 + 16 * i, 2, (SMap.getD p.iclk i 0).toNat),
      (0x30106 + 16 * i, 2, (SMap.getD p.itemp i 0).toNat), (0x30108 + 16 * i, 4, (SMap.getD p.icorr i 0).toNat)]).flatten

/-- The registers that answer once READY is set, the descriptors aside; queues and windows are the reading port's own. -/
def State.readyRegs (s : State) (p : BitVec 1) : List (Nat × Nat × Nat) :=
  let x := s.port p.toNat
  [(0x48, 8, s.cbtbase.toNat), (0x100, 4, s.ctxcmd.toNat), (0x104, 4, s.ctxarg.toNat), (0x110, 4, s.ctxstat.toNat)]
  ++ ((run 0 16).map fun q => (x.queue q).regs (0x10000 + 64 * q)).flatten
  ++ ((run 0 4).map fun w => [(0x11000 + 16 * w, 4, (SMap.getD x.winctx w 0).toNat),
      (0x11008 + 16 * w, 8, (SMap.getD x.winbase w 0).toNat)]).flatten
  ++ s.power.regs

/-- The byte of a register table at an offset; an offset of no register reads 0 (12 R351). -/
def byteOf (regs : List (Nat × Nat × Nat)) (off : Nat) : Byte :=
  match regs.find? fun r => decide (r.1 ≤ off) && decide (off < r.1 + r.2.1) with
  | some r => BitVec.ofNat 8 (r.2.2 / 256 ^ (off - r.1))
  | none => 0

/-- A byte of BAR0 as a port reads it (12 R351, R370). -/
def State.readByte (s : State) (p : BitVec 1) (off : Nat) : Byte :=
  if 0x21000 ≤ off ∧ off < 0x30000 then SMap.getD s.firmware.buf (off - 0x21000) 0
  else if !s.ready then byteOf (s.alwaysRegs p) off
  else if 0x1000 ≤ off ∧ off < 0x3000 then ((s.context ((off - 0x1000) / 128)).bytes[off % 128]?).getD 0
  else byteOf (s.alwaysRegs p ++ s.readyRegs p) off

/-- A port's read of `n` bytes of BAR0 completes with them (12 R351). -/
def State.hostRead (s : State) (p : BitVec 1) (off n : Nat) : State :=
  (s.fromPort p).winData p ((run off n).map ((s.fromPort p).readByte p))

end Sys2Proof.Machine
end

