-- ==== Sys2Proof/Machine/EvFirmware.lean ====
section
/-! DEFINITION. The firmware mailbox: staging and committing an image, the fused counter, attestation, device reset
(12 R363 to R367). -/

namespace Sys2Proof.Machine

/-- Bytes of MBBUF. -/
def mbufBytes : Nat := 61440

/-- The mailbox after a command has completed: vector 34 goes to both ports (12 Table 12-1; log 105). -/
def State.mbDone (s : State) (result : Nat) : State :=
  { s with firmware := { s.firmware with result := BitVec.ofNat 16 result, busy := false } }.notify 34 result

/-- A write of MBCMD (12 R365): it needs SEM1, is dropped while BUSY, answers in every state of the device; in RECOVERY
only the commands that Table 12-16 marks are served, others give result 1 (log 71). -/
def State.mailbox (s : State) (p : BitVec 1) (code : Word) (inRecovery : Bool) (k : State → State) : State :=
  (s.fromPort p).guarded p 1 fun s1 =>
    if s1.firmware.busy then s1
    else
      let s2 : State := { s1 with firmware := { s1.firmware with mbcmd := code } }
      if s2.recovery && !inRecovery then s2.mbDone 1 else k s2

/-- Replace the firmware block. -/
def State.setFirmware (s : State) (f : Firmware) : State := { s with firmware := f }

/-- IMGBEGIN's effect. -/
def State.imgBegin (s : State) : State :=
  let n := s.firmware.arg0.toNat
  if 2 ^ 26 < n then s.mbDone 1
  else (s.setFirmware { s.firmware with staging := some ⟨n, []⟩ }).mbDone 0

/-- IMGBEGIN (12 Table 12-16). -/
def execImgbegin (port : BitVec 1) (s : State) : Out := .next (s.mailbox port 1 true State.imgBegin)

/-- The first bytes of MBBUF. -/
def Firmware.bufRun (f : Firmware) (n : Nat) : List Byte := (run 0 n).map fun i => SMap.getD f.buf i 0

/-- IMGDATA's effect. -/
def State.imgData (s : State) : State :=
  let f := s.firmware
  let off := f.arg0.toNat
  let n := f.arg1.toNat
  match f.staging with
  | none => s.mbDone 6
  | some m =>
    if off % 256 ≠ 0 ∨ n = 0 ∨ mbufBytes < n ∨ m.len < off + n then s.mbDone 1
    else
      (s.setFirmware { f with staging := some { m with bytes := SMap.putAll 0 m.bytes (number off (f.bufRun n)) } }).mbDone 0

/-- IMGDATA (12 Table 12-16). -/
def execImgdata (port : BitVec 1) (s : State) : Out := .next (s.mailbox port 2 true State.imgData)

/-- IMGCOMMIT's effect. Without an open staging bank the result is 6 (DESIGN CHOICE, log 135). -/
def State.imgCommit (s : State) : State :=
  let f := s.firmware
  match f.staging with
  | none => s.mbDone 6
  | some m =>
    if !m.goodHead then s.mbDone 1
    else if m.len ≠ imageHeader + m.payload + sigBytes then s.mbDone 5
    else if f.verify m ≠ 0 then s.mbDone (f.verify m)
    else (s.setFirmware { f with committed := some m, staging := none }).mbDone 0

/-- IMGCOMMIT (12 Table 12-16). -/
def execImgcommit (port : BitVec 1) (s : State) : Out := .next (s.mailbox port 3 true State.imgCommit)

/-- SVN of the running image. -/
def Firmware.runningSvn (f : Firmware) : Nat :=
  match f.active with
  | some m => m.svn
  | none => Config.shippedSvn

/-- SVN of the committed image, if there is one. -/
def Firmware.committedSvn (f : Firmware) : Nat :=
  match f.committed with
  | some m => m.svn
  | none => 0

/-- SVNADV's effect. -/
def State.svnAdv (s : State) : State :=
  let f := s.firmware
  let v := f.arg0.toNat
  if f.svn.toNat ≤ v ∧ (v ≤ f.runningSvn ∨ v ≤ f.committedSvn) ∧ v < 2 ^ 32 then
    (s.setFirmware { f with svn := BitVec.ofNat 32 v }).mbDone 0
  else s.mbDone 1

/-- SVNADV (12 Table 12-16). -/
def execSvnadv (port : BitVec 1) (s : State) : Out := .next (s.mailbox port 4 false State.svnAdv)

/-- A digest on record. -/
def digestOf (d : Option (BitVec 256)) : BitVec 256 :=
  match d with
  | some x => x
  | none => Config.shippedDigest

/-- Bytes of the report for n digests. -/
def reportBytes (n : Nat) : Nat := 84 + 32 * n + sigBytes + 1312

/-- The signed part of the report (12 Table 12-17). -/
def Firmware.reportBody (f : Firmware) : List Byte :=
  toBytes 4 0x52545441 ++ toBytes 4 (reportBytes f.digests.length) ++ toBytes 4 Config.impl.toNat
  ++ toBytes 4 f.svn.toNat ++ toBytes 4 f.digests.length ++ f.bufRun 32 ++ (run 0 32).map Config.ident
  ++ f.digests.flatMap fun d => toBytes 32 (digestOf d).toNat

/-- The whole report. -/
def Firmware.report (f : Firmware) : List Byte :=
  let body := f.reportBody
  body ++ (run 0 sigBytes).map (Config.mldsaSign (Config.sha3_256 body)) ++ (run 0 1312).map Config.devicePub

/-- ATTEST's effect; a report longer than MBBUF gives result 1 (log 71). -/
def State.attest (s : State) : State :=
  let f := s.firmware
  let n := reportBytes f.digests.length
  if mbufBytes < n then s.mbDone 1
  else
    (s.setFirmware { f with
      buf := SMap.putAll 0 f.buf (number 0 f.report), arg0 := BitVec.ofNat 64 n }).mbDone 0

/-- ATTEST (12 R367). -/
def execAttest (port : BitVec 1) (s : State) : Out := .next (s.mailbox port 5 false State.attest)

/-- RESET (12 Table 12-16): the key starts a device reset. -/
def execReset (port : BitVec 1) (s : State) : Out :=
  .next (s.mailbox port 6 true fun s1 => if s1.firmware.arg0 = 0x5253544B then s1.bringUp false else s1.mbDone 1)

/-- MB_BAD_CODE: a code outside 1..6. -/
def execMbBadCode (port : BitVec 1) (code : BitVec 32) (s : State) : Out :=
  if 1 ≤ code.toNat ∧ code.toNat ≤ 6 then .next s
  else .next (s.mailbox port code true fun s1 => s1.mbDone 1)

end Sys2Proof.Machine
end

