-- ==== Sys2Proof/Machine/EvMessage.lean ====
section
/-! DEFINITION. The event unit's requests from the host, and active messages at their target (07 R232, R235 to R237). -/

namespace Sys2Proof.Machine

/-- EVENT_UNIT_APPLY (07 R232): one request to a context's event unit, the clear before the set. -/
def execEventUnitApply (ctx : Nat) (clear set : BitVec 256) (s : State) : Out := .next (s.eventNow ctx clear set)

/-- Is a message an active message? -/
def Msg.isActive : Msg → Bool
  | .active _ => true
  | _ => false

/-- Is it an active message's answer? -/
def Msg.isActiveAns : Msg → Bool
  | .activeAns _ _ _ _ => true
  | _ => false

/-- SENDAM statuses (07 Table 7-2). -/
def amAccepted : Word := 0
/-- NOHANDLER. -/
def amNoHandler : Word := 1
/-- REFUSED. -/
def amRefused : Word := 3

/-- The context slot a message belongs to here: the sender's own, or the one with its domain tag (11 R337). -/
def State.messageCtx (s : State) (m : ActiveMsg) : Option Nat :=
  if m.srcDev = s.dev then some m.ctx
  else match s.contexts.find? (fun e => e.2.state != 0 && e.2.dctag.toNat == m.dctag && m.dctag != 0) with
    | some e => some e.1
    | none => none

/-- Is a handler table entry valid (07 Table 7-3)? -/
def goodEntry (e : Nat) : Bool := bit e 63 && bits e 60 3 == 0 && bits e 120 8 == 0

/-- Does a kernel header serve as a handler's (07 R237)? -/
def goodHandler (bs : List Byte) : Bool :=
  let h := Header.ofBytes bs
  goodMagic bs && goodHeader bs && decide (10 ≤ h.sregs) && h.barriers == 0 && h.acctiles == 0 && h.scratch == 0
  && h.producer == 0

/-- The launch packet of one group that a handler's entry and header stand for. -/
def handlerPacket (asid e : Nat) (h : Header) : BitVec 1024 :=
  let qw0 := bits e 0 56 + bits e 56 4 * 2 ^ 56
  let qw1 := bits e 64 56 + h.divstack * 2 ^ 56
  let qw2 := 1 + 2 ^ 16 + 2 ^ 32 + asid * 2 ^ 48
  let qw3 := h.regsP * 2 ^ 17 + h.regsC * 2 ^ 24 + h.sregs * 2 ^ 31
  BitVec.ofNat 1024 (qw0 + qw1 * 2 ^ 64 + qw2 * 2 ^ 128 + qw3 * 2 ^ 192)

/-- The handler a message names: its packet, or none for NOHANDLER; with the state after the loads (07 R236). An entry or a header
that cannot be read answers NOHANDLER (DESIGN CHOICE, log 119). -/
def State.handlerOf (s : State) (ctx core h : Nat) : State × Option (BitVec 1024) :=
  let c := s.context ctx
  let asid := c.asid.toNat
  if c.htsize.toNat ≤ h ∨ (c.state ≠ 1 ∧ c.state ≠ 2) then (s, none)
  else match s.loadVirt core asid (c.htb.toNat + 16 * h) 16 with
    | .error _ => (s, none)
    | .ok (s1, bs) =>
      let e := ofBytes bs
      if !goodEntry e || bits e 64 3 != 0 || bits e 0 8 != 0 then (s1, none)
      else match s1.loadVirt core asid (bits e 0 56) headerBytes with
        | .error _ => (s1, none)
        | .ok (s2, hdr) => (s2, if goodHandler hdr then some (handlerPacket asid e (Header.ofBytes hdr)) else none)

/-- Messages a core's queue holds (07 R237). -/
def msgCapacity : Nat := 16

/-- A message at its target core: its handler job is queued, or it is turned away; with its status. -/
def State.receive (s : State) (m : ActiveMsg) : State × Word :=
  match s.messageCtx m with
  | none => (s, amNoHandler)
  | some ctx =>
    match s.handlerOf ctx m.core m.handler with
    | (s1, none) => (s1, amNoHandler)
    | (s1, some p) =>
      let c := s1.core m.core
      if msgCapacity ≤ c.msgq.length then (s1, amRefused)
      else (s1.setCore m.core { c with msgq := c.msgq ++ [⟨ctx, p, m.words, m.srcCore, m.srcDev⟩] }, amAccepted)

/-- ACTIVE_MESSAGE_ARRIVAL (07 R236, R237): messages from one core to another arrive in the order sent (11 R329). -/
def execActiveMessageArrival (n : Nat) (s : State) : Out :=
  match s.takeOrdered Msg.isActive n with
  | some (.active m, s1) =>
    let r := s1.receive m
    .next (r.1.sendTo (m.core / 128) m.srcDev m.dctag (.activeAns m.uid m.sd r.2 (1024 * s.dev + m.core)))
  | _ => .next s

/-- ACTIVE_MESSAGE_ANSWER (07 R235), in the order sent (11 R329). -/
def execActiveMessageAnswer (n : Nat) (s : State) : Out :=
  match s.takeOrdered Msg.isActiveAns n with
  | some (.activeAns uid sd w _, s1) => .next ((s1.answered (Msg.askedBy uid sd)).answerScalar uid sd w)
  | _ => .next s

/-- The arena slot a handler takes when it is placed: none needed when DIVSTACK is 0 (07 R237). -/
def State.handlerArena (s : State) (j : HandlerJob) : Option (List Nat) :=
  if (Header.ofPacket j.packet).divstack = 0 then some [] else (s.context j.ctx).freeSlots 1

/-- Can the core place the handler's group now? -/
def State.handlerFits (s : State) (core : Nat) (j : HandlerJob) : Bool :=
  (s.context j.ctx).state == 1 && s.segFits j.packet 0 core && s.modeFits j.packet core && !SMap.has s.reserved (core / 32)
  && (s.handlerArena j).isSome && (s.freeSlot core).isSome

/-- The oldest message of each context may start; the first of these that fits. -/
def State.pickHandler (s : State) (core : Nat) : List Nat → List HandlerJob → Option (HandlerJob × List HandlerJob)
  | _, [] => none
  | seen, j :: r =>
    if !seen.contains j.ctx && s.handlerFits core j then some (j, r)
    else match s.pickHandler core (j.ctx :: seen) r with
      | some (k, r') => some (k, j :: r')
      | none => none

/-- Registers s0.. of a handler group (07 R237). -/
def handlerScalars (j : HandlerJob) : List Word :=
  let arg := pktField j.packet 1 0 56
  [BitVec.ofNat 32 arg, BitVec.ofNat 32 (arg / 2 ^ 32)] ++ (run 0 6).map (fun i => j.words.getD i 0)
    ++ [BitVec.ofNat 32 j.srcCore, BitVec.ofNat 32 j.srcDev]

/-- The team of a handler group. -/
def handlerTeam (j : HandlerJob) (core : Nat) : Team :=
  { Team.start j.ctx 0 j.packet 0 [core] with handler := true, restartable := false }

/-- Start a handler group on a core (07 R237). -/
def State.startHandler (s : State) (core slot : Nat) (j : HandlerJob) (arena : List Nat) : State :=
  let h := Header.ofPacket j.packet
  let b : Birth := ⟨s.nextUid, j.ctx, s.nextTeam, 0, 0, 0, true, .user, arena.head?, Freeze.none⟩
  let c := s.context j.ctx
  let s1 := (s.setContext j.ctx { c with arena := c.arena ++ arena }).clusterMode false core
  let s2 := (s1.setTeam s.nextTeam (handlerTeam j core)).setGroup (groupKey core slot)
    (Group.start b h (kernelOf j.packet) (handlerScalars j) s.now)
  { s2 with nextUid := s.nextUid + 1, nextTeam := s.nextTeam + 1 }

/-- HANDLER_START (07 R237). -/
def execHandlerStart (core : Nat) (s : State) : Out :=
  match s.pickHandler core [] (s.core core).msgq with
  | none => .next s
  | some (j, rest) =>
    match s.freeSlot core, s.handlerArena j with
    | some slot, some as => .next ((s.setCore core { s.core core with msgq := rest }).startHandler core slot j as)
    | _, _ => .next s

end Sys2Proof.Machine
end

