-- ==== Sys2Proof/Machine/EvPower.lean ====
section
/-! DEFINITION. Power: the arbiter's grants, the clamps, shares and telemetry (12 R359 to R361). -/

namespace Sys2Proof.Machine

/-- Islands of the device (12 Table 12-13). -/
def islands : List Nat := run 0 16

/-- The bounds in MHz of an island's clock; none for a fixed clock (12 Table 12-13). -/
def clockBounds (i : Nat) : Option (Nat × Nat) :=
  if i % 8 < 4 then some (800, 2100) else if i % 8 = 4 then some (900, 1800) else none

/-- The clock of an island. -/
def Power.clockOf (p : Power) (i : Nat) : Nat :=
  match clockBounds i with
  | some b => SMap.getD p.clock i b.2
  | none => 0

/-- SHAREi and the share in effect. -/
def Power.shareOf (p : Power) (i : Nat) : Nat := (SMap.getD p.share i 4095).toNat
/-- The share that grants use. -/
def Power.appliedOf (p : Power) (i : Nat) : Nat := (SMap.getD p.applied i 4095).toNat

/-- The grant of an island: its part of the module budget by share, at most its demand, halved while a junction is at
105 °C (12 R359, R360). -/
def Power.grantFor (p : Power) (i demand : Nat) : Nat :=
  let total := (islands.map p.appliedOf).sum
  let part := if total = 0 then 0 else moduleBudget * 1000 * p.appliedOf i / total
  let whole := if demand < part then demand else part
  if p.halved then whole / 2 else whole

/-- An island's clock after a grant: a step of 25 MHz down when the grant is below the demand, else a step up (log 5). -/
def Power.nextClock (p : Power) (i demand grant : Nat) : Nat :=
  match clockBounds i with
  | none => 0
  | some b =>
    let c := p.clockOf i
    if grant < demand then (if c < b.1 + 25 then b.1 else c - 25) else (if b.2 < c + 25 then b.2 else c + 25)

/-- The value at a position of a list, 0 beyond its end. -/
def atOr0 (l : List Nat) (i : Nat) : Nat := (l[i]?).getD 0

/-- POWER_GRANT (12 R359). -/
def execPowerGrant (demand : List Nat) (s : State) : Out :=
  let p := s.power
  .next { s with power := { p with
    demand := islands.foldl (fun m i => SMap.put 0 m i (atOr0 demand i)) p.demand
    grant := islands.foldl (fun m i => SMap.put 0 m i (p.grantFor i (atOr0 demand i))) p.grant
    clock := islands.foldl (fun m i =>
      SMap.insert m i (p.nextClock i (atOr0 demand i) (p.grantFor i (atOr0 demand i)))) p.clock } }

/-- OVERCURRENT_CLAMP (12 R360): every island goes to its minimum clock. -/
def execOvercurrentClamp (s : State) : Out :=
  .next { s with power := { s.power with
    clock := islands.foldl (fun m i => SMap.insert m i (match clockBounds i with | some b => b.1 | none => 0)) s.power.clock } }

/-- THERMAL_HALVE (12 R360): a junction reaches 105 °C, or leaves it. -/
def execThermalHalve (hot : Bool) (s : State) : Out :=
  .next { s with power := { s.power with
    halved := hot
    grant := if hot && !s.power.halved then s.power.grant.map fun e => (e.1, e.2 / 2) else s.power.grant } }

/-- THERMAL_TRIP (12 R360): a device machine check to every context, then every clock stops until a cold reset. -/
def execThermalTrip (s : State) : Out := .next { s.deviceCheck with thermtrip := true }

/-- TELEMETRY_UPDATE (12 R361): the measured power and temperature of each island, its clock, and the corrected errors of its
arrays. -/
def execTelemetryUpdate (power temp : List Nat) (s0 : State) : Out :=
  let s := islands.foldl State.countCorrected s0
  let p := s.power
  .next { s with power := { p with
    ipwr := islands.foldl (fun m i => SMap.put 0 m i (BitVec.ofNat 32 (atOr0 power i))) p.ipwr
    itemp := islands.foldl (fun m i => SMap.put 0 m i (BitVec.ofNat 16 (atOr0 temp i))) p.itemp
    iclk := islands.foldl (fun m i => SMap.put 0 m i (BitVec.ofNat 16 (p.clockOf i))) p.iclk } }

/-- COMMIT (12 R361): the sixteen shares take effect if they fit. -/
def execCommit (port : BitVec 1) (val : BitVec 32) (s : State) : Out :=
  .next (s.whenReady port fun s1 => s1.guarded port 2 fun s2 =>
    let p := s2.power
    if val ≠ 1 then s2
    else if 65535 < (islands.map p.shareOf).sum then { s2 with power := { p with lastDrop := true } }
    else { s2 with power := { p with
      applied := islands.foldl (fun m i => SMap.insert m i (BitVec.ofNat 16 (p.shareOf i))) p.applied, lastDrop := false } })

end Sys2Proof.Machine
end

