-- ==== Sys2Proof/Machine/EvReliability.lean ====
section
/-! DEFINITION. Lost agents, uncorrectable errors, resets (09 R285, R286; 11 R334; 12 R368 to R370). -/

namespace Sys2Proof.Machine

/-! ## Lost agents (09 R286) -/

/-- A write-back the home has not received is lost with its old incarnation. -/
def State.loseWb (s : State) (n : Nat) : State :=
  let c := s.cache n
  (c.wbuf.filter fun e => !e.2.2).foldl (fun st e => st.logLine 3 (coreField n) e.1) (s.setCache n { c with wbuf := [] })

/-- The partials, die copies and parked copies of a lost die-level cache: those of the lines it serves, where it is the partial
holder, with the copies of its L1s that are on their way to it; recalls of those it includes end as "none" (09 R286). -/
def State.losePartials (s : State) (d : Nat) : State :=
  let inDie := s.slices.filter fun h => dieOf h.1 == d
  let held := (inDie.map fun h => SMap.keys h.2.die ++ h.2.park.map fun e => e.1.1).flatten
  let moving := fun (c : Collapse) => (SMap.keys c.copies).any (s.includes c.key d)
  let part := (s.slices.map fun h => (h.2.colls.filter fun c => SMap.has c.partials d || moving c).map Collapse.key).flatten
  let lost := ((held ++ part).filter (s.servedBy d)).eraseDups
  let clean := fun (h : Nat × Slice) =>
    let colls := h.2.colls.map fun c =>
      if s.servedBy d c.key then { c with
        partials := SMap.erase c.partials d
        asked := c.asked.filter fun n => !s.includes c.key d n
        copies := c.copies.filter fun e => !s.includes c.key d e.1 }
      else c
    if dieOf h.1 = d then
      (h.1, { h.2 with park := h.2.park.filter (fun e => !s.servedBy d e.1.1), die := h.2.die.filter (fun e => !s.servedBy d e.1),
                       colls := colls })
    else (h.1, { h.2 with colls := colls })
  lost.foldl (fun st k => st.logLine 2 0xFFFF k) { s with slices := s.slices.map clean }

/-- Is a message a request about a subscription, or an empty notice, that a core of an L1 here has sent? -/
def State.asksFor (s : State) (n : Nat) (m : Msg) : Bool :=
  let mine := fun (u : Nat) => (s.coreOf u).any fun c => s.cacheOf c == n
  match m with
  | .subReq r => r.dev == s.dev && mine r.uid
  | .unsub d _ u _ _ _ _ => d == s.dev && mine u
  | .query d _ u _ _ _ _ => d == s.dev && mine u
  | .notice d h idx _ => d == s.dev && (SMap.find (s.slice h).subs idx).any fun e => e.dev == s.dev && s.cacheOf e.core == n
  | _ => false

/-- A request of an old incarnation is discarded, so that no home answers it: the spec gives a SUBSCR no result then, and its register gets
an undefined value; its position completes and its line is free (DESIGN CHOICE, log 115). -/
def State.discardRequest (s : State) : Msg → State
  | .subReq r =>
    let (s1, w) := s.fresh
    ((s1.answerScalar r.uid r.sd w).mapBound r.uid r.pos fun _ => none).donePos r.uid r.pos
  | m => s.answerLost m

/-- The requests and notices about subscriptions of a lost L1's cores are discarded (09 R286). -/
def State.loseRequests (s : State) (n : Nat) : State :=
  (s.net.filter (s.asksFor n)).foldl State.discardRequest { s with net := s.net.filter fun m => !s.asksFor n m }

/-- Messages of the old incarnation of an L1 are discarded (09 R286): the far accesses of its groups. An atomic among them answers
with undefined values. -/
def State.loseFar (s : State) (n : Nat) : State :=
  let mine := fun (u : Nat) => (s.coreOf u).any fun c => s.cacheOf c == n
  let lost := s.net.filterMap fun m => match m with
    | .far _ u (.atom _ vd _ wide k _) => if mine u then some (u, wide, vd, k) else none
    | _ => none
  let s1 : State := { s with net := s.net.filter fun m => match m with
    | .far _ u _ => !mine u
    | _ => true }
  lost.foldl (fun st e =>
    let xs := (run 0 (if e.2.1 then 2 else 1)).map fun i => ((e.2.2.1 + i, e.2.2.2.lane), Config.freeWord (st.free + i))
    { st.writeRegs e.1 xs with free := st.free + 2 }) s1

/-- An L1 is lost: its sectors, its write-backs, its messages, its part in collapses, the subscriptions of its cores. -/
def State.loseCache (s : State) (n : Nat) : State :=
  let s1 := (s.cache n).keys.foldl (fun st k => st.loseSector n k) s
  ((((s1.loseWb n).loseFar n).loseRequests n).loseInCollapses n).dropSubscribers fun e => e.dev == s.dev && s.cacheOf e.core == n

/-- A die is reset: its die-level cache is lost, with the copies it stands for toward the homes elsewhere, and the step records of its
collective engine, which serves the CIDs of its parity (11 R344, R348). -/
def State.loseDie (s : State) (d : Nat) : State :=
  let s1 := (run (128 * d) 128).foldl (fun st n =>
    ((st.cache n).keys.filter (s.servedBy d)).foldl (fun t k => t.loseSector n k) st) s
  let s2 := (s1.cache (256 + d)).keys.foldl (fun st k => st.loseSector (256 + d) k) s1
  ((s2.loseWb (256 + d)).losePartials d).loseRecords fun cid => cid % 2 == d

/-- An agent of this device carries its next incarnation. -/
def State.nextInc (s : State) (n : Nat) : State := s.setCache n { s.cache n with inc := (s.cache n).inc + 1 }

/-- AGENT_REJOIN (09 R286): an L1 or die-level cache of this device, or another device, by a cache number as seen across devices
(00 Table 0-5). -/
def execAgentRejoin (agent : Nat) (rejoins : Bool) (s : State) : Out :=
  let n := s.localCache agent
  if n < 512 then
    let s1 := if n < 256 then s.loseCache n else s.loseDie (n % 2)
    .next (if rejoins then s1.nextInc n else s1)
  else
    let d := agent / 512
    .next (if rejoins then s.rejoinDevice d else s.loseDevice d)

/-! ## Uncorrectable errors (12 Table 12-8) -/

/-- Undefined bytes. -/
def State.freeBytes (s : State) (n : Nat) : State × List Byte :=
  ({ s with free := s.free + n }, (run s.free n).map Config.freeByte)

/-- A group has received damaged data: it takes a machine check at its next boundary, and its context a record. -/
def State.damage (s : State) (key : Nat) (pc : DWord) (ps : PSlot) (addr : DWord) : State :=
  match s.group key with
  | none => s
  | some g =>
    (s.setGroup key { g with mcheck := g.mcheck ++ [(pc, ps, addr)] }).logCheck g.ctx { Check.of 1 s.dev addr.toNat with core := key / 128 }

/-- An instruction that receives damaged data: its address and slot, and what holds an undefined value then, as first register,
count and lane; a scalar register has count 0. -/
structure Receiver where
  pc : DWord
  slot : PSlot
  regs : List (Nat × Nat × Nat)

/-- Do the `n` bytes from a tagged address hold the byte at a virtual address? -/
def holdsByte (a n va : Nat) : Bool := decide (tagVa a ≤ va) && decide (va < tagVa a + n)

/-- A load that receives the byte at an address, in every lane that reads it. -/
def Load.receiver (x : Load) (va : Nat) : Option Receiver :=
  let hit := x.lanes.filter fun l => holdsByte l.addr x.size va
  let regs := match x.dst with
    | .vector vd z => hit.map fun l => (vd, szRegs z, l.lane)
    | .view vd => hit.map fun l => (vd, 3, l.lane)
    | .scalar sd => [(sd, 0, 0)]
  if hit.isEmpty then none else some ⟨x.pc, x.slot, regs⟩

/-- The lanes of an atomic that receive the byte at an address. -/
def atomReceiver (wide : Bool) (vd : Nat) (ks : List AtomLane) (va : Nat) : Option Receiver :=
  match ks.filter fun k => holdsByte k.addr (if wide then 8 else 4) va with
  | [] => none
  | k :: r => some ⟨k.pc, k.slot, (k :: r).map fun e => (vd, if wide then 2 else 1, e.lane)⟩

/-- The lanes of a group's far atomics that are on their way, each as its destination, width and lane. -/
def State.farLanes (s : State) (uid : Nat) : List (Bool × Nat × AtomLane) :=
  s.net.filterMap fun m => match m with
    | .far _ u (.atom _ vd _ wide k _) => if u = uid then some (wide, vd, k) else none
    | _ => none

/-- The oldest outstanding load or atomic of a group that receives the data at an address: a load, a far atomic on its way, or
an atomic in the queue. -/
def State.receiver (s : State) (g : Group) (va : Nat) : Option Receiver :=
  let far := s.farLanes g.uid
  (g.loads.findSome? fun x => x.receiver va)
  <|> (far.findSome? fun e => atomReceiver e.1 e.2.1 ((far.filter fun f => f.2.2.pc == e.2.2.pc).map fun f => f.2.2) va)
  <|> (g.queue.findSome? fun e => match e with
    | .atom _ wide vd ks _ _ => atomReceiver wide vd ks va
    | .store _ _ _ => none)

/-- Undefined values in registers of a lane, or in a scalar register. -/
def State.spoilRegs (s : State) (key r n l : Nat) : State :=
  match s.group key with
  | none => s
  | some g =>
    let s1 : State := { s with free := s.free + max 1 n }
    if n = 0 then s1.setGroup key (g.setSr r (Config.freeWord s.free))
    else s1.setGroup key (g.setMany ((run 0 n).map fun i => ((r + i, l), Config.freeWord (s.free + i))))

/-- Damaged data reaches a load or atomic (10 R312): it completes, its destination undefined in every lane that received it. -/
def State.damageLoad (s : State) (core slot addr : Nat) : State :=
  let key := groupKey core slot
  match s.group key with
  | none => s
  | some g => match s.receiver g addr with
    | none => s
    | some x =>
      (x.regs.foldl (fun st r => st.spoilRegs key r.1 r.2.1 r.2.2) (s.landAll key)).damage key x.pc x.slot (BitVec.ofNat 64 addr)

/-- Every group of a team takes a machine check; the spec gives no instruction address or slot for it (log 7, log 63). -/
def State.damageTeam (s : State) (t : Nat) : State :=
  (s.teamGroups t).foldl (fun st e =>
    let pc := BitVec.ofNat 64 ((Config.freeWord st.free).toNat + 2 ^ 32 * (Config.freeWord (st.free + 1)).toNat)
    ({ st with free := st.free + 2 }).damage e.1 pc .a 0) s

/-- A sector is rewritten with an undefined value where its newest data is, a hot line being revoked first (11 R332). -/
def State.spoilSector (s : State) (key : Nat) : State :=
  let (s1, bs) := (s.revokeHot (key / 4)).freeBytes 32
  match (s1.holders key).find? (fun h => h.2.1 == .m) with
  | some h => (s1.setCache h.1 ((s1.cache h.1).put key .m (secOf bs))).syncDir key
  | none => (s1.drainWb key).homeWrite key (secOf bs)

/-- A change of a segment of a team. -/
def State.onSegment (s : State) (t k : Nat) (f : Segment → Segment) : State :=
  match s.segment t k with
  | some g => s.setSegment t k (f g)
  | none => s

/-- A damaged U copy of an L1 is lost, or of a die-level cache: what it holds is the die copy (09 R281), and a U sector at the identity
comes back from its L1s. The line's context gets a lost-update record (12 Table 12-8). -/
def State.damageU (s : State) (n key : Nat) : State :=
  let h := s.holderOf key (n - 256)
  let x := s.slice h
  let inU := match (s.cache n).sector key with
    | some (.u _, _) => true
    | _ => false
  let die := decide (n / 2 = 128) && SMap.has x.die key
  let s1 := if die then s.setSlice h { x with die := SMap.erase x.die key } else s
  if inU || die then
    let s2 := if inU then s1.setCache n ((s1.cache n).drop key) else s1
    (s2.syncDir key).logLine 2 (coreField n) key
  else s

/-- A device machine check, then a device reset (12 R370). -/
def State.deviceFail (s : State) : State := (s.deviceCheck).bringUp false

/-- UNCORRECTABLE_ERROR (12 R368). -/
def execUncorrectableError (site : ErrSite) (s : State) : Out :=
  match site with
  | .loadData core slot addr => .next (s.damageLoad core slot addr)
  | .vreg core slot reg lane =>
    let key := groupKey core slot
    match s.group key with
    | some g => .next ((s.spoilRegs key reg 1 lane).damageTeam g.team)
    | none => .next s
  | .spad team seg word =>
    let (s1, bs) := s.freeBytes 4
    .next ((s1.onSegment team seg fun g => g.write (4 * word) bs).damageTeam team)
  | .tile team seg index =>
    let (s1, w) := s.fresh
    .next ((s1.onSegment team seg fun g => { g with tiles := SMap.put 0 g.tiles index w }).damageTeam team)
  | .barrier team bar grp =>
    let (s1, w) := s.fresh
    match s1.team team with
    | some t =>
      let b := t.barrier bar
      .next ((s1.setTeam team { t with bars := SMap.insert t.bars bar { b with ac := SMap.put 0 b.ac grp w } }).damageTeam team)
    | none => .next s
  | .dirtyLine asid va =>
    let key := s.tagFor asid va / 32
    .next ((s.spoilSector key).logLine 3 0xFFFF key)
  | .uCopy cache asid va =>
    .next (s.damageU (s.localCache cache) (s.tagFor asid va / 32))
  | .parked cache asid va =>
    let key := s.tagFor asid va / 32
    let n := s.localCache cache
    let h := s.holderOf key (n / 128)
    let x := s.slice h
    if x.park.any (fun e => e.1 == (key, n)) then
      .next (((s.setSlice h { x with park := x.park.filter fun e => e.1 != (key, n) }).syncDir key).logLine 2 (coreField n) key)
    else .next s
  | .tables => .next s.deviceFail

/-- PATROL_SCRUB (12 R368): a pass over a vault counts the errors it corrects; an uncorrectable one it finds is an
UNCORRECTABLE_ERROR. -/
def execPatrolScrub (vault : Nat) (s : State) : Out :=
  .next (if vault < 64 then s.countCorrected (vaultIsland vault) else s)

/-- BRIDGE_FAILURE (11 R334): a flit is not delivered after seven retransmissions, which only the bridge's two ends observe (log 4);
a device machine check to every context, and a reset that leaves the device in RECOVERY. -/
def execBridgeFailure (bridge : Nat) (s : State) : Out :=
  if bridge < 4 then .next { s with bridgesUp := SMap.insert s.bridgesUp bridge false }.deviceFail else .next s

/-- DEVICE_RESET (12 R370); after a thermal trip the clocks stand until a cold reset (12 R360). -/
def execDeviceReset (s : State) : Out := .next (if s.thermtrip then s else s.bringUp false)

/-- COLD_RESET (12 R362). -/
def execColdReset (s : State) : Out := .next (s.bringUp true)

end Sys2Proof.Machine
end

