-- ==== Sys2Proof/Machine/LaneNarrow.lean ====
section
/-! DEFINITION. Narrow and ternary conversions (04 R135, R136; 03 R89 to R96, R105). -/

namespace Sys2Proof.Machine

/-- The lanes whose format word is invalid (03 R90). -/
def Ctx.badFormats (c : Ctx) (f : Nat) : Word := maskOfList (c.lanes.filter fun l => !validFormat (c.g.src f l))

/-- Raise illegal-format when an active lane's word is invalid, else go on. -/
def Ctx.formats (c : Ctx) (f : Nat) (k : Out) : Out :=
  if c.badFormats f ≠ 0 then c.trap { Trap.of cFormat with lanes := c.badFormats f } else k

/-- A lane's format. -/
def Ctx.fmt (c : Ctx) (f l : Nat) : NFmt := NFmt.ofWord (c.g.src f l)

/-- QCVT.Q (04 R135). -/
def execQcvtQ (f a d : BitVec 7) (s : State) : Out :=
  issue (.qcvtQ f a d) s fun c => c.formats f.toNat <|
    let rs := c.lanes.map fun l => (l, (c.fmt f.toNat l).encode .rn (c.num a.toNat l))
    c.write d.toNat (wordsOf rs) (allFlags rs)

/-- QCVT.F32 (04 R135): no flag. -/
def execQcvtF32 (f a d : BitVec 7) (s : State) : Out :=
  issue (.qcvtF32 f a d) s fun c => c.formats f.toNat <|
    c.write d.toNat (c.map fun l =>
      let m := c.fmt f.toNat l
      BitVec.ofNat 32 (m.toF32 (c.num a.toNat l % 2 ^ m.width))) 0

/-- QPACK: four codes into containers 0..3 (04 R135, 03 R94). -/
def execQpack (f a d : BitVec 7) (s : State) : Out :=
  issue (.qpack f a d) s fun c => c.formats f.toNat <|
    let rs := c.lanes.map fun l =>
      let m := c.fmt f.toNat l
      let cs := (run 0 4).map fun i => (i, m.encode .rn (c.num (a.toNat + i) l))
      (l, (cs.foldl (fun acc e => acc + e.2.1 * 2 ^ (m.container * e.1)) 0, allFlags cs))
    c.write d.toNat (wordsOf rs) (allFlags rs)

/-- QUNPK: containers 0..3 to four registers (04 R135). -/
def execQunpk (f a d : BitVec 7) (s : State) : Out :=
  issue (.qunpk f a d) s fun c => c.formats f.toNat <|
    c.writeMany ((c.lanes.map fun l =>
      let m := c.fmt f.toNat l
      wordWrites d.toNat l ((run 0 4).map fun i =>
        BitVec.ofNat 32 (m.toF32 (bits (c.num a.toNat l) (m.container * i) m.container % 2 ^ m.width)))).flatten) 0

/-- TUNPK: an illegal byte sets INVALID, or traps with TERNTRAP (04 R136). -/
def execTunpk (a d : BitVec 7) (s : State) : Out :=
  issue (.tunpk a d) s fun c =>
    let bad := maskOfList (c.lanes.filter fun l => decide (242 < c.num a.toNat l % 256))
    if bad ≠ 0 ∧ c.g.gstat.getLsbD 22 then c.trap { Trap.of cTernary with lanes := bad }
    else c.write d.toNat (c.map fun l => BitVec.ofNat 32 (tunpk (c.num a.toNat l % 256))) (flagIf (bad != 0) fInvalid)

end Sys2Proof.Machine
end

