-- ==== Sys2Proof/Machine/Predicate.lean ====
section
/-! DEFINITION. Predicate instructions, votes and GRD (02 R68 to R71; 04 R139, R140). -/

namespace Sys2Proof.Machine

/-- A predicate source, negated when its N bit is 1. -/
def Ctx.psrc (c : Ctx) (n : BitVec 1) (p : BitVec 5) : Word :=
  if n = 1 then ~~~(c.g.pred p.toNat) else c.g.pred p.toNat

/-- Write a predicate in the active lanes. -/
def Ctx.setP (c : Ctx) (d : BitVec 5) (x : Word) : Out := c.done (c.g.setPred d.toNat c.act x)

/-- PAND (04 R140). -/
def execPand (y : BitVec 1) (b : BitVec 5) (x : BitVec 1) (a d : BitVec 5) (s : State) : Out :=
  issue (.pand y b x a d) s fun c => c.setP d (c.psrc x a &&& c.psrc y b)

/-- POR (04 R140). -/
def execPor (y : BitVec 1) (b : BitVec 5) (x : BitVec 1) (a d : BitVec 5) (s : State) : Out :=
  issue (.por y b x a d) s fun c => c.setP d (c.psrc x a ||| c.psrc y b)

/-- PXOR (04 R140). -/
def execPxor (y : BitVec 1) (b : BitVec 5) (x : BitVec 1) (a d : BitVec 5) (s : State) : Out :=
  issue (.pxor y b x a d) s fun c => c.setP d (c.psrc x a ^^^ c.psrc y b)

/-- PNOT (04 R140). -/
def execPnot (x : BitVec 1) (a d : BitVec 5) (s : State) : Out :=
  issue (.pnot x a d) s fun c => c.setP d (~~~(c.psrc x a))

/-- PMOV (04 R140). -/
def execPmov (x : BitVec 1) (a d : BitVec 5) (s : State) : Out :=
  issue (.pmov x a d) s fun c => c.setP d (c.psrc x a)

/-- VOTE.ALL (04 R139). -/
def execVoteAll (x : BitVec 1) (a d : BitVec 5) (s : State) : Out :=
  issue (.voteAll x a d) s fun c => c.setP d (if c.psrc x a &&& c.act = c.act then 0xFFFFFFFF else 0)

/-- VOTE.ANY (04 R139). -/
def execVoteAny (x : BitVec 1) (a d : BitVec 5) (s : State) : Out :=
  issue (.voteAny x a d) s fun c => c.setP d (if c.psrc x a &&& c.act = 0 then 0 else 0xFFFFFFFF)

/-- VOTE.UNI (04 R139). -/
def execVoteUni (x : BitVec 1) (a d : BitVec 5) (s : State) : Out :=
  issue (.voteUni x a d) s fun c =>
    c.setP d (if c.psrc x a &&& c.act = c.act ∨ c.psrc x a &&& c.act = 0 then 0xFFFFFFFF else 0)

/-- GRD: the next CNT + 1 instructions of the path run with the lanes where p XOR N (02 R68). -/
def execGrd (cnt : BitVec 2) (n : BitVec 1) (p : BitVec 5) (s : State) : Out :=
  issue (.grd cnt n p) s fun c =>
    let g := c.g
    .next (c.s.setGroup c.key (c.s.settle (g.setPath c.ps (some { c.p with
      pc := c.nxt, gk := cnt.toNat + 1, gg := c.psrc n p &&& c.act, replay := none, wait := .ready }))))

end Sys2Proof.Machine
end

