-- ==== Sys2Proof/Machine/Scalar.lean ====
section
/-! DEFINITION. Scalar instructions (02 R64; 04 R114, R124 to R126). -/

namespace Sys2Proof.Machine

/-- A scalar instruction of two sources (04 Table 4-3). -/
def Ctx.scalar2 (c : Ctx) (b a d : BitVec 8) (f : Word → Word → Word) : Out :=
  c.scalar d.toNat (f (c.sv a.toNat) (c.sv b.toNat))

/-- SADD (04 Table 4-3). -/
def execSadd (b a d : BitVec 8) (s : State) : Out :=
  issue (.sadd b a d) s fun c => c.scalar2 b a d fun x y => x + y

/-- SSUB (04 Table 4-3). -/
def execSsub (b a d : BitVec 8) (s : State) : Out :=
  issue (.ssub b a d) s fun c => c.scalar2 b a d fun x y => x - y

/-- SMUL (04 Table 4-3). -/
def execSmul (b a d : BitVec 8) (s : State) : Out :=
  issue (.smul b a d) s fun c => c.scalar2 b a d fun x y => x * y

/-- SAND (04 Table 4-3). -/
def execSand (b a d : BitVec 8) (s : State) : Out :=
  issue (.sand b a d) s fun c => c.scalar2 b a d fun x y => x &&& y

/-- SOR (04 Table 4-3). -/
def execSor (b a d : BitVec 8) (s : State) : Out :=
  issue (.sor b a d) s fun c => c.scalar2 b a d fun x y => x ||| y

/-- SXOR (04 Table 4-3). -/
def execSxor (b a d : BitVec 8) (s : State) : Out :=
  issue (.sxor b a d) s fun c => c.scalar2 b a d fun x y => x ^^^ y

/-- SSHL (04 Table 4-3). -/
def execSshl (b a d : BitVec 8) (s : State) : Out :=
  issue (.sshl b a d) s fun c => c.scalar2 b a d fun x y => if 32 ≤ y.toNat then 0 else x <<< y.toNat

/-- SSHR (04 Table 4-3). -/
def execSshr (b a d : BitVec 8) (s : State) : Out :=
  issue (.sshr b a d) s fun c => c.scalar2 b a d fun x y => if 32 ≤ y.toNat then 0 else x >>> y.toNat

/-- SMOV (04 Table 4-3). -/
def execSmov (a d : BitVec 8) (s : State) : Out :=
  issue (.smov a d) s fun c => c.scalar d.toNat (c.sv a.toNat)

/-- SLEA64 (04 Table 4-3). -/
def execSlea64 (b a d : BitVec 8) (s : State) : Out :=
  issue (.slea64 b a d) s fun c =>
    c.done (c.g.setSr64 d.toNat (wrap 64 ((c.g.sr64 a.toNat : Int) + (c.sv b.toNat).toInt)))

/-- The comparison of SCMP (04 R125): TY 0 signed, 1 unsigned, conditions of 04 Table 4-2. -/
def scalarCond (cc : Nat) (t : BitVec 1) (x y : Word) : Bool :=
  let lt := if t = 0 then decide (x.toInt < y.toInt) else decide (x.toNat < y.toNat)
  match cc with
  | 0 => x == y
  | 1 => x != y
  | 2 => lt
  | 3 => lt || x == y
  | 4 => !lt && x != y
  | 5 => !lt
  | 6 => (x &&& y) != 0
  | _ => (x &&& y) == 0

/-- SCMP (04 R125). -/
def execScmp (t : BitVec 1) (b a : BitVec 8) (cc : BitVec 3) (p : BitVec 5) (s : State) : Out :=
  issue (.scmp t b a cc p) s fun c =>
    c.done (c.g.setPred p.toNat c.act
      (if scalarCond cc.toNat t (c.sv a.toNat) (c.sv b.toNat) then 0xFFFFFFFF else 0))

/-- SMOVI (02 Table 2-9). -/
def execSmovi (i : BitVec 16) (d : BitVec 8) (s : State) : Out :=
  issue (.smovi i d) s fun c => c.scalar d.toNat (i.signExtend 32)

/-- SMOVI.H (02 Table 2-9). -/
def execSmoviH (i : BitVec 16) (d : BitVec 8) (s : State) : Out :=
  issue (.smoviH i d) s fun c => c.scalar d.toNat (i ++ (c.g.sr d.toNat).extractLsb' 0 16)

/-- SLD: a one-lane plain load into a scalar (04 R126). -/
def execSld (o : BitVec 9) (a d : BitVec 8) (s : State) : Out :=
  issue (.sld o a d) s fun c =>
    c.accessOne 4 (wrap 64 ((c.g.sr64 a.toNat : Int) + signed 9 o.toNat * 4)) (.sld d.toNat)

end Sys2Proof.Machine
end

