-- ==== Sys2Proof/Machine/Short16.lean ====
section
/-! DEFINITION. The sixteen 16-bit forms (02 R57, Table 2-2): the destination is the first source, W = 0. -/

namespace Sys2Proof.Machine

/-- 16-bit MOV (02 Table 2-2). -/
def execMov16 (r : BitVec 5) (d : BitVec 6) (s : State) : Out :=
  issue (.mov16 r d) s fun c => c.lane1 (short r) 0 d.toNat (fun x => x)

/-- 16-bit IADD (02 Table 2-2). -/
def execIadd16 (r : BitVec 5) (d : BitVec 6) (s : State) : Out :=
  issue (.iadd16 r d) s fun c => c.lane2 (short r) d.toNat 0 d.toNat (fun x y => x + y)

/-- 16-bit ISUB (02 Table 2-2). -/
def execIsub16 (r : BitVec 5) (d : BitVec 6) (s : State) : Out :=
  issue (.isub16 r d) s fun c => c.lane2 (short r) d.toNat 0 d.toNat (fun x y => x - y)

/-- 16-bit AND (02 Table 2-2). -/
def execAnd16 (r : BitVec 5) (d : BitVec 6) (s : State) : Out :=
  issue (.and16 r d) s fun c => c.lane2 (short r) d.toNat 0 d.toNat (fun x y => x &&& y)

/-- 16-bit OR (02 Table 2-2). -/
def execOr16 (r : BitVec 5) (d : BitVec 6) (s : State) : Out :=
  issue (.or16 r d) s fun c => c.lane2 (short r) d.toNat 0 d.toNat (fun x y => x ||| y)

/-- 16-bit XOR (02 Table 2-2). -/
def execXor16 (r : BitVec 5) (d : BitVec 6) (s : State) : Out :=
  issue (.xor16 r d) s fun c => c.lane2 (short r) d.toNat 0 d.toNat (fun x y => x ^^^ y)

/-- 16-bit SHL (02 Table 2-2). -/
def execShl16 (r : BitVec 5) (d : BitVec 6) (s : State) : Out :=
  issue (.shl16 r d) s fun c => c.lane2 (short r) d.toNat 0 d.toNat (fun x y => shiftLeft x y)

/-- 16-bit SHR (02 Table 2-2). -/
def execShr16 (r : BitVec 5) (d : BitVec 6) (s : State) : Out :=
  issue (.shr16 r d) s fun c => c.lane2 (short r) d.toNat 0 d.toNat (fun x y => shiftRight x y)

/-- 16-bit SAR (02 Table 2-2). -/
def execSar16 (r : BitVec 5) (d : BitVec 6) (s : State) : Out :=
  issue (.sar16 r d) s fun c => c.lane2 (short r) d.toNat 0 d.toNat (fun x y => shiftArith x y)

/-- 16-bit IMIN (02 Table 2-2). -/
def execImin16 (r : BitVec 5) (d : BitVec 6) (s : State) : Out :=
  issue (.imin16 r d) s fun c => c.lane2 (short r) d.toNat 0 d.toNat (fun x y => if x.toInt ≤ y.toInt then x else y)

/-- 16-bit IMAX (02 Table 2-2). -/
def execImax16 (r : BitVec 5) (d : BitVec 6) (s : State) : Out :=
  issue (.imax16 r d) s fun c => c.lane2 (short r) d.toNat 0 d.toNat (fun x y => if x.toInt ≤ y.toInt then y else x)

/-- 16-bit FADD (02 Table 2-2). -/
def execFadd16 (r : BitVec 5) (d : BitVec 6) (s : State) : Out :=
  issue (.fadd16 r d) s fun c => c.floatLanes 0 d.toNat fun l => F32.add .rn (c.num d.toNat l) (c.num (short r) l)

/-- 16-bit FMUL (02 Table 2-2). -/
def execFmul16 (r : BitVec 5) (d : BitVec 6) (s : State) : Out :=
  issue (.fmul16 r d) s fun c => c.floatLanes 0 d.toNat fun l => F32.mul .rn (c.num d.toNat l) (c.num (short r) l)

/-- 16-bit FMIN (02 Table 2-2). -/
def execFmin16 (r : BitVec 5) (d : BitVec 6) (s : State) : Out :=
  issue (.fmin16 r d) s fun c => c.floatLanes 0 d.toNat fun l => f32MinMax false (c.num d.toNat l) (c.num (short r) l)

/-- 16-bit FMAX (02 Table 2-2). -/
def execFmax16 (r : BitVec 5) (d : BitVec 6) (s : State) : Out :=
  issue (.fmax16 r d) s fun c => c.floatLanes 0 d.toNat fun l => f32MinMax true (c.num d.toNat l) (c.num (short r) l)

/-- 16-bit FFMA (02 Table 2-2). -/
def execFfma16 (r : BitVec 5) (d : BitVec 6) (s : State) : Out :=
  issue (.ffma16 r d) s fun c => c.floatLanes 0 d.toNat fun l => F32.fma .rn (c.num (short r) l) (c.num (short r) l) (c.num d.toNat l)

end Sys2Proof.Machine
end

