-- ==== Sys2Proof/Machine/Statistics.lean ====
section
/-! DEFINITION. Statistics instructions on triples (06 R213, R214; 03 R106 to R111). STLD and STST are in
GlobalMemory.lean. -/

namespace Sys2Proof.Machine

/-- Write a triple to a view in each active lane, with the flags of every lane. -/
def Ctx.views (c : Ctx) (d : Nat) (f : Nat → Triple × Word) : Out :=
  let rs := c.lanes.map fun l => (l, f l)
  c.writeMany ((rs.map fun e => viewWrites d e.1 e.2.1).flatten) ((rs.map fun e => e.2.2).foldl (· ||| ·) 0)

/-- STINIT (06 Table 6-8). -/
def execStinit (a d : BitVec 7) (s : State) : Out :=
  issue (.stinit a d) s fun c => c.views d.toNat fun l => Triple.empty.acc (c.num a.toNat l) 0x3F800000

/-- STACC (06 Table 6-8). -/
def execStacc (a d : BitVec 7) (s : State) : Out :=
  issue (.stacc a d) s fun c => c.views d.toNat fun l => (c.g.view d.toNat l).acc (c.num a.toNat l) 0x3F800000

/-- STWACC (06 Table 6-8). -/
def execStwacc (b a d : BitVec 7) (s : State) : Out :=
  issue (.stwacc b a d) s fun c =>
    c.views d.toNat fun l => (c.g.view d.toNat l).acc (c.num a.toNat l) (c.num b.toNat l)

/-- STMERGE (06 Table 6-8). -/
def execStmerge (b a d : BitVec 7) (s : State) : Out :=
  issue (.stmerge b a d) s fun c => c.views d.toNat fun l => (c.g.view a.toNat l).merge (c.g.view b.toNat l)

/-- STXL: the left fold over the active lanes, in every active lane (06 Table 6-8). -/
def execStxl (a d : BitVec 7) (s : State) : Out :=
  issue (.stxl a d) s fun c =>
    let r := Triple.fold (c.lanes.map fun l => c.g.view a.toNat l)
    c.views d.toNat fun _ => r

/-- A drain of a view in each active lane; `x` is the old value of the destination. The flags are those of every active lane
(DEDUCED, log 136). -/
def Ctx.drain (c : Ctx) (opt : Drain) (eps a d : Nat) : Out :=
  let rs := c.lanes.map fun l => (l, (c.g.view a l).drain opt eps (c.num d l))
  c.write d (wordsOf rs) (allFlags rs)

/-- STDRAIN.MEAN (06 Table 6-8). -/
def execStdrainMean (a d : BitVec 7) (s : State) : Out :=
  issue (.stdrainMean a d) s fun c => c.drain .mean 0 a.toNat d.toNat

/-- STDRAIN.PVAR (06 Table 6-8). -/
def execStdrainPvar (a d : BitVec 7) (s : State) : Out :=
  issue (.stdrainPvar a d) s fun c => c.drain .pvar 0 a.toNat d.toNat

/-- STDRAIN.SVAR (06 Table 6-8). -/
def execStdrainSvar (a d : BitVec 7) (s : State) : Out :=
  issue (.stdrainSvar a d) s fun c => c.drain .svar 0 a.toNat d.toNat

/-- STDRAIN.RDEV (06 R214). -/
def execStdrainRdev (e : BitVec 8) (z : BitVec 4) (d : BitVec 7) (s : State) : Out :=
  issue (.stdrainRdev e z d) s fun c => c.drain .rdev (c.sv e.toNat).toNat (2 * z.toNat) d.toNat

/-- STDRAIN.NORM (06 R214). -/
def execStdrainNorm (e : BitVec 8) (z : BitVec 4) (d : BitVec 7) (s : State) : Out :=
  issue (.stdrainNorm e z d) s fun c => c.drain .norm (c.sv e.toNat).toNat (2 * z.toNat) d.toNat

end Sys2Proof.Machine
end

