-- ==== Sys2Proof/Machine/System.lean ====
section
/-! DEFINITION. Traps raised by instruction, return, system and peer registers, shootdown, HALT (07 R238 to R246). -/

namespace Sys2Proof.Machine

/-- TRAP (07 R239). -/
def execTrap (n : BitVec 6) (s : State) : Out :=
  issue (.trap n) s fun c => c.trapNext { Trap.of cSoftware with info := BitVec.ofNat 32 n.toNat }

/-- BKPT (07 R239). -/
def execBkpt (n : BitVec 6) (s : State) : Out :=
  issue (.bkpt n) s fun c => c.trapNext { Trap.of cBreak with info := BitVec.ofNat 32 n.toNat }

/-- The freeze of a stepped group's team ends (10 R322). -/
def State.thawStep (s : State) (team : Nat) : State :=
  { s with groups := s.groups.map fun e =>
      if e.2.team = team then (e.1, ({ e.2 with freeze := { e.2.freeze with step := false } } : Group).reevaluate) else e }

/-- The trapped group an ERET names: its key and itself. -/
def Ctx.trapped (c : Ctx) (slot : Nat) : Option (Nat × Group) :=
  match c.s.group (groupKey c.core slot) with
  | some g => if g.status = .trapped ∧ g.ctx = c.g.ctx then some (groupKey c.core slot, g) else none
  | none => none

/-- A reloaded group returns to its core (10 R313), its paths joining where they can (01 R36, R37): its service is no longer
queued. -/
def State.putReloaded (s : State) (key : Nat) (g : Group) (bs : List Byte) : State :=
  let x := s.core (key / 128)
  let s1 := s.setCore (key / 128) { x with trapq := x.trapq.filter fun k => k != key % 128 }
  let s2 := s1.setGroup key (s1.settle (g.reload bs).reevaluate)
  if g.cause = cStep then s2.thawStep g.team else s2

/-- ERET (07 R241, 10 R313). What the service group has issued performs before the trapped group goes on (08 Table 8-4); the path
waits for that before issue (log 94). -/
def execEret (a : BitVec 8) (s : State) : Out :=
  issue (.eret a) s fun c =>
    let x := (c.sv a.toNat).toNat
    match c.trapped x with
    | none => c.done c.g
    | some (k, g) =>
      if !c.s.released c.g then c.stall .operand
      else
      let va := c.s.recordAddr c.g.ctx c.core x
      match c.s.loadVirt c.core c.asid va 256 with
      | .error e => c.trap { Trap.of cTranslation with detail := e.code, va := va }
      | .ok (s1, bs) => { c with s := s1.putReloaded k g bs }.done c.g

/-- Bytes of a TLBSD page (07 R244). -/
def tlbPage (z : Nat) : Nat := 2 ^ (match z with
  | 0 => 16
  | 1 => 21
  | _ => 30)

/-- TLBSD (07 R244, R245; 09 R295): it starts the shootdown and holds until every agent has acknowledged. -/
def execTlbsd (z : BitVec 2) (a : BitVec 8) (s : State) : Out :=
  issue (.tlbsd z a) s fun c =>
    match (if c.p.isHeld then c.s.shootdowns.find? (fun d => d.madeBy c.g.uid c.ps) else none) with
    | some d =>
      if d.todo.isEmpty && d.acks.isEmpty then
        let s1 : State := { c.s with shootdowns := c.s.shootdowns.filter fun d => !d.madeBy c.g.uid c.ps }
        { c with s := s1 }.done c.g
      else c.hold .plain
    | none =>
      let va := c.g.sr64 a.toNat
      let space := (c.g.sr (a.toNat + 2)).toNat
      let count := (c.g.sr (a.toNat + 3)).toNat
      if va % tlbPage z.toNat ≠ 0 then c.trap (Trap.of cAlign)
      else
        let d : Shootdown := ⟨c.g.uid, c.ps, space, va, count * tlbPage z.toNat, run 0 128, []⟩
        { c with s := { c.s with shootdowns := (c.s.shootdowns.filter fun (k : Shootdown) => !k.madeBy c.g.uid c.ps) ++ [d] } }.hold .plain

/-- HALT (07 R246); it waits its turn while a context command is under way (12 R356). -/
def execHalt (s : State) : Out :=
  issue .halt s fun c =>
    let s1 := c.retireAt c.g c.nxt
    .next (if s1.ctxstat.getLsbD 31 then { s1 with halts := s1.halts ++ [(c.g.ctx, c.core)] } else s1.haltContext c.g.ctx c.core 0)

/-- WRPEER (07 R243). -/
def execWrpeer (n : BitVec 2) (a : BitVec 8) (s : State) : Out :=
  issue (.wrpeer n a) s fun c =>
    match c.s.segment c.g.team c.g.seg with
    | none => c.done c.g
    | some seg =>
      let seg' := { seg with peers := SMap.put 0 seg.peers n.toNat (peerOf c.g a.toNat) }
      { c with s := c.s.setSegment c.g.team c.g.seg seg' }.done c.g

/-- The value of a system register (07 Table 7-5). -/
def Ctx.readSys (c : Ctx) (r : Nat) : Word :=
  let x := c.s.context c.g.ctx
  BitVec.ofNat 32 <| match r with
    | 0x000 => c.g.gstat.toNat
    | 0x001 => c.s.now
    | 0x002 => c.s.now / 2 ^ 32
    | 0x003 => c.s.fabric
    | 0x004 => c.s.fabric / 2 ^ 32
    | 0x005 => if c.g.priv = .supervisor then 1 else 0
    | 0x010 => x.tsvc.toNat
    | 0x011 => x.tsvc.toNat / 2 ^ 32
    | 0x012 => x.htb.toNat
    | 0x013 => x.htb.toNat / 2 ^ 32
    | 0x014 => x.htsize.toNat
    | 0x015 => (c.s.core c.core).trapq.length
    | _ => bits x.events.toNat (32 * (r - 8)) 32

/-- RDSYS (07 R242). -/
def execRdsys (r : BitVec 12) (d : BitVec 8) (s : State) : Out :=
  issue (.rdsys r d) s fun c => c.scalar d.toNat (c.readSys r.toNat)

/-- The writable bits of GSTAT (01 Table 1-5). -/
def gstatMask : Word := 0x0FC0003F

/-- WRSYS (07 R242). -/
def execWrsys (r : BitVec 12) (d : BitVec 8) (s : State) : Out :=
  issue (.wrsys r d) s fun c =>
    let v := c.sv d.toNat
    if r.toNat = 0 then c.done { c.g with gstat := v &&& gstatMask }
    else { c with s := c.s.setContext c.g.ctx ((c.s.context c.g.ctx).writeSys r.toNat v) }.done c.g

end Sys2Proof.Machine
end

