-- ==== Sys2Proof/Machine/Dispatch.lean ====
section
/-! DEFINITION. One arm for each constructor of Instr. -/

namespace Sys2Proof.Machine

/-- The meaning of an instruction or event at a state. -/
def exec (i : Instr) (s : State) : Host.Outcome State Fault Refusal :=
  match i with
  | .iadd b a w d => Sys2Proof.Machine.execIadd b a w d s
  | .isub b a w d => Sys2Proof.Machine.execIsub b a w d s
  | .imul b a w d => Sys2Proof.Machine.execImul b a w d s
  | .imad b a w d => Sys2Proof.Machine.execImad b a w d s
  | .imulhS32 b a w d => Sys2Proof.Machine.execImulhS32 b a w d s
  | .imulhW32 b a w d => Sys2Proof.Machine.execImulhW32 b a w d s
  | .iminS32 b a w d => Sys2Proof.Machine.execIminS32 b a w d s
  | .iminW32 b a w d => Sys2Proof.Machine.execIminW32 b a w d s
  | .imaxS32 b a w d => Sys2Proof.Machine.execImaxS32 b a w d s
  | .imaxW32 b a w d => Sys2Proof.Machine.execImaxW32 b a w d s
  | .iabs a w d => Sys2Proof.Machine.execIabs a w d s
  | .ineg a w d => Sys2Proof.Machine.execIneg a w d s
  | .popc a w d => Sys2Proof.Machine.execPopc a w d s
  | .clz a w d => Sys2Proof.Machine.execClz a w d s
  | .and b a w d => Sys2Proof.Machine.execAnd b a w d s
  | .or b a w d => Sys2Proof.Machine.execOr b a w d s
  | .xor b a w d => Sys2Proof.Machine.execXor b a w d s
  | .not a w d => Sys2Proof.Machine.execNot a w d s
  | .shl b a w d => Sys2Proof.Machine.execShl b a w d s
  | .shr b a w d => Sys2Proof.Machine.execShr b a w d s
  | .sar b a w d => Sys2Proof.Machine.execSar b a w d s
  | .brev a w d => Sys2Proof.Machine.execBrev a w d s
  | .bfeW32 b a w d => Sys2Proof.Machine.execBfeW32 b a w d s
  | .bfeS32 b a w d => Sys2Proof.Machine.execBfeS32 b a w d s
  | .bfi b a w d => Sys2Proof.Machine.execBfi b a w d s
  | .mov a w d => Sys2Proof.Machine.execMov a w d s
  | .sel p b a w d => Sys2Proof.Machine.execSel p b a w d s
  | .iaddc p b a d => Sys2Proof.Machine.execIaddc p b a d s
  | .lea64 k b a d => Sys2Proof.Machine.execLea64 k b a d s
  | .icmp c b a t p => Sys2Proof.Machine.execIcmp c b a t p s
  | .cvt t src a w d => Sys2Proof.Machine.execCvt t src a w d s
  | .movi k w d => Sys2Proof.Machine.execMovi k w d s
  | .movh k w d => Sys2Proof.Machine.execMovh k w d s
  | .iaddImm k w d => Sys2Proof.Machine.execIaddImm k w d s
  | .andImm k w d => Sys2Proof.Machine.execAndImm k w d s
  | .shflIdx b a d => Sys2Proof.Machine.execShflIdx b a d s
  | .shflUp b a d => Sys2Proof.Machine.execShflUp b a d s
  | .shflDn b a d => Sys2Proof.Machine.execShflDn b a d s
  | .shflXor b a d => Sys2Proof.Machine.execShflXor b a d s
  | .redl o a d => Sys2Proof.Machine.execRedl o a d s
  | .scanlInc o a d => Sys2Proof.Machine.execScanlInc o a d s
  | .scanlExc o a d => Sys2Proof.Machine.execScanlExc o a d s
  | .bcast src d => Sys2Proof.Machine.execBcast src d s
  | .rdlane k src a => Sys2Proof.Machine.execRdlane k src a s
  | .voteBallot src n => Sys2Proof.Machine.execVoteBallot src n s
  | .actmask src => Sys2Proof.Machine.execActmask src s
  | .matchLanes a d => Sys2Proof.Machine.execMatchLanes a d s
  | .pand y b x a d => Sys2Proof.Machine.execPand y b x a d s
  | .por y b x a d => Sys2Proof.Machine.execPor y b x a d s
  | .pxor y b x a d => Sys2Proof.Machine.execPxor y b x a d s
  | .pnot x a d => Sys2Proof.Machine.execPnot x a d s
  | .pmov x a d => Sys2Proof.Machine.execPmov x a d s
  | .voteAll x a d => Sys2Proof.Machine.execVoteAll x a d s
  | .voteAny x a d => Sys2Proof.Machine.execVoteAny x a d s
  | .voteUni x a d => Sys2Proof.Machine.execVoteUni x a d s
  | .grd c n p => Sys2Proof.Machine.execGrd c n p s
  | .fadd r b a w d => Sys2Proof.Machine.execFadd r b a w d s
  | .fsub r b a w d => Sys2Proof.Machine.execFsub r b a w d s
  | .fmul r b a w d => Sys2Proof.Machine.execFmul r b a w d s
  | .ffma r b a w d => Sys2Proof.Machine.execFfma r b a w d s
  | .fmin b a w d => Sys2Proof.Machine.execFmin b a w d s
  | .fmax b a w d => Sys2Proof.Machine.execFmax b a w d s
  | .frcp a w d => Sys2Proof.Machine.execFrcp a w d s
  | .frsq a w d => Sys2Proof.Machine.execFrsq a w d s
  | .fsqrt a w d => Sys2Proof.Machine.execFsqrt a w d s
  | .fexp2 a w d => Sys2Proof.Machine.execFexp2 a w d s
  | .flog2 a w d => Sys2Proof.Machine.execFlog2 a w d s
  | .fsin a w d => Sys2Proof.Machine.execFsin a w d s
  | .fcos a w d => Sys2Proof.Machine.execFcos a w d s
  | .fcmp c b a t p => Sys2Proof.Machine.execFcmp c b a t p s
  | .fcvt t src r a w d => Sys2Proof.Machine.execFcvt t src r a w d s
  | .hadd2 b a w d => Sys2Proof.Machine.execHadd2 b a w d s
  | .hmul2 b a w d => Sys2Proof.Machine.execHmul2 b a w d s
  | .hfma2 b a w d => Sys2Proof.Machine.execHfma2 b a w d s
  | .faddImm k w d => Sys2Proof.Machine.execFaddImm k w d s
  | .fmulImm k w d => Sys2Proof.Machine.execFmulImm k w d s
  | .moviF32 k w d => Sys2Proof.Machine.execMoviF32 k w d s
  | .moviF16 k w d => Sys2Proof.Machine.execMoviF16 k w d s
  | .qcvtQ f a d => Sys2Proof.Machine.execQcvtQ f a d s
  | .qcvtF32 f a d => Sys2Proof.Machine.execQcvtF32 f a d s
  | .qpack f a d => Sys2Proof.Machine.execQpack f a d s
  | .qunpk f a d => Sys2Proof.Machine.execQunpk f a d s
  | .tunpk a d => Sys2Proof.Machine.execTunpk a d s
  | .sadd b a d => Sys2Proof.Machine.execSadd b a d s
  | .ssub b a d => Sys2Proof.Machine.execSsub b a d s
  | .smul b a d => Sys2Proof.Machine.execSmul b a d s
  | .smov a d => Sys2Proof.Machine.execSmov a d s
  | .sand b a d => Sys2Proof.Machine.execSand b a d s
  | .sor b a d => Sys2Proof.Machine.execSor b a d s
  | .sxor b a d => Sys2Proof.Machine.execSxor b a d s
  | .slea64 b a d => Sys2Proof.Machine.execSlea64 b a d s
  | .sshl b a d => Sys2Proof.Machine.execSshl b a d s
  | .sshr b a d => Sys2Proof.Machine.execSshr b a d s
  | .scmp t b a c p => Sys2Proof.Machine.execScmp t b a c p s
  | .smovi k d => Sys2Proof.Machine.execSmovi k d s
  | .smoviH k d => Sys2Proof.Machine.execSmoviH k d s
  | .sld o a d => Sys2Proof.Machine.execSld o a d s
  | .bra o p n u => Sys2Proof.Machine.execBra o p n u s
  | .jmp o => Sys2Proof.Machine.execJmp o s
  | .call o l => Sys2Proof.Machine.execCall o l s
  | .joinpt o => Sys2Proof.Machine.execJoinpt o s
  | .brx a => Sys2Proof.Machine.execBrx a s
  | .ret a => Sys2Proof.Machine.execRet a s
  | .exit => Sys2Proof.Machine.execExit s
  | .yield => Sys2Proof.Machine.execYield s
  | .nop => Sys2Proof.Machine.execNop s
  | .barArv n => Sys2Proof.Machine.execBarArv n s
  | .barWait n => Sys2Proof.Machine.execBarWait n s
  | .barSync n => Sys2Proof.Machine.execBarSync n s
  | .ldReg x b k z d => Sys2Proof.Machine.execLdReg x b k z d s
  | .ldImm x b k z d => Sys2Proof.Machine.execLdImm x b k z d s
  | .stReg x b k z d => Sys2Proof.Machine.execStReg x b k z d s
  | .stImm x b k z d => Sys2Proof.Machine.execStImm x b k z d s
  | .ldStrong o src b k z d => Sys2Proof.Machine.execLdStrong o src b k z d s
  | .stStrong o src b k z d => Sys2Proof.Machine.execStStrong o src b k z d s
  | .atom e o src b k p d => Sys2Proof.Machine.execAtom e o src b k p d s
  | .updScalarBase k b p d => Sys2Proof.Machine.execUpdScalarBase k b p d s
  | .updVectorBase b p d => Sys2Proof.Machine.execUpdVectorBase b p d s
  | .prefL1 b k => Sys2Proof.Machine.execPrefL1 b k s
  | .prefL2 b k => Sys2Proof.Machine.execPrefL2 b k s
  | .collapse b k => Sys2Proof.Machine.execCollapse b k s
  | .cctlClean src b k => Sys2Proof.Machine.execCctlClean src b k s
  | .cctlInv src b k => Sys2Proof.Machine.execCctlInv src b k s
  | .cctlClinv src b k => Sys2Proof.Machine.execCctlClinv src b k s
  | .fence o src k => Sys2Proof.Machine.execFence o src k s
  | .waita b a d => Sys2Proof.Machine.execWaita b a d s
  | .lds x w k z d => Sys2Proof.Machine.execLds x w k z d s
  | .sts x w k z d => Sys2Proof.Machine.execSts x w k z d s
  | .ldsTake x w k z d => Sys2Proof.Machine.execLdsTake x w k z d s
  | .spfill x w k => Sys2Proof.Machine.execSpfill x w k s
  | .spclear x w k => Sys2Proof.Machine.execSpclear x w k s
  | .subscr l b z m d => Sys2Proof.Machine.execSubscr l b z m d s
  | .mxloop f src t => Sys2Proof.Machine.execMxloop f src t s
  | .mxzero t => Sys2Proof.Machine.execMxzero t s
  | .mxrd f src t => Sys2Proof.Machine.execMxrd f src t s
  | .mxepi f src t => Sys2Proof.Machine.execMxepi f src t s
  | .mxcfg src t => Sys2Proof.Machine.execMxcfg src t s
  | .opfence => Sys2Proof.Machine.execOpfence s
  | .stinit a d => Sys2Proof.Machine.execStinit a d s
  | .stacc a d => Sys2Proof.Machine.execStacc a d s
  | .stwacc b a d => Sys2Proof.Machine.execStwacc b a d s
  | .stmerge b a d => Sys2Proof.Machine.execStmerge b a d s
  | .stxl a d => Sys2Proof.Machine.execStxl a d s
  | .stdrainMean a d => Sys2Proof.Machine.execStdrainMean a d s
  | .stdrainPvar a d => Sys2Proof.Machine.execStdrainPvar a d s
  | .stdrainSvar a d => Sys2Proof.Machine.execStdrainSvar a d s
  | .stdrainRdev e z d => Sys2Proof.Machine.execStdrainRdev e z d s
  | .stdrainNorm e z d => Sys2Proof.Machine.execStdrainNorm e z d s
  | .stld x b k d => Sys2Proof.Machine.execStld x b k d s
  | .stst x b k d => Sys2Proof.Machine.execStst x b k d s
  | .tcopyIn x r l => Sys2Proof.Machine.execTcopyIn x r l s
  | .tcopyOut x r l => Sys2Proof.Machine.execTcopyOut x r l s
  | .bclose c d => Sys2Proof.Machine.execBclose c d s
  | .bwait c a => Sys2Proof.Machine.execBwait c a s
  | .unsub a => Sys2Proof.Machine.execUnsub a s
  | .subst a d => Sys2Proof.Machine.execSubst a d s
  | .evset a => Sys2Proof.Machine.execEvset a s
  | .evclr a => Sys2Proof.Machine.execEvclr a s
  | .launch a d => Sys2Proof.Machine.execLaunch a d s
  | .sendam n a d => Sys2Proof.Machine.execSendam n a d s
  | .trap n => Sys2Proof.Machine.execTrap n s
  | .bkpt n => Sys2Proof.Machine.execBkpt n s
  | .eret a => Sys2Proof.Machine.execEret a s
  | .tlbsd z a => Sys2Proof.Machine.execTlbsd z a s
  | .halt => Sys2Proof.Machine.execHalt s
  | .wrpeer n a => Sys2Proof.Machine.execWrpeer n a s
  | .rdsys r d => Sys2Proof.Machine.execRdsys r d s
  | .wrsys r d => Sys2Proof.Machine.execWrsys r d s
  | .mov16 src d => Sys2Proof.Machine.execMov16 src d s
  | .iadd16 src d => Sys2Proof.Machine.execIadd16 src d s
  | .isub16 src d => Sys2Proof.Machine.execIsub16 src d s
  | .and16 src d => Sys2Proof.Machine.execAnd16 src d s
  | .or16 src d => Sys2Proof.Machine.execOr16 src d s
  | .xor16 src d => Sys2Proof.Machine.execXor16 src d s
  | .shl16 src d => Sys2Proof.Machine.execShl16 src d s
  | .shr16 src d => Sys2Proof.Machine.execShr16 src d s
  | .sar16 src d => Sys2Proof.Machine.execSar16 src d s
  | .imin16 src d => Sys2Proof.Machine.execImin16 src d s
  | .imax16 src d => Sys2Proof.Machine.execImax16 src d s
  | .fadd16 src d => Sys2Proof.Machine.execFadd16 src d s
  | .fmul16 src d => Sys2Proof.Machine.execFmul16 src d s
  | .fmin16 src d => Sys2Proof.Machine.execFmin16 src d s
  | .fmax16 src d => Sys2Proof.Machine.execFmax16 src d s
  | .ffma16 src d => Sys2Proof.Machine.execFfma16 src d s
  | .operandArrival core slot => Sys2Proof.Machine.execOperandArrival core slot s
  | .loadDataReturn core slot => Sys2Proof.Machine.execLoadDataReturn core slot s
  | .translationAck core slot => Sys2Proof.Machine.execTranslationAck core slot s
  | .storeQueueDrain core slot => Sys2Proof.Machine.execStoreQueueDrain core slot s
  | .lineFillWake core slot => Sys2Proof.Machine.execLineFillWake core slot s
  | .emptyLineTimeout core slot => Sys2Proof.Machine.execEmptyLineTimeout core slot s
  | .waitaCheck core slot slotB => Sys2Proof.Machine.execWaitaCheck core slot slotB s
  | .waitaTimeout core slot slotB => Sys2Proof.Machine.execWaitaTimeout core slot slotB s
  | .trapServiceStart core => Sys2Proof.Machine.execTrapServiceStart core s
  | .machineCheck core slot => Sys2Proof.Machine.execMachineCheck core slot s
  | .matrixKStep core => Sys2Proof.Machine.execMatrixKStep core s
  | .tileConfigApply core => Sys2Proof.Machine.execTileConfigApply core s
  | .tileZeroApply core => Sys2Proof.Machine.execTileZeroApply core s
  | .tileReadDeliver core => Sys2Proof.Machine.execTileReadDeliver core s
  | .epilogueRun core => Sys2Proof.Machine.execEpilogueRun core s
  | .copyInLine core => Sys2Proof.Machine.execCopyInLine core s
  | .copyOutElements core => Sys2Proof.Machine.execCopyOutElements core s
  | .launchIntake ctx => Sys2Proof.Machine.execLaunchIntake ctx s
  | .launchUnblock ctx num => Sys2Proof.Machine.execLaunchUnblock ctx num s
  | .teamPlacement => Sys2Proof.Machine.execTeamPlacement s
  | .quadrantReservation ctx num => Sys2Proof.Machine.execQuadrantReservation ctx num s
  | .launchRetire ctx num => Sys2Proof.Machine.execLaunchRetire ctx num s
  | .preemptRequest team => Sys2Proof.Machine.execPreemptRequest team s
  | .engineAck team cls => Sys2Proof.Machine.execEngineAck team cls s
  | .preemptDecide team => Sys2Proof.Machine.execPreemptDecide team s
  | .teamRestore team => Sys2Proof.Machine.execTeamRestore team s
  | .subscriptionPark slice team => Sys2Proof.Machine.execSubscriptionPark slice team s
  | .eventUnitApply ctx clear set => Sys2Proof.Machine.execEventUnitApply ctx clear set s
  | .activeMessageArrival n => Sys2Proof.Machine.execActiveMessageArrival n s
  | .handlerStart core => Sys2Proof.Machine.execHandlerStart core s
  | .activeMessageAnswer n => Sys2Proof.Machine.execActiveMessageAnswer n s
  | .missRequest cache asid va write => Sys2Proof.Machine.execMissRequest cache asid va write s
  | .uGrantRequest cache asid va op => Sys2Proof.Machine.execUGrantRequest cache asid va op s
  | .farAccess n => Sys2Proof.Machine.execFarAccess n s
  | .forwardedRead cache asid va => Sys2Proof.Machine.execForwardedRead cache asid va s
  | .invalidate cache asid va => Sys2Proof.Machine.execInvalidate cache asid va s
  | .discoveryBroadcast asid va => Sys2Proof.Machine.execDiscoveryBroadcast asid va s
  | .writeBack cache => Sys2Proof.Machine.execWriteBack cache s
  | .writeBackAck cache => Sys2Proof.Machine.execWriteBackAck cache s
  | .recallForCollapse cache asid va => Sys2Proof.Machine.execRecallForCollapse cache asid va s
  | .uCopyArrival cache asid va => Sys2Proof.Machine.execUCopyArrival cache asid va s
  | .partialArrival die asid va => Sys2Proof.Machine.execPartialArrival die asid va s
  | .uCopyEviction cache asid va => Sys2Proof.Machine.execUCopyEviction cache asid va s
  | .subscribeRequest n => Sys2Proof.Machine.execSubscribeRequest n s
  | .subscribeAnswer n => Sys2Proof.Machine.execSubscribeAnswer n s
  | .unsubscribeRequest n => Sys2Proof.Machine.execUnsubscribeRequest n s
  | .statusQuery n => Sys2Proof.Machine.execStatusQuery n s
  | .pushArrival n => Sys2Proof.Machine.execPushArrival n s
  | .emptyNoticeArrival n => Sys2Proof.Machine.execEmptyNoticeArrival n s
  | .translationRequest mc asid va => Sys2Proof.Machine.execTranslationRequest mc asid va s
  | .remapAnswer node asid va => Sys2Proof.Machine.execRemapAnswer node asid va s
  | .shootdownBroadcast agent => Sys2Proof.Machine.execShootdownBroadcast agent s
  | .shootdownAck agent => Sys2Proof.Machine.execShootdownAck agent s
  | .pageMigration asid va frame => Sys2Proof.Machine.execPageMigration asid va frame s
  | .hotLineMark asid va => Sys2Proof.Machine.execHotLineMark asid va s
  | .contributionArrival n => Sys2Proof.Machine.execContributionArrival n s
  | .contributionAnswer n => Sys2Proof.Machine.execContributionAnswer n s
  | .busyResend n => Sys2Proof.Machine.execBusyResend n s
  | .answerTimeout n => Sys2Proof.Machine.execAnswerTimeout n s
  | .flitReceive link flit => Sys2Proof.Machine.execFlitReceive link flit s
  | .nakReceive link ackSeq => Sys2Proof.Machine.execNakReceive link ackSeq s
  | .nakResendTimeout link => Sys2Proof.Machine.execNakResendTimeout link s
  | .ackStallTimeout link => Sys2Proof.Machine.execAckStallTimeout link s
  | .linkRetrain link => Sys2Proof.Machine.execLinkRetrain link s
  | .linkDown link => Sys2Proof.Machine.execLinkDown link s
  | .deviceUnreachable dev => Sys2Proof.Machine.execDeviceUnreachable dev s
  | .bridgeFailure bridge => Sys2Proof.Machine.execBridgeFailure bridge s
  | .agentRejoin agent rejoins => Sys2Proof.Machine.execAgentRejoin agent rejoins s
  | .uncorrectableError site => Sys2Proof.Machine.execUncorrectableError site s
  | .patrolScrub slice => Sys2Proof.Machine.execPatrolScrub slice s
  | .ctxCreate port => Sys2Proof.Machine.execCtxCreate port s
  | .ctxHalt port => Sys2Proof.Machine.execCtxHalt port s
  | .ctxResume port => Sys2Proof.Machine.execCtxResume port s
  | .ctxTerminate port => Sys2Proof.Machine.execCtxTerminate port s
  | .ctxFreeze port => Sys2Proof.Machine.execCtxFreeze port s
  | .ctxThaw port => Sys2Proof.Machine.execCtxThaw port s
  | .ctxPreempt port => Sys2Proof.Machine.execCtxPreempt port s
  | .ctxBadCode port code => Sys2Proof.Machine.execCtxBadCode port code s
  | .imgbegin port => Sys2Proof.Machine.execImgbegin port s
  | .imgdata port => Sys2Proof.Machine.execImgdata port s
  | .imgcommit port => Sys2Proof.Machine.execImgcommit port s
  | .svnadv port => Sys2Proof.Machine.execSvnadv port s
  | .attest port => Sys2Proof.Machine.execAttest port s
  | .reset port => Sys2Proof.Machine.execReset port s
  | .mbBadCode port code => Sys2Proof.Machine.execMbBadCode port code s
  | .semaphoreWrite port sem val => Sys2Proof.Machine.execSemaphoreWrite port sem val s
  | .pstatClear port val => Sys2Proof.Machine.execPstatClear port val s
  | .descriptorWrite port slot field val => Sys2Proof.Machine.execDescriptorWrite port slot field val s
  | .queueEnable port q val => Sys2Proof.Machine.execQueueEnable port q val s
  | .queueDisable port q => Sys2Proof.Machine.execQueueDisable port q s
  | .qtailWrite port q val => Sys2Proof.Machine.execQtailWrite port q val s
  | .cheadWrite port q val => Sys2Proof.Machine.execCheadWrite port q val s
  | .windowAccess port offset write data => Sys2Proof.Machine.execWindowAccess port offset write data s
  | .commit port val => Sys2Proof.Machine.execCommit port val s
  | .registerWrite port offset val => Sys2Proof.Machine.execRegisterWrite port offset val s
  | .portLinkDown port => Sys2Proof.Machine.execPortLinkDown port s
  | .powerGrant demand => Sys2Proof.Machine.execPowerGrant demand s
  | .overcurrentClamp => Sys2Proof.Machine.execOvercurrentClamp s
  | .thermalHalve hot => Sys2Proof.Machine.execThermalHalve hot s
  | .thermalTrip => Sys2Proof.Machine.execThermalTrip s
  | .telemetryUpdate power temp => Sys2Proof.Machine.execTelemetryUpdate power temp s
  | .coldReset => Sys2Proof.Machine.execColdReset s
  | .deviceReset => Sys2Proof.Machine.execDeviceReset s
  | .linkBringUp link portNum => Sys2Proof.Machine.execLinkBringUp link portNum s
  | .fetchTrap => Sys2Proof.Machine.execFetchTrap s
  | .unassignedEncoding word => Sys2Proof.Machine.execUnassignedEncoding word s

end Sys2Proof.Machine
end

