-- ==== Sys2Proof/Machine/Issue.lean ====
section
/-! DEFINITION. One turn of the machine: a path that issues, with what comes before its instruction (01 R36 to R38, 02 R55,
10 R306 to R312, R321), and an entry of the agenda (log 6). -/

namespace Sys2Proof.Machine

/-- Raise a single-step trap: its record's paths resume at the next instruction. -/
def State.stepTrap (s : State) (key : Nat) (g : Group) (e : PSlot × DWord) : State :=
  (s.setGroup key { g with stepDue := g.stepDue.filter fun x => x != e }).raiseTrap key e.1
    { Trap.of cStep with pc := some e.2 }

/-- Is an address no instruction address: odd, or beyond 56 bits (01 R19, 10 Table 10-3)? -/
def badPc (pc : DWord) : Bool := pc.toNat % 2 == 1 || decide (2 ^ vaBits ≤ pc.toNat)

/-- Fetch at the path's PC and run what is there: the instruction, or the trap of a fetch that fails and of a word that no
encoding has (02 R55, R72; 10 R308). -/
def State.fetchRun (s : State) (g : Group) (p : Path) : Out :=
  if badPc p.pc then .next (s.trapHere g { Trap.of cInstrAddr with va := p.pc.toNat })
  else
    let s1 := s.fetchFill s.cur.core (s.asidOf g) p.pc.toNat
    match s1.codeAt s.cur.core (s.asidOf g) p.pc.toNat with
    | .error _ => execFetchTrap s1
    | .ok (.error (.unassigned w)) => execUnassignedEncoding w s1
    | .ok (.error .truncated) => .next s1
    | .ok (.ok i) => exec i s1

/-- The next member of the latch chain or fused sequence in issue, fetched when it began (01 R24, 04 R145). -/
def Group.inHand (g : Group) : Option Instr :=
  match g.chain, g.fuse with
  | some c, _ => c.rest.head?
  | none, some f => f.2.head?
  | none, none => none

/-- Must the path in a slot leave the group to a trap that is due: one that waits, or one of the other slot (10 R310)? A path that the
trap waits for goes on. -/
def State.stopped (s : State) (g : Group) (ps : PSlot) : Bool :=
  !g.finishes ps && (s.trapWaits g || g.stop.any fun x => x != ps)

/-- May a path take a turn in the state its group is in: it runs, or is in Translation and the path completes what it has issued, which a
translation fault waits for (01 R44; 10 R310)? -/
def Group.takesTurn (g : Group) (ps : PSlot) : Bool :=
  g.status == .running || (g.status == .translation && g.finishes ps)

/-- The group as a path of it issues: a trap of that path that waited is raised again or not; one of the other goes on waiting. -/
def Group.unstop (g : Group) (ps : PSlot) : Group := if g.stop = some ps then { g with stop := none } else g

/-- Is a trap of the group to be raised before the path in a slot issues: a machine check, or a single-step trap? Not before one that
it waits for. -/
def Group.trapsFirst (g : Group) (ps : PSlot) : Bool :=
  !g.inIssue && !g.finishes ps && (!g.mcheck.isEmpty || g.dueStep.isSome)

/-- The trap that is raised before a path issues: machine checks first. -/
def State.firstTrap (s : State) (p : IssuePoint) (g : Group) : Out :=
  if !g.mcheck.isEmpty then execMachineCheck p.core p.slot s
  else match g.dueStep with
    | some e => .next (s.stepTrap p.key g e)
    | none => .next s

/-- The machine with the group at an issue point as given. -/
def State.atPoint (s : State) (p : IssuePoint) (g : Group) : State := { s.setGroup p.key g with cur := p }

/-- A turn of the path at an issue point. -/
def State.issueAt (s : State) (p : IssuePoint) : Out :=
  match s.group p.key with
  | none => .next s
  | some g0 =>
    if !g0.takesTurn p.pslot || s.stopped g0 p.pslot then .next s
    else
      let g := s.atBoundary g0
      let s1 := s.atPoint p g
      if g.trapsFirst p.pslot then s1.firstTrap p g
      else match g.path p.pslot with
        | none => .next s1
        | some x =>
          if g.mayIssue p.pslot then
            let h := g.unstop p.pslot
            match g.inHand with
            | some i => exec i (s.atPoint p h)
            | none => (s.atPoint p h).fetchRun h x
          else .next s1

/-- Is a constructor an event, not an instruction that a path fetches? -/
def isEvent (i : Instr) : Bool := i.size == 0

/-- An event by itself; with every clock stopped only a cold reset happens (12 R360). -/
def State.eventTurn (s : State) (i : Instr) : Out :=
  if isEvent i && (!s.thermtrip || i == .coldReset) then exec i s else .next s

/-- Time passes on both clocks: a core cycle, and what the spec leaves open beyond it (00 R9; log 8); none after a thermal trip (12 R360). -/
def State.tick (s : State) : State :=
  if s.thermtrip then s
  else { s with now := s.now + 1 + Config.delay s.now, fabric := s.fabric + Config.fabricDelay s.now }

end Sys2Proof.Machine
end

