-- ==== Sys2Proof/Machine/Policy.lean ====
section
/-! DEFINITION. Which agent moves next when the agenda names none (log 6). The spec fixes no order among agents; this is
one order in which everything that can happen does, the groups in the order of 10 R306. -/

namespace Sys2Proof.Machine

/-- Does an event change anything now? -/
def State.moves (s : State) (i : Instr) : Bool :=
  match exec i s with
  | .next s' => decide (s' ≠ s)
  | .fault _ => true
  | .refused _ => true

/-- How many messages of a kind are in transit. -/
def State.countMsg (s : State) (f : Msg → Bool) : Nat := (s.net.filter f).length

/-- Is a message of one of these kinds: 0 subReq, 1 an answer about a subscription, 2 unsub, 3 query, 4 notice, 5 contrib,
6 contribAns? -/
def Msg.kindIs (k : Nat) : Msg → Bool
  | .subReq _ => k == 0
  | .subAns _ _ _ _ _ => k == 1
  | .unsubAns _ _ _ _ _ => k == 1
  | .queryAns _ _ _ _ => k == 1
  | .unsub _ _ _ _ _ _ _ => k == 2
  | .query _ _ _ _ _ _ _ => k == 3
  | .notice _ _ _ _ => k == 4
  | .contrib _ => k == 5
  | .contribAns _ _ => k == 6
  | _ => false

/-- The arrivals of messages in transit. -/
def State.netEvents (s : State) : List Instr :=
  let each := fun (f : Msg → Bool) (ev : Nat → Instr) => (run 0 (s.countMsg f)).map ev
  each Msg.isFar .farAccess ++ each Msg.isActive .activeMessageArrival ++ each Msg.isActiveAns .activeMessageAnswer
  ++ each (Msg.kindIs 0) .subscribeRequest ++ each (Msg.kindIs 1) .subscribeAnswer
  ++ each (Msg.kindIs 2) .unsubscribeRequest ++ each (Msg.kindIs 3) .statusQuery ++ each Msg.isPush .pushArrival
  ++ each (Msg.kindIs 4) .emptyNoticeArrival ++ each (Msg.kindIs 5) .contributionArrival
  ++ each (Msg.kindIs 6) .contributionAnswer
  ++ s.net.filterMap fun m => match m with
    | .park _ _ t _ _ => some (.subscriptionPark 0 t)
    | .parkAck _ t => some (.subscriptionPark 0 t)
    | _ => none

/-- The steps of the collapses in progress. -/
def State.collapseEvents (s : State) : List Instr :=
  (s.slices.map fun e => (e.2.colls.map fun c =>
    let asid := keyAsid c.key
    let va := keyVa c.key
    c.asked.map (fun n => .recallForCollapse (s.domainCache n) asid va)
      ++ (SMap.keys c.copies).map (fun n => .uCopyArrival (s.domainCache n) asid va)
      ++ [.partialArrival 0 asid va, .partialArrival 1 asid va]).flatten).flatten

/-- The steps of the shootdowns in progress. -/
def State.shootEvents (s : State) : List Instr :=
  (s.shootdowns.map fun d => d.todo.map Instr.shootdownBroadcast ++ d.acks.map Instr.shootdownAck).flatten

/-- Answers and drains of a group. -/
def State.groupEvents (s : State) (e : Nat × Group) : List Instr :=
  let core := e.1 / 128
  let slot := e.1 % 128
  let g := e.2
  (if (match g.pending with
      | some _ => s.trapReady g || s.moves (.translationAck core slot)
      | none => false) then [.translationAck core slot] else [])
  ++ (if !g.loads.isEmpty then [.loadDataReturn core slot] else [])
  ++ (if s.mayDrain g || (g.finished && s.released g && g.status == .running) then [.storeQueueDrain core slot] else [])
  ++ (if [g.slotA, g.slotB].any (fun p => match p with
        | some x => s.linesFull g.team x.wait
        | none => false) then [.lineFillWake core slot] else [])

/-- The check of the slot's parked path, if it is due, with the time its word was last read. -/
def State.watchLost (s : State) (e : Nat × Group) (ps : PSlot) : List (Nat × Instr) :=
  match e.2.watch ps with
  | some w => if e.2.live && s.checkDue (e.1 / 128) w then [(w.checked, .waitaCheck (e.1 / 128) (e.1 % 128) (decide (ps = .b)))] else []
  | none => []

/-- The checks of parked paths that are due. -/
def State.watchEvents (s : State) : List (Nat × Instr) := (s.groups.map fun e => s.watchLost e .a ++ s.watchLost e .b).flatten

/-- Machine checks of the groups. -/
def State.mcheckEvents (s : State) : List Instr :=
  s.groups.filterMap fun e => if e.2.mcheck.isEmpty then none else some (.machineCheck (e.1 / 128) (e.1 % 128))

/-- Write-backs under way. -/
def State.cacheEvents (s : State) : List Instr :=
  (s.caches.map fun e => if e.2.wbuf.isEmpty then [] else [.writeBack (s.domainCache e.1), .writeBackAck (s.domainCache e.1)]).flatten

/-- Engines, trap service and handlers of a core. -/
def State.coreEvents (s : State) : List Instr :=
  (s.cores.map fun e =>
    let c := e.1
    (if e.2.matq.isEmpty then []
      else [.tileConfigApply c, .tileZeroApply c, .matrixKStep c, .tileReadDeliver c, .epilogueRun c])
    ++ (if e.2.copies.isEmpty then [] else [.copyInLine c, .copyOutElements c])
    ++ (if e.2.trapq.isEmpty then [] else [.trapServiceStart c])
    ++ (if e.2.msgq.isEmpty then [] else [.handlerStart c])).flatten

/-- Pre-emptions in progress. -/
def State.preemptEvents (s : State) : List Instr :=
  (s.preempts.map fun p => (run 0 6).map (Instr.engineAck p.team) ++ (SMap.keys s.slices).map (fun h => .subscriptionPark h p.team)
    ++ [.preemptDecide p.team]).flatten

/-- What the distributor can do for the launches of a context: intake, dependences, retirement. -/
def State.launchEvents (s : State) (e : Nat × Context) : List Instr :=
  (if s.intakeOpen e.1 && !(s.heads e.1).isEmpty then [Instr.launchIntake e.1] else [])
  ++ (e.2.launches.map fun l =>
    (if e.2.mayStart l then [Instr.launchUnblock e.1 l.num] else [])
    ++ (if s.launchOver e.1 l then [Instr.launchRetire e.1 l.num] else [])).flatten

/-- The teams that can be placed now. -/
def State.placeEvents (s : State) : List Instr := if s.nextWork.isSome then [.teamPlacement] else []

/-- The restores of the saved teams. -/
def State.restoreEvents (s : State) : List Instr := (SMap.keys s.savedTeams).map Instr.teamRestore

/-- The issue points of a group. -/
def issuePoints (e : Nat × Group) : List IssuePoint := [⟨e.1 / 128, e.1 % 128, .a⟩, ⟨e.1 / 128, e.1 % 128, .b⟩]

/-- The slot of a latch chain or a fused sequence in issue. -/
def Group.issueSlot (g : Group) : Option PSlot :=
  match g.chain, g.fuse with
  | some c, _ => some c.slot
  | none, some f => some f.1
  | none, none => none

/-- The next member of a latch chain or of a fused sequence (01 R24, 04 R146). -/
def State.chainTurn (s : State) : Option Turn :=
  s.groups.findSome? fun e =>
    if e.2.status = .running then e.2.issueSlot.map fun ps => Turn.issue ⟨e.1 / 128, e.1 % 128, ps⟩ else none

/-- Does a turn of a path do more than find that it still waits? -/
def State.progress (s : State) (p : IssuePoint) : Bool :=
  match s.issueAt p with
  | .next t =>
    match s.group p.key, t.group p.key with
    | some g, some h => decide ({ h with since := g.since } ≠ g)
    | _, _ => true
  | .fault _ => true
  | .refused _ => true

/-- May a path issue now: it is ready, or its wait is over? A group that has yielded waits for its next Ready interval, and one whose
trap waits for that. -/
def State.eligible (s : State) (g : Group) (p : IssuePoint) : Bool :=
  g.takesTurn p.pslot && !s.stopped g p.pslot && decide (g.since ≤ s.now) && (g.mayIssue p.pslot && (match g.path p.pslot with
    | some x => x.wait == .ready
    | none => false) || ((g.mayIssue p.pslot || !g.stepDue.isEmpty) && s.progress p))

/-- Can a group issue from one of its slots: is it Ready (01 R43)? -/
def State.canIssue (s : State) (e : Nat × Group) : Bool := (issuePoints e).any (s.eligible e.2)

/-- The code a group held when it became Frozen, kept while it is (01 R43; 10 Table 10-10): a latch chain or fused sequence completes
first (10 R314), and a group in Translation or Trapped is not yet Frozen (01 R45). -/
def State.heldCode (s : State) (g : Group) : Option Nat :=
  if !g.frozen || g.inIssue || g.status != .running then none
  else match g.before, s.team g.team with
    | some c, _ => some c
    | none, some t => some (g.runCode t)
    | none, none => none

/-- Time has passed: the Ready interval of a group that has become Ready begins (10 R306), and what a group held as it became Frozen is
kept. -/
def State.renew (s : State) : State :=
  { s with groups := s.groups.map fun e =>
      let r := s.canIssue e
      (e.1, { e.2 with
        ready := r
        since := if r && !e.2.ready then s.now else e.2.since
        before := s.heldCode e.2 }) }

/-- The slot of a group that issues: the slots alternate when both can (01 R32). -/
def State.pickSlot (s : State) (e : Nat × Group) : Option IssuePoint :=
  let order := if e.2.nextB then (issuePoints e).reverse else issuePoints e
  order.find? (s.eligible e.2)

/-- The paths that groups would issue from, each with the start of its Ready interval. -/
def State.readyPoints (s : State) (gs : SMap Group) : List (Nat × IssuePoint) :=
  gs.filterMap fun e => (s.pickSlot e).map fun p => (e.2.since, p)

/-- The issue of the group whose ready interval began earliest, the lowest slot among equals (10 R306). -/
def State.issueTurn (s : State) : Option Turn := (leastBy Prod.fst (s.readyPoints s.groups)).map fun x => .issue x.2

/-- The scheduler of a slot: slot k belongs to scheduler k mod 4, the service slot to that of the group it serves (07 R240, 10
R306). -/
def State.schedulerOf (s : State) (core slot : Nat) : Nat := if slot < 64 then slot % 4 else (s.core core).serving % 4

/-- The groups of a slot's scheduler, those in a latch chain or fused sequence alone while there is one (10 R306). -/
def State.scheduler (s : State) (core slot : Nat) : SMap Group :=
  let gs := s.groups.filter fun e => e.1 / 128 == core && s.schedulerOf core (e.1 % 128) == s.schedulerOf core slot
  let busy := gs.filter fun e => e.2.inIssue && e.2.status == .running
  if busy.isEmpty then gs else busy

/-- Does the scheduler of an issue point pick it (10 R306)? Among groups whose Ready intervals began in the same cycle the service slot
comes last (DESIGN CHOICE, log 129). -/
def State.picks (s : State) (p : IssuePoint) : Bool :=
  (leastBy Prod.fst (s.readyPoints (s.scheduler p.core p.slot))).any fun x => x.2 == p

/-- An entry of the agenda happens; an issue, when its scheduler picks it. -/
def State.turn (s : State) (t : Turn) : Out :=
  match t with
  | .event i => s.eventTurn i
  | .issue p => if s.thermtrip || !s.picks p then .next s else s.issueAt p
  | .arrive p => .next (if s.thermtrip then s else s.arrive p)
  | .semTie sem => .next (if s.thermtrip then s else s.semTie sem)
  | .hostRead p off n => .next (if s.thermtrip || decide (maxPayload < n) then s else s.hostRead p off.toNat n)
  | .windowRead p off n => .next (if s.thermtrip then s else s.windowOf p off n none)
  | .windowWrite p off bs => .next (if s.thermtrip then s else s.windowOf p off bs.length (some bs))

/-- Is a path of the slot parked with a timeout? -/
def Group.timed (g : Group) (ps : PSlot) : Bool := (g.watch ps).any fun w => w.timeout.isSome

/-- When the path of a slot began the wait its timer counts, or last looked at its word. -/
def Group.waitsSince (g : Group) (ps : PSlot) : Nat :=
  match (g.path ps).map Path.wait with
  | some (.parked w) => w.checked
  | some (.emptyLine _ _ start _ _) => start
  | _ => 0

/-- The timers that may have run out, each with the time from which its path waits. -/
def State.timerEvents (s : State) : List (Nat × Instr) :=
  (s.groups.map fun e =>
    let lines := fun (ps : PSlot) =>
      if (e.2.path ps).any Path.onEmptyLine then [(e.2.waitsSince ps, Instr.emptyLineTimeout (e.1 / 128) (e.1 % 128))] else []
    let wait := fun (ps : PSlot) =>
      if e.2.timed ps then [(e.2.waitsSince ps, Instr.waitaTimeout (e.1 / 128) (e.1 % 128) (decide (ps = .b)))] else []
    lines .a ++ lines .b ++ wait .a ++ wait .b).flatten

/-- Contributions to this device's own engine that were answered BUSY go out again (11 R347). -/
def State.resendEvents (s : State) : List Instr :=
  let quiet := fun (c : Contribution) => !s.net.any fun m => match m with
    | .contrib d => d == c
    | .contribAns d _ => d == c
    | _ => false
  (number 0 s.sent).filterMap fun e => if e.2.dstDev = s.dev ∧ quiet e.2 then some (.busyResend e.1) else none

/-- The first event of a list that changes anything. -/
def State.firstMove (s : State) (is : List Instr) : Option Turn := (is.find? s.moves).map .event

/-- What waiting paths wait for: machine checks, then of the checks that are due and the timers that have run out the one of the path that
has waited longest since it last looked, so that none keeps another from its wake (01 R52). -/
def State.wakeTurn (s : State) : Option Turn :=
  s.firstMove s.mcheckEvents
  <|> (leastBy Prod.fst ((s.watchEvents ++ s.timerEvents).filter fun e => s.moves e.2)).map fun e => .event e.2

/-- The turn the machine takes by itself, if any: a latch chain, then what is on its way, then the distributor, then the
groups' issues and the wakes of their parked paths in turn (01 R51, R52), then resends. -/
def State.choose (s : State) : Option Turn :=
  s.chainTurn
  <|> ((s.groups.map s.groupEvents).flatten.head?.map .event)
  <|> s.firstMove (s.netEvents ++ s.collapseEvents ++ s.shootEvents ++ s.cacheEvents ++ s.coreEvents ++ s.preemptEvents)
  <|> ((s.contexts.map s.launchEvents).flatten.head?.map .event)
  <|> s.firstMove (s.placeEvents ++ s.restoreEvents)
  <|> (if s.issueNext then s.issueTurn <|> s.wakeTurn else s.wakeTurn <|> s.issueTurn)
  <|> s.firstMove s.resendEvents

/-- Is a turn an issue? -/
def Turn.isIssue : Turn → Bool
  | .issue _ => true
  | _ => false

/-- The machine's own turn; after an issue parked paths are looked at first, after anything else a group issues first. -/
def State.ownTurn (s : State) (t : Turn) : Out := ({ s with issueNext := !t.isIssue } : State).turn t

/-- A step's turn after time has passed: the head of the agenda, else the machine's own choice, else nothing. -/
def State.oneTurn (s : State) : Out :=
  match s.agenda with
  | t :: rest => { s with agenda := rest }.turn t
  | [] =>
    if s.thermtrip then .next s
    else match s.choose with
      | some t => s.ownTurn t
      | none => .next s

end Sys2Proof.Machine
end

