-- ==== Sys2Proof/Machine/Load.lean ====
section
/-! DEFINITION. A group whose next instruction is given: the page table, context, team and group that a fetch needs
(log 20). -/

namespace Sys2Proof.Machine

/-- Virtual and physical address of the placed instruction. -/
def placedAt : Nat := 0x1000

/-- A page-table entry that points to the next table, and a leaf of 1 GiB with every right (09 Tables 9-6, 9-7). -/
def tableEntry (next : Nat) : List Byte := toBytes 8 (1 + next)
/-- The leaf's bytes: valid, leaf, read, write, execute, frame 0 of a device. -/
def leafEntry (dev : Nat) : List Byte := toBytes 8 (0x1F + dev * 2 ^ 56)

/-- Three tables at 1 GiB that map the first GiB of an address space to the first GiB of the device. -/
def placedTables (m : List Host.Cell) (dev : Nat) : List Host.Cell :=
  Memory.writeN (Memory.writeN (Memory.writeN m 0x40000000 (tableEntry 0x40001000)) 0x40001000 (tableEntry 0x40002000))
    0x40002000 (leafEntry dev)

/-- A running context with address space 1, its trap records and divergence stacks in the mapped GiB. -/
def placedContext : Context :=
  { Context.free with asid := 1, state := 1, ptroot := 0x40000000, divbase := 0x2000000, divslots := 64,
                      trbase := 0x1000000, mclogsz := 16, mclogbase := 0x1800000 }

/-- Its team of one group. -/
def placedTeam : Team :=
  { ctx := 0, launch := 0, handler := false, packet := 0, x := 0, y := 0, z := 0, grps := 1,
    segs := [(0, Segment.start 0 1)], scratch := 262144, bars := [], restartable := false, fused := false, saved := none,
    held := [], heldMat := [], heldCopy := [], restart := false, since := 0 }

/-- Its group: a producer at S with every declarable resource, Ready to issue at the placed address. -/
def placedGroup (uid now : Nat) : Group :=
  { Group.start ⟨uid, 0, 0, 0, 0, 0, true, .supervisor, some 0, Freeze.none⟩
      ⟨124, 124, 192, 16, 4, 0, 255, false, 262144⟩ 0 [] now with
    ready := true
    slotA := some { entryPath 0 with pc := BitVec.ofNat 64 placedAt } }

/-- The machine with instruction bytes where its next turn fetches them. -/
def State.placeCode (s : State) (bs : List Byte) : State :=
  { s with
    agenda := .issue ⟨0, 0, .a⟩ :: s.agenda
    nextUid := s.nextUid + 1
    mem := placedTables (Memory.writeN s.mem placedAt bs) s.dev
    groups := SMap.insert s.groups 0 (placedGroup s.nextUid s.now)
    teams := SMap.insert s.teams 0 placedTeam
    cores := SMap.insert s.cores 0 { s.core 0 with icache := [] }
    caches := []
    slices := []
    contexts := SMap.insert s.contexts 0 placedContext
    thermtrip := false }

end Sys2Proof.Machine
end

