-- ==== Sys2Proof/Machine/Step.lean ====
section
/-! DEFINITION. One step of the machine, and a machine whose next step runs a given instruction. -/

namespace Sys2Proof.Machine

/-- One step: time passes, the groups that have become Ready begin their Ready intervals (10 R306), then one turn (log 6). -/
def step (s : State) : Host.Outcome State Fault Refusal := s.tick.renew.oneTurn

/-- The state with an instruction, numbered as spec/opcode_table.json numbers its bits, where the next step fetches. -/
def State.withFetchWord (s : State) (nbits w : Nat) : State := s.placeCode (toBytes 4 (w % 2 ^ nbits))

end Sys2Proof.Machine
end

