-- ==== Sys2Proof/Safety.lean ====
section
/-! DEFINITION. The terms claims are made in: when a path issues an instruction, what its registers read, and what it means
that an instruction completes and changes nothing else. -/

namespace Sys2Proof.Machine

/-- The path at the issue point of `s` is `p`, and the checks every instruction passes let it issue `i`, as the latch and the
chain progress say (01 R22 to R24, R47 to R49). `g` is its group as the instruction finds it: a register that an MXRD is still to
fill reads as an undefined value (06 Table 6-3). -/
structure Goes (i : Instr) (s : State) (g : Group) (p : Path) (latch : Option Nat) (chain : Option Chain) : Prop where
  group : ∃ g0, s.group s.cur.key = some g0 ∧ g = s.veil g0 i
    ∧ s.verdict s.cur.key g0 s.cur.pslot p i = .go latch chain
  path : g.path s.cur.pslot = some p

/-- A group's register file as functions: vector registers and latches by number and lane, predicates, scalars, GSTAT. -/
structure Regs where
  v : Nat → Nat → Word
  b : Nat → Nat → Word
  p : Nat → Word
  r : Nat → Word
  gstat : Word

/-- What a group's registers read. -/
def Group.regs (g : Group) : Regs where
  v := fun r l => if l < 32 then g.vr r l else 0
  b := fun j l => if l < 32 then SMap.getD g.b (32 * j + l) 0 else 0
  p := g.pred
  r := g.sr
  gstat := g.gstat

/-- One vector register takes new values in the lanes of a mask. -/
def Regs.lanes (x : Regs) (act : Word) (d : Nat) (f : Nat → Word) : Regs :=
  { x with v := fun r l => if r = d ∧ lane act l = true then f l else x.v r l }

/-- One latch takes new values: `f` in the lanes of a mask, free values from `n` in the others (01 R22). -/
def Regs.latch (x : Regs) (k : Option Nat) (act : Word) (f : Nat → Word) (n : Nat) : Regs :=
  { x with b := fun j l => if k = some j ∧ l < 32 then (if lane act l = true then f l else Config.freeWord (n + l)) else x.b j l }

/-- Consecutive vector registers from `d` take the words of a list in the lanes of a mask. -/
def Regs.span (x : Regs) (act : Word) (d : Nat) (ws : Nat → List Word) : Regs :=
  { x with v := fun r l =>
      if lane act l = true ∧ d ≤ r ∧ r - d < (ws l).length then (ws l).getD (r - d) 0 else x.v r l }

/-- A predicate takes new values in the lanes of a mask. -/
def Regs.pred (x : Regs) (act : Word) (d : Nat) (m : Word) : Regs :=
  { x with p := fun r => if r = d then (x.p r &&& ~~~act) ||| (m &&& act) else x.p r }

/-- A scalar register takes a new value. -/
def Regs.scalar (x : Regs) (d : Nat) (w : Word) : Regs := { x with r := fun r => if r = d then w else x.r r }

/-- Sticky flags of GSTAT are set. -/
def Regs.flag (x : Regs) (w : Word) : Regs := { x with gstat := x.gstat ||| w }

/-- Two groups that differ at most in their registers and in what issuing moves: the paths, the divergence stack, the wave
split, the slots' turn, the ready interval, the chain, the fused sequence, a single-step trap due, and the MXRD registers
overwritten. -/
def SameGroup (g h : Group) : Prop :=
  { h with v := g.v, b := g.b, s := g.s, p := g.p, gstat := g.gstat, slotA := g.slotA, slotB := g.slotB, dsp := g.dsp,
           split := g.split, nextB := g.nextB, since := g.since, chain := g.chain, fuse := g.fuse,
           stepDue := g.stepDue, mxrd := g.mxrd } = g

/-- The group with an instruction issued: the other slot's turn, a new ready interval, the progress of its chain and of its
fused sequence, one more instruction of run-ahead, a single-step trap due, and the registers of its MXRDs overwritten (01 R22, R32, R40; 04 R145; 06 Table 6-3; 10 R306, R321). -/
def Started (i : Instr) (s : State) (g : Group) (p : Path) (chain : Option Chain) : Group :=
  (g.spoil i p.act).issued s.now s.cur.pslot p chain (s.fuseNext s.cur.key g s.cur.pslot p i chain)

/-- The path of the slot that does not issue waits in a read of segment `k` that it has issued (05 R158; 08 R252), whose lines are full
or may be filled by something other than the group (log 137). -/
def OtherReads (s : State) (g : Group) (k : Nat) : Prop :=
  ∃ (y : Path) (ls : List Nat) (start : Nat) (woken take : Bool),
    g.path s.cur.pslot.other = some y ∧ y.wait = .emptyLine k ls start woken take
      ∧ (woken = true ∨ s.othersFill s.cur.key g k ls = true)

/-- What an instruction that may issue works on. -/
def Issuing (i : Instr) (s : State) (g : Group) (p : Path) (latch : Option Nat) (chain : Option Chain) : Ctx :=
  ⟨s, s.cur.key, Started i s g p chain, s.cur.pslot, p, p.act, latch, p.pc + BitVec.ofNat 64 i.size⟩

/-- `h` is the group after the path in slot `ps`, as `p` has it, has issued and goes on at `pc`, the other path as it was,
with what the issue boundary of `t`, if there is one, then does to the paths (01 R24, R36, R37; 04 R146). -/
def Advanced (t : State) (ps : PSlot) (g : Group) (p : Path) (chain : Option Chain) (pc : DWord) (h : Group) : Prop :=
  ∃ h0 : Group, h = t.atBoundary h0 ∧ h0.path ps = some (p.advance pc) ∧ h0.path ps.other = g.path ps.other ∧ h0.chain = chain
    ∧ h0.dsp = g.dsp ∧ h0.ex = g.ex ∧ h0.nextB = decide (ps = .a)

/-- `i` answers the next state that is `t` with the issuing group changed: its registers read as `R`, its path, as `p` has
it, goes on at `pc`, and nothing else of the group differs from `g`. -/
def CompletesAt (i : Instr) (s t : State) (g : Group) (p : Path) (chain : Option Chain) (R : Regs) (pc : DWord) : Prop :=
  ∃ h : Group, exec i s = .next (t.setGroup s.cur.key h) ∧ h.regs = R ∧ SameGroup g h
    ∧ Advanced t s.cur.pslot g p chain pc h ∧ h.fuse = s.fuseNext s.cur.key g s.cur.pslot p i chain

/-- `i` answers a next state in which the issuing group's registers read as `R` and its path goes on at the next
instruction; `n` free values are drawn; no other part of the machine, no byte of memory and nothing else of the group
changes. -/
def Completes (i : Instr) (s : State) (g : Group) (p : Path) (chain : Option Chain) (n : Nat) (R : Regs) : Prop :=
  CompletesAt i s { s with free := s.free + n } g p chain R (p.pc + BitVec.ofNat 64 i.size)

/-- `i` answers the next state that is `t` with the issuing group in Translation, an access pending at these addresses
(10 R307); nothing else of the group changes but what issuing moves. -/
def Pends (i : Instr) (s t : State) (g : Group) (p : Path) (chain : Option Chain) (ls : List (Nat × Nat)) (op : MemOp) : Prop :=
  exec i s = .next (t.setGroup s.cur.key
    { Started i s g p chain with status := .translation, pending := some ⟨s.cur.pslot, p.pc, ls, op, s.now⟩ })

/-- A latch-eligible instruction: whenever it may issue it completes, with `f` in each active lane of `vd` (unless W = 1)
and of its latch, and the flags it raises. -/
def LaneOp (i : Instr) (w : BitVec 1) (d : Nat) (f : State → Group → Path → Nat → Word)
    (fl : State → Group → Path → Word) : Prop :=
  ∀ s g p latch chain, Goes i s g p latch chain →
    Completes i s g p chain (if latch.isSome then 32 else 0)
      (((if w = 1 then g.regs else g.regs.lanes p.act d (f s g p)).flag (fl s g p)).latch latch p.act (f s g p) s.free)

/-- An instruction that writes registers of its group: whenever it may issue it completes, with the registers `R` gives. -/
def RegOp (i : Instr) (R : State → Group → Path → Regs) : Prop :=
  ∀ s g p latch chain, Goes i s g p latch chain → Completes i s g p chain 0 (R s g p)

/-- The same under a condition on the state and the operands. -/
def RegOpIf (i : Instr) (H : State → Group → Path → Prop) (R : State → Group → Path → Regs) : Prop :=
  ∀ s g p latch chain, Goes i s g p latch chain → H s g p → Completes i s g p chain 0 (R s g p)

/-- A latch-eligible instruction of one source, without flags. -/
def Lane1 (i : Instr) (a : Nat) (w : BitVec 1) (d : Nat) (f : Word → Word) : Prop :=
  LaneOp i w d (fun _ g _ l => f (g.src a l)) (fun _ _ _ => 0)

/-- A latch-eligible instruction of two sources `va`, `vb`, without flags. -/
def Lane2 (i : Instr) (a b : Nat) (w : BitVec 1) (d : Nat) (f : Word → Word → Word) : Prop :=
  LaneOp i w d (fun _ g _ l => f (g.src a l) (g.src b l)) (fun _ _ _ => 0)

/-- A latch-eligible instruction of two sources and its destination, without flags. -/
def Lane3 (i : Instr) (a b : Nat) (w : BitVec 1) (d : Nat) (f : Word → Word → Word → Word) : Prop :=
  LaneOp i w d (fun _ g _ l => f (g.src a l) (g.src b l) (g.src d l)) (fun _ _ _ => 0)

/-- The flags of all active lanes together. -/
def laneFlags (act : Word) (f : Nat → Word) : Word := ((lanesOf act).map f).foldr (fun a b => a ||| b) 0

/-- A latch-eligible float instruction: a result and its flags in each active lane. -/
def FloatOp (i : Instr) (w : BitVec 1) (d : Nat) (f : Group → Nat → Nat × Word) : Prop :=
  LaneOp i w d (fun _ g _ l => BitVec.ofNat 32 (f g l).1) (fun _ g p => laneFlags p.act fun l => (f g l).2)

/-- Element 0 or 1 of a pair of BF16 values (04 R134). -/
def half (x : Word) (i : Nat) : Nat := (x.extractLsb' (16 * i) 16).toNat

/-- A pair of BF16 results with the flags of both. -/
def bf16Pair (f : Nat → Nat × Word) : Nat × Word := ((f 0).1 + 2 ^ 16 * (f 1).1, (f 0).2 ||| (f 1).2)

/-- A BF16 immediate widened exactly to F32; a NaN pattern becomes 0x7FC0_0000 (02 Table 2-9). -/
def bf16Wide (k : BitVec 16) : Nat := if 0x7F80 < k.toNat % 2 ^ 15 then 0x7FC00000 else k.toNat * 2 ^ 16

/-- The two words of a 64-bit value, low word first. -/
def words64 (x : Nat) : List Word := [BitVec.ofNat 32 x, BitVec.ofNat 32 (x / 2 ^ 32)]

/-- The three words of a statistics triple. -/
def tripleWords (t : Triple) : List Word := [BitVec.ofNat 32 t.w, BitVec.ofNat 32 t.m, BitVec.ofNat 32 t.s]

/-- The values of a vector register in the active lanes, in ascending lane order. -/
def column (g : Group) (p : Path) (a : Nat) : List Nat := (lanesOf p.act).map fun l => (g.src a l).toNat

/-- How many active lanes lie below a lane. -/
def rank (p : Path) (l : Nat) : Nat := ((lanesOf p.act).filter fun k => decide (k < l)).length

/-- The left fold of a cross-lane operator over values, with the flags of its steps; nothing of no values (04 R138). -/
def leftFold (o : Nat) : List Nat → Nat × Word
  | [] => (0, 0)
  | x :: r => r.foldl (fun acc v => ((crossOp o acc.1 v).1, acc.2 ||| (crossOp o acc.1 v).2)) (x, 0)

/-- A predicate source, inverted when its N bit is 1. -/
def psrc (g : Group) (n : BitVec 1) (p : BitVec 5) : Word := if n = 1 then ~~~(g.pred p.toNat) else g.pred p.toNat

/-- The format a lane's format word describes. -/
def laneFmt (g : Group) (f l : Nat) : NFmt := NFmt.ofWord (g.src f l)

/-- Every active lane's format word is valid (03 R90). -/
def FormatsValid (f : Nat) (_ : State) (g : Group) (p : Path) : Prop :=
  ∀ l, lane p.act l = true → validFormat (g.src f l) = true

/-- A source of a type code as a number: one register, or a pair for a 64-bit type (02 Table 2-7). -/
def typedSrc (g : Group) (t a l : Nat) : Nat := if tyRegs t = 2 then g.src64 a l else (g.src a l).toNat

end Sys2Proof.Machine
end

