-- ==== Sys2Proof/Certificates/Slice0/Obligations.lean ====
section
/-! DEFINITION. The statements for the provers. Each docstring names the rules of spec/ its statement formalises; words such
as `Completes`, `RegOp` and `Goes` are those of Safety.lean. A statement of several parts names them under Claims. -/

open Sys2Proof Sys2Proof.Machine

/-- 04 R116, Table 4-1: the register-form integer instructions of majors 0x00 to 0x03 write, modulo 2^32, the value the
table gives in each active lane of vd (W = 0) and of their latch, set no flag, and change nothing else. -/
def Sys2Proof.Claims.LaneArithmeticResults : Prop :=
  ∀ (a b d : BitVec 7) (w : BitVec 1),
    Lane2 (.iadd b a w d) a.toNat b.toNat w d.toNat (fun x y => x + y)
    ∧ Lane2 (.isub b a w d) a.toNat b.toNat w d.toNat (fun x y => x - y)
    ∧ Lane2 (.imul b a w d) a.toNat b.toNat w d.toNat (fun x y => BitVec.ofNat 32 (x.toNat * y.toNat))
    ∧ Lane3 (.imad b a w d) a.toNat b.toNat w d.toNat (fun x y z => BitVec.ofNat 32 (x.toNat * y.toNat + z.toNat))
    ∧ Lane2 (.imulhS32 b a w d) a.toNat b.toNat w d.toNat (fun x y => BitVec.ofInt 32 (x.toInt * y.toInt / 2 ^ 32))
    ∧ Lane2 (.imulhW32 b a w d) a.toNat b.toNat w d.toNat (fun x y => BitVec.ofNat 32 (x.toNat * y.toNat / 2 ^ 32))
    ∧ Lane2 (.iminS32 b a w d) a.toNat b.toNat w d.toNat (fun x y => BitVec.ofInt 32 (min x.toInt y.toInt))
    ∧ Lane2 (.iminW32 b a w d) a.toNat b.toNat w d.toNat (fun x y => BitVec.ofNat 32 (min x.toNat y.toNat))
    ∧ Lane2 (.imaxS32 b a w d) a.toNat b.toNat w d.toNat (fun x y => BitVec.ofInt 32 (max x.toInt y.toInt))
    ∧ Lane2 (.imaxW32 b a w d) a.toNat b.toNat w d.toNat (fun x y => BitVec.ofNat 32 (max x.toNat y.toNat))
    ∧ Lane1 (.iabs a w d) a.toNat w d.toNat (fun x => BitVec.ofInt 32 |x.toInt|)
    ∧ Lane1 (.ineg a w d) a.toNat w d.toNat (fun x => BitVec.ofInt 32 (-x.toInt))

/-- 04 R116, R117, Table 4-1: the bit instructions of majors 0x01 to 0x03. A shift by 32 or more gives 0, or copies of the
sign; BFE and BFI take position vb[4:0] and the effective length min(vb[13:8], 32 - position). -/
def Sys2Proof.Claims.LaneBitResults : Prop :=
  ∀ (a b d : BitVec 7) (w : BitVec 1),
    Lane1 (.popc a w d) a.toNat w d.toNat (fun x => BitVec.ofNat 32 ((List.range 32).countP fun i => x.getLsbD i))
    ∧ Lane1 (.clz a w d) a.toNat w d.toNat (fun x => BitVec.ofNat 32 (32 - x.toNat.size))
    ∧ Lane2 (.and b a w d) a.toNat b.toNat w d.toNat (fun x y => x &&& y)
    ∧ Lane2 (.or b a w d) a.toNat b.toNat w d.toNat (fun x y => x ||| y)
    ∧ Lane2 (.xor b a w d) a.toNat b.toNat w d.toNat (fun x y => x ^^^ y)
    ∧ Lane1 (.not a w d) a.toNat w d.toNat (fun x => ~~~x)
    ∧ Lane2 (.shl b a w d) a.toNat b.toNat w d.toNat (fun x y => BitVec.ofNat 32 (x.toNat * 2 ^ y.toNat))
    ∧ Lane2 (.shr b a w d) a.toNat b.toNat w d.toNat (fun x y => BitVec.ofNat 32 (x.toNat / 2 ^ y.toNat))
    ∧ Lane2 (.sar b a w d) a.toNat b.toNat w d.toNat (fun x y => BitVec.ofInt 32 (x.toInt / 2 ^ y.toNat))
    ∧ Lane1 (.brev a w d) a.toNat w d.toNat (fun x => x.reverse)
    ∧ Lane2 (.bfeW32 b a w d) a.toNat b.toNat w d.toNat (fun x f =>
        let pos := (f.extractLsb' 0 5).toNat
        let len := min (f.extractLsb' 8 6).toNat (32 - pos)
        BitVec.ofNat 32 (x.toNat / 2 ^ pos % 2 ^ len))
    ∧ Lane2 (.bfeS32 b a w d) a.toNat b.toNat w d.toNat (fun x f =>
        let pos := (f.extractLsb' 0 5).toNat
        let len := min (f.extractLsb' 8 6).toNat (32 - pos)
        (BitVec.ofNat len (x.toNat / 2 ^ pos)).signExtend 32)
    ∧ Lane3 (.bfi b a w d) a.toNat b.toNat w d.toNat (fun x f z =>
        let pos := (f.extractLsb' 0 5).toNat
        let len := min (f.extractLsb' 8 6).toNat (32 - pos)
        BitVec.ofFnLE fun i : Fin 32 =>
          if pos ≤ i.val ∧ i.val < pos + len then x.getLsbD (i.val - pos) else z.getLsbD i.val)
    ∧ Lane1 (.mov a w d) a.toNat w d.toNat (fun x => x)

/-- Integer and bit lane instructions write the value Table 4-1 gives, and nothing else changes. -/
def Obligations.IntegerResults : Prop := Claims.LaneArithmeticResults ∧ Claims.LaneBitResults

/-- 02 R64, Table 2-9, 04 R123, R128: BCAST and the integer immediate forms of majors 0x09, 0x0A and 0x1A. -/
def Sys2Proof.Claims.ImmediateResults : Prop :=
  ∀ (d : BitVec 7) (w : BitVec 1) (k : BitVec 16) (r : BitVec 8),
    LaneOp (.bcast r d) 0 d.toNat (fun s g _ _ => s.sv s.cur.key g r.toNat) (fun _ _ _ => 0)
    ∧ LaneOp (.movi k w d) w d.toNat (fun _ _ _ _ => BitVec.ofInt 32 k.toInt) (fun _ _ _ => 0)
    ∧ Lane1 (.movh k w d) d.toNat w d.toNat (fun x => BitVec.ofNat 32 (k.toNat * 2 ^ 16 + x.toNat % 2 ^ 16))
    ∧ Lane1 (.iaddImm k w d) d.toNat w d.toNat (fun x => x + BitVec.ofInt 32 k.toInt)
    ∧ Lane1 (.andImm k w d) d.toNat w d.toNat (fun x => BitVec.ofNat 32 (x.toNat &&& k.toNat))
    ∧ LaneOp (.moviF32 k w d) w d.toNat (fun _ _ _ _ => BitVec.ofNat 32 (bf16Wide k)) (fun _ _ _ => 0)
    ∧ LaneOp (.moviF16 k w d) w d.toNat (fun _ _ _ _ => BitVec.ofNat 32 (F16.deliver .rn (BF16.decode k.toNat)).1)
        (fun _ _ _ => 0)

/-- 02 R57, Table 2-2: a 16-bit form acts as the 32-bit instruction it shortens, its destination its first source, W = 0,
its source v0 to v27 or, for the codes 28 to 31, b0 to b3. -/
def Sys2Proof.Claims.ShortFormResults : Prop :=
  ∀ (r : BitVec 5) (d : BitVec 6),
    Lane1 (.mov16 r d) (short r) 0 d.toNat (fun x => x)
    ∧ Lane2 (.iadd16 r d) d.toNat (short r) 0 d.toNat (fun x y => x + y)
    ∧ Lane2 (.isub16 r d) d.toNat (short r) 0 d.toNat (fun x y => x - y)
    ∧ Lane2 (.and16 r d) d.toNat (short r) 0 d.toNat (fun x y => x &&& y)
    ∧ Lane2 (.or16 r d) d.toNat (short r) 0 d.toNat (fun x y => x ||| y)
    ∧ Lane2 (.xor16 r d) d.toNat (short r) 0 d.toNat (fun x y => x ^^^ y)
    ∧ Lane2 (.shl16 r d) d.toNat (short r) 0 d.toNat (fun x y => BitVec.ofNat 32 (x.toNat * 2 ^ y.toNat))
    ∧ Lane2 (.shr16 r d) d.toNat (short r) 0 d.toNat (fun x y => BitVec.ofNat 32 (x.toNat / 2 ^ y.toNat))
    ∧ Lane2 (.sar16 r d) d.toNat (short r) 0 d.toNat (fun x y => BitVec.ofInt 32 (x.toInt / 2 ^ y.toNat))
    ∧ Lane2 (.imin16 r d) d.toNat (short r) 0 d.toNat (fun x y => BitVec.ofInt 32 (min x.toInt y.toInt))
    ∧ Lane2 (.imax16 r d) d.toNat (short r) 0 d.toNat (fun x y => BitVec.ofInt 32 (max x.toInt y.toInt))
    ∧ FloatOp (.fadd16 r d) 0 d.toNat (fun g l => F32.add .rn (g.src d.toNat l).toNat (g.src (short r) l).toNat)
    ∧ FloatOp (.fmul16 r d) 0 d.toNat (fun g l => F32.mul .rn (g.src d.toNat l).toNat (g.src (short r) l).toNat)
    ∧ FloatOp (.fmin16 r d) 0 d.toNat (fun g l => f32MinMax false (g.src d.toNat l).toNat (g.src (short r) l).toNat)
    ∧ FloatOp (.fmax16 r d) 0 d.toNat (fun g l => f32MinMax true (g.src d.toNat l).toNat (g.src (short r) l).toNat)
    ∧ FloatOp (.ffma16 r d) 0 d.toNat (fun g l =>
        F32.fma .rn (g.src (short r) l).toNat (g.src (short r) l).toNat (g.src d.toNat l).toNat)

/-- Immediate forms, BCAST and the 16-bit forms: results, flags and frame. -/
def Obligations.ImmediateAndShortResults : Prop := Claims.ImmediateResults ∧ Claims.ShortFormResults

/-- 04 R129, R130, R133, R134, 03 R85: a float instruction delivers, in each active lane, the result of its operation under
its rounding mode, and raises the union of the flags of the active lanes. -/
def Obligations.FloatResults : Prop :=
  ∀ (a b d : BitVec 7) (w : BitVec 1) (r : BitVec 3) (k : BitVec 16),
    FloatOp (.fadd r b a w d) w d.toNat (fun g l => F32.add (.ofCode r.toNat) (g.src a.toNat l).toNat (g.src b.toNat l).toNat)
    ∧ FloatOp (.fsub r b a w d) w d.toNat (fun g l => F32.sub (.ofCode r.toNat) (g.src a.toNat l).toNat (g.src b.toNat l).toNat)
    ∧ FloatOp (.fmul r b a w d) w d.toNat (fun g l => F32.mul (.ofCode r.toNat) (g.src a.toNat l).toNat (g.src b.toNat l).toNat)
    ∧ FloatOp (.ffma r b a w d) w d.toNat (fun g l =>
        F32.fma (.ofCode r.toNat) (g.src a.toNat l).toNat (g.src b.toNat l).toNat (g.src d.toNat l).toNat)
    ∧ FloatOp (.fmin b a w d) w d.toNat (fun g l => f32MinMax false (g.src a.toNat l).toNat (g.src b.toNat l).toNat)
    ∧ FloatOp (.fmax b a w d) w d.toNat (fun g l => f32MinMax true (g.src a.toNat l).toNat (g.src b.toNat l).toNat)
    ∧ FloatOp (.faddImm k w d) w d.toNat (fun g l => F32.add .rn (g.src d.toNat l).toNat (bf16Wide k))
    ∧ FloatOp (.fmulImm k w d) w d.toNat (fun g l => F32.mul .rn (g.src d.toNat l).toNat (bf16Wide k))
    ∧ FloatOp (.frcp a w d) w d.toNat (fun g l => f32Special fpRcp (g.src a.toNat l).toNat)
    ∧ FloatOp (.frsq a w d) w d.toNat (fun g l => f32Special fpRsqrt (g.src a.toNat l).toNat)
    ∧ FloatOp (.fsqrt a w d) w d.toNat (fun g l => f32Special fpSqrt (g.src a.toNat l).toNat)
    ∧ FloatOp (.fexp2 a w d) w d.toNat (fun g l => f32Special fpExp2 (g.src a.toNat l).toNat)
    ∧ FloatOp (.flog2 a w d) w d.toNat (fun g l => f32Special fpLog2 (g.src a.toNat l).toNat)
    ∧ FloatOp (.fsin a w d) w d.toNat (fun g l => f32Special fpSin (g.src a.toNat l).toNat)
    ∧ FloatOp (.fcos a w d) w d.toNat (fun g l => f32Special fpCos (g.src a.toNat l).toNat)
    ∧ FloatOp (.hadd2 b a w d) w d.toNat (fun g l =>
        bf16Pair (fun i => BF16.add .rn (half (g.src a.toNat l) i) (half (g.src b.toNat l) i)))
    ∧ FloatOp (.hmul2 b a w d) w d.toNat (fun g l =>
        bf16Pair (fun i => BF16.mul .rn (half (g.src a.toNat l) i) (half (g.src b.toNat l) i)))
    ∧ FloatOp (.hfma2 b a w d) w d.toNat (fun g l =>
        bf16Pair (fun i => BF16.fma .rn (half (g.src a.toNat l) i) (half (g.src b.toNat l) i) (half (g.src d.toNat l) i)))

/-- 04 R118, R119, R120: IADDC (major 0x05, format R, MIN its carry predicate) adds with carry in and carry out in each active
lane; LEA64 (major 0x06, MIN its shift) adds a scaled sign-extended index to a pair, VD and SA even; SEL (major 0x04, MIN its
predicate) chooses between its sources. SEL is latch-eligible, the other two are not; nothing else changes. -/
def Obligations.CarryScaleSelectRules : Prop :=
  ∀ (a b d : BitVec 7) (k : BitVec 3) (w : BitVec 1),
    decodeTableWord 32 (0x0B + d.toNat * 2 ^ 7 + a.toNat * 2 ^ 15 + b.toNat * 2 ^ 22 + k.toNat * 2 ^ 29) = some (.iaddc k b a d)
    ∧ decodeTableWord 32 (0x0D + d.toNat * 2 ^ 7 + a.toNat * 2 ^ 15 + b.toNat * 2 ^ 22 + k.toNat * 2 ^ 29) = some (.lea64 k b a d)
    ∧ decodeTableWord 32 (0x09 + d.toNat * 2 ^ 7 + w.toNat * 2 ^ 14 + a.toNat * 2 ^ 15 + b.toNat * 2 ^ 22 + k.toNat * 2 ^ 29)
      = some (.sel k b a w d)
    ∧ latchEligible (.iaddc k b a d) = false ∧ latchEligible (.lea64 k b a d) = false ∧ latchEligible (.sel k b a w d) = true
    ∧ (WellFormed.wf (.lea64 k b a d) = true → d.toNat % 2 = 0 ∧ a.toNat % 2 = 0)
    ∧ RegOp (.iaddc k b a d) (fun _ g p =>
      let sum := fun l => (g.src a.toNat l).toNat + (g.src b.toNat l).toNat + (if lane (g.pred k.toNat) l then 1 else 0)
      (g.regs.lanes p.act d.toNat fun l => BitVec.ofNat 32 (sum l)).pred p.act k.toNat
        (maskOf fun l => decide (2 ^ 32 ≤ sum l)))
    ∧ RegOp (.lea64 k b a d) (fun _ g p => g.regs.span p.act d.toNat fun l =>
        words64 (BitVec.ofInt 64 ((g.src64 a.toNat l : Int) + (g.src b.toNat l).toInt * 2 ^ k.toNat)).toNat)
    ∧ LaneOp (.sel k b a w d) w d.toNat
      (fun _ g _ l => if lane (g.pred k.toNat) l then g.src a.toNat l else g.src b.toNat l) (fun _ _ _ => 0)

/-- 03 R87: an exact zero sum or difference is +0 under RN, RZ and RP and -0 under RM, but a sum of two zeros of one sign keeps
that sign; a zero product or quotient has the exclusive-or of the operands' signs; so too in FFMA, whose product is exact. -/
def Obligations.ZeroSignRule : Prop :=
  ∀ (f : FFmt), f = F32 ∨ f = F16 ∨ f = BF16 → ∀ (mode : RMode) (x y z m1 m2 m3 : Nat) (n k n1 n2 n3 : Bool) (e1 e2 e3 : Int),
    x < 2 ^ f.width → y < 2 ^ f.width → z < 2 ^ f.width →
    let neg := fun (x : Nat) => (x + f.sign) % 2 ^ f.width
    let at0 := f.zero (decide (mode = .rm))
    (f.decode x = .fin n1 m1 e1 → m1 ≠ 0 → f.add mode x (neg x) = (at0, 0) ∧ f.sub mode x x = (at0, 0))
    ∧ f.add mode (f.zero n) (f.zero k) = (if n = k then f.zero n else at0, 0)
    ∧ f.sub mode (f.zero n) (f.zero k) = (if n = !k then f.zero n else at0, 0)
    ∧ (f.decode y = .fin n2 m2 e2 →
      f.mul mode (f.zero n) y = (f.zero (n != n2), 0) ∧ f.mul mode y (f.zero n) = (f.zero (n2 != n), 0)
      ∧ f.div y (f.infinity k) = (f.zero (n2 != k), 0)
      ∧ (m2 ≠ 0 → f.div (f.zero n) y = (f.zero (n != n2), 0)))
    ∧ (f.decode x = .fin n1 m1 e1 → f.decode y = .fin n2 m2 e2 → f.decode z = .fin n3 m3 e3 →
      let e0 := min (e1 + e2) e3
      (m3 ≠ 0 → n3 ≠ (n1 != n2) → m1 * m2 * 2 ^ (e1 + e2 - e0).toNat = m3 * 2 ^ (e3 - e0).toNat → f.fma mode x y z = (at0, 0))
      ∧ (m1 * m2 = 0 → m3 = 0 → f.fma mode x y z = (if (n1 != n2) = n3 then f.zero n3 else at0, 0)))

/-- 03 R85 to R88: in F32, F16 and BF16, under every rounding mode, delivering the value of a pattern that is no NaN gives the
pattern back and raises no flag; addition and multiplication do not depend on the order of their operands, flags included. -/
def Obligations.FloatLaws : Prop :=
  ∀ (f : FFmt), f = F32 ∨ f = F16 ∨ f = BF16 → ∀ (mode : RMode) (x y : Nat), x < 2 ^ f.width → y < 2 ^ f.width →
    ((f.decode x).isNan = false → f.deliver mode (f.decode x) = (x, 0))
    ∧ f.add mode x y = f.add mode y x ∧ f.mul mode x y = f.mul mode y x

/-- 04 R121: ICMP writes its condition to a predicate, in the active lanes; no flag is set and nothing else changes. -/
def Sys2Proof.Claims.CompareResults : Prop :=
  ∀ (a b : BitVec 7) (c : BitVec 3) (t : BitVec 2) (q : BitVec 5),
    RegOp (.icmp c b a t q) (fun _ g p => g.regs.pred p.act q.toNat (maskOf fun l =>
        if t = 0 then intCond c.toNat (decide ((g.src a.toNat l).toInt < (g.src b.toNat l).toInt))
          (g.src a.toNat l == g.src b.toNat l) ((g.src a.toNat l &&& g.src b.toNat l) != 0)
        else if t = 1 then intCond c.toNat (decide ((g.src a.toNat l).toNat < (g.src b.toNat l).toNat))
          (g.src a.toNat l == g.src b.toNat l) ((g.src a.toNat l &&& g.src b.toNat l) != 0)
        else
          let x : DWord := BitVec.ofNat 64 (g.src64 a.toNat l)
          let y : DWord := BitVec.ofNat 64 (g.src64 b.toNat l)
          intCond c.toNat (if t = 2 then decide (x.toInt < y.toInt) else decide (x.toNat < y.toNat)) (x == y)
            ((x &&& y) != 0)))

/-- 04 R122, R131, R132: CVT clamps an integer to the range of its type and sets SAT when it had to; FCVT converts to or from
a float type under its rounding mode; a 64-bit result takes a pair of registers, any other one register and the latch; FCMP
writes its condition to a predicate. -/
def Sys2Proof.Claims.ConversionResults : Prop :=
  ∀ (a b d : BitVec 7) (w : BitVec 1) (t y : BitVec 4) (r : BitVec 2) (c : BitVec 3) (f : BitVec 2) (q : BitVec 5),
    (tyRegs t.toNat ≠ 2 →
      FloatOp (.cvt t y a w d) w d.toNat (fun g l =>
        let v := intValue y.toNat (typedSrc g y.toNat a.toNat l)
        (wrap 32 (max (intMin t.toNat) (min (intMax t.toNat) v)),
          if v < intMin t.toNat ∨ intMax t.toNat < v then fSat else 0))
      ∧ FloatOp (.fcvt t y r a w d) w d.toNat (fun g l =>
          floatConvert t.toNat y.toNat (.ofCode r.toNat) (typedSrc g y.toNat a.toNat l)))
    ∧ (tyRegs t.toNat = 2 →
      RegOp (.cvt t y a w d) (fun _ g p =>
        let v := fun l => intValue y.toNat (typedSrc g y.toNat a.toNat l)
        (g.regs.span p.act d.toNat fun l => words64 (wrap 64 (max (intMin t.toNat) (min (intMax t.toNat) (v l))))).flag
          (laneFlags p.act fun l => if v l < intMin t.toNat ∨ intMax t.toNat < v l then fSat else 0))
      ∧ RegOp (.fcvt t y r a w d) (fun _ g p =>
          let v := fun l => floatConvert t.toNat y.toNat (.ofCode r.toNat) (typedSrc g y.toNat a.toNat l)
          (g.regs.span p.act d.toNat fun l => words64 (v l).1).flag (laneFlags p.act fun l => (v l).2)))
    ∧ RegOp (.fcmp c b a f q) (fun _ g p =>
        let m := floatFmt (8 + f.toNat)
        let x := fun r l => m.decode ((g.src r l).toNat % 2 ^ m.width)
        (g.regs.pred p.act q.toNat (maskOf fun l => (floatCond c.toNat (x a.toNat l) (x b.toNat l)).1)).flag
          (laneFlags p.act fun l => (floatCond c.toNat (x a.toNat l) (x b.toNat l)).2))

/-- ICMP, FCMP, CVT and FCVT: results, flags and frame. -/
def Obligations.ConversionAndCompareResults : Prop := Claims.CompareResults ∧ Claims.ConversionResults

/-- 04 R135, R136: where every active lane's format word is valid, QCVT, QPACK and QUNPK convert under it; where no active
lane's byte is illegal or TERNTRAP is 0, TUNPK unpacks five trits, an illegal byte to 0 with INVALID. -/
def Sys2Proof.Claims.NarrowConversions : Prop :=
  ∀ (f a d : BitVec 7),
    RegOpIf (.qcvtQ f a d) (FormatsValid f.toNat) (fun _ g p =>
      let v := fun l => (laneFmt g f.toNat l).encode .rn (g.src a.toNat l).toNat
      (g.regs.lanes p.act d.toNat fun l => BitVec.ofNat 32 (v l).1).flag (laneFlags p.act fun l => (v l).2))
    ∧ RegOpIf (.qcvtF32 f a d) (FormatsValid f.toNat) (fun _ g p => g.regs.lanes p.act d.toNat fun l =>
        let m := laneFmt g f.toNat l
        BitVec.ofNat 32 (m.toF32 ((g.src a.toNat l).toNat % 2 ^ m.width)))
    ∧ RegOpIf (.qpack f a d) (FormatsValid f.toNat) (fun _ g p =>
        let v := fun l i => (laneFmt g f.toNat l).encode .rn (g.src (a.toNat + i) l).toNat
        let c := fun l => (laneFmt g f.toNat l).container
        (g.regs.lanes p.act d.toNat fun l => BitVec.ofNat 32 ((v l 0).1 + (v l 1).1 * 2 ^ c l + (v l 2).1 * 2 ^ (2 * c l)
            + (v l 3).1 * 2 ^ (3 * c l))).flag
          (laneFlags p.act fun l => (v l 0).2 ||| (v l 1).2 ||| (v l 2).2 ||| (v l 3).2))
    ∧ RegOpIf (.qunpk f a d) (FormatsValid f.toNat) (fun _ g p => g.regs.span p.act d.toNat fun l =>
        let m := laneFmt g f.toNat l
        [0, 1, 2, 3].map fun i =>
          BitVec.ofNat 32 (m.toF32 (bits (g.src a.toNat l).toNat (m.container * i) m.container % 2 ^ m.width)))
    ∧ RegOpIf (.tunpk a d)
        (fun _ g p => g.gstat.getLsbD 22 = false ∨ ∀ l, lane p.act l = true → (g.src a.toNat l).toNat % 256 ≤ 242)
        (fun _ g p => (g.regs.lanes p.act d.toNat fun l =>
            let x := (g.src a.toNat l).toNat % 256
            if 242 < x then 0
            else ([0, 1, 2, 3, 4].map fun i => BitVec.ofNat 32 (wrap 4 ((x / 3 ^ i % 3 : Nat) - 1) * 2 ^ (4 * i))).foldr
              (fun u v => u ||| v) 0).flag
          (laneFlags p.act fun l => if 242 < (g.src a.toNat l).toNat % 256 then fInvalid else 0))

/-- 03 R90, 04 R135, R136; 10 Table 10-3: an active lane whose format word is invalid raises illegal-format from QCVT, QPACK
and QUNPK, and with TERNTRAP an active lane whose byte is illegal raises illegal-ternary from TUNPK, each naming exactly those
lanes; nothing is written first. -/
def Sys2Proof.Claims.FormatTraps : Prop :=
  ∀ (f a d : BitVec 7) (s : State) (g : Group) (p : Path) (latch : Option Nat) (chain : Option Chain), s.trapReady g = true →
    let bad : Word := maskOf fun l => lane p.act l && !validFormat (g.src f.toNat l)
    let ill : Word := maskOf fun l => lane p.act l && decide (242 < (g.src a.toNat l).toNat % 256)
    let traps := fun (i : Instr) (c : Nat) (m : Word) =>
      exec i s = .next (s.trapIssue s.cur.key s.cur.pslot { Trap.of c with lanes := m })
    (bad ≠ 0 →
      (Goes (.qcvtQ f a d) s g p latch chain → traps (.qcvtQ f a d) 0x10 bad)
      ∧ (Goes (.qcvtF32 f a d) s g p latch chain → traps (.qcvtF32 f a d) 0x10 bad)
      ∧ (Goes (.qpack f a d) s g p latch chain → traps (.qpack f a d) 0x10 bad)
      ∧ (Goes (.qunpk f a d) s g p latch chain → traps (.qunpk f a d) 0x10 bad))
    ∧ (ill ≠ 0 → g.gstat.getLsbD 22 = true → Goes (.tunpk a d) s g p latch chain → traps (.tunpk a d) 0x0F ill)

/-- QCVT, QPACK, QUNPK and TUNPK: results where formats are valid, traps where they are not. -/
def Obligations.NarrowResults : Prop := Claims.NarrowConversions ∧ Claims.FormatTraps

/-- 04 R137: a shuffle gives each active lane the value of its source lane where that is an active lane, else its own. -/
def Sys2Proof.Claims.ShuffleResults : Prop :=
  ∀ (a b d : BitVec 7),
    let pick := fun (g : Group) (p : Path) (l : Nat) (j : Int) =>
      if 0 ≤ j ∧ j < 32 ∧ lane p.act j.toNat = true then g.src a.toNat j.toNat else g.src a.toNat l
    let n := fun (g : Group) (l : Nat) => (g.src b.toNat l).toNat % 32
    RegOp (.shflIdx b a d) (fun _ g p => g.regs.lanes p.act d.toNat fun l => pick g p l (n g l : Int))
    ∧ RegOp (.shflUp b a d) (fun _ g p => g.regs.lanes p.act d.toNat fun l => pick g p l ((l : Int) - (n g l : Int)))
    ∧ RegOp (.shflDn b a d) (fun _ g p => g.regs.lanes p.act d.toNat fun l => pick g p l ((l : Int) + (n g l : Int)))
    ∧ RegOp (.shflXor b a d) (fun _ g p => g.regs.lanes p.act d.toNat fun l => pick g p l ((l ^^^ n g l : Nat) : Int))

/-- 04 R138: with a0, a1, … the values of the active lanes in ascending lane order and f(k) their left folds, REDL gives every active lane
the whole fold, SCANL.INC the k-th active lane f(k), SCANL.EXC f(k - 1), and the identity to the first. The flags of SCANL.EXC are those of
the folds it delivers (log 18), and a single value is its own fold (log 108): the model's choices. -/
def Sys2Proof.Claims.ReductionResults : Prop :=
  ∀ (o : BitVec 4) (a d : BitVec 7),
    RegOp (.redl o a d) (fun _ g p =>
      (g.regs.lanes p.act d.toNat fun _ => BitVec.ofNat 32 (leftFold o.toNat (column g p a.toNat)).1).flag
        (leftFold o.toNat (column g p a.toNat)).2)
    ∧ RegOp (.scanlInc o a d) (fun _ g p =>
        (g.regs.lanes p.act d.toNat fun l =>
            BitVec.ofNat 32 (leftFold o.toNat ((column g p a.toNat).take (rank p l + 1))).1).flag
          (leftFold o.toNat (column g p a.toNat)).2)
    ∧ RegOp (.scanlExc o a d) (fun _ g p =>
        (g.regs.lanes p.act d.toNat fun l => BitVec.ofNat 32
            (if rank p l = 0 then crossIdentity o.toNat
             else (leftFold o.toNat ((column g p a.toNat).take (rank p l))).1)).flag
          (leftFold o.toNat (column g p a.toNat).dropLast).2)

/-- SHFL, REDL and SCANL: results over the active lanes in ascending order. -/
def Obligations.CrossLaneResults : Prop := Claims.ShuffleResults ∧ Claims.ReductionResults

/-- 04 R114, R128, R139, Table 4-4: RDLANE, VOTE.BALLOT and ACTMASK write their scalar once when a lane is active and nothing
when none is; MATCH gives each active lane the mask of the active lanes that hold its value. -/
def Sys2Proof.Claims.TransferResults : Prop :=
  ∀ (k a d n : BitVec 7) (r : BitVec 8),
    RegOp (.rdlane k r a) (fun _ g p => match (lanesOf p.act).head? with
      | none => g.regs
      | some l => g.regs.scalar r.toNat (g.src a.toNat ((g.src k.toNat l).toNat % 32)))
    ∧ RegOp (.voteBallot r n) (fun _ g p => if p.act = 0 then g.regs else g.regs.scalar r.toNat (g.pred n.toNat &&& p.act))
    ∧ RegOp (.actmask r) (fun _ g p => if p.act = 0 then g.regs else g.regs.scalar r.toNat p.act)
    ∧ RegOp (.matchLanes a d) (fun _ g p => g.regs.lanes p.act d.toNat fun l =>
        maskOf fun j => lane p.act j && (g.src a.toNat j == g.src a.toNat l))

/-- 04 R139, R140: the predicate instructions and votes write their destination in the active lanes only. -/
def Sys2Proof.Claims.PredicateResults : Prop :=
  ∀ (x y : BitVec 1) (a b d : BitVec 5),
    RegOp (.pand y b x a d) (fun _ g p => g.regs.pred p.act d.toNat (psrc g x a &&& psrc g y b))
    ∧ RegOp (.por y b x a d) (fun _ g p => g.regs.pred p.act d.toNat (psrc g x a ||| psrc g y b))
    ∧ RegOp (.pxor y b x a d) (fun _ g p => g.regs.pred p.act d.toNat (psrc g x a ^^^ psrc g y b))
    ∧ RegOp (.pnot x a d) (fun _ g p => g.regs.pred p.act d.toNat (~~~(psrc g x a)))
    ∧ RegOp (.pmov x a d) (fun _ g p => g.regs.pred p.act d.toNat (psrc g x a))
    ∧ RegOp (.voteAll x a d) (fun _ g p => g.regs.pred p.act d.toNat
        (if (lanesOf p.act).all fun l => lane (psrc g x a) l then 0xFFFFFFFF else 0))
    ∧ RegOp (.voteAny x a d) (fun _ g p => g.regs.pred p.act d.toNat
        (if (lanesOf p.act).any fun l => lane (psrc g x a) l then 0xFFFFFFFF else 0))
    ∧ RegOp (.voteUni x a d) (fun _ g p => g.regs.pred p.act d.toNat
        (if ((lanesOf p.act).all fun l => lane (psrc g x a) l) || (lanesOf p.act).all fun l => !lane (psrc g x a) l
          then 0xFFFFFFFF else 0))

/-- Predicate instructions, votes, RDLANE, ACTMASK and MATCH: results and frame. -/
def Obligations.PredicateAndTransferResults : Prop := Claims.TransferResults ∧ Claims.PredicateResults

/-- 02 R64, 04 R114, R124, R125, Tables 2-9 and 4-3: a scalar instruction acts once on 32-bit values modulo 2^32, whatever
the mask; SLEA64 writes a pair; SCMP writes one result to a predicate in every active lane. -/
def Obligations.ScalarResults : Prop :=
  ∀ (a b d : BitVec 8) (k : BitVec 16) (t : BitVec 1) (c : BitVec 3) (q : BitVec 5),
    let v := fun (s : State) (g : Group) (r : BitVec 8) => s.sv s.cur.key g r.toNat
    RegOp (.sadd b a d) (fun s g _ => g.regs.scalar d.toNat (BitVec.ofNat 32 ((v s g a).toNat + (v s g b).toNat)))
    ∧ RegOp (.ssub b a d) (fun s g _ => g.regs.scalar d.toNat (BitVec.ofInt 32 ((v s g a).toNat - (v s g b).toNat)))
    ∧ RegOp (.smul b a d) (fun s g _ => g.regs.scalar d.toNat (BitVec.ofNat 32 ((v s g a).toNat * (v s g b).toNat)))
    ∧ RegOp (.smov a d) (fun s g _ => g.regs.scalar d.toNat (v s g a))
    ∧ RegOp (.sand b a d) (fun s g _ => g.regs.scalar d.toNat (v s g a &&& v s g b))
    ∧ RegOp (.sor b a d) (fun s g _ => g.regs.scalar d.toNat (v s g a ||| v s g b))
    ∧ RegOp (.sxor b a d) (fun s g _ => g.regs.scalar d.toNat (v s g a ^^^ v s g b))
    ∧ RegOp (.sshl b a d) (fun s g _ => g.regs.scalar d.toNat (BitVec.ofNat 32 ((v s g a).toNat * 2 ^ (v s g b).toNat)))
    ∧ RegOp (.sshr b a d) (fun s g _ => g.regs.scalar d.toNat (BitVec.ofNat 32 ((v s g a).toNat / 2 ^ (v s g b).toNat)))
    ∧ RegOp (.slea64 b a d) (fun s g _ =>
        let x : DWord := BitVec.ofNat 64 (g.sr64 a.toNat) + (v s g b).signExtend 64
        (g.regs.scalar d.toNat (x.extractLsb' 0 32)).scalar (d.toNat + 1) (x.extractLsb' 32 32))
    ∧ RegOp (.smovi k d) (fun _ g _ => g.regs.scalar d.toNat (BitVec.ofInt 32 k.toInt))
    ∧ RegOp (.smoviH k d) (fun _ g _ => g.regs.scalar d.toNat
        (BitVec.ofNat 32 (k.toNat * 2 ^ 16 + (g.sr d.toNat).toNat % 2 ^ 16)))
    ∧ RegOp (.scmp t b a c q) (fun s g p => g.regs.pred p.act q.toNat
        (if intCond c.toNat (if t = 0 then decide ((v s g a).toInt < (v s g b).toInt)
            else decide ((v s g a).toNat < (v s g b).toNat)) (v s g a == v s g b) ((v s g a &&& v s g b) != 0)
          then 0xFFFFFFFF else 0))

/-- 06 R213, R214, Table 6-8: the statistics instructions write a triple to a view, or drain a view into one register, in each
active lane; STXL gives every active lane the left fold of the active lanes' triples. -/
def Obligations.StatisticsResults : Prop :=
  ∀ (a b d : BitVec 7) (e : BitVec 8) (z : BitVec 4),
    let views := fun (g : Group) (p : Path) (f : Nat → Triple × Word) =>
      (g.regs.span p.act d.toNat fun l => tripleWords (f l).1).flag (laneFlags p.act fun l => (f l).2)
    let drain := fun (o : Drain) (eps : State → Group → Nat) (src : Nat) => fun (s : State) (g : Group) (p : Path) =>
      let f := fun l => (g.view src l).drain o (eps s g) (g.src d.toNat l).toNat
      (g.regs.lanes p.act d.toNat fun l => BitVec.ofNat 32 (f l).1).flag (laneFlags p.act fun l => (f l).2)
    RegOp (.stinit a d) (fun _ g p => views g p fun l => Triple.empty.acc (g.src a.toNat l).toNat 0x3F800000)
    ∧ RegOp (.stacc a d) (fun _ g p => views g p fun l => (g.view d.toNat l).acc (g.src a.toNat l).toNat 0x3F800000)
    ∧ RegOp (.stwacc b a d) (fun _ g p => views g p fun l =>
        (g.view d.toNat l).acc (g.src a.toNat l).toNat (g.src b.toNat l).toNat)
    ∧ RegOp (.stmerge b a d) (fun _ g p => views g p fun l => (g.view a.toNat l).merge (g.view b.toNat l))
    ∧ RegOp (.stxl a d) (fun _ g p => views g p fun _ => Triple.fold ((lanesOf p.act).map fun l => g.view a.toNat l))
    ∧ RegOp (.stdrainMean a d) (drain .mean (fun _ _ => 0) a.toNat)
    ∧ RegOp (.stdrainPvar a d) (drain .pvar (fun _ _ => 0) a.toNat)
    ∧ RegOp (.stdrainSvar a d) (drain .svar (fun _ _ => 0) a.toNat)
    ∧ RegOp (.stdrainRdev e z d) (drain .rdev (fun s g => (s.sv s.cur.key g e.toNat).toNat) (2 * z.toNat))
    ∧ RegOp (.stdrainNorm e z d) (drain .norm (fun s g => (s.sv s.cur.key g e.toNat).toNat) (2 * z.toNat))

/-- 01 R30 to R38, 04 R142, R143: JMP, CALL, RET and BRX move the path to their target when it is an instruction address;
CALL writes its return address to a scalar pair and raises DEPTH, RET lowers it; NOP and YIELD go on; nothing else changes. -/
def Sys2Proof.Claims.JumpResults : Prop :=
  ∀ (o : BitVec 18) (l : BitVec 5) (a : BitVec 8) s g p latch chain,
    let t : Int := (p.pc.toNat : Int) + 2 * o.toInt
    let x := g.sr64 a.toNat
    (Goes (.jmp o) s g p latch chain → 0 ≤ t → t < 2 ^ 56 →
      CompletesAt (.jmp o) s s g p chain g.regs (BitVec.ofInt 64 t))
    ∧ (Goes (.call o l) s g p latch chain → p.depth ≠ 255 → 0 ≤ t → t < 2 ^ 56 →
      CompletesAt (.call o l) s s g { p with depth := p.depth + 1 } chain
        ((g.regs.scalar (2 * l.toNat) ((p.pc + 4).extractLsb' 0 32)).scalar (2 * l.toNat + 1) ((p.pc + 4).extractLsb' 32 32))
        (BitVec.ofInt 64 t))
    ∧ (Goes (.ret a) s g p latch chain → p.depth ≠ 0 → x % 2 = 0 → x < 2 ^ 56 →
      CompletesAt (.ret a) s s g { p with depth := p.depth - 1 } chain g.regs (BitVec.ofNat 64 x))
    ∧ (Goes (.brx a) s g p latch chain → x % 2 = 0 → x < 2 ^ 56 →
      CompletesAt (.brx a) s s g p chain g.regs (BitVec.ofNat 64 x))
    ∧ (Goes .nop s g p latch chain → Completes .nop s g p chain 0 g.regs)
    ∧ (Goes .yield s g p latch chain → Completes .yield s g p chain 0 g.regs)

/-- 01 R35, 04 R141: BRA goes on at the next instruction when no active lane takes it, moves the path to its target when
every active lane does, and where the other slot is empty divides the path: the lanes taken go to the target in the other
slot, the rest go on. -/
def Sys2Proof.Claims.BranchResults : Prop :=
  ∀ (o : BitVec 18) (q : BitVec 5) (n u : BitVec 1) s g p latch chain,
    Goes (.bra o q n u) s g p latch chain →
    let t : Int := (p.pc.toNat : Int) + 2 * o.toInt
    let taken := p.act &&& psrc g n q
    let rest := p.act &&& ~~~psrc g n q
    0 ≤ t → t < 2 ^ 56 →
    (taken = 0 → Completes (.bra o q n u) s g p chain 0 g.regs)
    ∧ (taken ≠ 0 → rest = 0 → CompletesAt (.bra o q n u) s s g p chain g.regs (BitVec.ofInt 64 t))
    ∧ (taken ≠ 0 → rest ≠ 0 → u = 0 → g.path s.cur.pslot.other = none →
      ∃ h, exec (.bra o q n u) s = .next (s.setGroup s.cur.key h) ∧ h.regs = g.regs ∧ SameGroup g h
        ∧ ∃ h0 : Group, h = s.atBoundary h0 ∧ h0.dsp = g.dsp
          ∧ h0.path s.cur.pslot = some ({ p with mask := rest }.advance (p.pc + 4))
          ∧ h0.path s.cur.pslot.other
            = some { p with mask := taken, pc := BitVec.ofInt 64 t, replay := none, wait := .ready })

/-- JMP, CALL, RET, BRX, BRA, NOP and YIELD move the path where the spec says. -/
def Obligations.JumpAndBranchResults : Prop := Claims.JumpResults ∧ Claims.BranchResults

/-- 01 R33 to R35, R38; 02 R68; 04 R141 to R143: a BRA that divides a path while the other slot is in use, and a JOINPT, push
onto the divergence stack in memory and go on, JOINPT with the other slot's path before its own record, which leaves that slot empty; it
waits while that path is held; EXIT's lanes join EX, their path is gone, and what the team's barriers and the
group's end then do follows; GRD covers the next CNT + 1 instructions with its lanes. -/
def Sys2Proof.Claims.DivergingInstructions : Prop :=
  ∀ (o : BitVec 18) (q : BitVec 5) (n u : BitVec 1) (c : BitVec 2) s g p latch chain,
    let t : Int := (p.pc.toNat : Int) + 2 * o.toInt
    let taken := p.act &&& psrc g n q
    let rest := p.act &&& ~~~psrc g n q
    let here : StackEntry := ⟨p.mask, true, p.depth, 0, BitVec.ofInt 64 t, p.jp, 0⟩
    (Goes (.bra o q n u) s g p latch chain → 0 ≤ t → t < 2 ^ 56 → taken ≠ 0 → rest ≠ 0 → u = 0 →
      (g.path s.cur.pslot.other).isSome → g.dsp + 1 ≤ g.divstack →
      ∀ m, s.pushEntries (s.cur.key / 128) g g.dsp [⟨taken, false, p.depth, p.gk, BitVec.ofInt 64 t, p.jp,
          if p.gk = 0 then 0 else p.gg⟩] = .ok m →
        CompletesAt (.bra o q n u) s m { g with dsp := g.dsp + 1 } { p with mask := rest } chain g.regs (p.pc + 4))
    ∧ (Goes (.joinpt o) s g p latch chain → 0 ≤ t → t < 2 ^ 56 → g.path s.cur.pslot.other = none → g.dsp + 1 ≤ g.divstack →
      ∀ m, s.pushEntries (s.cur.key / 128) g g.dsp [here] = .ok m →
        CompletesAt (.joinpt o) s m { g with dsp := g.dsp + 1 } { p with jp := some (BitVec.ofInt 64 t) } chain g.regs
          (p.pc + 4))
    ∧ (Goes (.joinpt o) s g p latch chain → 0 ≤ t → t < 2 ^ 56 → ∀ y : Path, g.path s.cur.pslot.other = some y →
      (y.isHeld = true → exec (.joinpt o) s = .next (s.setGroup s.cur.key (g.setWait s.cur.pslot .operand)))
      ∧ (y.isHeld = false → g.dsp + 2 ≤ g.divstack →
        ∀ m, s.pushEntries (s.cur.key / 128) g g.dsp
            [⟨y.mask, false, y.depth, y.gk, y.pc, y.jp, if y.gk = 0 then 0 else y.gg⟩, here] = .ok m →
          CompletesAt (.joinpt o) s m { g.setPath s.cur.pslot.other none with dsp := g.dsp + 2 }
            { p with jp := some (BitVec.ofInt 64 t) } chain g.regs (p.pc + 4)))
    ∧ (Goes .exit s g p latch chain → ∃ h, h.regs = g.regs ∧ h.ex = g.ex ||| p.mask
      ∧ (∃ h0 : Group, h = s.settle h0 ∧ h0.path s.cur.pslot = none
        ∧ h0.path s.cur.pslot.other = g.path s.cur.pslot.other ∧ h0.dsp = g.dsp)
      ∧ exec .exit s = .next (((s.setGroup s.cur.key h).checkBarriers g.team).groupEnd s.cur.key))
    ∧ (Goes (.grd c n q) s g p latch chain →
      ∃ h, exec (.grd c n q) s = .next (s.setGroup s.cur.key h) ∧ h.regs = g.regs ∧ SameGroup g h
        ∧ ∃ h0 : Group, h = s.atBoundary h0 ∧ h0.path s.cur.pslot.other = g.path s.cur.pslot.other
          ∧ h0.path s.cur.pslot = some { p with
              pc := p.pc + 4, gk := c.toNat + 1, gg := psrc g n q &&& p.act, replay := none, wait := .ready })

/-- 04 R141 to R144; 01 R30, R33, R34; 10 R309, Table 10-3: the traps of the control instructions, each before any effect: BRA.U
of lanes that disagree raises uniformity with the taken set; a target outside the space raises instruction-address, an odd one of RET
or BRX too, FAULTVA the target (BRA whether or not a lane takes it, log 19); CALL at depth 255 raises call-depth, RET at depth 0
illegal-return; BRA and JOINPT with more to push than the stack has room for raise divergence-stack-overflow. While what the group has
issued is still to complete the path waits and the trap with it. -/
def Sys2Proof.Claims.ControlTraps : Prop :=
  ∀ (o : BitVec 18) (l : BitVec 5) (a : BitVec 8) (q : BitVec 5) (n u : BitVec 1) s g p latch chain,
    let t : Int := (p.pc.toNat : Int) + 2 * o.toInt
    let x := g.sr64 a.toNat
    let outside := t < 0 ∨ 2 ^ 56 ≤ t
    let noAddr := x % 2 = 1 ∨ 2 ^ 56 ≤ x
    let taken := p.act &&& psrc g n q
    let rest := p.act &&& ~~~psrc g n q
    let away : Trap := { Trap.of 0x0D with va := (BitVec.ofInt 64 t).toNat }
    let traps := fun (i : Instr) (tr : Trap) => Goes i s g p latch chain →
      (s.trapReady g = true → exec i s = .next (s.trapIssue s.cur.key s.cur.pslot tr))
      ∧ (s.trapReady g = false → exec i s = .next (s.setGroup s.cur.key (g.stopAt s.cur.pslot .operand)))
    (outside → traps (.jmp o) away)
    ∧ (p.depth = 255 → traps (.call o l) (Trap.of 0x0B))
    ∧ (p.depth ≠ 255 → outside → traps (.call o l) away)
    ∧ (p.depth = 0 → traps (.ret a) (Trap.of 0x0C))
    ∧ (p.depth ≠ 0 → noAddr → traps (.ret a) { Trap.of 0x0D with va := x })
    ∧ (noAddr → traps (.brx a) { Trap.of 0x0D with va := x })
    ∧ (u = 1 → taken ≠ 0 → rest ≠ 0 → traps (.bra o q n u) { Trap.of 0x0A with info := taken })
    ∧ (u = 0 ∨ taken = 0 ∨ rest = 0 → outside → traps (.bra o q n u) away)
    ∧ (¬ outside → u = 0 → taken ≠ 0 → rest ≠ 0 → (g.path s.cur.pslot.other).isSome = true → g.divstack < g.dsp + 1 →
      traps (.bra o q n u) (Trap.of 0x0E))
    ∧ (outside → traps (.joinpt o) away)
    ∧ (¬ outside → g.path s.cur.pslot.other = none → g.divstack < g.dsp + 1 → traps (.joinpt o) (Trap.of 0x0E))
    ∧ (¬ outside → ∀ y : Path, g.path s.cur.pslot.other = some y → y.isHeld = false → g.divstack < g.dsp + 2 →
      traps (.joinpt o) (Trap.of 0x0E))

/-- A branch that divides, JOINPT, EXIT and GRD, and the traps of control instructions. -/
def Obligations.DivergenceResults : Prop := Claims.DivergingInstructions ∧ Claims.ControlTraps

/-- 05 R147 to R151, R154, R160, R165 to R167, R170, R177, Table 5-1; 06 R215; 10 R307: a global memory instruction with an
active lane and aligned addresses enters Translation with one address for each active lane, formed as its address form says;
a store or atomic needs a free store-queue entry; one that publishes clears the team's restartable flag. -/
def Obligations.GlobalAccessesEnterTranslation : Prop :=
  ∀ (x b d : BitVec 7) (k e : BitVec 1) (z o sc : BitVec 3) (od : BitVec 2) (q : BitVec 4) s g p latch chain,
    p.act ≠ 0 →
    let base := fun l => if k = 1 then g.src64 (2 * b.toNat) l else g.sr64 (2 * b.toNat)
    let reg : List (Nat × Nat) := (lanesOf p.act).map fun l => (l, (base l + (g.src x.toNat l).toNat) % 2 ^ 64)
    let imm := fun (n : Nat) => (lanesOf p.act).map fun l =>
      (l, (BitVec.ofInt 64 ((base l : Int) + x.toInt * (n : Int))).toNat)
    let bare : List (Nat × Nat) := (lanesOf p.act).map fun l => (l, base l)
    let sbase : List (Nat × Nat) := (lanesOf p.act).map fun l => (l, (g.sr64 (2 * b.toNat) + (g.src x.toNat l).toNat) % 2 ^ 64)
    let vbase : List (Nat × Nat) := (lanesOf p.act).map fun l => (l, g.src64 (2 * b.toNat) l)
    let aligned := fun (n : Nat) (ls : List (Nat × Nat)) => ∀ y ∈ ls, y.2 % n = 0
    let n := szBytes z.toNat
    let pub := s.clearRestart g.team
    let loads := fun (i : Instr) (n : Nat) (ls : List (Nat × Nat)) (op : MemOp) =>
      Goes i s g p latch chain → aligned n ls → Pends i s s g p chain ls op
    let stores := fun (i : Instr) (n : Nat) (ls : List (Nat × Nat)) (op : MemOp) =>
      Goes i s g p latch chain → aligned n ls → g.queue.length < 16 → Pends i s pub g p chain ls op
    loads (.ldReg x b k z d) n reg (.load z.toNat d.toNat)
    ∧ loads (.ldImm x b k z d) n (imm n) (.load z.toNat d.toNat)
    ∧ loads (.ldStrong o sc b k z d) n bare (.loadStrong z.toNat d.toNat o.toNat sc.toNat)
    ∧ stores (.stReg x b k z d) n reg (.store z.toNat d.toNat)
    ∧ stores (.stImm x b k z d) n (imm n) (.store z.toNat d.toNat)
    ∧ stores (.stStrong o sc b k z d) n bare (.storeStrong z.toNat d.toNat o.toNat sc.toNat)
    ∧ stores (.atom e od sc b k q d) (if e = 1 then 8 else 4) bare
        (.atom q.toNat (decide (e = 1)) d.toNat od.toNat sc.toNat)
    ∧ (Goes (.updScalarBase x b q d) s g p latch chain → aligned (UOp.ofCode q.toNat).size sbase →
        Pends (.updScalarBase x b q d) s pub g p chain sbase (.upd q.toNat d.toNat))
    ∧ (Goes (.updVectorBase b q d) s g p latch chain → aligned (UOp.ofCode q.toNat).size vbase →
        Pends (.updVectorBase b q d) s pub g p chain vbase (.upd q.toNat d.toNat))
    ∧ loads (.collapse b k) 1 bare .collapse
    ∧ loads (.cctlClean sc b k) 1 bare (.cctl 3 sc.toNat)
    ∧ loads (.cctlInv sc b k) 1 bare (.cctl 4 sc.toNat)
    ∧ loads (.cctlClinv sc b k) 1 bare (.cctl 5 sc.toNat)
    ∧ loads (.stld x b k d) 16 (if k = 1 then bare else reg) (.stld d.toNat)
    ∧ stores (.stst x b k d) 16 (if k = 1 then bare else reg) (.stst d.toNat)

/-- 04 R126; 05 R172, R178; 06 R219; 07 R233; 10 R307: an instruction with one address for the group enters Translation with
that address when it is aligned, whatever lanes are active: SLD, WAITA, LAUNCH, TCOPY, and SUBSCR, whose slot line must be
an aligned line of the segment. A LAUNCH held with its packet read queues it once the device queue has room, and answers QUEUEFULL
when intake has stopped (log 43). -/
def Sys2Proof.Claims.GroupAccessesEnterTranslation : Prop :=
  ∀ (o : BitVec 9) (a b d : BitVec 8) (v y : BitVec 7) (z : BitVec 2) (m : BitVec 1) s g p latch chain,
    let sldAt := (BitVec.ofInt 64 ((g.sr64 a.toNat : Int) + o.toInt * 4)).toNat
    let line := (g.sr a.toNat).toNat
    let block := g.sr64 (2 * v.toNat)
    let x := s.context g.ctx
    (Goes (.sld o a d) s g p latch chain → sldAt % 4 = 0 → Pends (.sld o a d) s s g p chain [(0, sldAt)] (.sld d.toNat))
    ∧ (Goes (.waita b a d) s g p latch chain → g.sr64 a.toNat % 4 = 0 →
        Pends (.waita b a d) s s g p chain [(0, g.sr64 a.toNat)] (.waita d.toNat (s.sv s.cur.key g b.toNat) (g.sr d.toNat)))
    ∧ (Goes (.launch a d) s g p latch chain → (∀ k, p.wait ≠ .held (.launch k)) → g.sr64 a.toNat % 128 = 0 →
        Pends (.launch a d) s s g p chain [(0, g.sr64 a.toNat)] (.launch d.toNat))
    ∧ (Goes (.launch a d) s g p latch chain → ∀ k, p.wait = .held (.launch k) →
        (x.devq.length < 64 → CompletesAt (.launch a d) s
          (s.setContext g.ctx { x with devq := x.devq ++ [⟨k, g.uid, d.toNat, s.now⟩] })
          { g with answers := g.answers ++ [d.toNat] } p chain g.regs (p.pc + 4))
        ∧ (64 ≤ x.devq.length → s.intakeOpen g.ctx = false →
          CompletesAt (.launch a d) s s g p chain (g.regs.scalar d.toNat 1) (p.pc + 4))
        ∧ (64 ≤ x.devq.length → s.intakeOpen g.ctx = true →
          exec (.launch a d) s = .next (s.setGroup s.cur.key (g.setWait s.cur.pslot (.held (.launch k))))))
    ∧ (Goes (.tcopyIn d a b) s g p latch chain → g.sr64 a.toNat % 128 = 0 →
        Pends (.tcopyIn d a b) s s g p chain [(0, g.sr64 a.toNat)] (.tcopy false b.toNat d.toNat))
    ∧ (Goes (.tcopyOut d a b) s g p latch chain → g.sr64 a.toNat % 128 = 0 →
        Pends (.tcopyOut d a b) s (s.clearRestart g.team) g p chain [(0, g.sr64 a.toNat)] (.tcopy true b.toNat d.toNat))
    ∧ (Goes (.subscr a v z m y) s g p latch chain →
        ∀ w, s.team g.team = some w → SMap.has w.segs g.seg = true → line < w.scratch → line % 128 = 0 →
          block % (8 * 2 ^ z.toNat) = 0 →
          Pends (.subscr a v z m y) s (s.clearRestart g.team) g p chain [(0, block)]
            (.subscr y.toNat (line / 128) (8 * 2 ^ z.toNat) (decide (m = 1))))

/-- 05 R147, R148, R149, R151, R154, R160, R165, R166, R170, R177; 06 R215; 10 Table 10-3: with no lane active a lane access has no
effect but to complete; with a misaligned lane it raises misaligned-address naming every misaligned lane, and nothing is stored or
pending; COLLAPSE and CCTL take any address. -/
def Sys2Proof.Claims.LaneAccessCorners : Prop :=
  ∀ (x b d : BitVec 7) (k e : BitVec 1) (z o sc : BitVec 3) (od : BitVec 2) (q : BitVec 4) s g p latch chain,
    let base := fun (l : Nat) => if k = 1 then g.src64 (2 * b.toNat) l else (g.sr64 (2 * b.toNat) : Nat)
    let reg := fun l => (base l + (g.src x.toNat l).toNat) % 2 ^ 64
    let n := szBytes z.toNat
    let imm := fun (l : Nat) => (BitVec.ofInt 64 ((base l : Int) + x.toInt * (n : Int))).toNat
    let sbase := fun l => (g.sr64 (2 * b.toNat) + (g.src x.toNat l).toNat) % 2 ^ 64
    let slot := if k = 1 then base else reg
    let u := (UOp.ofCode q.toNat).size
    let corners := fun (i : Instr) (n : Nat) (at_ : Nat → Nat) => Goes i s g p latch chain →
      let bad := maskOf fun l => lane p.act l && decide (at_ l % n ≠ 0)
      (p.act = 0 → Completes i s g p chain 0 g.regs)
      ∧ (bad ≠ 0 → s.trapReady g = true →
        exec i s = .next (s.trapIssue s.cur.key s.cur.pslot { Trap.of 0x07 with lanes := bad }))
    corners (.ldReg x b k z d) n reg ∧ corners (.ldImm x b k z d) n imm ∧ corners (.ldStrong o sc b k z d) n base
    ∧ corners (.stReg x b k z d) n reg ∧ corners (.stImm x b k z d) n imm ∧ corners (.stStrong o sc b k z d) n base
    ∧ corners (.atom e od sc b k q d) (if e = 1 then 8 else 4) base
    ∧ corners (.updScalarBase x b q d) u sbase ∧ corners (.updVectorBase b q d) u (fun l => g.src64 (2 * b.toNat) l)
    ∧ corners (.stld x b k d) 16 slot ∧ corners (.stst x b k d) 16 slot
    ∧ corners (.collapse b k) 1 base ∧ corners (.cctlClean sc b k) 1 base ∧ corners (.cctlInv sc b k) 1 base
    ∧ corners (.cctlClinv sc b k) 1 base

/-- 04 R126; 05 R149, R172, R178; 06 R219; 07 R233; 10 Table 10-3: an instruction with one address for the group raises
misaligned-address when that is misaligned, and nothing is pending; SUBSCR raises resource-overrun first when its slot line lies beyond
the declared scratchpad, and misaligned-address when the line or the block is misaligned. -/
def Sys2Proof.Claims.GroupAccessTraps : Prop :=
  ∀ (o : BitVec 9) (a b d : BitVec 8) (v y : BitVec 7) (z : BitVec 2) (m : BitVec 1) s g p latch chain, s.trapReady g = true →
    let sldAt := (BitVec.ofInt 64 ((g.sr64 a.toNat : Int) + o.toInt * 4)).toNat
    let line := (g.sr a.toNat).toNat
    let traps := fun (i : Instr) (c : Nat) =>
      Goes i s g p latch chain → exec i s = .next (s.trapIssue s.cur.key s.cur.pslot (Trap.of c))
    (sldAt % 4 ≠ 0 → traps (.sld o a d) 0x07)
    ∧ (g.sr64 a.toNat % 4 ≠ 0 → traps (.waita b a d) 0x07)
    ∧ (g.sr64 a.toNat % 128 ≠ 0 → (∀ k, p.wait ≠ .held (.launch k)) → traps (.launch a d) 0x07)
    ∧ (g.sr64 a.toNat % 128 ≠ 0 →
      let at_ : Trap := { Trap.of 0x07 with va := g.sr64 a.toNat }
      (Goes (.tcopyIn d a b) s g p latch chain → exec (.tcopyIn d a b) s = .next (s.trapIssue s.cur.key s.cur.pslot at_))
      ∧ (Goes (.tcopyOut d a b) s g p latch chain → exec (.tcopyOut d a b) s = .next (s.trapIssue s.cur.key s.cur.pslot at_)))
    ∧ (∀ w, s.team g.team = some w → SMap.has w.segs g.seg = true →
      (w.scratch ≤ line → traps (.subscr a v z m y) 0x05)
      ∧ (line < w.scratch → line % 128 ≠ 0 ∨ g.sr64 (2 * v.toNat) % (8 * 2 ^ z.toNat) ≠ 0 → traps (.subscr a v z m y) 0x07))

/-- One-address instructions enter Translation; empty masks complete; misaligned lanes trap. -/
def Obligations.AccessCorners : Prop := Claims.GroupAccessesEnterTranslation ∧ Claims.LaneAccessCorners ∧ Claims.GroupAccessTraps

/-- 05 R174 to R176; 06 R195; 08 R254: a prefetch completes at once with no effect on registers, having brought the line of each active
lane's address, as `State.prefetch` into L1 and `State.prefetchHome` into its home slice do, and with no effect at all where no
address translates; a FENCE completes when what it orders
has performed, and until then its path holds; one of .SC takes its core's clock one past what it holds and has received, once, when it
issues (08 R249; a fence has no sector whose time it takes, log 95); OPFENCE completes when no scratchpad access that the group issued before it waits for a full line, and
holds until then. -/
def Obligations.OrderingResults : Prop :=
  ∀ (b : BitVec 7) (k : BitVec 1) (o sc m : BitVec 3) s g p latch chain,
    let base := fun l => if k = 1 then g.src64 (2 * b.toNat) l else g.sr64 (2 * b.toNat)
    let n := s.cur.key / 128
    let mapped := fun va => ∃ t, s.translateBy (coreDie n) (s.asidOf g) va needNone = .ok t
    let kept := fun (one : State → Nat → State) => ((lanesOf p.act).map base).foldl one s
    (Goes (.prefL1 b k) s g p latch chain →
      CompletesAt (.prefL1 b k) s (kept fun st va => st.prefetch n (s.cacheOf n) (s.asidOf g) va) g p chain g.regs (p.pc + 4)
      ∧ ((∀ l, lane p.act l = true → ¬ mapped (base l)) → Completes (.prefL1 b k) s g p chain 0 g.regs))
    ∧ (Goes (.prefL2 b k) s g p latch chain →
      CompletesAt (.prefL2 b k) s (kept fun st va => st.prefetchHome n (s.asidOf g) va) g p chain g.regs (p.pc + 4)
      ∧ ((∀ l, lane p.act l = true → ¬ mapped (base l)) → Completes (.prefL2 b k) s g p chain 0 g.regs))
    ∧ (Goes (.fence o sc m) s g p latch chain →
      let holds := if m = 2 then true else if o = 1 then s.acquired g else s.released g
      let placed := if o = 4 ∧ p.isHeld = false
        then s.setCore n { s.core n with clock := max (s.core n).clock (s.core n).heard + 1 } else s
      (holds = true → CompletesAt (.fence o sc m) s placed g p chain g.regs (p.pc + 4))
      ∧ (holds = false → exec (.fence o sc m) s
          = .next (placed.setGroup s.cur.key (g.setWait s.cur.pslot (.held .fence)))))
    ∧ (Goes .opfence s g p latch chain →
      let since := match p.wait with
        | .held (.opfence t) => t
        | _ => s.now
      let waits := ∃ (y : Path) (k : Nat) (ls : List Nat) (start : Nat) (w t : Bool),
        (g.slotA = some y ∨ g.slotB = some y) ∧ y.wait = .emptyLine k ls start w t ∧ start ≤ since
      (¬ waits → Completes .opfence s g p chain 0 g.regs)
      ∧ (waits → exec .opfence s = .next (s.setGroup s.cur.key (g.setWait s.cur.pslot (.held (.opfence since))))))

/-- 05 R156 to R159, R184, Table 5-3: where every active lane's address is aligned and inside the declared scratchpad, no acquire
atomic of the group has still to perform (08 Table 8-3), and the other slot's path waits in no read of the segment that it issued first
(05 R158; 08 R252), unless only this slot can fill its lines (01 R50; log 137, the model's reading), LDS of full lines, and LDS.TAKE, no older one of which waits for them (05 R159), write what the segment holds, LDS.TAKE emptying the lines; STS writes its bytes in ascending lane
order; SPFILL fills lines once earlier accesses have performed; SPCLEAR empties them. Registers are written by loads only. -/
def Sys2Proof.Claims.ScratchpadAccesses : Prop :=
  ∀ (x i d : BitVec 7) (w : BitVec 1) (z : BitVec 3) s g p latch chain tm seg,
    let k := if w = 1 then x.toNat % 32 else g.seg
    let at_ := fun (n l : Nat) => (g.src i.toNat l).toNat + (if w = 1 then 0 else x.toNat * n)
    let n := szBytes z.toNat
    let ls := (lanesOf p.act).map fun l => (l, at_ n l)
    let lines := (lanesOf p.act).map fun l => (l, at_ 128 l)
    let full := ∀ l, lane p.act l = true → seg.isFull (at_ n l / 128) = true
    s.team g.team = some tm → SMap.find tm.segs k = some seg → p.act = 0 ∨ s.acquiring g = false ∧ (p.isHeld = true ∨ ¬ OtherReads s g k) →
    let older := fun start => s.olderTake g.team seg k (linesOf ls) start g.grpid
    (Goes (.lds x w i z d) s g p latch chain → (∀ e ∈ ls, e.2 + n ≤ tm.scratch ∧ e.2 % n = 0) → full →
      Completes (.lds x w i z d) s g p chain 0
        (g.regs.span p.act d.toNat fun l => loadWords z.toNat (seg.read (at_ n l) n)))
    ∧ (Goes (.ldsTake x w i z d) s g p latch chain → (∀ e ∈ ls, e.2 + n ≤ tm.scratch ∧ e.2 % n = 0) → full →
      (∀ start, older start = false) → CompletesAt (.ldsTake x w i z d) s (s.emptyLines g.team k (linesOf ls)) g p chain
        (g.regs.span p.act d.toNat fun l => loadWords z.toNat (seg.read (at_ n l) n)) (p.pc + 4))
    ∧ (Goes (.sts x w i z d) s g p latch chain → (∀ e ∈ ls, e.2 + n ≤ tm.scratch ∧ e.2 % n = 0) →
      CompletesAt (.sts x w i z d) s
        (s.setSegment g.team k (ls.foldl (fun m e => m.write e.2 (g.storeBytes z.toNat d.toNat e.1)) seg)) g p chain g.regs
        (p.pc + 4))
    ∧ (Goes (.spfill x w i) s g p latch chain → (∀ e ∈ lines, e.2 < tm.scratch) → p.act ≠ 0 → s.released g = true →
      CompletesAt (.spfill x w i) s (s.setSegment g.team k ((linesOf lines).foldl (fun m l => m.setFull l true) seg)) g p chain
        g.regs (p.pc + 4))
    ∧ (Goes (.spclear x w i) s g p latch chain → (∀ e ∈ lines, e.2 < tm.scratch) →
      CompletesAt (.spclear x w i) s (s.emptyLines g.team k (linesOf lines)) g p chain g.regs (p.pc + 4))

/-- 01 R39, R47, R48; 05 R149, R156, R157: a scratchpad instruction with an active lane beyond the declared scratchpad raises
resource-overrun naming those lanes, else with a misaligned one misaligned-address naming those. Else it waits before issue for an
acquire atomic of its group, and for a read of the segment that the other slot issued first (05 R158; 08 R252),
unless only this slot can fill its lines (01 R50; log 137, the model's reading). LDS.TAKE with an empty line waits in
Empty-line from the time it first did, as with an older LDS.TAKE that waits for its lines, and so does LDS when no active lane's line is full or slot B is in use; else LDS splits the group:
slot A goes on with the lanes that hit, whose registers are written, and slot B waits with the others, with the lanes a guard masks off
among them (log 97). -/
def Sys2Proof.Claims.ScratchpadStallsAndTraps : Prop :=
  ∀ (x i d : BitVec 7) (w : BitVec 1) (z : BitVec 3) s g p latch chain tm seg g0,
    let k := if w = 1 then x.toNat % 32 else g.seg
    let at_ := fun (n l : Nat) => (g.src i.toNat l).toNat + (if w = 1 then 0 else x.toNat * n)
    let n := szBytes z.toNat
    let ls := (lanesOf p.act).map fun l => (l, at_ n l)
    s.group s.cur.key = some g0 → s.team g.team = some tm → SMap.find tm.segs k = some seg →
    let bad := fun (m : Nat) => maskOf fun l => lane p.act l && decide (at_ m l % m ≠ 0)
    let beyond := fun (m size : Nat) => maskOf fun l => lane p.act l && decide (tm.scratch < at_ m l + size)
    let traps := fun (j : Instr) (c : Nat) (m : Word) => s.trapReady g = true → Goes j s g p latch chain →
      exec j s = .next (s.trapIssue s.cur.key s.cur.pslot { Trap.of c with lanes := m })
    let start := match p.wait with
      | .emptyLine _ _ t _ _ => t
      | _ => s.now
    let hit := maskOf fun l => lane p.act l && seg.isFull (at_ n l / 128)
    let miss := ls.filter fun e => !seg.isFull (e.2 / 128)
    let waits := fun (j : Instr) (take : Bool) =>
      exec j s = .next (s.setGroup s.cur.key (g0.setWait s.cur.pslot (.emptyLine k (linesOf ls) start false take)))
    let later := fun (j : Instr) => Goes j s g p latch chain →
      exec j s = .next (s.setGroup s.cur.key (g0.setWait s.cur.pslot p.blocked))
    let inOrder := s.acquiring g = false ∧ (p.isHeld = true ∨ ¬ OtherReads s g k)
    let alone := s.cur.pslot = .a ∧ p.isHeld = false ∧ g.slotB = none ∧ g.split = none
    (beyond n n ≠ 0 → traps (.lds x w i z d) 0x05 (beyond n n) ∧ traps (.ldsTake x w i z d) 0x05 (beyond n n)
      ∧ traps (.sts x w i z d) 0x05 (beyond n n))
    ∧ (beyond n n = 0 → bad n ≠ 0 → traps (.lds x w i z d) 0x07 (bad n) ∧ traps (.ldsTake x w i z d) 0x07 (bad n)
      ∧ traps (.sts x w i z d) 0x07 (bad n))
    ∧ (beyond 128 1 ≠ 0 → traps (.spfill x w i) 0x05 (beyond 128 1) ∧ traps (.spclear x w i) 0x05 (beyond 128 1))
    ∧ (p.act ≠ 0 → ¬ inOrder →
      (beyond n n = 0 → bad n = 0 → later (.lds x w i z d) ∧ later (.ldsTake x w i z d) ∧ later (.sts x w i z d))
      ∧ (beyond 128 1 = 0 → later (.spclear x w i)))
    ∧ (beyond n n = 0 → bad n = 0 → inOrder → Goes (.ldsTake x w i z d) s g p latch chain →
      hit ≠ p.act ∨ s.olderTake g.team seg k (linesOf ls) start g.grpid = true → waits (.ldsTake x w i z d) true)
    ∧ (beyond n n = 0 → bad n = 0 → inOrder → hit ≠ p.act →
      (Goes (.lds x w i z d) s g p latch chain →
        (hit = 0 ∨ ¬ alone → waits (.lds x w i z d) false)
        ∧ (hit ≠ 0 → alone → ∃ h : Group, exec (.lds x w i z d) s = .next (s.setGroup s.cur.key h)
          ∧ h.regs = (g.regs.span hit d.toNat fun l => loadWords z.toNat (seg.read (at_ n l) n)) ∧ SameGroup g h
          ∧ ∃ h0 : Group, h = s.atBoundary h0 ∧ h0.split = some 0
            ∧ h0.slotA = some ((p.onLanes hit).advance (p.pc + 4))
            ∧ h0.slotB = some { p.onLanes (~~~hit) with wait := .emptyLine k (linesOf miss) s.now false false })))

/-- 05 R157: a byte that STS writes reads back, every other byte of the segment and every full bit is as before, and setting
the full bit of one line changes that bit alone. -/
def Sys2Proof.Claims.ScratchpadFrames : Prop :=
  ∀ (seg : Segment) (a : Nat) (bs : List Byte) (l : Nat) (v : Bool),
    (∀ j, j < bs.length → (seg.write a bs).read (a + j) 1 = [bs.getD j 0])
    ∧ (∀ b, b < a ∨ a + bs.length ≤ b → (seg.write a bs).read b 1 = seg.read b 1)
    ∧ (∀ m, (seg.write a bs).isFull m = seg.isFull m)
    ∧ (∀ m, (seg.setFull l v).isFull m = if m = l then v else seg.isFull m)
    ∧ (∀ b, (seg.setFull l v).read b 1 = seg.read b 1)

/-- Scratchpad loads, stores, fills and clears: results, frame, stalls and traps. -/
def Obligations.ScratchpadResults : Prop := Claims.ScratchpadAccesses ∧ Claims.ScratchpadStallsAndTraps ∧ Claims.ScratchpadFrames

/-- 07 R226 to R229: BAR.ARV makes its lanes' arrival once the group's earlier accesses have performed, and is held until then;
BAR.WAIT goes on when its lanes' arrivals have all passed, and waits otherwise; BAR.SYNC arrives, once, and goes on or waits; a third
arrival of a lane is barrier-overrun. -/
def Sys2Proof.Claims.BarrierInstructions : Prop :=
  ∀ (n : BitVec 4) s g p latch chain tm,
    s.team g.team = some tm →
    let bar := tm.barrier n.toNat
    let after := (bar.arrive g.grpid p.mask).check tm.grps (s.exMasks g.team)
    let t := s.setTeam g.team { tm with bars := SMap.insert tm.bars n.toNat after }
    let third := p.mask &&& SMap.getD bar.ac g.grpid 0 &&& SMap.getD bar.an g.grpid 0
    let waits := fun (b : Barrier) => p.mask &&& (SMap.getD b.ac g.grpid 0 ||| SMap.getD b.an g.grpid 0)
    let parks := fun (u : State) =>
      (.next (u.setGroup s.cur.key (u.atBoundary (g.setWait s.cur.pslot (.barrier n.toNat)))) : Out)
    let overrun := (.next (s.trapIssue s.cur.key s.cur.pslot { Trap.of cBarrier with info := BitVec.ofNat 32 n.toNat }) : Out)
    let held := (.next (s.setGroup s.cur.key (g.setWait s.cur.pslot (.held .arrive))) : Out)
    (Goes (.barArv n) s g p latch chain →
      (third = 0 → s.released g = true → CompletesAt (.barArv n) s t g p chain g.regs (p.pc + 4))
      ∧ (third = 0 → s.released g = false → exec (.barArv n) s = held)
      ∧ (third ≠ 0 → s.trapReady g = true → exec (.barArv n) s = overrun))
    ∧ (Goes (.barWait n) s g p latch chain →
      (waits bar = 0 → s.acquired g = true → Completes (.barWait n) s g p chain 0 g.regs)
      ∧ (waits bar ≠ 0 ∨ s.acquired g = false → exec (.barWait n) s = parks s))
    ∧ (Goes (.barSync n) s g p latch chain → p.inBarrier = false →
      (third = 0 → s.released g = true → waits after = 0 → s.acquired g = true →
        CompletesAt (.barSync n) s t g p chain g.regs (p.pc + 4))
      ∧ (third = 0 → s.released g = true → waits after ≠ 0 → exec (.barSync n) s = parks t)
      ∧ (third = 0 → s.released g = false → exec (.barSync n) s = held)
      ∧ (third ≠ 0 → s.trapReady g = true → exec (.barSync n) s = overrun))
    ∧ (Goes (.barSync n) s g p latch chain → p.inBarrier = true →
      (waits bar = 0 → s.acquired g = true → Completes (.barSync n) s g p chain 0 g.regs)
      ∧ (waits bar ≠ 0 ∨ s.acquired g = false → exec (.barSync n) s = parks s))

/-- 07 R226, R227: an arrival adds the lanes to the phase in progress, and to the next for lanes that had arrived; a phase
completes when it has an arrival and every group's arrivals with its exited lanes are full: the phase bit turns, the next phase's
arrivals become the current ones, and when those are full too that phase completes as well; a phase with a lane missing, or without any
arrival, does not complete. -/
def Sys2Proof.Claims.BarrierPhases : Prop :=
  ∀ (b : Barrier) (grp grps : Nat) (m : Word) (ex : SMap Word),
    (∀ j, SMap.getD (b.arrive grp m).ac j 0 = if j = grp then SMap.getD b.ac j 0 ||| m else SMap.getD b.ac j 0)
    ∧ (∀ j, SMap.getD (b.arrive grp m).an j 0
        = if j = grp then SMap.getD b.an j 0 ||| (m &&& SMap.getD b.ac j 0) else SMap.getD b.an j 0)
    ∧ (b.arrive grp m).ph = b.ph
    ∧ ((∃ j, j < grps ∧ SMap.getD b.ac j 0 ||| SMap.getD ex j 0 ≠ 0xFFFFFFFF) → b.check grps ex = b)
    ∧ (b.ac ≠ [] → (∀ j, j < grps → SMap.getD b.ac j 0 ||| SMap.getD ex j 0 = 0xFFFFFFFF) →
        (b.an = [] ∨ ∃ j, j < grps ∧ SMap.getD b.an j 0 ||| SMap.getD ex j 0 ≠ 0xFFFFFFFF) →
        b.check grps ex = ⟨!b.ph, b.an, []⟩)
    ∧ (b.ac ≠ [] → b.an ≠ [] → (∀ j, j < grps → SMap.getD b.ac j 0 ||| SMap.getD ex j 0 = 0xFFFFFFFF) →
        (∀ j, j < grps → SMap.getD b.an j 0 ||| SMap.getD ex j 0 = 0xFFFFFFFF) → b.check grps ex = ⟨b.ph, [], []⟩)
    ∧ (b.ac = [] → b.check grps ex = b)

/-- BAR.ARV, BAR.WAIT and BAR.SYNC, and when a phase completes. -/
def Obligations.BarrierResults : Prop := Claims.BarrierInstructions ∧ Claims.BarrierPhases

/-- 07 R231, R232, R235; 01 R36: EVSET and EVCLR apply one request of the event unit, EVSET after its release, EVCLR after an EVSET
that the other slot has issued; EVSET and SENDAM take their operands when they issue, and hold their path until the release, SENDAM with a bad block too (log 44, the model's
reading). SENDAM with a bad block answers 4, with an unreachable device 2, and otherwise sends its message and leaves its answer outstanding; each clears the
team's restartable flag. -/
def Sys2Proof.Claims.EventAndMessageInstructions : Prop :=
  ∀ (a d : BitVec 8) (n : BitVec 3) s g p latch chain,
    let pub := s.clearRestart g.team
    let ev := eventBit (s.sv s.cur.key g a.toNat)
    let set := match p.wait with
      | .held (.evset m) => m
      | _ => ev
    let block := match p.wait with
      | .held (.sendam ws) => ws
      | _ => (run a.toNat (n.toNat + 2)).map g.sr
    let w0 := block.getD 0 0
    let w1 := block.getD 1 0
    let holds := fun (op : HeldOp) => (.next (pub.setGroup s.cur.key (g.setWait s.cur.pslot (.held op))) : Out)
    let dev := (w0.extractLsb' 8 8).toNat
    let good := w0.extractLsb' 16 16 = 0 ∧ w1.extractLsb' 12 20 = 0
    (Goes (.evset a) s g p latch chain →
      (s.released g = true →
        CompletesAt (.evset a) s (pub.setContext g.ctx ((pub.context g.ctx).applyEvents 0 set)) g p chain g.regs (p.pc + 4))
      ∧ (s.released g = false → exec (.evset a) s = holds (.evset set)))
    ∧ (Goes (.evclr a) s g p latch chain →
      ((∃ (y : Path) (m : BitVec 256), g.path s.cur.pslot.other = some y ∧ y.wait = .held (.evset m)) →
        exec (.evclr a) s = .next (s.setGroup s.cur.key (g.setWait s.cur.pslot .operand)))
      ∧ ((∀ (y : Path) (m : BitVec 256), g.path s.cur.pslot.other = some y → y.wait ≠ .held (.evset m)) → CompletesAt (.evclr a) s (pub.setContext g.ctx ((pub.context g.ctx).applyEvents ev 0)) g p chain g.regs (p.pc + 4)))
    ∧ (Goes (.sendam n a d) s g p latch chain → s.released g = false → exec (.sendam n a d) s = holds (.sendam block))
    ∧ (Goes (.sendam n a d) s g p latch chain → s.released g = true →
      (¬ good → CompletesAt (.sendam n a d) s pub g p chain (g.regs.scalar d.toNat 4) (p.pc + 4))
      ∧ (good → dev ≠ s.dev → (s.remote dev).reachable = false →
          CompletesAt (.sendam n a d) s pub g p chain (g.regs.scalar d.toNat 2) (p.pc + 4))
      ∧ (good → dev = s.dev ∨ (s.remote dev).reachable = true →
          CompletesAt (.sendam n a d) s
            (pub.sendTo (s.cur.key / 128 / 128) dev (s.context g.ctx).dctag.toNat (.active ⟨g.ctx, (w0.extractLsb' 0 8).toNat,
              (w1.extractLsb' 0 12).toNat, block.drop 2, s.cur.key / 128, s.dev, g.uid, d.toNat,
              (pub.context g.ctx).dctag.toNat⟩))
            { g with answers := g.answers ++ [d.toNat] } p chain g.regs (p.pc + 4)))

/-- 07 R232: the event unit applies the clear before the set, in one step, and a launch whose wait mask is wholly set in the
result becomes eligible and stays so. -/
def Sys2Proof.Claims.EventUnitRule : Prop :=
  ∀ (c : Context) (clear set : BitVec 256),
    (∀ i, i < 256 → (c.applyEvents clear set).events.getLsbD i
      = (set.getLsbD i || (c.events.getLsbD i && !clear.getLsbD i)))
    ∧ (c.applyEvents clear set).launches.length = c.launches.length
    ∧ (∀ (k : Nat) (l : Launch), c.launches[k]? = some l → ∃ m : Launch, (c.applyEvents clear set).launches[k]? = some m
        ∧ m = { l with eligible := m.eligible }
        ∧ (m.eligible = true ↔ l.eligible = true
          ∨ ∀ i, i < 256 → (l.packet.extractLsb' 512 256).getLsbD i = true → (c.applyEvents clear set).events.getLsbD i = true))

/-- EVSET, EVCLR and SENDAM, and what the event unit applies. -/
def Obligations.EventAndMessageResults : Prop := Claims.EventAndMessageInstructions ∧ Claims.EventUnitRule

/-- 07 R238 to R246, Table 7-5; 10 R309, R313: TRAP and BKPT raise their trap with resume at the next instruction; ERET of no
trapped group of the context does nothing; TLBSD starts a shootdown of every agent and completes when all have acknowledged;
HALT completes and halts the context, after a context command that is under way; WRPEER, RDSYS and WRSYS read and write the registers the tables name. -/
def Obligations.SystemResults : Prop :=
  ∀ (n : BitVec 6) (a d : BitVec 8) (z q : BitVec 2) (r : BitVec 12) s g p latch chain,
    let resumed := fun (t : State) => t.setGroup s.cur.key (g.setPath s.cur.pslot (some (p.advance (p.pc + 4))))
    (Goes (.trap n) s g p latch chain → s.trapReady g = true →
      exec (.trap n) s = .next ((resumed s).trapIssue s.cur.key s.cur.pslot
        { Trap.of cSoftware with info := BitVec.ofNat 32 n.toNat, pc := some p.pc }))
    ∧ (Goes (.bkpt n) s g p latch chain → s.trapReady g = true →
      exec (.bkpt n) s = .next ((resumed s).trapIssue s.cur.key s.cur.pslot
        { Trap.of cBreak with info := BitVec.ofNat 32 n.toNat, pc := some p.pc }))
    ∧ (Goes (.eret a) s g p latch chain →
      let slot := (s.sv s.cur.key g a.toNat).toNat
      let key := groupKey (s.cur.key / 128) slot
      ((∀ k, s.group key = some k → k.status ≠ .trapped ∨ k.ctx ≠ g.ctx) → Completes (.eret a) s g p chain 0 g.regs)
      ∧ (∀ k, s.group key = some k → k.status = .trapped → k.ctx = g.ctx → s.released g = true → ∀ s1 bs,
          s.loadVirt (s.cur.key / 128) (s.asidOf g) (s.recordAddr g.ctx (s.cur.key / 128) slot) 256 = .ok (s1, bs) →
          CompletesAt (.eret a) s (s1.putReloaded key k bs) g p chain g.regs (p.pc + 4)))
    ∧ (Goes (.tlbsd z a) s g p latch chain →
      let page := if z = 0 then 2 ^ 16 else if z = 1 then 2 ^ 21 else 2 ^ 30
      let mine := fun d : Shootdown => d.uid == g.uid && d.slot == s.cur.pslot
      let others := s.shootdowns.filter fun d => !mine d
      (∀ d, p.isHeld = true → s.shootdowns.find? mine = some d → d.todo = [] → d.acks = [] →
        CompletesAt (.tlbsd z a) s { s with shootdowns := others } g p chain g.regs (p.pc + 4))
      ∧ (p.isHeld = false ∨ s.shootdowns.find? mine = none → g.sr64 a.toNat % page = 0 →
        exec (.tlbsd z a) s = .next (({ s with shootdowns := others ++ [⟨g.uid, s.cur.pslot, (g.sr (a.toNat + 2)).toNat,
          g.sr64 a.toNat, (g.sr (a.toNat + 3)).toNat * page, run 0 128, []⟩] } : State).setGroup s.cur.key
            (g.setWait s.cur.pslot (.held .plain))))
      ∧ (∀ d, p.isHeld = true → s.shootdowns.find? mine = some d → d.todo ≠ [] ∨ d.acks ≠ [] →
        exec (.tlbsd z a) s = .next (s.setGroup s.cur.key (g.setWait s.cur.pslot (.held .plain)))))
    ∧ (Goes .halt s g p latch chain → ∃ h, h.regs = g.regs ∧ SameGroup g h
      ∧ Advanced s s.cur.pslot g p chain (p.pc + 4) h
      ∧ exec .halt s = .next (let t := s.setGroup s.cur.key h
          if s.ctxstat.getLsbD 31 then { t with halts := t.halts ++ [(g.ctx, s.cur.key / 128)] }
          else t.haltContext g.ctx (s.cur.key / 128) 0))
    ∧ (Goes (.wrpeer q a) s g p latch chain → ∀ seg, s.segment g.team g.seg = some seg →
      CompletesAt (.wrpeer q a) s
        (s.setSegment g.team g.seg { seg with peers := SMap.put 0 seg.peers q.toNat (peerOf g a.toNat) }) g p chain g.regs
        (p.pc + 4))
    ∧ (Goes (.rdsys r d) s g p latch chain →
      Completes (.rdsys r d) s g p chain 0 (g.regs.scalar d.toNat ((Issuing (.rdsys r d) s g p latch chain).readSys r.toNat)))
    ∧ (Goes (.wrsys r d) s g p latch chain →
      (r = 0 → Completes (.wrsys r d) s g p chain 0
        { g.regs with gstat := s.sv s.cur.key g d.toNat &&& 0x0FC0003F })
      ∧ (r ≠ 0 → CompletesAt (.wrsys r d) s
          (s.setContext g.ctx ((s.context g.ctx).writeSys r.toNat (s.sv s.cur.key g d.toNat))) g p chain g.regs (p.pc + 4)))

/-- 06 R195 to R201, R207, R208, Table 6-3: MXZERO, MXCFG with words in range, and MXRD take the next batch position of class 0
and a place in their core's matrix queue when it has room; MXRD's registers hold undefined values until the BWAIT that covers
it. -/
def Sys2Proof.Claims.MatrixQueueResults : Prop :=
  ∀ (f : BitVec 7) (a : BitVec 8) (t : BitVec 2) s g p latch chain,
    (s.core (s.cur.key / 128)).matq.length < 8 →
    let x := s.core (s.cur.key / 128)
    let queued := fun (op : MatOp) =>
      ({ s with nextPos := s.nextPos + 1 } : State).setCore (s.cur.key / 128)
        { x with matq := x.matq ++ [⟨s.nextPos, g.uid, g.team, g.seg, t.toNat, op, []⟩] }
    let g' := { g with positions := g.positions ++ [⟨s.nextPos, 0, none⟩] }
    let y := s.sv s.cur.key g a.toNat
    let cnt := readCount y
    (Goes (.mxzero t) s g p latch chain → CompletesAt (.mxzero t) s (queued .zero) g' p chain g.regs (p.pc + 4))
    ∧ (Goes (.mxcfg a t) s g p latch chain → goodUnfold (g.block a.toNat 5) = true →
        CompletesAt (.mxcfg a t) s (queued (.config (g.block a.toNat 5))) g' p chain g.regs (p.pc + 4))
    ∧ (Goes (.mxrd f a t) s g p latch chain → f.toNat + cnt ≤ g.vregs → (y.extractLsb' 0 7).toNat + cnt ≤ 128 → y.toNat < 2 ^ 11 →
        (∀ e ∈ s.busyRegs g, ¬ (f.toNat ≤ e.1 ∧ e.1 < f.toNat + cnt ∧ lane p.act e.2 = true)) →
        CompletesAt (.mxrd f a t) s
          { queued (.read f.toNat (y.extractLsb' 0 7).toNat (y.extractLsb' 7 2).toNat cnt p.act) with free := s.free + 128 }
          g' p chain
          (g.regs.span p.act f.toNat fun l => (run 0 cnt).map fun k => Config.freeWord (s.free + 32 * k + l)) (p.pc + 4))

/-- 06 R200 to R203, R209 to R211: MXLOOP and MXEPI, whose control block is in range, whose registers have arrived, whose format
words agree, whose spans stay in the scratchpad and whose peer is valid, take the next position and a place in their core's
queue; an MXEPI that writes memory enters Translation first. -/
def Sys2Proof.Claims.MatrixLoopAndEpilogueResults : Prop :=
  ∀ (f : BitVec 7) (a : BitVec 8) (t : BitVec 2) s g p latch chain seg,
    (s.core (s.cur.key / 128)).matq.length < 8 → s.segment g.team g.seg = some seg →
    let x := s.core (s.cur.key / 128)
    let queued := fun (s : State) (op : MatOp) =>
      ({ s with nextPos := s.nextPos + 1 } : State).setCore (s.cur.key / 128)
        { x with matq := x.matq ++ [⟨s.nextPos, g.uid, g.team, g.seg, t.toNat, op, []⟩] }
    let g' := { g with positions := g.positions ++ [⟨s.nextPos, 0, none⟩] }
    let ws := g.block a.toNat 8
    (Goes (.mxloop f a t) s g p latch chain →
      let c := Issuing (.mxloop f a t) s g p latch chain
      let narrow := loopMode g a.toNat == 0
      let vs := if narrow then [f.toNat, f.toNat + 1] else []
      let lp := loopOf ws (if narrow then c.agreed f.toNat else 0) (if narrow then c.agreed (f.toNat + 1) else 0)
      let cfg := s.latestCfg (s.cur.key / 128) g.team g.seg t.toNat
      let wide := fun (v : Nat) => if narrow then c.widest v else modeBits lp.mode
      (narrow = true → f.toNat + 1 < g.vregs) → c.vectorsBusy vs = false → goodLoop ws = true →
      (∀ y ∈ lp.spans (wide f.toNat) (wide (f.toNat + 1)) cfg, 0 ≤ y.1 ∧ y.1 + (y.2 : Int) ≤ (c.spSize g.seg : Int)) →
      c.vote vs = none → lp.badPair cfg = false →
      CompletesAt (.mxloop f a t) s (queued s (.loop lp)) g' p chain g.regs (p.pc + 4))
    ∧ (Goes (.mxepi f a t) s g p latch chain →
      let c := Issuing (.mxepi f a t) s g p latch chain
      let narrow := epiType g a.toNat == 3
      let vs := if narrow then [f.toNat] else []
      let peer := SMap.getD seg.peers (bits (ws.getD 0 (0 : Word)).toNat 4 2) 0
      let ep := epiOf ws peer (if narrow then c.agreed f.toNat else 0)
      let ebits := if narrow then c.widest f.toNat else ep.elemBits
      (narrow = true → f.toNat < g.vregs ∧ (NFmt.ofWord ep.fmt).blk = 0) → c.vectorsBusy vs = false →
      goodEpi ws ebits = true → c.vote vs = none →
      (ep.dest = 0 → ep.dlo + (ep.m - 1) * ep.stride + rowBytes ep.n ebits ≤ c.spSize g.seg →
        CompletesAt (.mxepi f a t) s (queued s (.epilogue ep)) g' p chain g.regs (p.pc + 4))
      ∧ (ep.dest = 1 → Pends (.mxepi f a t) s (s.clearRestart g.team) g p chain [(0, ep.base)] (.mxepi t.toNat ep))
      ∧ (ep.dest = 2 → peer.getLsbD 127 = true →
        CompletesAt (.mxepi f a t) s (queued (s.clearRestart g.team) (.epilogue ep)) g' p chain g.regs (p.pc + 4)))

/-- MXZERO, MXCFG, MXRD, MXLOOP and MXEPI take positions and queue. -/
def Obligations.MatrixInstructionResults : Prop := Claims.MatrixQueueResults ∧ Claims.MatrixLoopAndEpilogueResults

/-- 05 R185, R186; 06 R190 to R194: BCLOSE closes the class's open batch under the next number and writes it; BWAIT goes on when
no covered position is outstanding, giving covered MXRDs their registers, and holds its path until then, with its operand and the counter
as they were at its issue (which batches n covers once the counter has reached 2^31 is log 109); UNSUB takes a position and sends its
request, SUBST sends its query and leaves its answer outstanding, an acquire (14 R380). -/
def Obligations.BatchAndSubscriptionResults : Prop :=
  ∀ (c : BitVec 6) (a d : BitVec 8) s g p latch chain,
    let num := SMap.getD g.batch c.toNat 0 + 1
    let v := s.sv s.cur.key g a.toNat
    let pub := s.clearRestart g.team
    let took := match p.wait with
      | .held (.bwait n k) => (n, k)
      | _ => (v, SMap.getD g.batch c.toNat 0)
    let cover := coversOpt took.2 took.1
    let tag := (s.context g.ctx).dctag.toNat
    (Goes (.bclose c d) s g p latch chain →
      CompletesAt (.bclose c d) s s { g with
          batch := SMap.put 0 g.batch c.toNat num
          positions := g.positions.map fun y => if y.cls = c.toNat ∧ y.batch = none then { y with batch := some num } else y }
        p chain (g.regs.scalar d.toNat num) (p.pc + 4))
    ∧ (Goes (.bwait c a) s g p latch chain → (∀ y ∈ g.positions, y.cls = c.toNat → cover y.batch = false) →
      (c ≠ 0 → Completes (.bwait c a) s g p chain 0 g.regs)
      ∧ (c = 0 → CompletesAt (.bwait c a) s { s with free := s.free + 128 * g.mxrd.length } g p chain
          (g.fillReads s.free cover).regs (p.pc + 4)))
    ∧ (Goes (.bwait c a) s g p latch chain → (∃ y ∈ g.positions, y.cls = c.toNat ∧ cover y.batch = true) →
      exec (.bwait c a) s = .next (s.setGroup s.cur.key (g.setWait s.cur.pslot (.held (.bwait took.1 took.2)))))
    ∧ (Goes (.unsub a) s g p latch chain →
      CompletesAt (.unsub a) s (({ pub with nextPos := s.nextPos + 1 } : State).sendHome (s.cur.key / 128) tag v
          (.unsub s.dev tag g.uid g.team g.seg v s.nextPos))
        { g with positions := g.positions ++ [⟨s.nextPos, 2, none⟩] } p chain g.regs (p.pc + 4))
    ∧ (Goes (.subst a d) s g p latch chain →
      CompletesAt (.subst a d) s (s.sendHome (s.cur.key / 128) tag v (.query s.dev tag g.uid d.toNat g.team g.seg v))
        { g with answers := g.answers ++ [d.toNat], asked := g.asked ++ [d.toNat] } p chain g.regs (p.pc + 4))

/-- 02 R55 to R73: the decoder gives back every instruction that has an encoding from the bytes of its encoding, whatever
bytes follow, and leaves those bytes: every operand at every value its field admits. -/
def Obligations.DecodeOfEncode : Prop :=
  ∀ (i : Instr) (rest : List Byte), i.size ≠ 0 → decode (encode i ++ rest) = .ok (i, rest)

/-- 02 R55, R58: bytes that decode are the encoding of the instruction they decode to, so no two words mean one instruction
and a non-zero reserved field is never accepted; an instruction has two bytes where bit 0 is clear and four where it is set. -/
def Obligations.EncodeOfDecode : Prop :=
  (∀ (bs : List Byte) (i : Instr) (rest : List Byte), decode bs = .ok (i, rest) → bs = encode i ++ rest)
  ∧ ∀ i : Instr, i.size ≠ 0 →
    i.size = (encode i).length ∧ (i.size = if ((encode i).headD 0).toNat % 2 = 0 then 2 else 4)

/-- 02 R55 to R64, Tables 2-1, 2-3 and 2-10: words put together from the encoding tables decode to the instruction they stand
for, among them the four that 02 works out (IADD v3, v7, b1; FADD v9, v9, v4; BRA.U !p3; LD.W32 v4, [s8:s9 + v2]) and an
acquire load, an atomic, an update, a fence, a collapse, WAITA, LDS.TAKE, SUBSCR, UNSUB and SUBST; an unassigned major and bytes
that end too soon are refused. -/
def Obligations.DecodeWords : Prop :=
  decodeTableWord 32 0x1F438181 = some (.iadd 125 7 0 3)
  ∧ decodeTableWord 16 0x2136 = some (.fadd16 4 9)
  ∧ decodeTableWord 32 0xFFFD07C9 = some (.bra 0x3FFF4 3 1 1)
  ∧ decodeTableWord 32 0x0411024F = some (.ldReg 2 4 0 4 4)
  ∧ decodeTableWord 32 0x180901D7 = some (.ldStrong 1 4 2 0 4 3)
  ∧ decodeTableWord 32 0x30184459 = some (.atom 0 1 4 3 0 1 8)
  ∧ decodeTableWord 32 0x28000061 = some (.fence 2 4 0)
  ∧ decodeTableWord 32 0x040883DB = some (.updScalarBase 2 2 2 7)
  ∧ decodeTableWord 32 0x0008015F = some (.collapse 2 0)
  ∧ decodeTableWord 32 0x03020663 = some (.waita 6 4 12)
  ∧ decodeTableWord 32 0x040702E9 = some (.ldsTake 2 0 3 4 5)
  ∧ decodeTableWord 32 0x0605C56D = some (.subscr 6 2 3 1 10)
  ∧ decodeTableWord 32 0x40050079 = some (.unsub 10)
  ∧ decodeTableWord 32 0x600505F9 = some (.subst 10 11)
  ∧ decodeTableWord 32 0x0000007F = none
  ∧ decode [0x01] = .error .truncated ∧ decode [0x01, 0, 0] = .error .truncated

/-- 10 R306, 02 R55; 01 R24, 04 R145: when it is the turn of a path of a Running group that may issue, which its scheduler picks, and
nothing is due to the group before it (what a trap waits for goes on: R310), the step, after the clocks have moved and Ready intervals have begun, is the meaning of the next
member of the latch chain or fused sequence in issue; else, where the bytes at the path's PC decode to an instruction, of that
instruction, the halfwords in the instruction cache. -/
def Sys2Proof.Claims.StepRunsDecoded : Prop :=
  ∀ (s : State) (q : IssuePoint) (rest : List Turn) (g0 : Group) (p : Path) (i : Instr),
    s.agenda = .issue q :: rest → s.thermtrip = false →
    let s0 : State := { s.tick.renew with agenda := rest }
    s0.picks q = true →
    s0.group q.key = some g0 → g0.status = .running ∨ g0.status = .translation ∧ g0.finishes q.pslot = true →
    s0.stopped g0 q.pslot = false →
    let g := s0.atBoundary g0
    let h := g.unstop q.pslot
    let s1 : State := { s0.setGroup q.key h with cur := q }
    (g.inIssue = false → g.finishes q.pslot = false → g.mcheck = [] ∧ g.dueStep = none) →
    g.path q.pslot = some p → g.mayIssue q.pslot = true →
    (g.inHand = some i → step s = exec i s1)
    ∧ (g.inHand = none → p.pc.toNat % 2 = 0 → p.pc.toNat < 2 ^ 56 →
      (s1.fetchFill q.core (s1.asidOf h) p.pc.toNat).codeAt q.core (s1.asidOf h) p.pc.toNat = .ok (.ok i) →
      step s = exec i (s1.fetchFill q.core (s1.asidOf h) p.pc.toNat))

/-- 10 R308, R309, R310; 02 R72: at the turn of such a path, where its PC is odd or beyond 56 bits, or the fetch fails, or the word
there is no encoding, the step raises instruction-address with the PC as FAULTVA, fetch with the kind as DETAIL, or
illegal-instruction at that path; while what the group has issued is still to complete the trap waits, and the path with it. -/
def Sys2Proof.Claims.FetchTraps : Prop :=
  ∀ (s : State) (q : IssuePoint) (rest : List Turn) (g0 : Group) (p : Path),
    s.agenda = .issue q :: rest → s.thermtrip = false →
    let s0 : State := { s.tick.renew with agenda := rest }
    s0.picks q = true →
    s0.group q.key = some g0 → g0.status = .running → s0.stopped g0 q.pslot = false →
    let g := s0.atBoundary g0
    let h := g.unstop q.pslot
    let s1 : State := { s0.setGroup q.key h with cur := q }
    g.inIssue = false → (g.finishes q.pslot = false → g.mcheck = [] ∧ g.dueStep = none) →
    g.path q.pslot = some p → g.mayIssue q.pslot = true →
    let s2 := s1.fetchFill q.core (s1.asidOf h) p.pc.toNat
    let raised := fun (t : State) (tr : Trap) =>
      (t.trapReady h = true → step s = .next (t.trapIssue q.key q.pslot tr))
      ∧ (t.trapReady h = false → step s = .next (t.setGroup q.key (h.stopAt q.pslot .operand)))
    (p.pc.toNat % 2 = 1 ∨ 2 ^ 56 ≤ p.pc.toNat → raised s1 { Trap.of 0x0D with va := p.pc.toNat })
    ∧ (p.pc.toNat % 2 = 0 → p.pc.toNat < 2 ^ 56 →
      (∀ k, s2.codeAt q.core (s1.asidOf h) p.pc.toNat = .error k → raised s2 { Trap.of 0x01 with detail := k.code })
      ∧ ∀ w, s2.codeAt q.core (s1.asidOf h) p.pc.toNat = .ok (.error (.unassigned w)) → raised s2 (Trap.of 0x02))

/-- A step at a path’s turn runs the instruction decoded at its PC, or raises the trap of its fetch. -/
def Obligations.StepRunsDecodedInstruction : Prop := Claims.StepRunsDecoded ∧ Claims.FetchTraps

/-- 01 R49, 07 R238, 10 R307, R310: an instruction at the head of no chain, in a group whose issued instructions leave it free to trap, reports the first
of these that holds, before any effect: illegal instruction (a code or register field the spec refuses, or an instruction a
guard may not cover), then what its registers' contents make illegal, illegal latch, role, resource overrun, privilege; and an
instruction whose operands have not arrived waits, a path in the hold of one it has issued staying in that; so does one whose trap has
to wait, both slots with it. -/
def Sys2Proof.Claims.IssueCauses : Prop :=
  ∀ (i : Instr) (s : State) (g : Group) (p : Path),
    i.size ≠ 0 → s.group s.cur.key = some g → g.path s.cur.pslot = some p →
    (s.verdict s.cur.key g s.cur.pslot p i = .wait →
      exec i s = .next (s.setGroup s.cur.key (g.setWait s.cur.pslot p.blocked)))
    ∧ (s.verdict s.cur.key g s.cur.pslot p i = .stop →
      exec i s = .next (s.setGroup s.cur.key (g.stopAt s.cur.pslot p.blocked)))
    ∧ (g.chain = none → g.loads = [] → s.trapReady g = true →
      let traps := fun (c : Nat) => ∃ t : Trap, t.cause = c ∧ t.pos = 0 ∧ t.precise = true ∧ t.lanes = 0xFFFFFFFF
        ∧ exec i s = .next (s.trapIssue s.cur.key s.cur.pslot t)
      let fits := (operands i).all (Opd.fits g.vregs g.sregs g.barriers g.tiles)
      (WellFormed.wf i = false ∨ p.gk ≠ 0 ∧ laneFormat i = false → traps 0x02)
      ∧ (WellFormed.wf i = true → (p.gk = 0 ∨ laneFormat i = true) →
        (∀ c, s.dynOf s.cur.key g i = some c → traps c)
        ∧ (s.dynOf s.cur.key g i = none →
          (latchReads i ≠ [] → traps 0x03)
          ∧ (latchReads i = [] →
            (producerOnly i = true → g.producer = false → traps 0x04)
            ∧ ((producerOnly i = false ∨ g.producer = true) →
              (fits = false → traps 0x05)
              ∧ (fits = true → privileged i = true → g.priv = .user → traps 0x06))))))

/-- 01 R22 to R24, R40, R49; 08 R252: an instruction that passes every check of R49, and whose chain, if it leads one, passes each at its
position, waits for its operands, for slot A's run-ahead, for an acquire of its group, for what the other slot has issued before it (where only
this slot can fill the lines a read there waits for it does not: 01 R50; log 137, the model's reading), or
for slot A at the place where a split has not merged; where none of these holds it issues, the leader of a chain with its followers to
come, each writing the latch of its position. A member of the chain in issue issues at once; the other slot's path waits. -/
def Sys2Proof.Claims.IssueGoes : Prop :=
  ∀ (i : Instr) (s : State) (g : Group) (p : Path) (js : List Instr),
    let ps := s.cur.pslot
    let decides := s.verdict s.cur.key g ps p i
    let heads := latchEligible i = true ∧ latchReads i = []
    let late := hasDyn i = true ∧ ∃ r ∈ sregsOf i, r ∈ g.busySregs
    let ahead := ∃ n, g.split = some n ∧ ps = .a ∧ (runAhead i = false ∨ 32 < n + (js.length + 1))
    let after := g.asked ≠ [] ∧ accesses i = true
    let first := p.isHeld = false ∧ s.ordersFirst s.cur.key g ps i = true
    let busy := ∃ j ∈ i :: js, s.registersBusy g p j = true
    (∀ c, g.chain = some c →
      (c.slot = ps → decides = .go (some c.pos) (if c.pos + 1 < c.len then some { c with pos := c.pos + 1, rest := c.rest.tail } else none))
      ∧ (c.slot ≠ ps → decides = .wait))
    ∧ (g.chain = none → WellFormed.wf i = true → late → decides = .wait)
    ∧ (g.chain = none → WellFormed.wf i = true → (p.gk = 0 ∨ laneFormat i = true) → ¬ late → s.dynOf s.cur.key g i = none →
      latchReads i = [] → (producerOnly i = false ∨ g.producer = true) →
      (operands i).all (Opd.fits g.vregs g.sregs g.barriers g.tiles) = true → (privileged i = false ∨ g.priv = .supervisor) →
      (heads → s.chainScan (s.cur.key / 128) (s.asidOf g) p.jp 3 (p.pc + BitVec.ofNat 64 i.size) = js.map Cand.member) →
      (¬ heads → js = []) →
      (∀ n j, js[n]? = some j → checkCause g (decide (n + 1 < p.gk)) (n + 1) j = none) →
      (ahead ∨ after ∨ first ∨ g.behind ps p i = true ∨ busy → decides = .wait)
      ∧ (¬ (ahead ∨ after ∨ first ∨ g.behind ps p i = true ∨ busy) →
        decides = .go (if latchEligible i then some 0 else none)
          (if js = [] then none else some ⟨ps, 1, js.length + 1, p.pc, js⟩)))

/-- The order of causes every instruction is checked for before it issues, and when it goes. -/
def Obligations.IssueChecks : Prop := Claims.IssueCauses ∧ Claims.IssueGoes

/-- 10 R310, R311, Tables 10-4 and 10-5; 07 R240: a trap of a U group with nothing outstanding writes its record at TRBASE +
(core × 64 + slot) × 256 of the context, leaves the group Trapped with its registers and paths as they were, and queues its slot
for service; the record holds the cause, the flags, the lanes, the trapping address, the faulting address, GSTAT, EX and DSP at
their places (a trap of an issuing instruction gives the other slot the next turn first: 01 R50), FLAGS saying whether the trap is precise, the group split, the path in slot B and the instruction in a latch chain, and
both paths read back from it, G as 0 where GRDK is 0 (log 78). -/
def Sys2Proof.Claims.TrapRecordAndService : Prop :=
  (∀ (s t : State) (key : Nat) (ps : PSlot) (tr : Trap) (g : Group),
    s.group key = some g → s.landAll key = s → g.priv = .user → tr.cause ≠ 0x18 →
    s.storeVirt (key / 128) (s.asidOf g)
      ((s.context g.ctx).trbase.toNat + (key / 128 * 64 + key % 128) * 256) (tr.record g ps g.split.isSome) = some t →
    (∃ h : Group, (s.raiseTrap key ps tr).group key = some h ∧ h.status = .trapped ∧ h.svcPend = true
      ∧ h.cause = tr.cause ∧ h.pending = none ∧ h.chain = none ∧ h.regs = g.regs ∧ h.slotA = g.slotA ∧ h.slotB = g.slotB
      ∧ h.ex = g.ex ∧ h.dsp = g.dsp)
    ∧ ((s.raiseTrap key ps tr).core (key / 128)).trapq = (t.core (key / 128)).trapq ++ [key % 128]
    ∧ (s.raiseTrap key ps tr).mem = t.mem ∧ (s.raiseTrap key ps tr).caches = t.caches)
  ∧ (∀ (s : State) (key : Nat) (ps : PSlot) (tr : Trap) (g : Group), s.group key = some g →
    s.trapIssue key ps tr = (s.setGroup key { g with nextB := decide (ps = .a) }).raiseTrap key ps tr)
  ∧ (∀ (tr : Trap) (g : Group) (ps : PSlot) (split : Bool) (p : Path), g.path ps = some p → tr.pc = none →
      tr.cause < 256 → tr.detail < 256 → tr.pos < 16 → tr.va < 2 ^ 64 → g.dsp < 256 →
      (∀ q : Path, g.slotA = some q ∨ g.slotB = some q → q.gk < 256 ∧ q.jp ≠ some 0x00FFFFFFFFFFFFFF) →
      let r := tr.record g ps split
      r.length = 256 ∧ fieldAt r 0 1 = tr.cause ∧ fieldAt r 1 1 = tr.detail ∧ fieldAt r 3 1 = tr.pos
      ∧ fieldAt r 2 1 = (if tr.precise then 1 else 0) + (if split then 2 else 0) + (if ps = .b then 4 else 0)
        + (if tr.chain then 8 else 0)
      ∧ fieldAt r 4 4 = (if resumesNext tr.cause then 0 else tr.lanes.toNat) ∧ fieldAt r 8 8 = p.pc.toNat
      ∧ fieldAt r 16 8 = tr.va ∧ fieldAt r 24 4 = tr.info.toNat ∧ fieldAt r 28 4 = g.gstat.toNat
      ∧ fieldAt r 96 4 = g.ex.toNat ∧ fieldAt r 100 1 = g.dsp
      ∧ pathOf r 32 = g.slotA.map (fun q => { q with gg := if q.gk = 0 then 0 else q.gg, replay := none, wait := .ready })
      ∧ pathOf r 64 = g.slotB.map fun q => { q with gg := if q.gk = 0 then 0 else q.gg, replay := none, wait := .ready })

/-- 07 R246, 10 R309: a trap of a group at S writes no record: it halts the group's context, whose teams freeze. -/
def Sys2Proof.Claims.SupervisorTrapHalts : Prop :=
  ∀ (s : State) (key : Nat) (ps : PSlot) (tr : Trap) (g : Group),
    s.group key = some g → s.landAll key = s → g.priv = .supervisor →
    let t := s.raiseTrap key ps tr
    ((s.context g.ctx).state = 1 → (t.context g.ctx).state = 2)
    ∧ (∀ k h, t.group k = some h → h.ctx = g.ctx → h.freeze.halt = true)
    ∧ t.mem = s.mem ∧ t.caches = s.caches ∧ t.cores = s.cores

/-- Taking a trap: the record, the trapped group and its service; a trap at S halts the context. -/
def Obligations.TrapEntry : Prop := Claims.TrapRecordAndService ∧ Claims.SupervisorTrapHalts

/-- 01 R33, Table 1-6: an entry of the divergence stack has 64 bytes and reads back from them whole. -/
def Sys2Proof.Claims.StackEntryRoundTrip : Prop :=
  ∀ e : StackEntry, e.gk < 256 → e.jp ≠ some 0x00FFFFFFFFFFFFFF →
    e.bytes.length = 64 ∧ StackEntry.ofBytes e.bytes = e

/-- 01 R33, R34, R37, R38: a path that is pushed comes back from its 64 bytes with its mask, PC, join point, depth and guard, G as 0
where GRDK is 0 (log 78), without the replay mask Table 1-6 has no field for (log 90); with a waiting path on top of the stack, it is
popped into slot A when both slots are empty, and into the other slot when the one path of the group waits at its join point. -/
def Sys2Proof.Claims.WaitingPathReturns : Prop :=
  (∀ p : Path, p.gk < 256 → p.jp ≠ some 0x00FFFFFFFFFFFFFF →
    (StackEntry.ofBytes (StackEntry.ofPath p).bytes).toPath
      = { p with gg := if p.gk = 0 then 0 else p.gg, replay := none, wait := .ready })
  ∧ ∀ (s : State) (g : Group) (e : StackEntry), s.stackTop g = some e → e.join = false →
    let q : Path := ⟨e.mask, e.pc, e.jp, e.depth, e.gk, e.gg, none, .ready⟩
    (g.slotA = none → g.slotB = none → s.boundary g = some { g with slotA := some q, dsp := g.dsp - 1 })
    ∧ ∀ p : Path, g.slotA = some p → g.slotB = none → g.split = none → p.jp = some p.pc → p.isHeld = false →
      s.boundary g = some { g with slotB := some q, dsp := g.dsp - 1 }

/-- A divergence-stack entry reads back from its 64 bytes, and a path that waits in one comes back. -/
def Obligations.StackEntryBytes : Prop := Claims.StackEntryRoundTrip ∧ Claims.WaitingPathReturns

/-- 12 R370: right after reset no context exists, nothing is resident in a core, a cache or a slice, memory is cleared, to the byte 0
(log 9), and in its canonical form, no access is in transit, and READY is set. -/
def Sys2Proof.Claims.SpecReset : Prop :=
  let s := State.reset
  s.ready = true ∧ s.recovery = false ∧ s.thermtrip = false
  ∧ (∀ c : Nat, (s.context c).state = 0) ∧ (∀ k : Nat, s.group k = none) ∧ (∀ t : Nat, s.team t = none)
  ∧ Memory.wf s.mem = true ∧ (∀ a : Nat, Memory.read s.mem a = 0)
  ∧ s.net = [] ∧ (∀ n : Nat, SMap.find s.caches n = none) ∧ (∀ n : Nat, SMap.find s.slices n = none)

/-- The model's own choices for registers that the spec gives no value at reset (log 2 to 5), beside 12 R370: clocks of .SC operations
and incarnations 0, no cluster fused, host memory and the memory of other devices 0, CTXARG, CTXCMD, CTXSTAT and CBTBASE 0, device
number 0, links and ports up, other devices reachable, no image staged or committed, the fused version 0. -/
def Sys2Proof.Claims.ResetChoices : Prop :=
  let s := State.reset
  (∀ n : Nat, (s.core n).clock = 0 ∧ (s.core n).heard = 0 ∧ (s.cache n).inc = 0) ∧ s.inc = 0 ∧ s.fusedClusters = []
  ∧ (∀ d : Nat, (s.remote d).reachable = true ∧ (s.remote d).inc = 0 ∧ (s.remote d).spaces = [])
  ∧ (∀ p : Nat, (s.port p).up = true ∧ (s.port p).hostMem = []) ∧ (∀ l : Nat, (s.link l).up = true)
  ∧ s.dev = 0 ∧ s.ctxarg = 0 ∧ s.ctxcmd = 0 ∧ s.ctxstat = 0 ∧ s.cbtbase = 0
  ∧ s.firmware.svn = 0 ∧ s.firmware.revoked = 0 ∧ s.firmware.staging = none ∧ s.firmware.committed = none

/-- What reset leaves: the spec’s values, and the model’s own. -/
def Obligations.ResetState : Prop := Claims.SpecReset ∧ Claims.ResetChoices

/-- 09 R289: device memory keeps its canonical form in every step: the addresses rise strictly and no listed byte is what an
unlisted address reads as, so equal memories are equal data (the form is the model's own; log 9). -/
def Obligations.StepKeepsMemoryForm : Prop :=
  ∀ s t : State, Memory.wf s.mem = true → step s = .next t → Memory.wf t.mem = true

/-- 01 R36, R43 to R45; 10 R307: OPERAND_ARRIVAL makes a path ready that waits for an operand, once its registers have arrived
and the store queue has room; LINE_FILL_WAKE lets a path read again whose lines have all become full; every other path waits on,
and nothing else of the machine changes. -/
def Sys2Proof.Claims.OperandAndLineWakes : Prop :=
  ∀ core slot s g, s.group (groupKey core slot) = some g →
    let arrived := fun p : Path => p.wait = .operand ∧
      ∀ i, s.codeAt core (s.asidOf g) p.pc.toNat = .ok (.ok i) → s.registersBusy g p i = false ∧ g.queue.length < 16
    let filled := fun p : Path => ∃ k ls n seg t, p.wait = .emptyLine k ls n false t ∧ s.segment g.team k = some seg ∧
      ∀ l ∈ ls, seg.isFull l = true
    let again := fun w : Wait => match w with
      | .emptyLine k ls n _ t => Wait.emptyLine k ls n true t
      | v => v
    let woken := fun (wakes : Path → Prop) (next : Wait → Wait) (a b : Option Path) => match a with
      | none => b = none
      | some p => (wakes p ∧ b = some { p with wait := next p.wait }) ∨ (¬ wakes p ∧ b = some p)
    let after := fun (a b : Option Path) => s.setGroup (groupKey core slot)
      { g with slotA := a, slotB := b }
    slot < 128 →
    (∃ a b, woken arrived (fun _ => .ready) g.slotA a ∧ woken arrived (fun _ => .ready) g.slotB b ∧
      exec (.operandArrival core slot) s = .next (after a b))
    ∧ (∃ a b, woken filled again g.slotA a ∧ woken filled again g.slotB b ∧
      exec (.lineFillWake core slot) s = .next (after a b))

/-- 01 R24, R45, Table 1-5; 05 R157: EMPTY_LINE_TIMEOUT completes, at the group's boundary: a scratchpad read that has stalled longer than
2^(ELT + 9) cycles on lines of which one is still empty takes empty-line-timeout in its slot, slot A first, once what the group has
issued has completed (R310), slot A also once no LDS of a wave split's slot B is under way: that slot A goes first, and that the timeout
limits slot B's wait too, are the model's (log 28); with ELT 0, or once its lines are full, nothing changes.
An event whose condition fails changes nothing (log 86). -/
def Sys2Proof.Claims.EmptyLineTimeoutRule : Prop :=
  ∀ core slot s g k ls start seg, slot < 128 →
    s.group (groupKey core slot) = some g → s.segment g.team k = some seg →
    let elt := (g.gstat.extractLsb' 24 4).toNat
    let stalls := fun (o : Option Path) => ∃ p t, o = some p ∧ p.wait = .emptyLine k ls start false t
    let late := elt ≠ 0 ∧ start + 2 ^ (elt + 9) < s.now
    let empty := ∃ l ∈ ls, seg.isFull l = false
    let trap := fun ps => s.raiseTrap (groupKey core slot) ps (Trap.of cEmptyLine)
    (g.status = .running → g.freeze = Freeze.none → g.chain = none → g.fuse = none → g.answers = [] → g.completing = false → late → empty →
      (stalls g.slotA → s.trapReady g = true → exec (.emptyLineTimeout core slot) s = .next (trap .a))
      ∧ ((∀ p, g.slotA = some p → p.onEmptyLine = false) → stalls g.slotB →
        exec (.emptyLineTimeout core slot) s = .next (trap .b)))
    ∧ (stalls g.slotA → g.slotB = none → ¬ late ∨ ¬ empty → exec (.emptyLineTimeout core slot) s = .next s)

/-- Operand arrival, line fills and the empty-line timeout. -/
def Obligations.WakeRules : Prop := Claims.OperandAndLineWakes ∧ Claims.EmptyLineTimeoutRule

/-- 05 R172, R173; 01 R45: a WAITA whose watched sector the core has lost reads its word again: another value wakes the path with code 1 at
the next instruction, the same value leaves it parked; its timeout, counted from issue, wakes it with code 2 unless the word has changed; a
read that cannot be translated is the WAITA's translation fault. An event whose condition fails changes nothing (log 86). -/
def Obligations.WaitaChecks : Prop :=
  ∀ core slot s g (inB : Bool) p w, slot < 128 →
    let key := groupKey core slot
    let ps : PSlot := if inB then .b else .a
    s.group key = some g → g.path ps = some p → p.wait = .parked w → g.status = .running → g.freeze = Freeze.none →
    g.chain = none → g.fuse = none →
    let woken := fun (t : State) (h : Group) (code : Word) =>
      t.setGroup key (t.settle ((h.setPath ps (some (p.advance (p.pc + 4)))).setSr w.sd code))
    (∀ s1 bs, s.loadVirt core (s.asidOf g) w.va 4 = .ok (s1, bs) → s1.group key = some g →
      (s.checkDue core w = true → BitVec.ofNat 32 (ofBytes bs) ≠ w.away →
        exec (.waitaCheck core slot inB) s = .next (woken s1 g 1))
      ∧ (s.checkDue core w = true → BitVec.ofNat 32 (ofBytes bs) = w.away →
        exec (.waitaCheck core slot inB) s = .next ((s1.setGroup key
          (g.setPath ps (some { p with wait := .parked { w with checked := s1.now } }))).watchSec w.addr))
      ∧ (∀ t, w.timeout = some t → w.issued + t ≤ s.now →
        exec (.waitaTimeout core slot inB) s = .next (woken s1 g (if BitVec.ofNat 32 (ofBytes bs) = w.away then 2 else 1))))
    ∧ (∀ k, s.loadVirt core (s.asidOf g) w.va 4 = .error k → s.trapReady g = true → s.checkDue core w = true →
        exec (.waitaCheck core slot inB) s
          = .next ((s.setGroup key (g.setPath ps (some { p with wait := .ready }))).raiseTrap key ps
              { Trap.of cTranslation with detail := k.code, va := w.va }))
    ∧ (s.checkDue core w = false → exec (.waitaCheck core slot inB) s = .next s)
    ∧ (w.timeout = none → exec (.waitaTimeout core slot inB) s = .next s)

/-- 05 R149, R152, R154, R160, R162; 06 R215; 08 R252, R254; 10 R307, Table 10-4: an access in Translation commits once its checks have
answered. The lanes that reach their addresses enter the store queue as one entry in lane order, or perform as a load at once, behind
the group's atomics, a load with .SC behind its whole queue and taking its place in the order S; the path then goes on at the next
instruction, or, where lanes fail, the others having committed, takes the translation fault of the failing ones, which names the
lowest one's reason and address. A plain load of slot A that hits in some lanes and misses in others, no path in slot B, splits the
group: slot B takes the other lanes (those a guard masks off among them: log 97) and waits for its data. That a load takes its value
when it commits, over the group's queued stores, is log 14. -/
def Obligations.AcceptedAccesses : Prop :=
  ∀ core slot s g ps pc issued (ls : List (Nat × Nat)), slot < 128 →
    let key := groupKey core slot
    let asid := s.asidOf g
    let pass := fun op => ls.filterMap fun e => match s.reach core asid op e.2 with
      | .ok t => some (e.1, t)
      | .error _ => none
    let fail := fun op => ls.filterMap fun e => match s.reach core asid op e.2 with
      | .ok _ => none
      | .error k => some (e.1, k, e.2)
    let pends := fun op => s.group key = some g ∧ g.pending = some ⟨ps, pc, ls, op, issued⟩ ∧ s.trapReady g = true
    let noted := fun op => (s.takeRefusals (s.context g.ctx).dctag.toNat ls).noteAll core asid op ls
    let ack := exec (.translationAck core slot) s
    let ends := fun (one : Bool) op (t : State) (h : Group) => match fail op with
      | [] => t.resume key ps h
      | (_, k, va) :: _ => (t.setGroup key { h with status := .running, pending := none }).raiseTrap key ps
          { Trap.of 0x08 with
              detail := k.code, va := va
              lanes := if one then 0xFFFFFFFF else maskOf fun l => ((fail op).map Prod.fst).contains l }
    let queues := fun op (e : List (Nat × Xl) → QEntry) => pends op →
      ack = .next (ends false op (noted op)
        { g with queue := g.queue ++ (if pass op = [] then [] else [e (pass op)]) })
    let lanes := fun op => (pass op).map fun e => (⟨e.1, e.2.tag, none⟩ : LaneLoad)
    let before := fun op (all : Bool) => (noted op).ordered key (all || !(noted op).acquired g)
    let performs := fun (one : Bool) op dst (u : State) (h : Group) =>
      let r := u.performLoad key h ⟨pc, ps, dst, lanes op⟩
      ends one op r.1 { h with loads := h.loads ++ (if pass op = [] then [] else [r.2]) }
    let loads := fun (one : Bool) op dst => ∀ h, pends op → (before op false).group key = some h →
      ack = .next (performs one op dst (before op false) h)
    (∀ z vd, queues (.store z vd) fun q => .store (q.map fun e => (e.2.tag, g.storeBytes z vd e.1)) 0 1)
    ∧ (∀ z vd o scope, queues (.storeStrong z vd o scope) fun q =>
        .store (q.map fun e => (e.2.tag, g.storeBytes z vd e.1)) o scope)
    ∧ (∀ vd, queues (.stst vd) fun q => .store (q.map fun e => (e.2.tag, toBytes 16 (g.view vd e.1).toNat)) 0 1)
    ∧ (∀ op wide vd o scope, queues (.atom op wide vd o scope) fun q =>
        .atom op wide vd (q.map fun e => atomLane g pc ps op wide vd e.1 e.2.tag) o scope)
    ∧ (∀ vd, loads false (.stld vd) (.view vd))
    ∧ (∀ sd, loads true (.sld sd) (.scalar sd))
    ∧ (∀ z vd o scope h, let op := MemOp.loadStrong z vd o scope
      pends op → (before op (decide (o = 4))).group key = some h →
      ack = .next ((performs false op (.vector vd z) (before op (decide (o = 4))) h).scEvent core
        (if pass op = [] then 0 else o) ((pass op).map fun e => e.2.tag / 32)))
    ∧ ∀ z vd h, let op := MemOp.load z vd
      pends op → (before op false).group key = some h →
      let u := before op false
      let hit := (lanes op).filter fun l => u.hits (u.cacheOf core) (l.addr / 32)
      let miss := (lanes op).filter fun l => !u.hits (u.cacheOf core) (l.addr / 32)
      (fail op ≠ [] ∨ hit = [] ∨ miss = [] ∨ ps = .b ∨ h.slotB ≠ none ∨ h.split ≠ none →
        ack = .next (performs false op (.vector vd z) u h))
      ∧ (∀ p, fail op = [] → hit ≠ [] → miss ≠ [] → ps = .a → h.slotA = some p → h.slotB = none → h.split = none →
        let mine := maskOf fun l => (hit.map LaneLoad.lane).contains l
        let x := u.performLoad key h ⟨pc, .a, .vector vd z, hit⟩
        let y := x.1.performLoad key h ⟨pc, .b, .vector vd z, miss⟩
        ack = .next (y.1.resume key .a { h with
          slotA := some (p.onLanes mine), slotB := some { (p.advance (p.pc + 4)).onLanes (~~~mine) with wait := .missData },
          loads := h.loads ++ [x.2, y.2], split := some 0 }))

/-- 05 R150, R151, R152; 06 R215; 01 R31, R39; 05 R162: LOAD_DATA_RETURN returns the group's oldest load and writes its registers, each load
its own, slot B of a wave split going on once its data is there, and the group is then at an issue boundary; STORE_QUEUE_DRAIN takes the
oldest entry, unless earlier far accesses or a release hold it, and performs it in the group's cache, or sends it to its home when all its
lines are subscribed or it is a far atomic, lane by lane. An event whose condition fails changes nothing (log 86). -/
def Sys2Proof.Claims.LoadsReturnAndStoresDrain : Prop :=
  ∀ core slot s g, slot < 128 → s.group (groupKey core slot) = some g →
    let key := groupKey core slot
    (∀ x rest, g.loads = x :: rest →
      ∃ h, h.regs = (g.deliver (s.performLoad key g x).2).regs ∧ h = { g with v := h.v, s := h.s, slotB := h.slotB, loads := rest }
        ∧ ((∀ p, g.slotB = some p → p.wait = .missData → ∃ y ∈ rest, y.slot = .b) → h.slotB = g.slotB)
        ∧ (∀ p, g.slotB = some p → p.wait = .missData → (∀ y ∈ rest, y.slot ≠ .b) → h.slotB = some { p with wait := .ready })
        ∧ let r := (s.performLoad key g x).1.setGroup key h
          exec (.loadDataReturn core slot) s = .next ((if g.status = .running ∧ g.frozen = false
            then r.setGroup key (r.atBoundary h) else r).groupEnd key))
    ∧ (∀ pc ps m z vd (a : Nat → Nat) (bs : Nat → List Byte),
      (g.deliver ⟨pc, ps, .vector vd z, (lanesOf m).map fun l => ⟨l, a l, some (bs l)⟩⟩).regs
        = g.regs.span m vd fun l => loadWords z (bs l))
    ∧ (∀ pc ps m vd (a : Nat → Nat) (bs : Nat → List Byte),
      (g.deliver ⟨pc, ps, .view vd, (lanesOf m).map fun l => ⟨l, a l, some (bs l)⟩⟩).regs
        = g.regs.span m vd fun l => tripleWords (Triple.ofNat (ofBytes (bs l))))
    ∧ (∀ pc ps sd l a bs, (g.deliver ⟨pc, ps, .scalar sd, [⟨l, a, some bs⟩]⟩).regs
        = g.regs.scalar sd (BitVec.ofNat 32 (ofBytes bs)))
    ∧ (∀ e rest, g.queue = e :: rest →
      let t := s.setGroup key { g with queue := rest }
      (s.farPending g.uid = false → (e.isRelease = true → s.forcedBy g.uid = []) →
        (s.entryFar e = true → exec (.storeQueueDrain core slot) s
          = .next (({ t with net := s.net ++ (e.farOps g.uid).map fun o => .far (s.asidOf g) g.uid o } : State).groupEnd key))
        ∧ (∀ ws ord sc, e = .store ws ord sc → s.entryFar e = false → exec (.storeQueueDrain core slot) s
          = .next (((t.storeAll (s.cacheOf core) ws).scEvent core ord (ws.map fun w => w.1 / 32)).groupEnd key))
        ∧ (∀ op wide vd ks ord sc, e = .atom op wide vd ks ord sc → s.entryFar e = false → exec (.storeQueueDrain core slot) s
          = .next ((ks.foldl (fun st k => st.atomLaneNow (s.cacheOf core) g.uid op wide vd ord k) t).groupEnd key)))
      ∧ (s.farPending g.uid = true ∨ (e.isRelease = true ∧ s.forcedBy g.uid ≠ []) →
        exec (.storeQueueDrain core slot) s = .next s))

/-- 05 R150, R151, R153; 09 Table 9-3: bytes stored through a cache that owns their sector, on a line without subscription, are
the bytes that a load through it answers; the other bytes of the sector, the other sectors that the L1s and the caches of other
devices hold, the sectors of other lines in the die-level caches, and device memory are as before. -/
def Sys2Proof.Claims.StoredBytesLoadBack : Prop :=
  ∀ (s : State) (n a : Nat) (bs : List Byte) st d,
    n < 256 → (s.cache n).sector (a / 32) = some (st, d) → st = .m ∨ st = .e → s.subscribed (a / 32) = false →
    0 < bs.length → a % 32 + bs.length ≤ 32 →
    let t := s.storeBytes n a bs
    (t.loadBytes n a bs.length).2 = bs
    ∧ (∀ b, b / 32 = a / 32 → b < a ∨ a + bs.length ≤ b → (t.loadBytes n b 1).2 = (s.loadBytes n b 1).2)
    ∧ (∀ m k, m ≠ 256 → m ≠ 257 → m ≠ n ∨ k ≠ a / 32 → (t.cache m).sector k = (s.cache m).sector k)
    ∧ (∀ m k, k / 4 ≠ a / 32 / 4 → (∀ l ∈ (s.cache m).lines, l.secs ≠ []) → (t.cache m).sector k = (s.cache m).sector k)
    ∧ t.mem = s.mem

/-- Loads return, stores drain, and stored bytes load back. -/
def Obligations.LoadsAndStores : Prop := Claims.LoadsReturnAndStoresDrain ∧ Claims.StoredBytesLoadBack

/-- 07 R240; 10 R308, R310, R312; 02 R72: TRAP_SERVICE_START takes the oldest waiting trap of a core whose service slot is free:
with a sound service header it starts the service group there, at S, its scalars naming the trap; with TSVC 0 or a header that is
not sound it halts the context, the notice naming the cause of the trap that waited (log 45). That the service group is a producer of the
trapped group's team and segment is log 120's, the model's choice. MACHINE_CHECK, FETCH_TRAP and UNASSIGNED_ENCODING raise their traps at the group's boundary. -/
def Obligations.ServiceAndFetchTraps : Prop :=
  ∀ core s,
    (∀ slot rest g, slot < 64 → (s.core core).trapq = slot :: rest → s.group (groupKey core 64) = none →
      s.group (groupKey core slot) = some g → g.status = .trapped → g.svcPend = true →
      let t := s.setCore core { s.core core with trapq := rest }
      let tsvc := (s.context g.ctx).tsvc.toNat
      let record := (s.context g.ctx).trbase.toNat + (core * 64 + slot) * 256
      (tsvc = 0 → exec (.trapServiceStart core) s = .next (t.haltContext g.ctx core g.cause))
      ∧ (∀ k, tsvc ≠ 0 → t.loadVirt core (s.asidOf g) tsvc 64 = .error k →
        exec (.trapServiceStart core) s = .next (t.haltContext g.ctx core g.cause))
      ∧ (∀ t1 bs, tsvc ≠ 0 → t.loadVirt core (s.asidOf g) tsvc 64 = .ok (t1, bs) → goodService bs = false →
        exec (.trapServiceStart core) s = .next (t1.haltContext g.ctx core g.cause))
      ∧ (∀ t1 bs, tsvc ≠ 0 → t.loadVirt core (s.asidOf g) tsvc 64 = .ok (t1, bs) → goodService bs = true →
        t1.context g.ctx = s.context g.ctx →
        ∃ h, exec (.trapServiceStart core) s = .next (((({ t1 with nextUid := t1.nextUid + 1 } : State).setCore core
            { t1.core core with serving := slot }).setGroup
            (groupKey core slot) { g with svcPend := false }).setGroup (groupKey core 64) h)
          ∧ h.priv = .supervisor ∧ h.producer = true ∧ h.ctx = g.ctx ∧ h.team = g.team ∧ h.seg = g.seg ∧ h.uid = t1.nextUid
          ∧ h.status = .running ∧ h.slotB = none ∧ h.gstat = 0x0B000000 ∧ h.dsp = 0
          ∧ h.slotA = some ⟨0xFFFFFFFF, BitVec.ofNat 64 (tsvc + 64), none, 0, 0, 0, none, .ready⟩
          ∧ (∀ r, h.sr r = if r = 2 then BitVec.ofNat 32 record else if r = 3 then BitVec.ofNat 32 (record / 2 ^ 32)
              else if r = 4 then BitVec.ofNat 32 slot else if r = 5 then BitVec.ofNat 32 g.cause else 0)
          ∧ (∀ r l, l < 32 → h.vr r l = if r = 0 then BitVec.ofNat 32 l else 0)))
    ∧ (∀ slot g pc ps addr rest, slot < 128 → s.group (groupKey core slot) = some g → g.mcheck = (pc, ps, addr) :: rest →
      g.status = .running → g.inIssue = false → s.trapReady g = true →
      exec (.machineCheck core slot) s = .next ((s.setGroup (groupKey core slot) { g with mcheck := rest }).raiseTrap
        (groupKey core slot) ps
        { Trap.of cMachine with detail := 1, va := addr.toNat, precise := false, pc := some pc }))
    ∧ (∀ g p, s.group s.cur.key = some g → g.path s.cur.pslot = some p → s.trapReady g = true → g.status = .running →
      g.inIssue = false → g.mayIssue s.cur.pslot = true →
      let at_ := s.codeAt s.cur.core (s.asidOf g) p.pc.toNat
      (∀ k, at_ = .error k → exec .fetchTrap s
        = .next (s.trapIssue s.cur.key s.cur.pslot { Trap.of cFetch with detail := k.code }))
      ∧ (∀ w, at_ = .ok (.error (.unassigned w)) →
        exec (.unassignedEncoding w) s = .next (s.trapIssue s.cur.key s.cur.pslot (Trap.of cIllegal))))

/-- 05 R167, R170, R172, R177 to R180; 06 R211, R217 to R220; 07 R233, R234: what the other may-fault instructions do once their
address has passed its check and the group's earlier accesses have performed: UPD folds into the cache's copy or goes to the home,
COLLAPSE starts, CCTL works through its line, WAITA goes on or parks, SUBSCR binds its line or answers LINEBUSY, TCOPY captures its
record and queues, or waits while a line has 16 copies pending, LAUNCH queues its packet, holds with the packet it has read
while its queue is full and intake is open (log 43), or answers QUEUEFULL or FOREIGNCTX, MXEPI queues, or waits for room. That CCTL
works through its line in one step is log 32. -/
def Sys2Proof.Claims.AcceptedOtherAccesses : Prop :=
  ∀ core slot s g ps pc issued va (t : Xl) op, slot < 128 →
    let key := groupKey core slot
    let s1 := (s.takeRefusals (s.context g.ctx).dctag.toNat [(0, va)]).noteAll core (s.asidOf g) op
      [(0, va)]
    let tag := t.asid * 2 ^ 56 + t.va
    let pends := fun o => op = o ∧ s.group key = some g ∧ g.pending = some ⟨ps, pc, [(0, va)], op, issued⟩
      ∧ s.trapReady g = true ∧ g.queue = [] ∧ s.farPending g.uid = false ∧ s.reach core (s.asidOf g) op va = .ok t
    let goesOn := fun (s2 : State) (f : Group → Group) => ∀ g', s2.group key = some g' →
      exec (.translationAck core slot) s = .next (s2.resume key ps (f g'))
    let waits := fun (s2 : State) => exec (.translationAck core slot) s = .next (s2.blockAccess key ⟨ps, pc, [(0, va)], op, issued⟩ g)
    (∀ c vd, pends (.upd c vd) →
      let op := UOp.ofCode c
      let ws := if op = .stat then [g.vr vd 0, g.vr (vd + 1) 0, g.vr (vd + 2) 0, 0] else [g.src vd 0]
      (s1.updatesAtHome tag = true →
        goesOn { s1 with net := s1.net ++ [.far (s.asidOf g) g.uid (.upd op tag ws)] } id)
      ∧ (s1.updatesAtHome tag = false → goesOn (s1.updateCopy (s.cacheOf core) tag op (wordsNat ws)) id))
    ∧ (pends .collapse → goesOn (s1.startCollapse g.uid (tag / 32)) id)
    ∧ (∀ fn scope, pends (.cctl fn scope) →
      goesOn ((run (4 * (tag / 128)) 4).foldl (fun st k => st.cctlSector fn (s1.scopeCaches core scope) (decide (4 ≤ scope)) k) s1) id)
    ∧ (∀ sd away timeout, pends (.waita sd away timeout) →
      let r := s1.loadBytes (s.cacheOf core) tag 4
      (BitVec.ofNat 32 (ofBytes r.2) ≠ away →
        exec (.translationAck core slot) s = .next (r.1.resume key ps (g.setSr sd 0)))
      ∧ (BitVec.ofNat 32 (ofBytes r.2) = away → exec (.translationAck core slot) s = .next ((r.1.watchSec tag).setGroup key
          ({ g with status := .running, pending := none }.setWait ps
            (.parked ⟨sd, va, tag, away, if timeout = 0 then none else some timeout.toNat, issued, s1.now⟩)))))
    ∧ (∀ sd line size strict seg, pends (.subscr sd line size strict) → s1.segment g.team g.seg = some seg →
      let taken := { g with positions := g.positions ++ [⟨s1.nextPos, 2, none⟩] }
      let bound := s1.setSegment g.team g.seg
        { (seg.setFull line false) with bound := SMap.insert seg.bound line ⟨none, strict, g.uid, s1.nextPos, none, false, false, tag, size⟩ }
      let req : SubReq := ⟨s1.dev, core, s.asidOf g, (s.context g.ctx).dctag.toNat, g.uid, sd, g.team, g.seg, line, t.asid, t.va, size,
        strict, s1.nextPos⟩
      (SMap.has seg.bound line = true →
        exec (.translationAck core slot) s = .next (s1.resume key ps (g.setSr sd 0x80000002)))
      ∧ (SMap.has seg.bound line = false → exec (.translationAck core slot) s
          = .next (({ bound.setGroup key taken with nextPos := s1.nextPos + 1, net := s1.net ++ [.subReq req] } : State).resume
            key ps { taken with answers := g.answers ++ [sd] })))
    ∧ (∀ out sl sx seg tm, pends (.tcopy out sl sx) →
      let r := s1.loadRun (s.cacheOf core) tag 128
      r.1.group key = some g → r.1.segment g.team g.seg = some seg → r.1.team g.team = some tm →
      let ls := g.block sl 3
      let xs := g.block sx 8
      let j := copyOf g out (Shape.ofBytes r.2) ls xs r.1.nextPos
      let lines := if out then [] else j.spadLines
      let seg1 := lines.foldl (fun (k : Segment) n =>
        { (k.setFull n false) with pend := SMap.insert k.pend n (SMap.getD k.pend n 0 + 1) }) seg
      let t1 := ({ r.1 with nextPos := r.1.nextPos + 1 } : State).setSegment g.team g.seg seg1
      (∀ trap, r.1.copyTrap core g seg tm.scratch r.2 ls xs j = some trap → exec (.translationAck core slot) s
        = .next ((r.1.setGroup key { g with status := .running, pending := none }).raiseTrap key ps trap))
      ∧ (r.1.copyTrap core g seg tm.scratch r.2 ls xs j = none → (∀ l ∈ lines, SMap.getD seg.pend l 0 < 16) →
        exec (.translationAck core slot) s = .next ((t1.setCore core { r.1.core core with
            copies := (r.1.core core).copies ++ [{ j with lines := lines }] }).resume key ps
          { g with positions := g.positions ++ [⟨r.1.nextPos, 1, none⟩] }))
      ∧ (r.1.copyTrap core g seg tm.scratch r.2 ls xs j = none → (∃ l ∈ lines, 16 ≤ SMap.getD seg.pend l 0) → waits r.1))
    ∧ (∀ sd, pends (.launch sd) →
      let r := s1.loadRun (s.cacheOf core) tag 128
      let s2 := r.1.releaseAll key
      let packet : BitVec 1024 := BitVec.ofNat 1024 (ofBytes r.2)
      let ctxid := (packet.extractLsb' 176 16).toNat
      ∀ g', s2.group key = some g' →
      let x := s2.context g'.ctx
      (ctxid ≠ x.asid.toNat → exec (.translationAck core slot) s = .next (s2.resume key ps (g'.setSr sd 2)))
      ∧ (ctxid = x.asid.toNat → 64 ≤ x.devq.length → s2.intakeOpen g'.ctx = false →
        exec (.translationAck core slot) s = .next (s2.resume key ps (g'.setSr sd 1)))
      ∧ (ctxid = x.asid.toNat → 64 ≤ x.devq.length → s2.intakeOpen g'.ctx = true → exec (.translationAck core slot) s
          = .next (s2.setGroup key ({ g' with status := .running, pending := none }.setWait ps (.held (.launch packet)))))
      ∧ (ctxid = x.asid.toNat → x.devq.length < 64 →
        exec (.translationAck core slot) s = .next
          ((s2.setContext g'.ctx { x with devq := x.devq ++ [⟨packet, g'.uid, sd, s2.now⟩] }).resume key ps
            { g' with answers := g'.answers ++ [sd] })))
    ∧ (∀ tile ep, pends (.mxepi tile ep) →
      (∀ p ∈ pagesOf ep.base ep.extent, ∃ y, s1.translateBy (coreDie core) (s1.asidOf g) p needW = .ok y) →
      (8 ≤ (s1.core core).matq.length → waits s1) ∧ ((s1.core core).matq.length < 8 →
      exec (.translationAck core slot) s = .next ((({ s1 with nextPos := s1.nextPos + 1 } : State).setCore core
          { s1.core core with matq := (s1.core core).matq ++ [⟨s1.nextPos, g.uid, g.team, g.seg, tile, .epilogue ep, []⟩] }).resume
        key ps { g with positions := g.positions ++ [⟨s1.nextPos, 0, none⟩] })))

/-- 05 R149, R167, R168, R170, R177; 10 R307, Table 10-4: with any number of lanes, UPD, COLLAPSE and CCTL in Translation act on the lanes
that reach their addresses, in lane order: UPD, after the group's queued stores to a sector it updates, its atomics and its far accesses,
folds each lane's operand into the cache's copy or sends it home; COLLAPSE starts one collapse for each sector, and CCTL works through each
line, once what the group has issued has performed. The path goes on, or, where lanes fail, takes their translation fault, as the one lane
of WAITA, SUBSCR, TCOPY and LAUNCH does. That CCTL works through a line in one step is log 32. -/
def Sys2Proof.Claims.LaneSystemAccesses : Prop :=
  ∀ core slot s g ps pc issued (ls : List (Nat × Nat)) op, slot < 128 →
    let key := groupKey core slot
    let asid := s.asidOf g
    let pass := ls.filterMap fun e => match s.reach core asid op e.2 with
      | .ok t => some (e.1, t)
      | .error _ => none
    let fail := ls.filterMap fun e => match s.reach core asid op e.2 with
      | .ok _ => none
      | .error k => some (e.1, k, e.2)
    let pends := fun o => op = o ∧ s.group key = some g ∧ g.pending = some ⟨ps, pc, ls, op, issued⟩ ∧ s.trapReady g = true
    let noted := (s.takeRefusals (s.context g.ctx).dctag.toNat ls).noteAll core asid op ls
    let ends := fun (one : Bool) (t : State) => ∀ h, t.group key = some h →
      exec (.translationAck core slot) s = .next (match fail with
        | [] => t.resume key ps h
        | (_, k, va) :: _ => (t.setGroup key { h with status := .running, pending := none }).raiseTrap key ps
            { Trap.of 0x08 with
                detail := k.code, va := va
                lanes := if one then 0xFFFFFFFF else maskOf fun l => (fail.map Prod.fst).contains l })
    let sectors := (pass.map fun e => e.2.tag / 32).eraseDups
    let lines := (pass.map fun e => e.2.tag / 128).eraseDups
    (∀ c vd, pends (.upd c vd) →
      let uop := UOp.ofCode c
      let stored := pass.any fun e => g.queue.any fun q => match q with
        | .store ws _ _ => ws.any fun w => w.1 / 32 == e.2.tag / 32
        | .atom _ _ _ ks _ _ => ks.any fun k => k.addr / 32 == e.2.tag / 32
      let u := noted.ordered key (stored || !noted.acquired g)
      ends false (pass.foldl (fun st e =>
        let ws := if uop = .stat then [g.vr vd e.1, g.vr (vd + 1) e.1, g.vr (vd + 2) e.1, 0] else [g.src vd e.1]
        if st.updatesAtHome e.2.tag then { st with net := st.net ++ [.far (st.asidOf g) g.uid (.upd uop e.2.tag ws)] }
        else (st.landFar g.uid).updateCopy (u.cacheOf core) e.2.tag uop (wordsNat ws)) u))
    ∧ (pends .collapse → ∀ h, (noted.ordered key true).group key = some h →
      ends false (sectors.foldl (fun st k => st.startCollapse h.uid k) (noted.ordered key true)))
    ∧ (∀ fn scope, pends (.cctl fn scope) →
      let u := noted.ordered key true
      ends false (lines.foldl (fun st l =>
        (run (4 * l) 4).foldl (fun st k => st.cctlSector fn (u.scopeCaches core scope) (decide (4 ≤ scope)) k) st) u))
    ∧ (pass = [] → fail ≠ [] →
      (∀ sd away timeout, pends (.waita sd away timeout) → ends true (noted.ordered key true))
      ∧ (∀ sd line size strict, pends (.subscr sd line size strict) → ends true (noted.ordered key true))
      ∧ (∀ out sl sx, pends (.tcopy out sl sx) → ends true noted)
      ∧ (∀ sd, pends (.launch sd) → ends true noted))

/-- 05 R167, R169; 09 R278: an update of a sector that the cache holds in U under the same operator, with no collapse in progress,
folds its operand into the cache's copy; every other sector that any cache holds, the homes and memory are as before. -/
def Sys2Proof.Claims.UpdateFoldsIntoCopy : Prop :=
  ∀ (s : State) (n a x : Nat) op d, (s.cache n).sector (a / 32) = some (.u op, d) → s.collapseRec (a / 32) = none →
    let t := s.updateCopy n a op x
    (t.cache n).sector (a / 32) = some (.u op, op.update d (a % 32) x)
    ∧ (∀ m k, m ≠ n ∨ k ≠ a / 32 → (t.cache m).sector k = (s.cache m).sector k)
    ∧ t.slices = s.slices ∧ t.mem = s.mem ∧ t.groups = s.groups

/-- What the other may-fault instructions do once checked, and update folding. -/
def Obligations.AcceptedSystemAccesses : Prop := Claims.AcceptedOtherAccesses ∧ Claims.LaneSystemAccesses ∧ Claims.UpdateFoldsIntoCopy

/-- 06 R193, R197, R199, R207, R208, R210, R211: a core's matrix unit takes one step of the first position of its kind that no earlier
position on its tile holds back and whose team is not being saved: TILE_CONFIG_APPLY writes the tile's configuration, TILE_ZERO_APPLY clears
its elements, TILE_READ_DELIVER hands an MXRD its elements, EPILOGUE_RUN writes rows to the scratchpad or to memory or, unless the
collective engine has stopped for the team, sends them, CLEAR then clearing the tile's elements, and MATRIX_K_STEP folds one K-step; the last step of a position takes it from the
queue and completes it, a loop's elements computed from overwritten bytes then undefined. An event whose condition fails changes nothing
(log 86). -/
def Sys2Proof.Claims.MatrixUnitSteps : Prop :=
  ∀ core s e before after seg, (s.core core).matq = before ++ e :: after → s.segment e.team e.seg = some seg →
    (∀ x ∈ before, x.sameTile e = false) → s.engineStopped e.team 1 = false →
    let first := fun f : MatOp → Prop => ∀ x ∈ before, ¬ f x.op
    let complete := fun t : State => (t.unqueueMat core e.pos).donePos e.uid e.pos
    (∀ ws, e.op = .config ws → first (fun o => ∃ w, o = .config w) → exec (.tileConfigApply core) s
      = .next (complete (s.setSegment e.team e.seg { seg with cfg := SMap.insert seg.cfg e.tile ⟨true, ws⟩ })))
    ∧ (e.op = .zero → first (· = .zero) →
      exec (.tileZeroApply core) s = .next (complete (s.setSegment e.team e.seg (seg.clearTile e.tile))))
    ∧ (∀ vd row q cnt m, e.op = .read vd row q cnt m → first (fun o => ∃ a b c d f, o = .read a b c d f) →
      exec (.tileReadDeliver core) s = .next (complete (s.handRead e.uid e.pos
        ((run 0 cnt).map fun t => (lanesOf m).map fun l => ((vd + t, l), seg.element e.tile (row + t) (32 * q + l))).flatten)))
    ∧ (∀ c, e.op = .epilogue c → first (fun o => ∃ k, o = .epilogue k) →
      let cleared := fun g : Segment => if c.clear then g.clearTile e.tile else g
      (c.dest = 0 → exec (.epilogueRun core) s
        = .next (complete (s.setSegment e.team e.seg (cleared (c.toSpad seg e.tile)))))
      ∧ (c.dest = 2 → s.engineStopped e.team 3 = false → exec (.epilogueRun core) s
        = .next (((if c.clear then s.setSegment e.team e.seg (seg.clearTile e.tile) else s).unqueueMat core e.pos).sendContribution
            (c.contribution s e (s.teamCtx e.team) seg)))
      ∧ (c.dest = 1 → ∀ k, let w := c.toMemory s core (s.context (s.teamCtx e.team)).asid.toNat seg e.tile
        w.segment e.team e.seg = some k →
        exec (.epilogueRun core) s = .next (complete (if c.clear then w.setSegment e.team e.seg (k.clearTile e.tile) else w))))
    ∧ (∀ c, e.op = .loop c → (∀ x ∈ before, (s.loopReady x).isSome = false) → c.fetched seg (seg.unfold e.tile) = true →
      let t := s.setSegment e.team e.seg (c.fold seg (seg.unfold e.tile) e.tile)
      (c.left ≤ 1 → exec (.matrixKStep core) s = .next (complete (if e.touched = [] then t else t.spoilTile e)))
      ∧ (1 < c.left → exec (.matrixKStep core) s = .next (t.setCore core { t.core core with
          matq := (t.core core).matq.map fun x => if x.pos = e.pos then { e with op := .loop c.advance } else x })))
    ∧ (∀ c, e.op = .loop c → after = [] → (∀ x ∈ before, (s.loopReady x).isSome = false) →
      c.fetched seg (seg.unfold e.tile) = false → exec (.matrixKStep core) s = .next s)

/-- 06 R204: a K-step changes exactly the M × N elements of its tile, each by one chunk update with the step's terms, and no other
element of any tile, byte, line state, peer or configuration of the segment. -/
def Sys2Proof.Claims.KStepFoldsTile : Prop :=
  ∀ (c : LoopCtl) (g : Segment) (u : Unfold) (tile t i j : Nat), c.m ≤ 128 → c.n ≤ 128 → i < 128 → j < 128 →
    let h := c.fold g u tile
    h.element t i j = (if t = tile ∧ i < c.m ∧ j < c.n then
        chunkUpdate (g.element t i j) (c.terms (c.rowA g u i) (c.colB g j) (c.scales g c.aBlk c.ascl i) (c.scales g c.bBlk c.bscl j))
      else g.element t i j)
    ∧ { h with tiles := g.tiles } = g

/-- 06 R193, R204, R207: clearing a tile makes its elements 0 and leaves the others; a loop's next step has one fewer left and its
addresses moved by their increments, A's only in a loop that is not virtual. -/
def Sys2Proof.Claims.TileAndLoopProgress : Prop :=
  ∀ (g : Segment) (c : LoopCtl) (tile t i j : Nat), i < 128 → j < 128 →
    (g.clearTile tile).element t i j = (if t = tile then 0 else g.element t i j)
    ∧ { g.clearTile tile with tiles := g.tiles } = g
    ∧ c.advance.left = c.left - 1 ∧ c.advance.step = c.step + 1
    ∧ (c.virt = true → c.advance.aaddr = c.aaddr) ∧ (c.virt = false → c.advance.aaddr = ((c.aaddr : Int) + c.ainc).toNat)
    ∧ c.advance.baddr = ((c.baddr : Int) + c.binc).toNat

/-- Matrix unit steps: zero, configuration, k-steps, reads, epilogue. -/
def Obligations.MatrixUnitRules : Prop := Claims.MatrixUnitSteps ∧ Claims.KStepFoldsTile ∧ Claims.TileAndLoopProgress

/-- 06 R216 to R224, Table 6-3: the copy streamer takes a step of the core's first copy in a direction whose team is not being saved:
COPY_IN_LINE reads the elements that begin in the next scratchpad line, once each, and writes them, then counts the line down, which
is full when no other copy pends on it;
COPY_OUT_ELEMENTS writes the next elements of one memory line to every device of the copy that has neither failed nor reported a page
fault, and reports once each device that it can no longer reach (log 39); the last step completes the copy's position, what it delivered
from overwritten bytes then undefined. A device that reports a page fault of its own drops that element, and its first report is a
copy-delivery check whether or not the copy has ended (log 37). -/
def Sys2Proof.Claims.CopyStreamerSteps : Prop :=
  ∀ core s j before after, (s.core core).copies = before ++ j :: after →
    (∀ x ∈ before, x.out ≠ j.out) → s.engineStopped j.team 2 = false →
    let complete := fun t : State => (t.setCopy core j.pos none).donePos j.uid j.pos
    (∀ line rest seg, j.out = false → j.lines = line :: rest →
      let w := (s.copyLine core j line).touch j.team j.seg ((j.starting line).map j.spadBytes).flatten
      w.segment j.team j.seg = some seg →
      let t := w.setSegment j.team j.seg (seg.countDown line)
      (rest = [] → exec (.copyInLine core) s = .next (complete t))
      ∧ (rest ≠ [] → exec (.copyInLine core) s = .next (t.setCopy core j.pos (some { j with lines := rest }))))
    ∧ (j.out = false → j.lines = [] → exec (.copyInLine core) s = .next (complete s))
    ∧ (j.out = true →
      let bad := j.devices.filter fun d => decide (d ∉ j.failed) && !s.copyReaches j.ctx d
      let failed := j.failed ++ bad
      let live := j.devices.filter fun d => decide (d ∉ failed) && !s.copyFaulted j.pos d
      let logged := bad.foldl (fun (st : State) d => st.logCheck j.ctx (Check.of 4 d 0)) s
      let t := live.foldl (fun st d => st.copyRun core j j.lineRun d) logged
      let n := j.next + j.lineRun.length
      (j.elements.length ≤ n → exec (.copyOutElements core) s
        = .next (complete (live.foldl (fun st d => st.spoilCopy j d) t)))
      ∧ (n < j.elements.length → exec (.copyOutElements core) s
        = .next (t.setCopy core j.pos (some { j with next := n, failed := failed }))))
    ∧ (∀ ctx d, s.copyReaches ctx d = true ↔
      d = s.dev ∨ ((s.remote d).reachable = true ∧ (s.context ctx).devset.getLsbD d = true))
    ∧ (∀ dev va r, s.replicas.find? (fun r => r.isOf j.pos dev) = some r →
      let marked : State := { s with replicas := s.replicas.map fun x => if x.isOf j.pos dev then { x with failed := true } else x }
      let dropped := (SMap.find r.wrote va).elim marked fun old =>
        marked.writePlace (marked.context r.ctx).asid.toNat (.remote dev va) old
      s.takeCopyFault j.pos dev va = if r.failed then dropped else dropped.logCheck r.ctx (Check.of 4 dev 0))
    ∧ (∀ dev va, s.replicas.find? (fun r => r.isOf j.pos dev) = none → s.takeCopyFault j.pos dev va = s)

/-- 06 R220: counting a line down leaves it pending and not full while another copy is, makes it full at the last one, and touches
no other line, byte or count. -/
def Sys2Proof.Claims.CopyLineCounts : Prop :=
  ∀ (g : Segment) (line l : Nat),
    let n := SMap.getD g.pend line 0
    let h := g.countDown line
    (l ≠ line → h.isFull l = g.isFull l ∧ SMap.getD h.pend l 0 = SMap.getD g.pend l 0)
    ∧ SMap.getD h.pend line 0 = n - 1
    ∧ (n ≤ 1 → h.isFull line = true) ∧ (1 < n → h.isFull line = g.isFull line)
    ∧ { h with pend := g.pend, full := g.full } = g

/-- Copy streamer steps and line counts. -/
def Obligations.CopyStreamerRules : Prop := Claims.CopyStreamerSteps ∧ Claims.CopyLineCounts

/-- 10 R298, R299; 12 R357, R358; 07 R233, R234: LAUNCH_INTAKE takes, while the context's intake is open, the head that reached its place
first: it accepts a sound packet, which takes the next launch number and waits as Blocked, and answers an unsound one with its code, by a
completion record or to the launching group; a host queue whose entry cannot be read stops with QERR. The packet behind the head of the
launching group's queue is its head from then on. An event whose condition fails changes nothing (log 86). -/
def Sys2Proof.Claims.LaunchIntakeRule : Prop :=
  ∀ ctx s n src before after, s.heads ctx = before ++ (n, src) :: after → (∀ y ∈ before, n < y.1) → (∀ y ∈ after, n ≤ y.1) →
    let accepted := fun (t : State) (pkt : BitVec 1024) (o : Origin) =>
      let c := t.context ctx
      ({ t.setContext ctx ({ c with
            nextLaunch := (c.nextLaunch + 1) % 2 ^ 32
            launches := c.launches ++ [⟨c.nextLaunch, pkt, o, .blocked, false, 0, t.nextOrder, 0⟩] } : Context).settleEvents with
          nextOrder := t.nextOrder + 1 } : State)
    (s.intakeOpen ctx = false → exec (.launchIntake ctx) s = .next s)
    ∧ (s.intakeOpen ctx = true → ∀ p q, src = some (p, q) →
      let x := (s.port p).queue q
      (s.readEntry p x = none → exec (.launchIntake ctx) s = .next (s.setQueue p q { x with
          qctl := (x.qctl &&& 0x7FFFFFFF) ||| 0x20000000, qtail := 0, qhead := 0, chead := 0 }))
      ∧ (∀ s1 bs, s.readEntry p x = some (s1, bs) →
        let pkt : BitVec 1024 := BitVec.ofNat 1024 (ofBytes bs)
        let r := (s1.setQueue p q { x with qhead := x.qhead + 1, since := s.now }).checkPacket ctx true pkt
        (r.2 = 0 → exec (.launchIntake ctx) s = .next (accepted r.1 pkt (.host p q x.qhead)))
        ∧ (r.2 ≠ 0 → exec (.launchIntake ctx) s = .next (r.1.complete p q x.qhead 0xFFFFFFFF r.2))))
    ∧ (s.intakeOpen ctx = true → src = none → ∀ d rest, (s.context ctx).devq = d :: rest →
      let behind := match rest with
        | [] => []
        | e :: es => { e with since := s.now } :: es
      let r := (s.setContext ctx { s.context ctx with devq := behind }).checkPacket ctx false d.packet
      let told := (accepted r.1 d.packet .device).answerScalar d.uid d.sd 0
      (r.2 = 0 → exec (.launchIntake ctx) s = .next (match told.teamOf d.uid with
        | some t => told.clearRestart t
        | none => told))
      ∧ (r.2 ≠ 0 → exec (.launchIntake ctx) s = .next (r.1.answerScalar d.uid d.sd (BitVec.ofNat 32 (0x100 + r.2)))))

/-- 10 R298, R300, R301; 02 R81: LAUNCH_UNBLOCK makes active the launch it names when that is Blocked and eligible and no unretired
launch with a smaller number conflicts with it, its first team waiting for placement from then on; no other launch changes. Numbers compare modulo 2^32, and two launches conflict
exactly when a granule of an entry 4..7 of the earlier lies in some entry of the later. -/
def Sys2Proof.Claims.LaunchDependences : Prop :=
  (∀ ctx num s, exec (.launchUnblock ctx num) s = .next (s.setContext ctx ((s.context ctx).unblock num s.now)))
  ∧ (∀ (c : Context) (num now k : Nat) (l : Launch), c.launches[k]? = some l →
      let free := l.num = num ∧ l.state = .blocked ∧ l.eligible = true
        ∧ ∀ e ∈ c.launches, smaller e.num l.num = true → conflicts e.packet l.packet = false
      (free → (c.unblock num now).launches[k]? = some { l with state := .active, since := now })
      ∧ (¬ free → (c.unblock num now).launches[k]? = some l))
  ∧ (∀ (c : Context) num now, { c.unblock num now with launches := c.launches } = c)
  ∧ (∀ a b, smaller a b = true ↔ 1 ≤ (BitVec.ofNat 32 b - BitVec.ofNat 32 a).toNat
      ∧ (BitVec.ofNat 32 b - BitVec.ofNat 32 a).toNat < 2 ^ 31)
  ∧ (∀ e l, conflicts e l = true ↔ ∃ i j x, 4 ≤ i ∧ i < 8 ∧ j < 8 ∧ (granules e i).1 ≤ x ∧ x < (granules e i).2
      ∧ (granules l j).1 ≤ x ∧ x < (granules l j).2)

/-- Launch intake, dependences and unblocking. -/
def Obligations.LaunchRules : Prop := Claims.LaunchIntakeRule ∧ Claims.LaunchDependences

/-- 10 R303, R304, R316; 01 R17; 09 R271: TEAM_PLACEMENT places the first team, in the order of R303, among those that fit, unless a
saved team that fits goes before it, whether or not firmware has asked for that team yet (log 15); a site is one core for each segment, rising within a quadrant that is not reserved for another launch, each with the registers, slots, scratchpad
and tiles its segment declares and in a cluster of the launch's mode, with an arena slot for each of its groups where the kernel has a
divergence stack; a new team starts as the next of its launch. -/
def Sys2Proof.Claims.PlacementRule : Prop :=
  (∀ s w cs as, w ∈ s.works → s.siteOf w = some (cs, as) →
      (∀ v ∈ s.works, (s.siteOf v).isSome = true → v = w ∨ rankBefore w.rank v.rank = true) →
      let waits := ∃ t ∈ s.savedTeams, rankBefore (s.savedRank t.2) w.rank = true ∧ (s.fitsDevice (64, t.1) t.2.packet).isSome = true
      (¬ waits → exec .teamPlacement s = .next (s.place w cs as)) ∧ (waits → exec .teamPlacement s = .next s))
  ∧ (∀ s, (∀ w ∈ s.works, s.siteOf w = none) → exec .teamPlacement s = .next s)
  ∧ (∀ (s : State) (w : Work) cs as,
      let arena := if (Header.ofPacket w.launch.packet).divstack = 0 then some []
        else match w.again with
          | some t => some (t.2.held.filterMap fun e => e.2.arena)
          | none => (s.context w.ctx).freeSlots (teamGrps w.launch.packet)
      s.siteOf w = some (cs, as) ↔ s.fitsDevice w.owner w.launch.packet = some cs ∧ arena = some as)
  ∧ (∀ (s : State) owner p cs, s.fitsDevice owner p = some cs →
      cs.length = segCount p ∧ cs.Pairwise (· < ·)
      ∧ ∃ k, k < 8 ∧ (∀ o, SMap.find s.reserved k = some o → o = owner)
        ∧ ∀ i c, cs[i]? = some c → c / 32 = k ∧ s.segFits p i c = true ∧ s.modeFits p c = true)
  ∧ (∀ (s : State) p k core, s.segFits p k core = true →
      let h := Header.ofPacket p
      total Group.vregs (s.onCore core) + segRegs p k ≤ 4096 ∧ (s.onCore core).length + segSize p k ≤ 64
      ∧ total Team.scratch (s.segsWhere (· == core)) + h.scratch ≤ 262144
      ∧ total (fun t => (Header.ofPacket t.packet).acctiles) (s.segsWhere (· == core)) + h.acctiles ≤ 4)

/-- 10 R302, R303; 12 R358: QUADRANT_RESERVATION gives the team of the launch that has waited longest and fits nowhere, its 100 microseconds
taken as past (log 48), when no other waits for a reservation, the unreserved quadrant with the fewest resident groups, the lowest among
equals; with every quadrant reserved the team waits for its turn; LAUNCH_RETIRE, once all teams of a launch have started and finished, sets
its events, removes it alone with its reservations, and writes the completion record of a host packet. An event whose condition fails changes
nothing (log 86). -/
def Sys2Proof.Claims.ReservationAndRetirement : Prop :=
  ∀ ctx num s,
    (s.waiters ctx num = [] → exec (.quadrantReservation ctx num) s = .next s)
    ∧ (∀ before after n o, s.waiters ctx num = before ++ (n, o) :: after → (∀ w ∈ before, n < w.1) → (∀ w ∈ after, n ≤ w.1) →
      s.awaiting = [] →
      (∀ k, k < 8 → SMap.has s.reserved k = false →
        (∀ j, j < 8 → SMap.has s.reserved j = false → s.quadGroups k < s.quadGroups j ∨ (s.quadGroups k = s.quadGroups j ∧ k ≤ j)) →
        exec (.quadrantReservation ctx num) s = .next { s with reserved := SMap.insert s.reserved k o })
      ∧ ((∀ k, k < 8 → SMap.has s.reserved k = true) → exec (.quadrantReservation ctx num) s = .next { s with awaiting := [o] }))
    ∧ (∀ before l after, (s.context ctx).launches = before ++ l :: after → l.num = num →
      (∀ k ∈ before ++ after, k.num ≠ num) →
      let ended := l.state = .active ∧ gridTeams l.packet ≤ l.next
        ∧ ∀ t ∈ s.teams, t.2.ctx = ctx → t.2.launch = num → t.2.handler = true
      let c := (s.context ctx).applyEvents 0 (l.packet.extractLsb' 768 256)
      let t := (s.setContext ctx { c with launches := c.launches.filter fun k => k.num != num }).release (· == (ctx, num))
      (¬ ended → exec (.launchRetire ctx num) s = .next s)
      ∧ (ended → l.origin = .device → exec (.launchRetire ctx num) s = .next t)
      ∧ (ended → ∀ p q n, l.origin = .host p q n → exec (.launchRetire ctx num) s = .next (t.complete p q n num 0)))

/-- Team placement, reservation and retirement. -/
def Obligations.PlacementRules : Prop := Claims.PlacementRule ∧ Claims.ReservationAndRetirement

/-- 01 R11, R14, R18, R19, Table 1-1; 02 R79: a group starts with v0 its lane numbers and every other vector register, latch and predicate
0, its first scalars as given and the others 0, GSTAT 0x0B00_0000, and one path of all lanes at the kernel's entry; a segment starts with
its scratchpad, tiles and peers 0, every line empty and no tile VALID. Its latches are 0 at the start by log 1, the model's choice. -/
def Sys2Proof.Claims.GroupAndSegmentStart : Prop :=
  ∀ (b : Birth) (h : Header) (kaddr now : Nat) (ws : List Word) (core n : Nat),
    let g := Group.start b h kaddr ws now
    (∀ r l, l < 32 → g.vr r l = if r = 0 then BitVec.ofNat 32 l else 0)
    ∧ (∀ j l, 124 ≤ j → l < 32 → g.src j l = 0) ∧ (∀ j, g.pred j = 0) ∧ (∀ r, g.sr r = ws.getD r 0)
    ∧ g.gstat = 0x0B000000
    ∧ g.slotA = some ⟨0xFFFFFFFF, BitVec.ofNat 64 (kaddr + 64), none, 0, 0, 0, none, .ready⟩ ∧ g.slotB = none
    ∧ g.ex = 0 ∧ g.dsp = 0 ∧ g.status = .running ∧ g.positions = [] ∧ g.queue = [] ∧ g.loads = [] ∧ g.answers = []
    ∧ g.vregs = (if b.producer then h.regsP else h.regsC) ∧ g.sregs = h.sregs ∧ g.priv = b.priv
    ∧ (∀ a, (Segment.start core n).read a 1 = [0]) ∧ (∀ l, (Segment.start core n).isFull l = false)
    ∧ (∀ t i j, (Segment.start core n).element t i j = 0)
    ∧ (∀ q, SMap.getD (Segment.start core n).peers q 0 = 0)
    ∧ (∀ t, SMap.find (Segment.start core n).cfg t = none)

/-- 07 R237: HANDLER_START starts, for the first queued message of a context whose group fits, one group at U in a free slot, its scalars
the table's ARG, the message's words and its source; the message leaves the queue. Going on to the next message of the queue where the first
fits nowhere is log 27, a team and a segment of the handler's own log 25, the model's choices. In a cluster that is not fused no other group and no byte
of memory changes; a fused one takes its normal mode first (09 R271). Its latches are 0 at the start by log 1, the model's choice. -/
def Sys2Proof.Claims.HandlerGroups : Prop :=
  ∀ core s j rest slot arena, (s.core core).msgq = j :: rest → s.handlerFits core j = true →
    s.freeSlot core = some slot → s.handlerArena j = some arena →
    let taken := s.setCore core { s.core core with msgq := rest }
    exec (.handlerStart core) s = .next (taken.startHandler core slot j arena)
    ∧ ∃ t h, exec (.handlerStart core) s = .next t ∧ t.group (groupKey core slot) = some h
      ∧ t.team s.nextTeam = some (handlerTeam j core) ∧ t.nextTeam = s.nextTeam + 1 ∧ t.nextUid = s.nextUid + 1
      ∧ h.priv = .user ∧ h.producer = true ∧ h.ctx = j.ctx ∧ h.team = s.nextTeam ∧ h.uid = s.nextUid
      ∧ h.slotA = some ⟨0xFFFFFFFF, BitVec.ofNat 64 (kernelOf j.packet + 64), none, 0, 0, 0, none, .ready⟩
      ∧ h.sr 0 = BitVec.ofNat 32 (pktField j.packet 1 0 56) ∧ h.sr 1 = BitVec.ofNat 32 (pktField j.packet 1 0 56 / 2 ^ 32)
      ∧ (∀ r, 2 ≤ r → r < 8 → h.sr r = j.words.getD (r - 2) 0)
      ∧ h.sr 8 = BitVec.ofNat 32 j.srcCore ∧ h.sr 9 = BitVec.ofNat 32 j.srcDev
      ∧ (core / 4 ∉ s.fusedClusters →
        (∀ k, k ≠ groupKey core slot → t.group k = s.group k) ∧ (t.core core).msgq = rest ∧ t.mem = s.mem)

/-- What a segment, a group and a handler start with. -/
def Obligations.StartRules : Prop := Claims.GroupAndSegmentStart ∧ Claims.HandlerGroups

/-- 10 R314, R318, Table 10-7; 05 R188: PREEMPT_REQUEST freezes a resident team that is not over and records the request, a second one
merging with the first, while a team of which every group is Done is not frozen at all (log 84); ENGINE_ACK records the class it names, after class 0, once that class has stopped; PREEMPT_DECIDE, with every class
acknowledged and the groups quiet, discards a restartable team of which no group is trapped and saves any other; a team that is over it gives
back whatever the classes have acknowledged, Table 10-7 saying only that nothing is saved (log 84, the model's reading); SUBSCRIPTION_PARK parks the team's entries once its groups are quiet. Class 0 also asks the homes of the team's subscriptions on
other devices. An event whose condition fails changes nothing (log 86). -/
def Obligations.PreemptionSteps : Prop :=
  ∀ team s x, s.team team = some x →
    let ended := ∀ e ∈ s.teamGroups team, e.2.status = .done
    let frozen := s.groups.map fun e => if e.2.team = team ∧ e.1 % 128 < 64 then
      (e.1, { e.2 with freeze := { e.2.freeze with preempt := true } }) else e
    (x.saved = none → x.restart = false → ¬ ended →
      ((∀ p ∈ s.preempts, p.team ≠ team) → exec (.preemptRequest team) s
        = .next { s with groups := frozen, preempts := s.preempts ++ [⟨team, [], none, none⟩] })
      ∧ ((∃ p ∈ s.preempts, p.team = team) → exec (.preemptRequest team) s = .next s))
    ∧ (x.saved.isSome = true ∨ x.restart = true ∨ ended → exec (.preemptRequest team) s = .next s)
    ∧ (∀ cls p, s.preempts = [p] → p.team = team →
      let may := cls < 6 ∧ cls ∉ p.acks ∧ (cls = 0 ∨ 0 ∈ p.acks) ∧ s.classStopped team cls = true
      let acked : State := { s with preempts := [{ p with acks := p.acks ++ [cls] }] }
      (may → cls ≠ 0 → exec (.engineAck team cls) s = .next acked)
      ∧ (may → cls = 0 → s.homeDevices team = [] → p.homes = none → exec (.engineAck team cls) s
        = .next { s with preempts := [{ p with acks := p.acks ++ [0], homes := some [] }] })
      ∧ (may → cls = 0 → exec (.engineAck team cls) s = .next (acked.askHomes team))
      ∧ (¬ may → exec (.engineAck team cls) s = .next s))
    ∧ (∀ p, s.preempts = [p] → p.team = team →
      let ready := (∀ c, c < 6 → c ∈ p.acks) ∧ s.teamQuiet team = true
      let noTrap := ∀ e ∈ s.teamGroups team, e.2.status ≠ .trapped
      (ended → exec (.preemptDecide team) s = .next (s.giveBack team 0))
      ∧ (¬ ended → ¬ ready → exec (.preemptDecide team) s = .next s)
      ∧ (¬ ended → ready → x.restartable = true → noTrap →
        exec (.preemptDecide team) s = .next ((s.discard team x).endPreempt team 0))
      ∧ (¬ ended → ready → x.restartable = false ∨ ¬ noTrap → exec (.preemptDecide team) s = .next (s.save team x)))
    ∧ (∀ h, (∀ m ∈ s.net, m.isPark team = false) →
      ((∃ p ∈ s.preempts, p.team = team ∧ 0 ∈ p.acks) →
        ∃ y, exec (.subscriptionPark h team) s = .next (s.setSlice h y)
          ∧ { y with subs := (s.slice h).subs } = s.slice h
          ∧ ∀ n, SMap.find y.subs n = (SMap.find (s.slice h).subs n).map fun e =>
              if e.team = team ∧ e.dev = s.dev then { e with park := true } else e)
      ∧ ((¬ ∃ p ∈ s.preempts, p.team = team ∧ 0 ∈ p.acks) → exec (.subscriptionPark h team) s = .next s))

/-- 10 R316, R318, R319: saving writes the team's image to the lowest free slot and takes the team from its cores, or gives it back,
firmware told, with result 3 when no slot is large enough and with 4 when the image cannot be written; discarding keeps its groups' places for the
restart; either way its groups have left the cores. -/
def Sys2Proof.Claims.SaveAndDiscard : Prop :=
  ∀ (s : State) team x,
    let c := s.context x.ctx
    let img := s.imageOf team x
    let told := fun (st : State) n => if FwNote.notSaved team n ∈ st.fwNotes then st
      else { st with fwNotes := st.fwNotes ++ [FwNote.notSaved team n] }
    (c.saveSlot = none → s.save team x = told (s.giveBack team 3) 3)
    ∧ (∀ n, c.saveSlot = some n →
      (n < c.saveslots.toNat ∧ n ∉ c.saveUsed ∧ ∀ m, m < n → m ∈ c.saveUsed)
      ∧ (c.saveslotsz.toNat < img.length → s.save team x = told (s.giveBack team 3) 3)
      ∧ (∀ k, img.length ≤ c.saveslotsz.toNat →
        s.homeWriteRun c.asid.toNat (c.savebase.toNat + n * c.saveslotsz.toNat) img = .error k →
        s.save team x = told ((s.spoilRun c.asid.toNat (c.savebase.toNat + n * c.saveslotsz.toNat) c.saveslotsz.toNat).giveBack team 4) 4)
      ∧ (∀ t, img.length ≤ c.saveslotsz.toNat →
        s.homeWriteRun c.asid.toNat (c.savebase.toNat + n * c.saveslotsz.toNat) img = .ok t →
        (s.save team x).teamGroups team = []
        ∧ ∃ y : Team, (s.save team x).team team = some y ∧ y.saved = some n ∧ y.held = ((t.inOrder team).map fun e => (e.1, { e.2 with savedFrz := bit e.2.xflags 0 }))
          ∧ y.since = s.now
          ∧ { y with saved := x.saved, held := x.held, heldMat := x.heldMat, heldCopy := x.heldCopy, since := x.since } = x))
    ∧ (s.discard team x).teamGroups team = []
    ∧ (s.discard team x).team team = some { x with held := s.inOrder team, restart := true, since := s.now }

/-- 10 R316, R320: an image names its team: the launch, the coordinates and the PACKET of its header, and what that PACKET declares. That it
does so before the team is placed, and that the groups stay with how many they are, how they are cut into segments, and, where the image's
PRODUCER leaves a segment no other group, PRODUCER, is the model's reading of R320 (log 52); an image that is another device's or has not the size of the team it names, or that cannot be read, names none. TEAM_RESTORE puts
a saved team, as its image names it, back from the image when it fits, with room for its matrix positions (log 96) and nothing that fits
before it in order; of an image that names no team, or cannot be read, firmware is told (log 15), and the team stays saved; else nothing
changes. An event whose condition fails changes nothing (log 86). -/
def Sys2Proof.Claims.RestoreRule : Prop :=
  ∀ team s x slot, s.team team = some x → x.saved = some slot →
    let c := s.context x.ctx
    let told : State := if FwNote.notRestored team ∈ s.fwNotes then s
      else { s with fwNotes := s.fwNotes ++ [FwNote.notRestored team] }
    let at' := c.savebase.toNat + slot * c.saveslotsz.toNat
    (∀ k, s.homeLoad c.asid.toNat at' 256 = .error k → s.savedImage x slot = none)
    ∧ (∀ s1 hd, s.homeLoad c.asid.toNat at' 256 = .ok (s1, hd) →
      let y := x.named hd
      let cut : BitVec 1024 := BitVec.ofNat 1024 (0x1FFFF * 2 ^ 192)
      let lead : BitVec 1024 := BitVec.ofNat 1024 (0x3F * 2 ^ 239)
      let q := (BitVec.ofNat 1024 (fieldAt hd 128 128) &&& ~~~cut) ||| (x.packet &&& cut)
      let p := if goodSegments q then q else (q &&& ~~~lead) ||| (x.packet &&& lead)
      let size := 256 + x.segs.length * segmentBlockSize y + total (fun e => groupBlockSize (e.2.declare p)) x.held
      let good := fieldAt hd 0 4 = 0x31565354 ∧ fieldAt hd 4 4 = Config.impl.toNat ∧ fieldAt hd 24 4 = size
      (good → s.savedImage x slot = some y) ∧ (¬ good → s.savedImage x slot = none)
      ∧ y = { x with launch := fieldAt hd 8 4, x := fieldAt hd 12 2, y := fieldAt hd 14 2, z := fieldAt hd 16 2, packet := p,
                     scratch := (Header.ofPacket p).scratch, fused := fusedLaunch p })
    ∧ (s.savedImage x slot = none → exec (.teamRestore team) s = .next told)
    ∧ (∀ y, s.savedImage x slot = some y →
      (s.fitsDevice (savedOwner team) y.packet = none → exec (.teamRestore team) s = .next s)
      ∧ (∀ cores, s.fitsDevice (savedOwner team) y.packet = some cores →
        (s.queuesFit y cores = false ∨ s.mayRestore team y = false → exec (.teamRestore team) s = .next s)
        ∧ (s.queuesFit y cores = true → s.mayRestore team y = true →
          (∀ k, s.homeLoad c.asid.toNat at' y.imageSize = .error k → exec (.teamRestore team) s = .next told)
          ∧ (∀ s1 img, s.homeLoad c.asid.toNat at' y.imageSize = .ok (s1, img) →
            exec (.teamRestore team) s = .next (s1.restoreOn team y slot img cores)))))

/-- Saving, discarding and restoring a team. -/
def Obligations.SaveAndRestoreRules : Prop := Claims.SaveAndDiscard ∧ Claims.RestoreRule

/-- 07 R232, R235 to R237: EVENT_UNIT_APPLY applies one request; ACTIVE_MESSAGE_ARRIVAL takes a message that no earlier one from its core to
the target precedes: its target queues it with status 0, or turns it away with 1 (no handler) or 3 (a full queue), and the answer goes back;
ACTIVE_MESSAGE_ANSWER writes the status to the sender's scalar register, which is outstanding no longer, the oldest request of the message
to another device among those not yet answered being answered. Status 1 for a message of another device whose domain context tag no running
context has is 11 R337 with log 47, the model's choice of which error is found first. An event whose condition fails changes nothing (log 86). -/
def Obligations.ActiveMessages : Prop :=
  (∀ ctx clear set s, exec (.eventUnitApply ctx clear set) s
    = .next (s.setContext ctx ((s.context ctx).applyEvents clear set)))
  ∧ (∀ s m rest, s.net = .active m :: rest →
      let t : State := { s with net := rest }
      let answer := fun (u : State) (w : Word) => u.sendTo (m.core / 128) m.srcDev m.dctag (.activeAns m.uid m.sd w (1024 * s.dev + m.core))
      (t.messageCtx m = none → exec (.activeMessageArrival 0) s = .next (answer t 1))
      ∧ (∀ c, t.messageCtx m = some c →
        let r := t.handlerOf c m.core m.handler
        (r.2 = none → exec (.activeMessageArrival 0) s = .next (answer r.1 1))
        ∧ (∀ p, r.2 = some p → 16 ≤ (r.1.core m.core).msgq.length → exec (.activeMessageArrival 0) s = .next (answer r.1 3))
        ∧ (∀ p, r.2 = some p → (r.1.core m.core).msgq.length < 16 → exec (.activeMessageArrival 0) s
          = .next (answer (r.1.setCore m.core { r.1.core m.core with
              msgq := (r.1.core m.core).msgq ++ [⟨c, p, m.words, m.srcCore, m.srcDev⟩] }) 0))))
  ∧ (∀ s m k between after, s.net = .active k :: between ++ .active m :: after → (∀ x ∈ between, x.isActive = false) →
      k.srcCore = m.srcCore → k.srcDev = m.srcDev → k.core = m.core → exec (.activeMessageArrival 1) s = .next s)
  ∧ (∀ s uid sd w src rest, s.net = .activeAns uid sd w src :: rest → exec (.activeMessageAnswer 0) s
      = .next ((({ s with net := rest } : State).answered (Msg.askedBy uid sd)).answerScalar uid sd w))
  ∧ (∀ (t : State) uid sd w, t.answerScalar uid sd w = { t with groups := t.groups.map fun e => if e.2.uid = uid then
      (e.1, { e.2.setSr sd w with answers := dropFirst sd e.2.answers, asked := dropFirst sd e.2.asked }) else e })
  ∧ (∀ (t : State) (f : Msg → Bool), ((∀ e ∈ t.outbox, f e.2.msg = false) → t.answered f = t)
      ∧ ∀ before e after, t.outbox = before ++ e :: after → (∀ x ∈ before, f x.2.msg = false) → f e.2.msg = true →
        t.answered f = { t with outbox := before ++ after })

/-- 05 R179 to R188; 09 R287, R292; 11 R337: SUBSCRIBE_REQUEST answers a block in host memory with code 4, one of an unreachable device with
3, and at its home settles the line, then answers a full table with 1 and installs any other; another device's request is in the space its
tag maps to, code 3 where it maps to none, of a page that is mapped and that devices may share, else the requester is told of the fault (log
101). UNSUBSCRIBE_REQUEST removes the entry its owner's handle names; the answer to another device waits for the pushes sent to it that it
has not reported as written, and that here for those still on their way. STATUS_QUERY answers that entry's status, or 0; SUBSCRIBE_ANSWER
writes the handle, no sector of a line that another device is home of then staying in U, E or M here, and a failure frees the line and
completes the position; a subscription made for a team that has ended with its context is taken out again at its home (12 Table 12-5);
PUSH_ARRIVAL delivers pushes in order and reports them to a home
on another device, and, like UNSUB, waits while the team is away (log 31); EMPTY_NOTICE_ARRIVAL is taken by its entry. An event whose
condition fails changes nothing (log 86). -/
def Sys2Proof.Claims.SubscriptionMessages : Prop :=
  (∀ s (r : SubReq) rest, s.net = .subReq r :: rest →
      let t : State := { s with net := rest }
      let fails := fun (u : State) (code : Nat) =>
        u.sendTo 0 r.dev r.dctag (.subAns s.dev r.uid r.sd (BitVec.ofNat 32 (2 ^ 31 + code)) r.pos)
      let faults := fun (k : XKind) => t.sendTo (dieOf (homeSlice r.dctag r.block)) r.dev r.dctag
        (.xlFault s.dev r.dctag r.block (k == .permission))
      let inSpace := fun (q : SubReq) (asid : Nat) =>
        let key := secKey asid q.block
        let u := t.settleLine key
        let subs := (u.slice (u.homeAt key)).subs
        (∀ p a, t.keyPlace key = some (.host p a) → exec (.subscribeRequest 0) s = .next (fails t 4))
        ∧ (∀ d a, t.keyPlace key = some (.remote d a) → (t.remote d).reachable = false →
          exec (.subscribeRequest 0) s = .next (fails t 3))
        ∧ (∀ d a, t.keyPlace key = some (.remote d a) → (t.remote d).reachable = true →
          exec (.subscribeRequest 0) s = .next (t.sendTo 0 d q.dctag (.subReq q)))
        ∧ (∀ a, t.keyPlace key = some (.vault a) →
          ((∀ n, n < 1024 → SMap.has subs n = true) → exec (.subscribeRequest 0) s = .next (fails u 1))
          ∧ (∀ n, n < 1024 → SMap.has subs n = false → (∀ k, k < n → SMap.has subs k = true) →
            exec (.subscribeRequest 0) s = .next (u.install q asid n)))
      (r.dev = s.dev → inSpace r r.asid)
      ∧ (r.dev ≠ s.dev → t.ctxOfTag r.dctag = none → exec (.subscribeRequest 0) s = .next (fails t 3))
      ∧ (∀ c, r.dev ≠ s.dev → t.ctxOfTag r.dctag = some c →
        (∀ k, t.translate (t.context c).asid.toNat r.block needNone = .error k →
          exec (.subscribeRequest 0) s = .next (faults k))
        ∧ (∀ y, t.translate (t.context c).asid.toNat r.block needNone = .ok y →
          (y.leaf.xdev = false → exec (.subscribeRequest 0) s = .next (faults .permission))
          ∧ (y.leaf.xdev = true → inSpace { r with block := y.va } y.asid))))
  ∧ (∀ s src uid sd (w : Word) pos rest, s.net = .subAns src uid sd w pos :: rest →
      let heard := fun t : State => (t.answered (Msg.ofPosition uid pos)).answerScalar uid sd w
      (w.getLsbD 31 = true → exec (.subscribeAnswer 0) s
        = .next (((heard { s with net := rest }).mapBound uid pos fun _ => none).donePos uid pos))
      ∧ (w.getLsbD 31 = false → let t := heard (({ s with net := rest } : State).disown uid pos w)
        exec (.subscribeAnswer 0) s
          = .next (((t.boundOf uid pos).foldl State.settleAbroad t).mapBound uid pos fun b => some { b with handle := some w })))
  ∧ (∀ (t : State) uid pos (w : Word),
      let orphan := fun (x : Nat × Parcel) (r : SubReq) =>
        x.2.msg = .subReq r ∧ r.uid = uid ∧ r.pos = pos ∧ t.team r.team = none
      ((∀ x ∈ t.outbox, ∀ r, ¬ orphan x r) → t.disown uid pos w = t)
      ∧ (∀ before x after r, t.outbox = before ++ x :: after → (∀ y ∈ before, ∀ k, ¬ orphan y k) → orphan x r →
        t.disown uid pos w = t.sendTo 0 x.1 r.dctag (.unsub t.dev r.dctag uid r.team r.seg w pos)))
  ∧ (∀ (t : State) (b : Bound), t.settleAbroad b
      = if b.handle = none ∧ t.remoteLine (b.block / 32) = true then t.settleLine (b.block / 32) else t)
  ∧ (∀ s uid team seg w pos rest, s.net = .unsubAns uid team seg w pos :: rest →
      let t := ({ s with net := rest } : State).answered (Msg.ofPosition uid pos)
      let comes := ∃ d h idx a b c e f gen, Msg.push d h idx a b c e f gen ∈ rest ∧ handleOf d h idx gen = w
      (comes → exec (.subscribeAnswer 0) s = .next s)
      ∧ (¬ comes → exec (.subscribeAnswer 0) s = .next ((t.unbindHandle team seg w).donePos uid pos)))
  ∧ (∀ s src uid sd w rest, s.net = .queryAns src uid sd w :: rest → exec (.subscribeAnswer 0) s
      = .next ((({ s with net := rest } : State).answered (Msg.askedBy uid sd)).answerScalar uid sd w))
  ∧ (∀ s d h idx team seg line strict p gen rest, s.net = .push d h idx team seg line strict p gen :: rest →
      let t := ({ s with net := rest } : State).deliverPush team seg line strict p (handleOf d h idx gen)
      (s.away team = false → d = s.dev → exec (.pushArrival 0) s = .next t)
      ∧ (s.away team = false → d ≠ s.dev →
        exec (.pushArrival 0) s = .next (t.reportWritten d team (handleOf d h idx gen)))
      ∧ (s.away team = true → exec (.pushArrival 0) s = .next s))
  ∧ (∀ s src h idx gen rest, s.net = .notice src h idx gen :: rest →
      exec (.emptyNoticeArrival 0) s = .next (({ s with net := rest } : State).takeNotice h idx gen))
  ∧ (∀ s dev tag uid team seg w pos rest, s.net = .unsub dev tag uid team seg w pos :: rest →
      let flies := ∃ e ∈ s.flying, e.1 = w
      (dev = s.dev → s.away team = true → exec (.unsubscribeRequest 0) s = .next s)
      ∧ (dev ≠ s.dev → flies → exec (.unsubscribeRequest 0) s = .next (s.unsubscribe dev team seg w))
      ∧ (dev = s.dev → s.away team = false → exec (.unsubscribeRequest 0) s = .next
        ((({ s with net := rest } : State).unsubscribe dev team seg w).sendTo 0 dev tag (.unsubAns uid team seg w pos)))
      ∧ (dev ≠ s.dev → ¬ flies → exec (.unsubscribeRequest 0) s = .next
        ((({ s with net := rest } : State).unsubscribe dev team seg w).sendTo 0 dev tag (.unsubAns uid team seg w pos))))
  ∧ (∀ s dev tag uid sd team seg w rest, s.net = .query dev tag uid sd team seg w :: rest →
      let t : State := { s with net := rest }
      ∀ v, (∀ h n e, t.ownEntry dev team seg w = some (h, n, e) → v = e.status) → (t.ownEntry dev team seg w = none → v = 0) →
      (dev = s.dev → exec (.statusQuery 0) s = .next (t.answerScalar uid sd v))
      ∧ (dev ≠ s.dev → exec (.statusQuery 0) s = .next (t.sendTo 0 dev tag (.queryAns s.dev uid sd v))))

/-- 05 R183, Table 5-10: a push writes its slot line and no other byte: the block's data, zeros to byte 111, SEQ at 112, OVR at 116
and TIME at 120; the line becomes full and every other line stays as it was. OVR of a COALESCE push counts the pushes the line did
not show. -/
def Sys2Proof.Claims.PushWritesSlotLine : Prop :=
  ∀ (g : Segment) (line : Nat) (strict : Bool) (p : Push) (w : Word), p.data.length ≤ 64 →
    let first := ∃ b, SMap.find g.bound line = some b ∧ b.last = none
    let old := ofBytes (g.read (128 * line + 116) 4)
    let h := g.takePush line strict p w
    h.read (128 * line) p.data.length = p.data
    ∧ (∀ k, p.data.length ≤ k → k < 112 → h.read (128 * line + k) 1 = [0])
    ∧ h.read (128 * line + 112) 4 = toBytes 4 p.seq.toNat
    ∧ (strict = true → h.read (128 * line + 116) 4 = toBytes 4 p.ovr.toNat)
    ∧ (strict = false → g.isFull line = false → ¬ first → h.read (128 * line + 116) 4 = toBytes 4 p.ovr.toNat)
    ∧ (strict = false → g.isFull line = true → ¬ first →
        h.read (128 * line + 116) 4 = toBytes 4 ((old + 1 + p.ovr.toNat) % 2 ^ 32))
    ∧ (strict = false → first → h.read (128 * line + 116) 4 = [0, 0, 0, 0])
    ∧ h.read (128 * line + 120) 8 = toBytes 8 p.time.toNat
    ∧ (∀ a, a < 128 * line ∨ 128 * line + 128 ≤ a → h.read a 1 = g.read a 1)
    ∧ h.isFull line = true ∧ (∀ l, l ≠ line → h.isFull l = g.isFull l)
    ∧ h.tiles = g.tiles ∧ h.pend = g.pend ∧ h.peers = g.peers ∧ h.cfg = g.cfg

/-- 05 R184: an empty notice of a STRICT entry's use clears DLV when nothing is held, and otherwise sends the oldest held push; the
lapse push, the last held one of an entry that is to lapse, lapses it. A stale notice, or one of a COALESCE entry, does nothing. -/
def Sys2Proof.Claims.EmptyNoticeRule : Prop :=
  ∀ (s : State) h idx gen e, SMap.find (s.slice h).subs idx = some e →
    let put := fun k : SubEntry => s.setSlice h { s.slice h with subs := SMap.insert (s.slice h).subs idx k }
    let sync := fun t : State => (run (secKey e.asid e.block / 4 * 4) 4).foldl State.syncDir t
    (e.strict = false ∨ e.gen ≠ gen → s.takeNotice h idx gen = s)
    ∧ (e.strict = true → e.gen = gen → e.held = [] → s.takeNotice h idx gen = put { e with dlv := false })
    ∧ (∀ p rest, e.strict = true → e.gen = gen → e.held = p :: rest →
      (e.state = .lapsePending → rest = [] → s.takeNotice h idx gen
        = sync ((put { e with dlv := true, held := [], state := .lapsed }).sendPush h idx
            { e with dlv := true, held := [], state := .lapsed } p))
      ∧ (e.state ≠ .lapsePending ∨ rest ≠ [] → s.takeNotice h idx gen
        = sync ((put { e with dlv := true, held := rest }).sendPush h idx { e with dlv := true, held := rest } p)))

/-- Subscription messages, pushes into slot lines, empty notices. -/
def Obligations.SubscriptionRules : Prop := Claims.SubscriptionMessages ∧ Claims.PushWritesSlotLine ∧ Claims.EmptyNoticeRule

/-- 05 R162, R164, R167; 09 R269, R270, R274, R275, R278, R292, Tables 9-3, 9-4; 11 R337: MISS_REQUEST fills a sector that a read waits for
and brings one that a store waits for into M or E, with the page's permission; U_GRANT_REQUEST grants U to a cache where an update waits and
that has none; FAR_ACCESS performs at its home, in its group's order; FORWARDED_READ takes the data of an M or E owner that another agent
reads, which keeps the sector in S, or of its write-back buffer, the reader then in S, or the home where that is another device;
INVALIDATE removes a copy that another agent's write
waits for, an M owner's data going home, and a buffer's. A die-level cache answers with the L1s it includes, also to a home on another
device. A cache of another device asks for itself, by domain context tag, and takes free bytes where it writes (log 106); the home refuses a
page that is not mapped or not shared. That these events act only while an access waits is log 58. An event whose condition fails changes nothing (log 86). -/
def Obligations.CoherenceRequests : Prop :=
  ∀ cache asid va (s : State),
    let n := s.localCache cache
    (n < 512 → ∀ (t : Xl), s.translateBy (some (n / 128)) asid va needR = .ok t →
      let key := (t.asid * 2 ^ 56 + t.va) / 32
      (s.wantsRead n key = true → exec (.missRequest cache asid va false) s = .next (s.readSec n key).1)
      ∧ (s.wantsRead n key = false → exec (.missRequest cache asid va false) s = .next s))
    ∧ (n < 512 → ∀ t, s.translateBy (some (n / 128)) asid va needW = .ok t →
      let key := (t.asid * 2 ^ 56 + t.va) / 32
      (s.wantsStore n key = true → exec (.missRequest cache asid va true) s = .next (s.ownSec n key).1)
      ∧ (s.wantsStore n key = false → exec (.missRequest cache asid va true) s = .next s)
      ∧ (∀ op : BitVec 4, let o := UOp.ofCode op.toNat
        let asked := (∃ g ∈ s.groupsOf n, s.pendingAt g (MemOp.updates o) key = true)
          ∧ s.updatesAtHome (t.asid * 2 ^ 56 + t.va) = false ∧ s.holdsU n key o = false
        (asked → exec (.uGrantRequest cache asid va op) s = .next (s.grantU n key o))
        ∧ (¬ asked → exec (.uGrantRequest cache asid va op) s = .next s)))
    ∧ (∀ k w, n < 512 → s.translateBy (some (n / 128)) asid va (if w then needW else needR) = .error k →
      exec (.missRequest cache asid va w) s = .next s)
    ∧ (512 ≤ n → ∀ w, let dev := n / 512 - 1
      (∀ k, s.lookupAbroad asid va (if w then needW else needR) = .error k →
        ((s.remote dev).reachable = true → exec (.missRequest cache asid va w) s
          = .next (s.sendTo (dieOf (homeSlice asid va)) dev asid (.xlFault s.dev asid va (k == .permission))))
        ∧ ((s.remote dev).reachable = false → exec (.missRequest cache asid va w) s = .next s))
      ∧ (∀ t, s.lookupAbroad asid va (if w then needW else needR) = .ok t →
        let key := (t.asid * 2 ^ 56 + t.va) / 32
        let served := fun u : State => u.toHolder n 2 key
        (s.sharesLine n t = false → exec (.missRequest cache asid va w) s = .next s)
        ∧ (s.sharesLine n t = true → w = false → exec (.missRequest cache asid va w) s = .next (served (s.readSec n key).1))
        ∧ (s.sharesLine n t = true → w = true → s.subscribed key = true →
          exec (.missRequest cache asid va w) s = .next (served s))
        ∧ (s.sharesLine n t = true → w = true → s.subscribed key = false → exec (.missRequest cache asid va w) s
          = .next (served ((s.ownSec n key).1.foreignBytes n key fun _ => .m)))))
    ∧ (∀ a uid op rest, s.net = .far a uid op :: rest →
      exec (.farAccess 0) s = .next (({ s with net := rest } : State).performFor uid op).endAll)
    ∧ (let key := s.tagFor asid va / 32
      let owner := ∃ h ∈ s.holders key, s.answering n key h.1 = true ∧ (h.2.1 = .m ∨ h.2.1 = .e)
      let holder := ∃ h ∈ s.holders key, s.answering n key h.1 = true
      let owes := fun (e : Nat × Cache) d => s.answering n key e.1 = true ∧ SMap.find e.2.wbuf key = some (d, false)
      let written := (∃ e ∈ s.groups, s.cacheOf (e.1 / 128) ≠ n ∧ s.wantsWrite (s.cacheOf (e.1 / 128)) key = true)
        ∨ s.farWants key = true
      let share := (s.shareAt key (s.answering n key)).syncDir key
      let shared := fun (t : State) d => t.setCache n ((t.cache n).put key .s d)
      let gone := fun (t : State) => (t.setCache n ((t.cache n).drop key)).syncDir key
      let supplied := fun (t : State) (m : Nat) (d : SectorData) =>
        t.setCache m { t.cache m with wbuf := SMap.insert (t.cache m).wbuf key (d, true) }
      (∀ m, s.reader n key = some m →
        (owner → exec (.forwardedRead cache asid va) s = .next share)
        ∧ (¬ owner → s.owing n key ≠ none → exec (.forwardedRead cache asid va) s = .next (s.missAtHome m key).1)
        ∧ (¬ owner → s.owing n key = none → exec (.forwardedRead cache asid va) s = .next s))
      ∧ (s.reader n key = none →
        (s.fromAbroad n key = true → owner → exec (.forwardedRead cache asid va) s = .next share)
        ∧ (∀ m d, s.fromAbroad n key = true → ¬ owner → s.owing n key = some (m, d) →
          exec (.forwardedRead cache asid va) s = .next (supplied (s.homeWrite key d) m d))
        ∧ (s.fromAbroad n key = false ∨ (¬ owner ∧ s.owing n key = none) → exec (.forwardedRead cache asid va) s = .next s))
      ∧ ((∀ e ∈ s.caches, ∀ d, ¬ owes e d) → s.owing n key = none)
      ∧ (∀ before e d after, s.caches = before ++ e :: after → (∀ x ∈ before, ∀ y, ¬ owes x y) → owes e d →
        s.owing n key = some (e.1, d))
      ∧ ((s.uOp key).isSome = true → exec (.invalidate cache asid va) s = .next s)
      ∧ (s.uOp key = none → s.fromAbroad n key = true → exec (.invalidate cache asid va) s = .next (s.writtenAbroad key))
      ∧ (s.uOp key = none → s.fromAbroad n key = false →
        (¬ written → exec (.invalidate cache asid va) s = .next s)
        ∧ (written → holder → exec (.invalidate cache asid va) s = .next (s.takeBack key (s.answering n key)))
        ∧ (∀ m d, written → ¬ holder → s.owing n key = some (m, d) →
          exec (.invalidate cache asid va) s = .next (supplied (s.homeWrite key d) m d))
        ∧ (written → ¬ holder → s.owing n key = none → exec (.invalidate cache asid va) s = .next s))
      ∧ (n < 256 → ∀ before after st d, s.holders key = before ++ (n, st, d) :: after → (∀ h ∈ before ++ after, h.1 ≠ n) →
        (st = .m → s.shareAt key (s.answering n key) = shared (s.homeWrite key d) d
          ∧ s.takeBack key (s.answering n key) = gone (s.homeWrite key d))
        ∧ (st = .e → s.shareAt key (s.answering n key) = shared s d)
        ∧ (st ≠ .m → s.takeBack key (s.answering n key) = gone s)))

/-- 09 R266, R277, R279 to R281, R284; 13 R374: DISCOVERY_BROADCAST sends a packet to each other device of the line's context that may hold
it, sends home the data of the M owners and write-back buffers of the line and builds its records again; WRITE_BACK writes the buffered sector of the lowest key home (log 111) and its ack frees it; RECALL_FOR_COLLAPSE
sends a recalled cache's copy on its way, and one from a home on another device collapses this device's copies into a partial for it;
U_COPY_ARRIVAL folds an L1's copy when none of a lower cache number in its die is still to come; PARTIAL_ARRIVAL completes the collapse when
no answer and no L1's copy is still to come; U_COPY_EVICTION evicts a copy of the least recently used line of a full set of an L1 for a line
that an access waits for (log 57). An event whose condition fails changes nothing (log 86). -/
def Sys2Proof.Claims.WriteBackAndCollapseSteps : Prop :=
  ∀ cache asid va (s : State),
    let key := s.tagFor asid va / 32
    let n := s.localCache cache
    (exec (.discoveryBroadcast asid va) s = .next ((run (4 * (key / 4)) 4).foldl (fun st k =>
      ((st.holders k).foldl (fun x h => if h.2.1 = .m then x.homeWrite k h.2.2 else x) (st.drainWb k)).syncDir k)
      ((s.discovered (key / 4)).foldl (fun st d => st.linePacket (dieOf (s.homeAt (4 * (key / 4)))) d 1 (4 * (key / 4))) s)))
    ∧ (∀ d, d ∈ s.discovered (key / 4) ↔ ∃ t c, s.lookup (keyAsid (4 * (key / 4))) (keyVa (4 * (key / 4))) = .ok t
        ∧ s.ctxOfAsid (keyAsid (4 * (key / 4))) = some c ∧ t.leaf.xdev = true ∧ s.remoteLine (4 * (key / 4)) = false
        ∧ d < 256 ∧ (s.context c).devset.getLsbD d = true ∧ d ≠ s.dev ∧ (s.remote d).reachable = true)
    ∧ (∀ before k d after, (s.cache n).wbuf = before ++ (k, d, false) :: after → (∀ e ∈ before, e.2.2 = true) →
      let t := s.homeWrite k d
      exec (.writeBack cache) s = .next (t.setCache n { t.cache n with wbuf := SMap.insert (t.cache n).wbuf k (d, true) }))
    ∧ (∀ before k d after, (s.cache n).wbuf = before ++ (k, d, true) :: after → (∀ e ∈ before, e.2.2 = false) →
      exec (.writeBackAck cache) s = .next (s.setCache n { s.cache n with wbuf := SMap.erase (s.cache n).wbuf k }))
    ∧ (s.fromAbroad n key = true → exec (.recallForCollapse cache asid va) s = .next (s.collapseNow key).endAll)
    ∧ (∀ c, s.collapseRec key = some c → s.fromAbroad n key = false →
      let c1 := { c with asked := c.asked.filter (· != n) }
      (∀ op d, n ∈ c.asked → (s.cache n).sector key = some (.u op, d) →
        exec (.recallForCollapse cache asid va) s = .next ((s.setCache n ((s.cache n).drop key)).setCollapse key
          (some { c1 with copies := SMap.insert c.copies n d })))
      ∧ (n ∈ c.asked → (s.cache n).sector key = none →
        exec (.recallForCollapse cache asid va) s = .next (s.setCollapse key (some c1)))
      ∧ (n ∉ c.asked → exec (.recallForCollapse cache asid va) s = .next s)
      ∧ (let lower := ∃ m, (m ∈ c.asked ∨ m ∈ SMap.keys c.copies) ∧ m / 128 = n / 128 ∧ m < n
        (n < 256 → SMap.has c.copies n = true → ¬ lower →
          exec (.uCopyArrival cache asid va) s = .next (s.foldUpTo key c (n / 128) n))
        ∧ (256 ≤ n ∨ SMap.has c.copies n = false ∨ lower → exec (.uCopyArrival cache asid va) s = .next s))
      ∧ (∀ die, let ready := c.asked = [] ∧ ∀ e ∈ c.copies, 512 ≤ e.1
        (ready → exec (.partialArrival die asid va) s = .next (s.collapseNow key).endAll)
        ∧ (¬ ready → exec (.partialArrival die asid va) s = .next s)))
    ∧ (∀ op d, (s.cache n).sector key = some (.u op, d) →
      let set := key / 4 % s.setsOf n
      let same := (s.cache n).lines.filter fun l => l.tag % s.setsOf n == set
      let leaves := 8 ≤ same.length ∧ (same.getLast?.map Line.tag) = some (key / 4) ∧ s.fillsSet n set = true
      (leaves → n < 256 → exec (.uCopyEviction cache asid va) s = .next (s.evictU n key op d))
      ∧ (¬ leaves ∨ 256 ≤ n → exec (.uCopyEviction cache asid va) s = .next s))

/-- 09 R279, R280, Table 9-4: a collapse of a sector with U copies writes at its home the fold of the home value with the partial of
the home's die, then the other die's, then those of other devices in device order, and removes every copy, parked copy, die copy and
record of it; a sector without U copies is left as it is. On a sector of another device the device's partial is formed from the
identity first. The recalls that reach other devices, and the partial that goes to one, are packets of class 4 (log 113). -/
def Sys2Proof.Claims.CollapseFolds : Prop :=
  ∀ (s : State) (key : Nat),
    let c := if (s.collapseRec key).isSome then s else (s.holders key).foldl (fun st h => st.toHolder h.1 4 key) s
    let part := fun (op : UOp) (d : Nat) (x : SectorData) => match c.diePartial key op d with
      | some p => op.merge x p
      | none => x
    let near := dieOf (c.homeAt key)
    let writes := fun (d : SectorData) => (((c.clearU key).homeSet key d).toHome 4 key).syncDir key
    (s.uOp key = none → s.collapseNow key = s)
    ∧ (∀ op, s.uOp key = some op →
      (∀ a, c.keyPlace key = some (.vault a) → near < 2 → s.collapseNow key
        = writes ((c.devicePartials key).foldl op.merge (part op (1 - near) (part op near (c.homeRead key)))))
      ∧ (∀ d a, c.keyPlace key = some (.remote d a) →
        s.collapseNow key = writes (op.merge (c.homeRead key) (part op 1 (part op 0 op.identity)))))
    ∧ (s.caches.Pairwise (fun a b => a.1 < b.1) → ∀ n op d, ((s.clearU key).cache n).sector key ≠ some (.u op, d))
    ∧ (s.clearU key).collapseRec key = none
    ∧ (∀ d, d < 2 → SMap.find ((s.clearU key).slice (s.holderOf key d)).die key = none
      ∧ ((s.clearU key).slice (s.holderOf key d)).parked key = [])

/-- Write-back and collapse steps, and the fold a collapse makes. -/
def Obligations.CollapseRules : Prop := Claims.WriteBackAndCollapseSteps ∧ Claims.CollapseFolds

/-- 07 R245; 09 R289, R294 to R296: TRANSLATION_REQUEST at the controller of a line's home or proxy keeps its valid leaf; REMAP_ANSWER
installs a synonym's entry at the interface; SHOOTDOWN_BROADCAST has an agent process the shootdowns it has still to process; SHOOTDOWN_ACK
takes its acknowledgement once every access checked before has drained; PAGE_MIGRATION moves a page of this device to a free place of its
size, the old one keeping its bytes (log 76), and its entry with it, hot lines of it revoked first. An event whose condition fails changes
nothing (log 86). -/
def Sys2Proof.Claims.TranslationSteps : Prop :=
  ∀ asid va (s : State),
    (∀ mc l, mc = homeSlice asid va ∨ mc = (homeSlice asid va + 32) % 64 → s.entryAt mc asid va = .leaf l →
      exec (.translationRequest mc asid va) s = .next (s.setSlice mc { s.slice mc with
        tcache := (l :: (s.slice mc).tcache.filter fun k => k != l).take 4096 }))
    ∧ (∀ mc, (mc ≠ homeSlice asid va ∧ mc ≠ (homeSlice asid va + 32) % 64) ∨ s.entryAt mc asid va = .bad →
      exec (.translationRequest mc asid va) s = .next s)
    ∧ (∀ node n ca cb r w x, node < 64 → s.entryBy (some (node / 32)) asid va = .synonym n ca cb r w x →
      ∃ t, exec (.remapAnswer node asid va) s = .next t ∧ t.mem = s.mem ∧ t.groups = s.groups ∧ t.caches = s.caches
        ∧ SMap.find t.remap node = some ((⟨asid, va / 2 ^ n * 2 ^ n, n, ca, cb, r, w, x⟩ ::
            (SMap.getD s.remap node []).filter fun k => k != ⟨asid, va / 2 ^ n * 2 ^ n, n, ca, cb, r, w, x⟩).take 256)
        ∧ ∀ m, m ≠ node → SMap.find t.remap m = SMap.find s.remap m)
    ∧ (∀ agent d, s.shootdowns = [d] →
      (agent ∈ d.todo → agent < 64 → exec (.shootdownBroadcast agent) s = .next { s.shootSlice agent d with
        shootdowns := (s.shootSlice agent d).shootdowns.map fun k => if k.uid = d.uid ∧ k.slot = d.slot then
          { k with todo := k.todo.filter (· != agent), acks := k.acks ++ [agent] } else k })
      ∧ (agent ∈ d.todo → 64 ≤ agent → exec (.shootdownBroadcast agent) s = .next { s.shootNode (agent - 64) d with
        shootdowns := [{ d with todo := d.todo.filter (· != agent), acks := d.acks ++ [agent] }] })
      ∧ (agent ∉ d.todo → exec (.shootdownBroadcast agent) s = .next s)
      ∧ (agent ∈ d.acks → s.drainedFor d = true → exec (.shootdownAck agent) s
        = .next { s with shootdowns := [{ d with acks := d.acks.filter (· != agent) }] })
      ∧ (agent ∉ d.acks ∨ s.drainedFor d = false → exec (.shootdownAck agent) s = .next s))
    ∧ (∀ frame l, s.walk asid va = .leaf l → l.bits ≠ 30 → l.host = false → l.dev = s.dev → frame * 65536 % 2 ^ l.bits = 0 →
      frame * 65536 + 2 ^ l.bits ≤ 192 * 2 ^ 30 → l.frame * 65536 + 2 ^ l.bits ≤ 192 * 2 ^ 30 →
      ∃ t, exec (.pageMigration asid va frame) s = .next t
        ∧ (let a := walkSlot s.mem asid va ptLevels (s.rootOf asid)
           let e := ofBytes (Memory.readN s.mem a 8)
           t.mem = Memory.writeN (Memory.move s.mem (l.frame * 65536) (frame * 65536) (2 ^ l.bits)) a
             (toBytes 8 (e - bits e 16 40 * 65536 + frame * 65536)))
        ∧ t.groups = s.groups ∧ t.teams = s.teams ∧ t.contexts = s.contexts ∧ t.cores = s.cores
        ∧ ((∀ h ∈ s.slices, h.2.hot = []) → t.caches = s.caches))

/-- 11 R330 to R332: HOT_LINE_MARK makes hot a line that its home has served 256 read misses for in the last 4,096 fabric cycles, to L1s of
three quadrants, that is in no cache but as shared and in no write-back buffer, has no live subscription and is not hot: the home lists it
last, its two helpers begin without sharers, and twenty-four network interfaces redirect it to a helper; with sixteen hot lines already the
oldest is revoked first, and no interface redirects that one any more; any other line changes nothing. An event whose condition fails
changes nothing (log 86). -/
def Sys2Proof.Claims.HotLineRule : Prop :=
  ∀ asid va (s : State),
    let key := s.tagFor asid va / 32
    let tag := key / 4
    let h := s.homeAt key
    let reads := (s.slice h).reads.filter fun r => decide (s.fabric < r.1 + 4096) && r.2.1 == tag
    let may := tag ∉ (s.slice h).hot ∧ s.subscribed key = false ∧ s.onlyShared tag = true ∧ 256 ≤ reads.length
      ∧ 3 ≤ (reads.map fun r => r.2.2).eraseDups.length
    (¬ may → exec (.hotLineMark asid va) s = .next s)
    ∧ (may → (s.slice h).hot.length < 16 →
      ∃ t, exec (.hotLineMark asid va) s = .next t ∧ (t.slice h).hot = (s.slice h).hot ++ [tag]
        ∧ (∀ k, k ≠ h → k ≠ h ^^^ 8 → k ≠ h ^^^ 16 → t.slice k = s.slice k)
        ∧ (∀ k, k = h ^^^ 8 ∨ k = h ^^^ 16 → SMap.find (t.slice k).helped tag = some []
          ∧ { t.slice k with replica := (s.slice k).replica, helped := (s.slice k).helped } = s.slice k)
        ∧ t.mem = s.mem ∧ t.groups = s.groups ∧ t.caches = s.caches
        ∧ ∀ i, i < 64 → (SMap.getD t.redirect i []).head? =
            (if i / 32 = h / 32 ∧ i % 32 / 8 ≠ h % 32 / 8 then
              some ⟨tag, if i % 32 / 8 = ((h % 32 / 8) ^^^ 1) then h ^^^ 8 else h ^^^ 16⟩
             else (SMap.getD s.redirect i []).head?))
    ∧ (may → ∀ old rest, (s.slice h).hot = old :: rest → 16 ≤ (s.slice h).hot.length → s.homeAt (4 * old) = h →
      ∃ t, exec (.hotLineMark asid va) s = .next t ∧ (t.slice h).hot = (rest.filter (· != old)) ++ [tag]
        ∧ (∀ i, ∀ e ∈ SMap.getD t.redirect i [], e.tag ≠ old) ∧ t.mem = s.mem ∧ t.groups = s.groups)

/-- Translation, shootdown and migration steps, hot lines. -/
def Obligations.TranslationRules : Prop := Claims.TranslationSteps ∧ Claims.HotLineRule

/-- 09 R295: what a network interface drops in a shootdown: exactly its entries whose synonym or canonical page overlaps the bytes;
every other interface keeps its entries. -/
def Sys2Proof.Claims.ShootdownDropsRemaps : Prop :=
  ∀ (s : State) (n : Nat) (d : Shootdown),
    (∀ e, e ∈ SMap.getD (s.shootNode n d).remap n [] ↔ e ∈ SMap.getD s.remap n []
      ∧ ¬ (e.asid = d.asid ∧ e.base < d.base + d.bytes ∧ d.base < e.base + 2 ^ e.bits)
      ∧ ¬ (e.casid = d.asid ∧ e.cbase < d.base + d.bytes ∧ d.base < e.cbase + 2 ^ e.bits))
    ∧ (∀ m, m ≠ n → SMap.find (s.shootNode n d).remap m = SMap.find s.remap m)
    ∧ { s.shootNode n d with remap := s.remap } = s

/-- 09 R296: moving a run of device memory leaves at the new place what stood at the old and every other byte as it was, those of the old place among them (log 76), when the two places do not overlap; it keeps the canonical form. -/
def Sys2Proof.Claims.MovedPageReadsBack : Prop :=
  ∀ (m : List Host.Cell) (old new n : Nat), Memory.wf m = true → old + n ≤ new ∨ new + n ≤ old →
    (∀ i, i < n → Memory.read (Memory.move m old new n) (new + i) = Memory.read m (old + i))
    ∧ (∀ a, a < new ∨ new + n ≤ a → Memory.read (Memory.move m old new n) a = Memory.read m a)
    ∧ Memory.wf (Memory.move m old new n) = true

/-- What a shootdown drops, and what a moved page reads. -/
def Obligations.RemapAndMigrationRules : Prop := Claims.ShootdownDropsRemaps ∧ Claims.MovedPageReadsBack

/-- 11 R344 to R347, Table 11-6: CONTRIBUTION_ARRIVAL answers a contribution that is the oldest of its source with the first row of
Table 11-6 that applies and does what the answer says; CONTRIBUTION_ANSWER completes the sender's position, with a machine check
when the answer reports one, unless the answer is BUSY or to no contribution that is still unanswered; BUSY_RESEND and ANSWER_TIMEOUT
send an unanswered contribution again, at any time: how their times relate to the core's is not given (log 48). A contribution of another
device whose tag maps to no context here is answered NOBIND, as one for a missing binding is (11 R337 with log 47, the model's choice of
which error is found first). -/
def Sys2Proof.Claims.CollectiveMessages : Prop :=
  (∀ s c rest, s.net = .contrib c :: rest →
      let t : State := { s with net := rest }
      exec (.contributionArrival 0) s = .next ((t.serveContribution c (t.answerTo c)).sendTo (c.cid % 2) c.srcDev c.tag
        (.contribAns c (t.answerTo c))))
  ∧ (∀ (s : State) (c : Contribution) (k : Collective) ctx, s.collectiveOf c.cid = some k → s.boundCtx c = some ctx →
      let ahead := (c.seq - k.low).toNat
      let rules : List (Prop × Answer) := [(k.tag ≠ c.tag, .nobind), (k.ranksm1 < c.rank, .badrank), (2 ^ 31 ≤ ahead, .dup),
        ((k.stepRec c.seq).arrived.getLsbD c.rank = true, .dup),
        (16 ≤ ahead ∨ 256 ≤ s.activeOn (c.cid % 2) c.cid
          ∨ (k.inTurn c = false ∧ k.stagesz < total Contribution.room k.staged + c.room), .busy),
        (s.targetOk (s.context ctx).asid.toNat k c = false, .fault), (True, .accept)]
      ∀ (n : Nat) p a, rules[n]? = some (p, a) → p → (∀ (m : Nat) q b, m < n → rules[m]? = some (q, b) → ¬ q) → s.answerTo c = a)
  ∧ (∀ (s : State) c, s.collectiveOf c.cid = none ∨ s.boundCtx c = none → s.answerTo c = .nobind)
  ∧ (∀ s c a rest, s.net = .contribAns c a :: rest →
      let t := ({ s with net := rest } : State).answered fun m => m == .contrib c
      let waits := ∃ d ∈ s.sent, d.cid = c.cid ∧ d.rank = c.rank ∧ d.seq = c.seq ∧ d.pos = c.pos
      let gone := t.finishContribution c
      (¬ waits ∨ a = .busy → exec (.contributionAnswer 0) s = .next t)
      ∧ (waits → a = .accept ∨ a = .dup → exec (.contributionAnswer 0) s = .next gone)
      ∧ (∀ n, waits → (a, n) ∈ [(Answer.nobind, 1), (.badrank, 2), (.fault, 3), (.unreachable, 4)] →
        exec (.contributionAnswer 0) s = .next (gone.logCheck c.ctx ⟨5, n, 0xFFFF, c.dstDev, 0, c.cid, c.rank, c.seq⟩)))
  ∧ (∀ s n c, s.sent[n]? = some c →
      exec (.busyResend n) s = .next (s.sendTo (c.cid % 2) c.dstDev c.tag (.contrib c))
      ∧ exec (.answerTimeout n) s = .next (s.sendTo (c.cid % 2) c.dstDev c.tag (.contrib c)))

/-- 11 R344 to R346: an accepted contribution sets its rank's ARRIVED bit, and its context here is
among the collective's senders; one that is not in turn is staged, and nothing is
written; one in turn performs, and the step's last rank advances LOW by one. -/
def Sys2Proof.Claims.CollectiveRecords : Prop :=
  ∀ (s : State) (k : Collective) ctx c,
    let r := k.stepRec c.seq
    let senders := k.senders ++ if c.srcDev = s.dev ∧ c.ctx ∉ k.senders then [c.ctx] else []
    let k1 := { k with
      recs := SMap.insert k.recs c.seq.toNat ⟨r.arrived ||| BitVec.ofNat 256 (2 ^ c.rank), r.folded⟩, senders := senders }
    (c.seq ≠ k.low ∨ c.rank ≠ r.folded →
      s.acceptContribution k ctx c
        = { s with collectives := SMap.insert s.collectives c.cid { k1 with staged := k.staged ++ [c] } })
    ∧ (k.performed c.seq = if r.folded = k.ranksm1 then { k with low := k.low + 1, recs := SMap.erase k.recs c.seq.toNat }
        else { k with recs := SMap.insert k.recs c.seq.toNat ⟨r.arrived, r.folded + 1⟩ })
    ∧ (c.seq = k.low → c.rank = r.folded → r.folded ≠ k.ranksm1 → k.staged = [] →
      ∃ t, t = (s.performRows (s.context ctx).asid.toNat c).performFlag (s.context ctx).asid.toNat c
        ∧ s.acceptContribution k ctx c = { t with collectives := SMap.insert t.collectives c.cid { k with
            recs := SMap.insert (SMap.insert k.recs c.seq.toNat ⟨r.arrived ||| BitVec.ofNat 256 (2 ^ c.rank), r.folded⟩)
              c.seq.toNat ⟨r.arrived ||| BitVec.ofNat 256 (2 ^ c.rank), r.folded + 1⟩
            senders := senders } })

/-- Contributions are answered by Table 11-6 and performed in turn. -/
def Obligations.CollectiveRules : Prop := Claims.CollectiveMessages ∧ Claims.CollectiveRecords

/-- 11 R335, R338 to R341: FLIT_RECEIVE on a link that is up discards a flit that fails its CRC or its reserved bits, and takes any
other; NAK_RECEIVE resends the flit after ACKSEQ; the timeouts send the NAK again and the oldest unacknowledged flit; LINK_RETRAIN
resends all; LINK_DOWN, after three retrains in a row, takes the link down and moves its ordered classes; LINK_BRING_UP brings it up,
the ordered classes coming back to it (log 4), unless its port number is not link 0's, whose own number is the device's; the event carries
that number (log 64). An event that has nothing to do leaves the state as it was (log 86). -/
def Sys2Proof.Claims.LinkSteps : Prop :=
  ∀ k (s : State), k < 16 →
    let l := s.link k
    (l.up = true →
      (∀ f, goodFlit f = true → exec (.flitReceive k f) s = .next (s.setLink k (l.take f)))
      ∧ (∀ f, goodFlit f = false → exec (.flitReceive k f) s = .next s)
      ∧ (∀ a, exec (.nakReceive k a) s = .next (s.setLink k (((l.acked a).resend (a + 1)).flow)))
      ∧ (l.nakSent = true → exec (.nakResendTimeout k) s = .next (s.setLink k (l.sendIdle true)))
      ∧ (∀ f n d rest, l.replay = (f, n, d) :: rest → exec (.ackStallTimeout k) s
        = .next (s.setLink k (l.resend (BitVec.ofNat 12 f.toNat))))
      ∧ exec (.linkRetrain k) s = .next (s.setLink k { l with
          wire := l.wire ++ l.replay.map Prod.fst, replay := l.replay.map (fun e => (e.1, 1, e.2.2)), retrains := l.retrains + 1 })
      ∧ (3 ≤ l.retrains → exec (.linkDown k) s = .next ((s.setLink k { l with up := false }).failOver k))
      ∧ (l.retrains < 3 → exec (.linkDown k) s = .next s)
      ∧ (∀ p, exec (.linkBringUp k p) s = .next s))
    ∧ (l.up = false →
      let trained := fun (t : State) (p : BitVec 8) => (t.setLink k ({ t.link k with
        up := true, portNum := p, retrains := 0, wire := (t.link k).wire ++ (t.link k).replay.map Prod.fst } : Link).flow).failBack k
      (∀ f, exec (.flitReceive k f) s = .next s)
      ∧ exec (.linkDown k) s = .next s
      ∧ (∀ p, k ≠ 0 → p ≠ (s.link 0).portNum → exec (.linkBringUp k p) s = .next (s.setLink k { l with portNum := p }))
      ∧ (∀ p, k ≠ 0 → p = (s.link 0).portNum → exec (.linkBringUp k p) s = .next (trained s p))
      ∧ (∀ p, k = 0 → exec (.linkBringUp 0 p) s = .next (trained (s.renumber p) p)
        ∧ (s.renumber p).dev = p.toNat))

/-- 11 R340, R341: a data flit in sequence is delivered, then every held one in order up to the next gap, and their buffer units are owed
back, an idle flit reporting a gap that it closes; one behind a gap is held, with one NAK for the gap; one delivered before, or held
already, is discarded with all it carries. Any other flit hands over its credits, its ACKSEQ and its NAK, and then its data. An ACKSEQ frees exactly the flits it covers,
and a resent flit counts its transmissions, an eighth of which is a retrain. -/
def Sys2Proof.Claims.FlitSequence : Prop :=
  ∀ (l : Link) (f : BitVec 512),
    let q : BitVec 12 := BitVec.ofNat 12 f.toNat
    let seq := fun g : BitVec 512 => BitVec.ofNat 12 g.toNat
    (∀ next : List (BitVec 512), q = l.expect → l.reorder.Pairwise (fun g h => seq g ≠ seq h) →
      (∀ i (hi : i < next.length), next[i] ∈ l.reorder ∧ seq next[i] = l.expect + 1 + BitVec.ofNat 12 i) →
      (∀ g ∈ l.reorder, seq g ≠ l.expect + 1 + BitVec.ofNat 12 next.length) →
      let taken : Link := { l with
        delivered := l.delivered ++ f :: next
        expect := l.expect + 1 + BitVec.ofNat 12 next.length
        nakSent := false
        owed := l.owed ++ (f :: next).map (fun g => g.toNat / 2 ^ 12 % 8)
        reorder := l.reorder.filter fun g => decide (g ∉ next) }
      (l.nakSent = false → l.takeData f = taken) ∧ (l.nakSent = true → l.takeData f = taken.sendIdle false))
    ∧ (let again := 2048 ≤ (q - l.expect).toNat ∨ ∃ g ∈ l.reorder, seq g = q
      let told := (l.credited f).acked (f.extractLsb' 16 12)
      let heard := (if f.getLsbD 31 then told.resend (f.extractLsb' 16 12 + 1) else told).flow
      (f.getLsbD 15 = false → again → l.take f = l)
      ∧ (f.getLsbD 15 = false → ¬ again → l.take f = heard.takeData f)
      ∧ (f.getLsbD 15 = true → l.take f = heard))
    ∧ (q ≠ l.expect → (q - l.expect).toNat < 2048 → (∀ g ∈ l.reorder, BitVec.ofNat 12 g.toNat ≠ q) → l.reorder.length < 1023 →
      ((l.takeData f).reorder = l.reorder ++ [f] ∧ (l.takeData f).delivered = l.delivered ∧ (l.takeData f).expect = l.expect
        ∧ (l.takeData f).nakSent = true ∧ (l.nakSent = true → (l.takeData f).wire = l.wire)
        ∧ (l.nakSent = false → (l.takeData f).wire = l.wire ++ [l.idleFlit true])))
    ∧ (∀ a e, e ∈ (l.acked a).replay ↔ e ∈ l.replay ∧ 2048 ≤ (a - BitVec.ofNat 12 e.1.toNat).toNat)
    ∧ (∀ a, { l.acked a with replay := l.replay, retrains := l.retrains } = l)
    ∧ (∀ g n d rest, l.replay = (g, n, d) :: rest → n < 7 →
      l.resend (BitVec.ofNat 12 g.toNat) = { l with
        wire := l.wire ++ [g]
        replay := l.replay.map fun e => if BitVec.ofNat 12 e.1.toNat = BitVec.ofNat 12 g.toNat then (e.1, e.2.1 + 1, e.2.2) else e })
    ∧ (∀ g n d rest, l.replay = (g, n, d) :: rest → 7 ≤ n → l.resend (BitVec.ofNat 12 g.toNat) = l.retrain)

/-- 11 R327, R339, R340: sending a data flit takes the next SEQ, keeps the flit for replay and puts it on the wire; with 1,024 flits
unacknowledged it waits behind those of its class, and only an idle flit goes; while the link is down it waits. Either flit returns every
unit owed in one class, the oldest's: the layout of those units is log 104's, and that a class keeps its own buffer, from which packets go
lowest class first, is log 113's. The fields of a sent flit are where Table 11-4 puts them, and it passes the receiver's check. -/
def Sys2Proof.Claims.SentFlits : Prop :=
  ∀ (l : Link) (cls dev spread : Nat) (payload : BitVec 432), cls < 8 → (∀ c ∈ l.owed, c < 8) →
    let f := l.dataFlit cls payload
    let left := l.owed.filter fun c => some c != l.owed.head?
    let joined := SMap.insert l.waiting cls (SMap.getD l.waiting cls [] ++ [(dev, spread, payload)])
    (l.up = true → l.replay.length < 1024 → l.waiting = [] → l.transmit cls dev spread payload
      = { l with txSeq := l.txSeq + 1, replay := l.replay ++ [(f, 1, some dev)], wire := l.wire ++ [f], owed := left })
    ∧ (l.up = true → 1024 ≤ l.replay.length → l.transmit cls dev spread payload
      = { l with waiting := joined, wire := l.wire ++ [l.idleFlit false], owed := left })
    ∧ (l.up = false → l.transmit cls dev spread payload = { l with waiting := joined })
    ∧ f.extractLsb' 0 12 = l.txSeq ∧ (f.extractLsb' 12 3).toNat = cls ∧ f.getLsbD 15 = false
    ∧ f.extractLsb' 16 12 = l.expect - 1 ∧ f.getLsbD 31 = false ∧ f.extractLsb' 48 432 = payload
    ∧ (l.owed = [] → f.extractLsb' 32 16 = 0)
    ∧ (∀ c r, l.owed = c :: r → (f.extractLsb' 45 3).toNat = c
      ∧ (f.extractLsb' 32 13).toNat = (l.owed.filter fun x => x == c).length % 2 ^ 13)
    ∧ goodFlit f = true ∧ goodFlit (l.idleFlit true) = true ∧ goodFlit (l.idleFlit false) = true

/-- Flits in sequence, resends, and link events. -/
def Obligations.LinkRules : Prop := Claims.LinkSteps ∧ Claims.FlitSequence ∧ Claims.SentFlits

/-- 09 R285, R286; 11 R334, R342, R347, R348; 12 R360, R362, R368, R370: DEVICE_UNREACHABLE and AGENT_REJOIN do what the loss of a device or
of a cache does here, and a rejoining agent carries its next incarnation; only a device that is unreachable has the contributions it has not
answered completed; errors in the tables, and BRIDGE_FAILURE (whose outcome the event
carries, log 4), check every context and reset the device; PATROL_SCRUB of a vault adds the errors it corrects, a number the spec does
not give (log 7), to the count of the vault's island, saturating; DEVICE_RESET and COLD_RESET run bring-up; the clocks of a device
that has tripped stand until the cold one (R360; that a device reset then does nothing is log 88's). An event that has nothing to do leaves the state as it was (log 86). -/
def Sys2Proof.Claims.ReliabilitySteps : Prop :=
  ∀ s : State,
    (∀ d, d ≠ s.dev → exec (.deviceUnreachable d) s = .next (s.loseDevice d))
    ∧ exec (.deviceUnreachable s.dev) s = .next s
    ∧ (∀ a, a / 512 = s.dev →
      let n := a % 512
      let next := fun t : State => t.setCache n { t.cache n with inc := (t.cache n).inc + 1 }
      (n < 256 → exec (.agentRejoin a false) s = .next (s.loseCache n)
        ∧ exec (.agentRejoin a true) s = .next (next (s.loseCache n)))
      ∧ (n = 256 ∨ n = 257 → exec (.agentRejoin a false) s = .next (s.loseDie (n - 256))
        ∧ exec (.agentRejoin a true) s = .next (next (s.loseDie (n - 256)))))
    ∧ (∀ a, a / 512 ≠ s.dev →
      let t := s.loseIncarnation (a / 512)
      let back := { t.remote (a / 512) with reachable := true, inc := (t.remote (a / 512)).inc + 1 }
      exec (.agentRejoin a false) s = .next (s.loseDevice (a / 512))
      ∧ s.loseDevice (a / 512) = t.failContributions (a / 512)
      ∧ exec (.agentRejoin a true) s = .next { t with remotes := SMap.insert t.remotes (a / 512) back })
    ∧ exec (.uncorrectableError .tables) s = .next (s.deviceCheck.bringUp false)
    ∧ (∀ c, 64 ≤ c → exec (.patrolScrub c) s = .next s)
    ∧ (∀ c, c < 64 → ∃ t, exec (.patrolScrub c) s = .next t ∧ { t with power := s.power, free := s.free } = s
      ∧ { t.power with icorr := s.power.icorr } = s.power
      ∧ ∀ i, (SMap.getD t.power.icorr i 0).toNat = if i = 8 * (c / 32) + 5
          then min ((SMap.getD s.power.icorr i 0).toNat + (Config.freeWord s.free).toNat) (2 ^ 32 - 1)
          else (SMap.getD s.power.icorr i 0).toNat)
    ∧ (∀ b, b < 4 → exec (.bridgeFailure b) s
      = .next (({ s with bridgesUp := SMap.insert s.bridgesUp b false } : State).deviceCheck.bringUp false))
    ∧ (s.thermtrip = false → exec .deviceReset s = .next (s.bringUp false))
    ∧ (s.thermtrip = true → exec .deviceReset s = .next s)
    ∧ exec .coldReset s = .next (s.bringUp true)

/-- 10 R312; 12 R368, Table 12-8: UNCORRECTABLE_ERROR gives the word it hits an undefined value and the groups of the owning team a
machine check, whose address and slot are free values (log 7, log 63); a dirty line gets undefined bytes and a lost-data record; a copy
in U, a die copy and a parked copy are gone, with a lost-update record. At data no load receives, a unit that does not exist and a copy that is not
there nothing happens (log 86). -/
def Sys2Proof.Claims.DamagedState : Prop :=
  ∀ s : State,
    let one : State := { s with free := s.free + 1 }
    let w := Config.freeWord s.free
    (∀ core slot addr, exec (.uncorrectableError (.loadData core slot addr)) s = .next (s.damageLoad core slot addr))
    ∧ (∀ core slot addr, s.group (groupKey core slot) = none → s.damageLoad core slot addr = s)
    ∧ (∀ core slot addr g, s.group (groupKey core slot) = some g → s.receiver g addr = none → s.damageLoad core slot addr = s)
    ∧ (∀ core slot r l,
      let key := groupKey core slot
      (∀ g, s.group key = some g → exec (.uncorrectableError (.vreg core slot r l)) s
        = .next ((one.setGroup key (g.setMany [((r, l), w)])).damageTeam g.team))
      ∧ (s.group key = none → exec (.uncorrectableError (.vreg core slot r l)) s = .next s))
    ∧ (∀ t k i g, s.segment t k = some g →
      exec (.uncorrectableError (.spad t k i)) s = .next ((({ s with free := s.free + 4 } : State).setSegment t k
          (g.write (4 * i) ((run s.free 4).map Config.freeByte))).damageTeam t)
      ∧ exec (.uncorrectableError (.tile t k i)) s
        = .next ((one.setSegment t k { g with tiles := SMap.put 0 g.tiles i w }).damageTeam t))
    ∧ (∀ t n g x, s.team t = some x → exec (.uncorrectableError (.barrier t n g)) s
      = .next ((one.setTeam t { x with
          bars := SMap.insert x.bars n { x.barrier n with ac := SMap.put 0 (x.barrier n).ac g w } }).damageTeam t))
    ∧ (∀ t n g, s.team t = none → exec (.uncorrectableError (.barrier t n g)) s = .next s)
    ∧ (∀ asid va,
      let key := s.tagFor asid va / 32
      exec (.uncorrectableError (.dirtyLine asid va)) s = .next ((s.spoilSector key).logLine 3 0xFFFF key)
      ∧ (∀ n, n < 256 → let hit := exec (.uncorrectableError (.uCopy (512 * s.dev + n) asid va)) s
        (∀ op d, (s.cache n).sector key = some (.u op, d) →
          hit = .next (((s.setCache n ((s.cache n).drop key)).syncDir key).logLine 2 (coreField n) key))
        ∧ ((∀ op d, (s.cache n).sector key ≠ some (.u op, d)) → hit = .next s))
      ∧ (∀ n, n = 256 ∨ n = 257 → let hit := exec (.uncorrectableError (.uCopy (512 * s.dev + n) asid va)) s
        let h := s.holderOf key (n - 256)
        let held := SMap.has (s.slice h).die key
        let t := if held then s.setSlice h { s.slice h with die := SMap.erase (s.slice h).die key } else s
        (∀ op d, (s.cache n).sector key = some (.u op, d) →
          hit = .next (((t.setCache n ((t.cache n).drop key)).syncDir key).logLine 2 (coreField n) key))
        ∧ ((∀ op d, (s.cache n).sector key ≠ some (.u op, d)) →
          (held = true → hit = .next ((t.syncDir key).logLine 2 (coreField n) key)) ∧ (held = false → hit = .next s)))
      ∧ (∀ n, n < 256 → let hit := exec (.uncorrectableError (.parked (512 * s.dev + n) asid va)) s
        let h := s.holderOf key (n / 128)
        let kept := (s.slice h).park.filter fun e => e.1 != (key, n)
        ((∀ e ∈ (s.slice h).park, e.1 ≠ (key, n)) → hit = .next s)
        ∧ ((∃ e ∈ (s.slice h).park, e.1 = (key, n)) →
          hit = .next (((s.setSlice h { s.slice h with park := kept }).syncDir key).logLine 2 (coreField n) key))))

/-- 09 R285; 11 R334, R348; 12 R362, R366, R370: bring-up leaves no context, group, team, launch, subscription, directory record or
collective, empty caches of the next incarnation and memory that reads 0; READY is set exactly when the image verified and every
bridge is up, RECOVERY otherwise; a cold reset brings the bridges back and forgets the digests of earlier images; an image that was
not committed is gone. A check for each collective that is lost is logged first. That a failed bridge stays failed over a device reset is
log 62's, that memory reads 0 log 9's. -/
def Sys2Proof.Claims.BringUpState : Prop :=
  ∀ (s0 : State) (cold : Bool),
    let t := s0.bringUp cold
    let s := s0.loseRecords fun _ => true
    let code := (s.firmware.restart cold).bootCode
    (s0.collectives = [] → s = s0)
    ∧ t.mem = [] ∧ t.groups = [] ∧ t.teams = [] ∧ t.contexts = [] ∧ t.slices = [] ∧ t.collectives = [] ∧ t.net = []
    ∧ t.shootdowns = [] ∧ t.sems = [] ∧ t.thermtrip = false ∧ t.inc = s.inc + 1
    ∧ (∀ n, n < 258 → (t.cache n).lines = [] ∧ (t.cache n).wbuf = [] ∧ (t.cache n).inc = (s.cache n).inc + 1)
    ∧ (t.ready = true ↔ code = 0 ∧ ∀ q, q < 4 → cold = true ∨ s.bridge q = true) ∧ t.recovery = !t.ready
    ∧ (cold = true → t.bridgesUp = []) ∧ (cold = false → t.bridgesUp = s.bridgesUp)
    ∧ t.firmware.staging = none ∧ t.firmware.busy = false ∧ t.firmware.svn = s.firmware.svn
    ∧ (code ≠ 0 → t.firmware.active = s.firmware.active ∧ t.firmware.committed = s.firmware.committed)
    ∧ (∀ m, code = 0 → s.firmware.committed = some m → t.firmware.active = some m ∧ t.firmware.committed = none)
    ∧ (code = 0 → ∃ d, t.firmware.digests = (if cold then [] else s.firmware.digests) ++ [d])
    ∧ (∀ p, SMap.has s.ports p = true → (t.port p).hostMem = (s.port p).hostMem ∧ (t.port p).queues = [])

/-- Loss of devices and agents, errors, resets and bring-up. -/
def Obligations.ReliabilityRules : Prop := Claims.ReliabilitySteps ∧ Claims.DamagedState ∧ Claims.BringUpState

/-- 12 R352, R355, R356, R370, Table 12-5: a context command from a port that owns SEM0, with READY set and no command running, to a
slot in a STATE the table lists, has its effect and gives its result; from another STATE it gives result 2, with a code outside 1..7
result 1; from a port that does not own SEM0 it is dropped with SEMERR, and while a command runs it is dropped. -/
def Sys2Proof.Claims.ContextCommandRule : Prop :=
  ∀ (p : BitVec 1) (s : State), (s.port p.toNat).up = true → s.ready = true →
    let n := s.ctxarg.toNat % 64
    let c := s.context n
    let owns := SMap.getD s.sems 0 0 = BitVec.ofNat 2 (p.toNat + 1)
    let idle := s.ctxstat.getLsbD 31 = false
    let at_ := fun code : Nat => ({ s with ctxcmd := BitVec.ofNat 32 code } : State)
    let ends := fun (t : State) (result : Nat) => ({ t with ctxstat := BitVec.ofNat 32 result } : State)
    let codes : List (Instr × Nat × List Nat) := [(.ctxCreate p, 1, [0]), (.ctxHalt p, 2, [1]), (.ctxResume p, 3, [2]),
      (.ctxTerminate p, 4, [1, 2]), (.ctxFreeze p, 5, [1]), (.ctxThaw p, 6, [1]), (.ctxPreempt p, 7, [1, 2])]
    (∀ i code ok, (i, code, ok) ∈ codes →
      (¬ owns → exec i s = .next (s.setPort p.toNat { s.port p.toNat with semerr := true }))
      ∧ (owns → ¬ idle → exec i s = .next s)
      ∧ (owns → idle → c.state.toNat ∉ ok → exec i s = .next (ends (at_ code) 2)))
    ∧ (owns → idle →
      (c.state = 0 → c.valid s.dev = false → exec (.ctxCreate p) s = .next (ends (at_ 1) 1))
      ∧ (c.state = 0 → c.valid s.dev = true → exec (.ctxCreate p) s = .next (ends ((at_ 1).setContext n { c with
          state := 1, events := 0, nextLaunch := 0, mccount := 0, devq := [], launches := [], arena := [], saveUsed := [] }) 0))
      ∧ (c.state = 1 → exec (.ctxHalt p) s = .next (ends ((at_ 2).haltContext n 0 0x100) 0))
      ∧ (c.state = 2 → exec (.ctxResume p) s = .next (ends
          (((at_ 3).setContext n { c with state := 1 }).setFreeze n true fun x => { x with halt := false }) 0))
      ∧ (c.state = 1 ∨ c.state = 2 → exec (.ctxTerminate p) s = .next (ends ((at_ 4).terminate n) 0))
      ∧ (c.state = 1 → exec (.ctxFreeze p) s = .next (ends ((at_ 5).setFreeze n false fun x => { x with host := true }) 0))
      ∧ (c.state = 1 → exec (.ctxThaw p) s = .next (ends ((at_ 6).setFreeze n false fun x => { x with host := false }) 0))
      ∧ (c.state = 1 ∨ c.state = 2 → (∀ t ∈ s.teams, t.2.ctx ≠ n) → s.preempts = [] →
        exec (.ctxPreempt p) s = .next (ends (at_ 7) 0))
      ∧ (c.state = 1 ∨ c.state = 2 → ∀ t x, (∀ y ∈ s.teams, y.2.ctx = n ↔ y.1 = t) → s.teams.filter (fun y => y.1 == t) = [(t, x)] →
        x.resident = true → s.allDone t = false → s.preempts = [] →
        exec (.ctxPreempt p) s = .next { (at_ 7).mapTeam t (Group.setPreempt true) with
          preempts := [⟨t, [], some p.toNat, none⟩], ctxstat := 0x80000000 })
      ∧ (∀ code : Word, code = 0 ∨ 7 < code.toNat → exec (.ctxBadCode p code) s = .next (ends { s with ctxcmd := code } 1)))
    ∧ (∀ slot : BitVec 6, ∀ f v,
      let free := f = .flags ∨ f = .tsvc ∨ f = .htb ∨ f = .htsize ∨ (s.context slot.toNat).state = 0
      (owns → free → exec (.descriptorWrite p slot f v) s
        = .next (s.setContext slot.toNat ((s.context slot.toNat).writeField f v.toNat)))
      ∧ (owns → ¬ free → exec (.descriptorWrite p slot f v) s
        = .next (s.setPort p.toNat { s.port p.toNat with semerr := true })))

/-- 12 R356, Table 12-5: FREEZE, THAW and RESUME change what holds the context's groups Frozen, of its teams and, for RESUME, of its
service groups too, resident and saved, and nothing else; a restored group that waits to be looked at again is, once nothing holds it
Frozen (01 R46). That the saved teams and, for FREEZE and THAW, no service group are among them is the model's reading (log 46). -/
def Sys2Proof.Claims.FreezeScope : Prop :=
  ∀ (s : State) (ctx : Nat) (all : Bool) (f : Freeze → Freeze),
    let t := s.setFreeze ctx all f
    (∀ k g, s.group k = some g →
      let scope := g.ctx = ctx ∧ (all = true ∨ k % 128 < 64)
      (g.reeval = false → t.group k = some (if scope then { g with freeze := f g.freeze } else g))
      ∧ (g.reeval = true → t.group k = some (if scope then ({ g with freeze := f g.freeze } : Group).reevaluate else g)))
    ∧ (∀ k, s.group k = none → t.group k = none)
    ∧ (∀ k x, s.team k = some x → t.team k = some (if x.ctx = ctx then
        { x with held := x.held.map fun h => (h.1, { h.2 with freeze := f h.2.freeze }) } else x))
    ∧ { t with groups := s.groups, teams := s.teams } = s

/-- Context commands and their effect on a context and its teams. -/
def Obligations.ContextCommands : Prop := Claims.ContextCommandRule ∧ Claims.FreezeScope

/-- 12 R351 to R353, Tables 12-2, 12-3: a semaphore is taken by a port's own code when it is free, released by 0 from its owner, and
otherwise keeps its owner; two codes in one cycle go to the port that lost the last tie, the first to port 0; a link that goes down
releases its port's semaphores; PSTAT's flags are cleared by writing 1. -/
def Sys2Proof.Claims.SemaphoreRules : Prop :=
  ∀ (p : BitVec 1) (n : BitVec 3) (v : Word) (s : State), (s.port p.toNat).up = true →
    let owner := fun (t : State) (k : Nat) => SMap.getD t.sems k 0
    let code : BitVec 2 := BitVec.ofNat 2 (p.toNat + 1)
    (∃ t, exec (.semaphoreWrite p n v) s = .next t ∧ { t with sems := s.sems } = s
      ∧ (∀ k, k ≠ n.toNat → owner t k = owner s k)
      ∧ owner t n.toNat = (if owner s n.toNat = 0 ∧ v.extractLsb' 0 2 = code then code
          else if owner s n.toNat = code ∧ v.extractLsb' 0 2 = 0 then 0 else owner s n.toNat))
    ∧ (owner s n.toNat = 0 → owner (s.semTie n) n.toNat = (match s.tieLoser with
        | some q => BitVec.ofNat 2 (q.toNat + 1)
        | none => 1)
      ∧ (s.semTie n).tieLoser ≠ s.tieLoser)
    ∧ (owner s n.toNat ≠ 0 → s.semTie n = s)
    ∧ (SMap.sorted s.sems = true → ∃ t, exec (.portLinkDown p) s = .next t ∧ (t.port p.toNat).up = false
      ∧ (∀ k, owner t k = if owner s k = code then 0 else owner s k))
    ∧ (exec (.pstatClear p v) s = .next (s.setPort p.toNat { s.port p.toNat with
        semerr := (s.port p.toNat).semerr && !v.getLsbD 0, winerr := (s.port p.toNat).winerr && !v.getLsbD 1 }))

/-- 12 R357, Table 12-11: enabling a disabled queue with QSIZE 4 to 12, aligned bases and a context in STATE 1 or 2 starts it with its
counts 0, and otherwise sets QERR; disabling stops it; a tail of more entries than the ring stops it with QERR; the completion head
moves up to the queue head only. -/
def Sys2Proof.Claims.HostQueueRules : Prop :=
  ∀ (p : BitVec 1) (q : BitVec 4) (v : Word) (s : State), (s.port p.toNat).up = true → s.ready = true →
    let x := (s.port p.toNat).queue q.toNat
    let put := fun y : HostQueue => s.setQueue p.toNat q.toNat y
    let on := x.qctl.getLsbD 31 = true
    let set := v &&& 0x40003F0F
    let slot := (v.extractLsb' 8 6).toNat
    let sound := 4 ≤ (v.extractLsb' 0 4).toNat ∧ (v.extractLsb' 0 4).toNat ≤ 12 ∧ x.qbase.toNat % 4096 = 0
      ∧ x.cbase.toNat % 4096 = 0 ∧ ((s.context slot).state = 1 ∨ (s.context slot).state = 2)
    (on → exec (.queueEnable p q v) s = .next s)
    ∧ (¬ on → sound → exec (.queueEnable p q v) s
      = .next (put { x with qctl := set ||| 0x80000000, qtail := 0, qhead := 0, chead := 0, since := s.now }))
    ∧ (¬ on → ¬ sound → exec (.queueEnable p q v) s = .next (put { x with qctl := set ||| 0x20000000 }))
    ∧ (on → exec (.queueDisable p q) s
      = .next (put { x with qctl := x.qctl &&& 0x7FFFFFFF, qtail := 0, qhead := 0, chead := 0 }))
    ∧ (¬ on → exec (.queueDisable p q) s = .next s)
    ∧ (¬ on → exec (.qtailWrite p q v) s = .next s)
    ∧ (on → x.entries < (v - x.qhead).toNat → exec (.qtailWrite p q v) s = .next (put { x with
        qctl := (x.qctl &&& 0x7FFFFFFF) ||| 0x20000000, qtail := 0, qhead := 0, chead := 0 }))
    ∧ (on → (v - x.qhead).toNat ≤ x.entries → exec (.qtailWrite p q v) s
      = .next (put { x with qtail := v, since := if x.qtail = x.qhead then s.now else x.since }))
    ∧ (on → (x.qhead - v).toNat < 2 ^ 31 → exec (.cheadWrite p q v) s = .next (put { x with chead := v }))
    ∧ (¬ on ∨ 2 ^ 31 ≤ (x.qhead - v).toNat → exec (.cheadWrite p q v) s = .next s)

/-- Semaphores and host queues. -/
def Obligations.HostRules : Prop := Claims.SemaphoreRules ∧ Claims.HostQueueRules

/-- 12 R354, R370, Table 12-10: WINDOW_ACCESS reads or writes eight bytes at the window's base plus the offset, physical or virtual in a
running context, and fails with WINERR elsewhere: beyond 192 GiB, by log 10 (DEDUCED), where a physical address names no memory here; where
translation fails or no context runs. A virtual read answers what its homes hold, a virtual write goes to them, and binding entries that a
write covers bind again. -/
def Sys2Proof.Claims.WindowAccesses : Prop :=
  ∀ (p : BitVec 1) (s : State), (s.port p.toNat).up = true → s.ready = true →
    let fails := fun (w : Bool) => s.setPort p.toNat { s.port p.toNat with
      winerr := true, readData := if w then (s.port p.toNat).readData else none }
    ∀ (off : BitVec 28) (d : BitVec 64),
      let w := off.toNat / 2 ^ 26
      let ctl := SMap.getD (s.port p.toNat).winctx w 0
      let a := (SMap.getD (s.port p.toNat).winbase w 0).toNat + off.toNat % 2 ^ 26
      let c := s.context (ctl.toNat % 64)
      (ctl.getLsbD 31 = true → 192 * 2 ^ 30 < a + 8 → ∀ b, exec (.windowAccess p off b d) s = .next (fails b))
      ∧ (ctl.getLsbD 31 = true → a + 8 ≤ 192 * 2 ^ 30 →
        (exec (.windowAccess p off false d) s = .next (s.setPort p.toNat { s.port p.toNat with
          readData := some (Memory.readN s.mem a 8) }))
        ∧ ∃ t, exec (.windowAccess p off true d) s = .next t ∧ Memory.readN t.mem a 8 = toBytes 8 d.toNat
          ∧ (∀ b, b < a ∨ a + 8 ≤ b → Memory.read t.mem b = Memory.read s.mem b)
          ∧ { t with mem := s.mem, lostCids := s.lostCids } = s)
      ∧ (ctl.getLsbD 31 = false → c.state ≠ 1 → ∀ b, exec (.windowAccess p off b d) s = .next (fails b))
      ∧ (ctl.getLsbD 31 = false → c.state = 1 →
        (∀ t, s.homeWriteRun c.asid.toNat a (toBytes 8 d.toNat) = .ok t →
          exec (.windowAccess p off true d) s = .next (t.rebindAt c.asid.toNat a 8))
        ∧ (∀ k, s.homeWriteRun c.asid.toNat a (toBytes 8 d.toNat) = .error k →
          exec (.windowAccess p off true d) s = .next (fails true))
        ∧ (∀ t bs, s.homeLoad c.asid.toNat a 8 = .ok (t, bs) → exec (.windowAccess p off false d) s
          = .next (t.setPort p.toNat { t.port p.toNat with readData := some bs }))
        ∧ (∀ k, s.homeLoad c.asid.toNat a 8 = .error k → exec (.windowAccess p off false d) s = .next (fails false)))

/-- 12 R351, R352, R354, R355, R357, R361, R365, R370, Tables 12-2, 12-4, 12-10, 12-11, 12-14: REGISTER_WRITE writes the register at its
offset, a guarded one under its semaphore and with SEMERR otherwise: CBTBASE, whose low 21 bits then read 0 (log 65), after which a lost CID
of which a host has rewritten the entry there binds again (11 R348), CTXARG at 0x104, an offset taken from outside the spec (log 72), a descriptor's
page-table root, a disabled queue's bases and its QCTL without ENABLE, the windows, the mailbox's arguments and buffer while no command
runs, the shares. A guarded offset of no such register changes nothing else, a write elsewhere nothing; before READY only the mailbox
answers. Registers that start a command have instructions of their own. -/
def Sys2Proof.Claims.RegisterWrites : Prop :=
  ∀ (p : BitVec 1) (s : State), (s.port p.toNat).up = true →
    let owner := fun k => SMap.getD s.sems k 0
    let code : BitVec 2 := BitVec.ofNat 2 (p.toNat + 1)
    let x := s.port p.toNat
    let semerr := s.setPort p.toNat { x with semerr := true }
    let fw := s.firmware
    (∀ off : BitVec 26, 0x20000 ≤ off.toNat → off.toNat < 0x30000 → ∀ v : BitVec 64,
      let hit := exec (.registerWrite p off v) s
      let o := off.toNat - 0x20000
      let keep := fun f : Firmware => ({ s with firmware := f } : State)
      (owner 1 ≠ code → hit = .next semerr)
      ∧ (owner 1 = code → fw.busy = true → hit = .next s)
      ∧ (owner 1 = code → fw.busy = false →
        (o = 0x08 → hit = .next (keep { fw with arg0 := v }))
        ∧ (o = 0x10 → hit = .next (keep { fw with arg1 := v }))
        ∧ (o = 0x18 → hit = .next (keep { fw with arg2 := v }))
        ∧ (0x1000 ≤ o → o + 8 ≤ 0x10000 →
          hit = .next (keep { fw with buf := SMap.putAll 0 fw.buf (number (o - 0x1000) (toBytes 8 v.toNat)) }))
        ∧ (o ≠ 0x08 → o ≠ 0x10 → o ≠ 0x18 → o < 0x1000 ∨ 0x10000 < o + 8 → hit = .next s)))
    ∧ (s.ready = true → ∀ v : BitVec 64,
      let low : Word := BitVec.ofNat 32 v.toNat
      let put := fun (o : Nat) => exec (.registerWrite p (BitVec.ofNat 26 o) v) s
      let based : State := { s with cbtbase := BitVec.ofNat 64 (v.toNat / 2 ^ 21 * 2 ^ 21) }
      (owner 3 = code → put 0x48 = .next { based with lostCids := based.stillLost })
      ∧ (∀ e, e ∈ based.stillLost ↔ e ∈ s.lostCids ∧ ∀ r ∈ e.2, overlaps (based.entryAddr e.1) 32 r.1 r.2 = false)
      ∧ (owner 3 ≠ code → put 0x48 = .next semerr)
      ∧ (owner 0 = code → put 0x104 = .next { s with ctxarg := low })
      ∧ (∀ n, n < 64 → owner 0 = code →
        ((s.context n).state = 0 → put (0x1000 + 128 * n + 8) = .next (s.setContext n { s.context n with ptroot := v }))
        ∧ ((s.context n).state ≠ 0 → put (0x1000 + 128 * n + 8) = .next semerr))
      ∧ (∀ o, o = 0x104 ∨ (0x1000 ≤ o ∧ o < 0x3000) → owner 0 ≠ code → put o = .next semerr)
      ∧ (∀ q, q < 16 →
        let y := x.queue q
        let becomes := fun (k : Nat) (z : HostQueue) => put (0x10000 + 64 * q + k) = .next (s.setQueue p.toNat q z)
        (y.qctl.getLsbD 31 = true → ∀ k, k < 64 → becomes k y)
        ∧ (y.qctl.getLsbD 31 = false → becomes 0 { y with qbase := v } ∧ becomes 8 { y with cbase := v }
          ∧ (v.getLsbD 31 = false → becomes 16 { y with qctl := (y.qctl &&& 0x20000000) ||| (low &&& 0x40003F0F) })
          ∧ ∀ k, k < 64 → k ≠ 0 → k ≠ 8 → k ≠ 16 → becomes k y))
      ∧ (∀ w, w < 4 →
        put (0x11000 + 16 * w) = .next (s.setPort p.toNat { x with winctx := SMap.put 0 x.winctx w (low &&& 0x8000003F) })
        ∧ put (0x11008 + 16 * w)
          = .next (s.setPort p.toNat { x with winbase := SMap.put 0 x.winbase w (v &&& 0x00FFFFFFFFFFF000) }))
      ∧ (∀ i, i < 16 → owner 2 = code → put (0x30000 + 2 * i)
        = .next { s with power := { s.power with share := SMap.insert s.power.share i (BitVec.ofNat 16 v.toNat) } })
      ∧ (∀ i, i < 16 → owner 2 ≠ code → put (0x30000 + 2 * i) = .next semerr)
      ∧ (∀ o k, (0x48 < o ∧ o < 0x50 ∧ k = 3) ∨ (0x100 ≤ o ∧ o < 0x108 ∧ o ≠ 0x104 ∧ k = 0)
          ∨ (0x30000 ≤ o ∧ o < 0x30024 ∧ (o % 2 = 1 ∨ 0x30020 ≤ o) ∧ k = 2) →
        (owner k = code → put o = .next s) ∧ (owner k ≠ code → put o = .next semerr))
      ∧ (∀ o, o < 0x48 ∨ (0x50 ≤ o ∧ o < 0x100) ∨ (0x108 ≤ o ∧ o < 0x1000) ∨ (0x3000 ≤ o ∧ o < 0x10000)
          ∨ (0x10400 ≤ o ∧ o < 0x11000) ∨ (0x11040 ≤ o ∧ o < 0x20000) ∨ (0x30024 ≤ o ∧ o < 2 ^ 26) → put o = .next s))
    ∧ (s.ready = false → ∀ off : BitVec 26, off.toNat < 0x20000 ∨ 0x30000 ≤ off.toNat → ∀ v,
      exec (.registerWrite p off v) s = .next s)

/-- 12 R352, R361, R370, Table 12-14: COMMIT with 1 from a port that owns SEM2 applies the shares when they fit and otherwise sets
LASTDROP; any other value does nothing, a port without SEM2 gets SEMERR, and before READY nothing happens. -/
def Sys2Proof.Claims.PowerCommits : Prop :=
  ∀ (p : BitVec 1) (s : State), (s.port p.toNat).up = true →
    let owner := SMap.getD s.sems 2 0
    let code : BitVec 2 := BitVec.ofNat 2 (p.toNat + 1)
    (s.ready = true → owner = code →
      let sum := ((run 0 16).map s.power.shareOf).sum
      (65535 < sum → exec (.commit p 1) s = .next { s with power := { s.power with lastDrop := true } })
      ∧ (sum ≤ 65535 → ∃ t, exec (.commit p 1) s = .next { s with power := t } ∧ t.lastDrop = false
        ∧ (∀ i, i < 16 → t.appliedOf i = s.power.shareOf i)
        ∧ { t with applied := s.power.applied, lastDrop := s.power.lastDrop } = s.power)
      ∧ (∀ v, v ≠ 1 → exec (.commit p v) s = .next s))
    ∧ (s.ready = true → owner ≠ code → ∀ v,
      exec (.commit p v) s = .next (s.setPort p.toNat { s.port p.toNat with semerr := true }))
    ∧ (s.ready = false → ∀ v, exec (.commit p v) s = .next s)

/-- BAR2 windows, BAR0 register writes and power commits. -/
def Obligations.WindowsAndRegisters : Prop := Claims.WindowAccesses ∧ Claims.RegisterWrites ∧ Claims.PowerCommits

/-- 12 R363 to R367, Tables 12-15, 12-16: a mailbox command from a port that owns SEM1 while none runs has its effect and gives its
result: IMGBEGIN opens a staging area of its length, IMGDATA fills it from the buffer, IMGCOMMIT verifies and commits it, SVNADV
advances the fused number, ATTEST leaves its report and its length, RESET with its key resets the device, any other code gives 1, each
sending vector 34 to the ports (Table 12-1; log 105); a port that does not own SEM1 gets SEMERR. That a malformed header gives 1, and SVNADV
and ATTEST give 1 in RECOVERY, is log 71's, that IMGCOMMIT without an open area gives 6 log 135's; a report that does not fit gives 1 by log 71. -/
def Sys2Proof.Claims.MailboxCommands : Prop :=
  ∀ (p : BitVec 1) (s : State), (s.port p.toNat).up = true →
    let owns := SMap.getD s.sems 1 0 = BitVec.ofNat 2 (p.toNat + 1)
    let fw := s.firmware
    let ends := fun (cmd : Word) (f : Firmware) (result : Nat) =>
      ({ s with firmware := { f with mbcmd := cmd, result := BitVec.ofNat 16 result, busy := false } } : State).notify 34 result
    let n := fw.arg0.toNat
    let len := fw.arg1.toNat
    (¬ owns → ∀ i ∈ [Instr.imgbegin p, .imgdata p, .imgcommit p, .svnadv p, .attest p, .reset p],
      exec i s = .next (s.setPort p.toNat { s.port p.toNat with semerr := true }))
    ∧ (owns → fw.busy = true → ∀ i ∈ [Instr.imgbegin p, .imgdata p, .imgcommit p, .svnadv p, .attest p, .reset p],
      exec i s = .next s)
    ∧ (owns → fw.busy = false → s.recovery = true →
      exec (.svnadv p) s = .next (ends 4 fw 1) ∧ exec (.attest p) s = .next (ends 5 fw 1))
    ∧ (owns → fw.busy = false →
      (n ≤ 2 ^ 26 → exec (.imgbegin p) s = .next (ends 1 { fw with staging := some ⟨n, []⟩ } 0))
      ∧ (2 ^ 26 < n → exec (.imgbegin p) s = .next (ends 1 fw 1))
      ∧ (fw.staging = none → exec (.imgdata p) s = .next (ends 2 fw 6) ∧ exec (.imgcommit p) s = .next (ends 3 fw 6))
      ∧ (∀ m, fw.staging = some m →
        (n % 256 = 0 → 0 < len → len ≤ 61440 → n + len ≤ m.len → exec (.imgdata p) s = .next (ends 2 { fw with
            staging := some { m with bytes := SMap.putAll 0 m.bytes (number n ((run 0 len).map fun i => SMap.getD fw.buf i 0)) } } 0))
        ∧ (n % 256 ≠ 0 ∨ len = 0 ∨ 61440 < len ∨ m.len < n + len → exec (.imgdata p) s = .next (ends 2 fw 1))
        ∧ (m.goodHead = false → exec (.imgcommit p) s = .next (ends 3 fw 1))
        ∧ (m.goodHead = true → m.len ≠ 256 + m.payload + 2420 → exec (.imgcommit p) s = .next (ends 3 fw 5))
        ∧ (m.goodHead = true → m.len = 256 + m.payload + 2420 →
          (m.signed = false → exec (.imgcommit p) s = .next (ends 3 fw 2))
          ∧ (m.signed = true → fw.revoked.getLsbD m.keySlot = true → exec (.imgcommit p) s = .next (ends 3 fw 3))
          ∧ (m.signed = true → fw.revoked.getLsbD m.keySlot = false → m.svn < fw.svn.toNat →
            exec (.imgcommit p) s = .next (ends 3 fw 4))
          ∧ (m.signed = true → fw.revoked.getLsbD m.keySlot = false → fw.svn.toNat ≤ m.svn →
            exec (.imgcommit p) s = .next (ends 3 { fw with committed := some m, staging := none } 0))))
      ∧ (s.recovery = false → fw.svn.toNat ≤ n → n ≤ fw.runningSvn ∨ n ≤ fw.committedSvn → n < 2 ^ 32 →
        exec (.svnadv p) s = .next (ends 4 { fw with svn := BitVec.ofNat 32 n } 0))
      ∧ (n < fw.svn.toNat ∨ (fw.runningSvn < n ∧ fw.committedSvn < n) ∨ 2 ^ 32 ≤ n → exec (.svnadv p) s = .next (ends 4 fw 1))
      ∧ (61440 < 84 + 32 * fw.digests.length + 2420 + 1312 → exec (.attest p) s = .next (ends 5 fw 1))
      ∧ (s.recovery = false → 84 + 32 * fw.digests.length + 2420 + 1312 ≤ 61440 → exec (.attest p) s = .next (ends 5 { fw with
          buf := SMap.putAll 0 fw.buf (number 0 fw.report)
          arg0 := BitVec.ofNat 64 (84 + 32 * fw.digests.length + 2420 + 1312) } 0))
      ∧ (fw.arg0 = 0x5253544B → exec (.reset p) s = .next (({ s with firmware := { fw with mbcmd := 6 } } : State).bringUp false))
      ∧ (fw.arg0 ≠ 0x5253544B → exec (.reset p) s = .next (ends 6 fw 1))
      ∧ (∀ c : Word, c = 0 ∨ 6 < c.toNat → exec (.mbBadCode p c) s = .next (ends c fw 1)))

/-- 12 R359, R360, Table 12-13: a grant never exceeds an island's demand, or its part of the module budget by the shares in effect, and
is half that while a junction is at 105 °C; from clocks within their islands' bounds a grant leaves such clocks, and a clamp the lowest; THERMAL_TRIP checks
every context and stops every clock until a cold reset. TELEMETRY_UPDATE stores what was measured, and a count of corrected errors
never falls. That nothing but a cold reset does anything after a trip is log 88's (R360: every clock stops). -/
def Sys2Proof.Claims.PowerRules : Prop :=
  ∀ s : State,
    (∀ demand, ∃ p, exec (.powerGrant demand) s = .next { s with power := p }
      ∧ (∀ i, i < 16 → SMap.getD p.grant i 0 = s.power.grantFor i (demand.getD i 0)
        ∧ SMap.getD p.demand i 0 = demand.getD i 0)
      ∧ ((∀ i b, clockBounds i = some b → b.1 ≤ s.power.clockOf i ∧ s.power.clockOf i ≤ b.2) →
        ∀ i b, i < 16 → clockBounds i = some b → b.1 ≤ p.clockOf i ∧ p.clockOf i ≤ b.2)
      ∧ { p with demand := s.power.demand, grant := s.power.grant, clock := s.power.clock } = s.power)
    ∧ (∀ i d, s.power.grantFor i d ≤ d
      ∧ s.power.grantFor i d * ((run 0 16).map s.power.appliedOf).sum ≤ moduleBudget * 1000 * s.power.appliedOf i
      ∧ (s.power.halved = true → 2 * s.power.grantFor i d ≤ d))
    ∧ (∃ p, exec .overcurrentClamp s = .next { s with power := p } ∧ (∀ i b, i < 16 → clockBounds i = some b → p.clockOf i = b.1)
      ∧ { p with clock := s.power.clock } = s.power)
    ∧ (∀ hot, ∃ p, exec (.thermalHalve hot) s = .next { s with power := p } ∧ p.halved = hot
      ∧ (hot = true → s.power.halved = false → ∀ i, SMap.getD p.grant i 0 = SMap.getD s.power.grant i 0 / 2)
      ∧ (hot = false ∨ s.power.halved = true → p.grant = s.power.grant)
      ∧ { p with halved := s.power.halved, grant := s.power.grant } = s.power)
    ∧ exec .thermalTrip s = .next { s.deviceCheck with thermtrip := true }
    ∧ (s.thermtrip = true → ∀ i, i ≠ .coldReset → s.turn (.event i) = .next s)
    ∧ (∀ pw tm, ∃ p, exec (.telemetryUpdate pw tm) s = .next { s with power := p, free := s.free + 16 }
      ∧ (∀ i, i < 16 → SMap.getD p.ipwr i 0 = BitVec.ofNat 32 (pw.getD i 0) ∧ SMap.getD p.itemp i 0 = BitVec.ofNat 16 (tm.getD i 0)
        ∧ SMap.getD p.iclk i 0 = BitVec.ofNat 16 (s.power.clockOf i))
      ∧ (∀ i, i < 16 → (SMap.getD s.power.icorr i 0).toNat ≤ (SMap.getD p.icorr i 0).toNat)
      ∧ { p with ipwr := s.power.ipwr, itemp := s.power.itemp, iclk := s.power.iclk, icorr := s.power.icorr } = s.power)

/-- Mailbox commands and power clamps. -/
def Obligations.FirmwareAndPowerRules : Prop := Claims.MailboxCommands ∧ Claims.PowerRules

/-- 07 R227 to R229: where everything the group issued has performed and no lane of the path arrives a third time, BAR.ARV completes;
where no arrival of its lanes is of an open phase, BAR.WAIT completes; where its own arrival completes the phase, so that none is left
open, BAR.SYNC completes. The path goes on at the next instruction, and only the barrier changes. -/
def Sys2Proof.Claims.BarriersComplete : Prop :=
  ∀ (n : BitVec 4) s g p latch chain tm,
    s.team g.team = some tm → s.released g = true → s.acquired g = true →
    let bar := tm.barrier n.toNat
    let after := (bar.arrive g.grpid p.mask).check tm.grps (s.exMasks g.team)
    let arrived := s.setTeam g.team { tm with bars := SMap.insert tm.bars n.toNat after }
    let open_ := fun (b : Barrier) => p.mask &&& (SMap.getD b.ac g.grpid 0 ||| SMap.getD b.an g.grpid 0)
    let completes := fun (i : Instr) (t : State) => ∃ h : Group, exec i s = .next (t.setGroup s.cur.key h) ∧ h.regs = g.regs
      ∧ SameGroup g h ∧ Advanced t s.cur.pslot g p chain (p.pc + 4) h
    (p.mask &&& SMap.getD bar.ac g.grpid 0 &&& SMap.getD bar.an g.grpid 0 = 0 →
      (Goes (.barArv n) s g p latch chain → completes (.barArv n) arrived)
      ∧ (Goes (.barSync n) s g p latch chain → p.inBarrier = false → open_ after = 0 → completes (.barSync n) arrived))
    ∧ (open_ bar = 0 →
      (Goes (.barWait n) s g p latch chain → completes (.barWait n) s)
      ∧ (Goes (.barSync n) s g p latch chain → p.inBarrier = true → completes (.barSync n) s))

/-- 01 R44; 10 R307: OPERAND_ARRIVAL completes: the only path of a group, waiting for an operand of an instruction whose
registers have arrived while the store queue has room, is ready; nothing else changes. -/
def Sys2Proof.Claims.OperandArrivalCompletes : Prop :=
  ∀ core slot s g p i, slot < 128 → s.group (groupKey core slot) = some g → p.wait = .operand →
    s.codeAt core (s.asidOf g) p.pc.toNat = .ok (.ok i) → s.registersBusy g p i = false → g.queue.length < 16 →
    (g.slotA = some p → g.slotB = none → exec (.operandArrival core slot) s
      = .next (s.setGroup (groupKey core slot) { g with slotA := some { p with wait := .ready } }))
    ∧ (g.slotA = none → g.slotB = some p → exec (.operandArrival core slot) s
      = .next (s.setGroup (groupKey core slot) { g with slotB := some { p with wait := .ready } }))

/-- 01 R44; 05 R157: LINE_FILL_WAKE completes: the only path of a group, waiting on lines of a segment that are all full now, may
read them again; nothing else changes. -/
def Sys2Proof.Claims.LineFillWakeCompletes : Prop :=
  ∀ core slot s g p k ls start seg t, slot < 128 → s.group (groupKey core slot) = some g → p.wait = .emptyLine k ls start false t →
    s.segment g.team k = some seg → (∀ l ∈ ls, seg.isFull l = true) →
    (g.slotA = some p → g.slotB = none → exec (.lineFillWake core slot) s
      = .next (s.setGroup (groupKey core slot) { g with slotA := some { p with wait := .emptyLine k ls start true t } }))
    ∧ (g.slotA = none → g.slotB = some p → exec (.lineFillWake core slot) s
      = .next (s.setGroup (groupKey core slot) { g with slotB := some { p with wait := .emptyLine k ls start true t } }))

/-- 07 R237: HANDLER_START completes: for the only queued message of a core, whose context runs, whose segment fits there in the
cluster's mode, whose quadrant is not reserved and which needs no arena slot, one group starts in a free slot and the queue is
empty. -/
def Sys2Proof.Claims.HandlerStartCompletes : Prop :=
  ∀ core slot (s : State) j, (s.core core).msgq = [j] → (s.context j.ctx).state = 1 → s.segFits j.packet 0 core = true →
    s.modeFits j.packet core = true → SMap.has s.reserved (core / 32) = false → (Header.ofPacket j.packet).divstack = 0 →
    s.freeSlot core = some slot →
    ∃ t h, exec (.handlerStart core) s = .next t ∧ t.group (groupKey core slot) = some h ∧ h.uid = s.nextUid ∧ h.ctx = j.ctx
      ∧ h.slotA = some ⟨0xFFFFFFFF, BitVec.ofNat 64 (kernelOf j.packet + 64), none, 0, 0, 0, none, .ready⟩
      ∧ t.nextUid = s.nextUid + 1 ∧ (core / 4 ∉ s.fusedClusters → (t.core core).msgq = [])

/-- BAR.ARV, BAR.WAIT, BAR.SYNC, OPERAND_ARRIVAL, LINE_FILL_WAKE and HANDLER_START complete, and where. -/
def Obligations.BarrierAndWakeCompletions : Prop := Claims.BarriersComplete ∧ Claims.OperandArrivalCompletes ∧ Claims.LineFillWakeCompletes ∧ Claims.HandlerStartCompletes
end

