-- ==== Sys2Proof/Laws/Map.lean ====
section
/-! SUPPORT. Laws of the sparse map and of device memory: read after write, and that every operation keeps the canonical
form. -/

namespace Sys2Proof

/-- A lookup below the first key finds nothing. -/
theorem SMap.find_none_of_lt {α : Type} (m : SMap α) (j : Nat) (h : ∀ e ∈ m, j < e.1) : SMap.find m j = none := by
  induction m with
  | nil => rfl
  | cons e r ih =>
    obtain ⟨k, v⟩ := e
    have hk : j < k := h (k, v) (by simp)
    simp only [SMap.find, Nat.ne_of_lt hk, if_false]
    exact ih fun e he => h e (List.mem_cons_of_mem _ he)

/-- Sortedness as a pairwise fact. -/
theorem SMap.sorted_iff {α : Type} (m : SMap α) : SMap.sorted m = true ↔ m.Pairwise fun a b => a.1 < b.1 := by
  induction m with
  | nil => simp [SMap.sorted]
  | cons e r ih =>
    obtain ⟨j, x⟩ := e
    cases r with
    | nil => simp [SMap.sorted]
    | cons f m =>
      obtain ⟨k, y⟩ := f
      simp only [SMap.sorted, Bool.and_eq_true, decide_eq_true_eq, ih]
      constructor
      · rintro ⟨hjk, hp⟩
        rw [List.pairwise_cons]
        refine ⟨fun a ha => ?_, hp⟩
        rcases List.mem_cons.1 ha with rfl | ha
        · exact hjk
        · exact Nat.lt_trans hjk ((List.pairwise_cons.1 hp).1 a ha)
      · intro hp
        rw [List.pairwise_cons] at hp
        exact ⟨hp.1 (k, y) (by simp), hp.2⟩

/-- What a lookup finds after an insertion. -/
theorem SMap.find_insert {α : Type} (m : SMap α) (j k : Nat) (x : α) :
    SMap.find (SMap.insert m j x) k = if k = j then some x else SMap.find m k := by
  induction m with
  | nil => simp [SMap.insert, SMap.find]
  | cons e r ih =>
    obtain ⟨i, v⟩ := e
    by_cases h1 : j < i
    · by_cases h2 : k = j <;> simp [SMap.insert, SMap.find, h1, h2]
    · by_cases h3 : j = i
      · subst h3
        by_cases h2 : k = j <;> simp [SMap.insert, SMap.find, h2]
      · by_cases h4 : k = i
        · subst h4
          simp [SMap.insert, SMap.find, h1, h3, Ne.symm h3]
        · simp [SMap.insert, SMap.find, h1, h3, h4, ih]

/-- The keys after an insertion are the old ones and the new one. -/
theorem SMap.mem_insert {α : Type} {m : SMap α} {j : Nat} {x : α} {e : Nat × α} (h : e ∈ SMap.insert m j x) :
    e = (j, x) ∨ e ∈ m := by
  induction m with
  | nil => simpa [SMap.insert] using h
  | cons f r ih =>
    obtain ⟨i, v⟩ := f
    simp only [SMap.insert] at h
    split at h
    · simpa using h
    · split at h
      · rcases List.mem_cons.1 h with h | h <;> simp [h]
      · rcases List.mem_cons.1 h with h | h
        · simp [h]
        · rcases ih h with h | h <;> simp [h]

/-- An insertion keeps the keys rising. -/
theorem SMap.sorted_insert {α : Type} {m : SMap α} (j : Nat) (x : α) (h : SMap.sorted m = true) :
    SMap.sorted (SMap.insert m j x) = true := by
  rw [SMap.sorted_iff] at *
  induction m with
  | nil => simp [SMap.insert]
  | cons e r ih =>
    obtain ⟨i, v⟩ := e
    rw [List.pairwise_cons] at h
    simp only [SMap.insert]
    split
    · rename_i hj
      rw [List.pairwise_cons, List.pairwise_cons]
      refine ⟨fun a ha => ?_, h⟩
      rcases List.mem_cons.1 ha with rfl | ha
      · exact hj
      · exact Nat.lt_trans hj (h.1 a ha)
    · rename_i hj
      split
      · rename_i he
        subst he
        rw [List.pairwise_cons]
        exact h
      · rename_i hne
        rw [List.pairwise_cons]
        refine ⟨fun a ha => ?_, ih h.2⟩
        rcases SMap.mem_insert ha with rfl | ha
        · exact Nat.lt_of_le_of_ne (Nat.le_of_not_lt hj) (Ne.symm hne)
        · exact h.1 a ha

/-- What is listed after a removal was listed before. -/
theorem SMap.mem_erase {α : Type} {m : SMap α} {j : Nat} {e : Nat × α} (h : e ∈ SMap.erase m j) : e ∈ m ∧ e.1 ≠ j := by
  induction m with
  | nil => simp [SMap.erase] at h
  | cons f r ih =>
    obtain ⟨i, v⟩ := f
    simp only [SMap.erase] at h
    split at h
    · exact ⟨List.mem_cons_of_mem _ (ih h).1, (ih h).2⟩
    · rename_i hne
      rcases List.mem_cons.1 h with rfl | h
      · exact ⟨by simp, Ne.symm hne⟩
      · exact ⟨List.mem_cons_of_mem _ (ih h).1, (ih h).2⟩

/-- A removal keeps the keys rising. -/
theorem SMap.sorted_erase {α : Type} {m : SMap α} (j : Nat) (h : SMap.sorted m = true) :
    SMap.sorted (SMap.erase m j) = true := by
  rw [SMap.sorted_iff] at *
  induction m with
  | nil => simp [SMap.erase]
  | cons e r ih =>
    obtain ⟨i, v⟩ := e
    rw [List.pairwise_cons] at h
    simp only [SMap.erase]
    split
    · exact ih h.2
    · rw [List.pairwise_cons]
      exact ⟨fun a ha => h.1 a (SMap.mem_erase ha).1, ih h.2⟩

/-- What a lookup finds after a removal. -/
theorem SMap.find_erase {α : Type} (m : SMap α) (j k : Nat) :
    SMap.find (SMap.erase m j) k = if k = j then none else SMap.find m k := by
  induction m with
  | nil => simp [SMap.erase, SMap.find]
  | cons e r ih =>
    obtain ⟨i, v⟩ := e
    by_cases h1 : j = i
    · subst h1
      by_cases h2 : k = j
      · subst h2; simpa [SMap.erase] using ih
      · simp [SMap.erase, SMap.find, ih, h2]
    · by_cases h2 : k = i
      · subst h2
        simp [SMap.erase, SMap.find, h1, Ne.symm h1]
      · simp [SMap.erase, SMap.find, h1, h2, ih]

/-- Read after a canonical update. -/
@[simp] theorem SMap.getD_put {α : Type} [DecidableEq α] (d : α) (m : SMap α) (j k : Nat) (x : α) :
    SMap.getD (SMap.put d m j x) k d = if k = j then x else SMap.getD m k d := by
  unfold SMap.getD SMap.put
  by_cases hx : x = d
  · by_cases hk : k = j <;> simp [hx, hk, SMap.find_erase]
  · by_cases hk : k = j <;> simp [hx, hk, SMap.find_insert]

/-- Read after an insertion. -/
@[simp] theorem SMap.getD_insert {α : Type} (d : α) (m : SMap α) (j k : Nat) (x : α) :
    SMap.getD (SMap.insert m j x) k d = if k = j then x else SMap.getD m k d := by
  unfold SMap.getD
  by_cases hk : k = j <;> simp [hk, SMap.find_insert]

/-- A canonical update keeps the canonical form. -/
theorem SMap.canonical_put {α : Type} [DecidableEq α] {d : α} {m : SMap α} (j : Nat) (x : α)
    (h : SMap.canonical d m = true) : SMap.canonical d (SMap.put d m j x) = true := by
  simp only [SMap.canonical, Bool.and_eq_true, List.all_eq_true, decide_eq_true_eq] at *
  unfold SMap.put
  split
  · exact ⟨SMap.sorted_erase j h.1, fun e he => h.2 e (SMap.mem_erase he).1⟩
  · rename_i hx
    refine ⟨SMap.sorted_insert j x h.1, fun e he => ?_⟩
    rcases SMap.mem_insert he with rfl | he
    · exact hx
    · exact h.2 e he

/-- Several canonical updates keep the canonical form. -/
theorem SMap.canonical_putAll {α : Type} [DecidableEq α] {d : α} (l : List (Nat × α)) {m : SMap α}
    (h : SMap.canonical d m = true) : SMap.canonical d (SMap.putAll d m l) = true := by
  induction l generalizing m with
  | nil => exact h
  | cons e r ih => exact ih (SMap.canonical_put e.1 e.2 h)

/-! ## Device memory -/

open Machine

/-- Reading back a written byte; every other byte reads as before. -/
@[simp] theorem Memory.read_write (m : List Host.Cell) (a b : Nat) (x : Byte) :
    Memory.read (Memory.write m a x) b = if b = a then x else Memory.read m b := by
  simp [Memory.read, Memory.write]

/-- A byte write keeps the canonical form. -/
theorem Memory.wf_write {m : List Host.Cell} (a : Nat) (x : Byte) (h : Memory.wf m = true) :
    Memory.wf (Memory.write m a x) = true := SMap.canonical_put a x h

/-- A run of byte writes keeps the canonical form. -/
theorem Memory.wf_writeN {m : List Host.Cell} (a : Nat) (bs : List Byte) (h : Memory.wf m = true) :
    Memory.wf (Memory.writeN m a bs) = true := by
  induction bs generalizing m a with
  | nil => exact h
  | cons b r ih => exact ih (a + 1) (Memory.wf_write a b h)

/-- Outside a written run, every byte reads as before. -/
theorem Memory.read_writeN_of_out (m : List Host.Cell) (a b : Nat) (bs : List Byte) (h : b < a ∨ a + bs.length ≤ b) :
    Memory.read (Memory.writeN m a bs) b = Memory.read m b := by
  induction bs generalizing m a with
  | nil => rfl
  | cons x r ih =>
    simp only [List.length_cons] at h
    rw [Memory.writeN, ih _ _ (by omega), Memory.read_write, if_neg (by omega)]

/-- Inside a written run, a byte reads as written. -/
theorem Memory.read_writeN_of_in (m : List Host.Cell) (a i : Nat) (bs : List Byte) (h : i < bs.length) :
    Memory.read (Memory.writeN m a bs) (a + i) = bs[i] := by
  induction bs generalizing m a i with
  | nil => simp at h
  | cons x r ih =>
    cases i with
    | zero => rw [Memory.writeN, Memory.read_writeN_of_out _ _ _ _ (by omega)]; simp
    | succ n =>
      have := ih (Memory.write m a x) (a + 1) n (by simpa using h)
      rw [Memory.writeN, show a + (n + 1) = a + 1 + n by omega, this]
      simp

end Sys2Proof
end

