-- ==== Sys2Proof/Laws/Registers.lean ====
section
/-! SUPPORT. Laws of a group's registers, of the issue boundary, and of completing an instruction: read after write, what
a boundary keeps, and the instruction shapes that meet `LaneOp` and `RegOp`. -/

namespace Sys2Proof.Machine

/-! ## Lanes -/

theorem mem_run (n lo x : Nat) : x ∈ run lo n ↔ lo ≤ x ∧ x < lo + n := by
  induction n generalizing lo with
  | zero => simp [run]
  | succ n ih => simp [run, ih]; omega

theorem mem_lanesOf (m : Word) (l : Nat) : l ∈ lanesOf m ↔ lane m l = true := by
  have h : lane m l = true → l < 32 := fun h => by
    by_contra hl
    simp [lane, BitVec.getLsbD_of_ge m l (by omega)] at h
  simp only [lanesOf, List.mem_filter, mem_run]
  constructor
  · rintro ⟨_, h⟩; exact h
  · intro hl; have := h hl; exact ⟨by omega, hl⟩

theorem lane_lt {m : Word} {l : Nat} (h : lane m l = true) : l < 32 := by
  by_contra hl
  simp [lane, BitVec.getLsbD_of_ge m l (by omega)] at h

/-! ## Writing registers -/

/-- Writing keys whose values are a function of the key. -/
theorem SMap.getD_putAll {α : Type} [DecidableEq α] (d : α) (F : Nat → α) (l : List (Nat × α))
    (h : ∀ e ∈ l, e.2 = F e.1) (m : SMap α) (j : Nat) :
    SMap.getD (SMap.putAll d m l) j d = if j ∈ l.map Prod.fst then F j else SMap.getD m j d := by
  induction l generalizing m with
  | nil => simp [SMap.putAll]
  | cons e r ih =>
    obtain ⟨k, x⟩ := e
    have hx : x = F k := h (k, x) (by simp)
    rw [SMap.putAll, ih (fun e he => h e (List.mem_cons_of_mem _ he))]
    by_cases hr : j ∈ r.map Prod.fst
    · simp [hr]
    · rw [if_neg hr, SMap.getD_put]
      by_cases hj : k = j
      · subst hj; simp [hx]
      · have hj' : ¬ j = k := fun h => hj h.symm
        simp [hj', hr]

theorem Group.vr_setLanes (g : Group) (d : Nat) (act : Word) (f : Nat → Word) (r l : Nat) (hl : l < 32) :
    (g.setLanes d ((lanesOf act).map fun l => (l, f l))).vr r l = if r = d ∧ lane act l = true then f l else g.vr r l := by
  unfold Group.setLanes Group.vr
  rw [SMap.getD_putAll 0 (fun j => f (j % 32))]
  · simp only [List.map_map]
    by_cases h : r = d ∧ lane act l = true
    · have : 32 * r + l ∈ List.map (Prod.fst ∘ (fun e : Nat × Word => (32 * d + e.1, e.2)) ∘ fun l => (l, f l)) (lanesOf act) :=
        List.mem_map.mpr ⟨l, (mem_lanesOf act l).mpr h.2, by simp [h.1]⟩
      rw [if_pos this, if_pos h]
      congr 1; omega
    · rw [if_neg, if_neg h]
      intro hm
      obtain ⟨k, hk, he⟩ := List.mem_map.mp hm
      have hk' := (mem_lanesOf act k).mp hk
      have := lane_lt hk'
      simp at he
      have : k = l := by omega
      subst this
      exact h ⟨by omega, hk'⟩
  · intro e he
    simp only [List.map_map, List.mem_map] at he
    obtain ⟨k, hk, rfl⟩ := he
    have := lane_lt ((mem_lanesOf act k).mp hk)
    simp only [Function.comp]
    congr 1; omega

/-- Writes of several registers, whose values are a function of register and lane. -/
theorem Group.vr_setMany (g : Group) (F : Nat → Nat → Word) (xs : List ((Nat × Nat) × Word))
    (h : ∀ e ∈ xs, e.1.2 < 32 ∧ e.2 = F e.1.1 e.1.2) (r l : Nat) (hl : l < 32) :
    (g.setMany xs).vr r l = if (r, l) ∈ xs.map Prod.fst then F r l else g.vr r l := by
  unfold Group.setMany Group.vr
  rw [SMap.getD_putAll 0 (fun j => F (j / 32) (j % 32))]
  · simp only [List.map_map]
    by_cases hm : (r, l) ∈ xs.map Prod.fst
    · obtain ⟨e, he, hr⟩ := List.mem_map.mp hm
      have : 32 * r + l ∈ List.map (Prod.fst ∘ fun e : (Nat × Nat) × Word => (32 * e.1.1 + e.1.2, e.2)) xs :=
        List.mem_map.mpr ⟨e, he, by simp [hr]⟩
      rw [if_pos this, if_pos hm]
      congr 1 <;> omega
    · rw [if_neg, if_neg hm]
      intro hx
      obtain ⟨e, he, hk⟩ := List.mem_map.mp hx
      have := (h e he).1
      simp at hk
      apply hm
      refine List.mem_map.mpr ⟨e, he, ?_⟩
      have h1 : e.1.1 = r := by omega
      have h2 : e.1.2 = l := by omega
      simp [← h1, ← h2]
  · intro e he
    obtain ⟨k, hk, rfl⟩ := List.mem_map.mp he
    have := h k hk
    simp only
    rw [this.2]
    congr 1 <;> omega

theorem Group.sr_setSr (g : Group) (d r : Nat) (x : Word) : (g.setSr d x).sr r = if r = d then x else g.sr r := by
  simp only [Group.setSr, Group.sr, SMap.getD_put]

theorem Group.pred_setPred (g : Group) (d r : Nat) (act x : Word) :
    (g.setPred d act x).pred r = if r = d then (g.pred r &&& ~~~act) ||| (x &&& act) else g.pred r := by
  simp only [Group.setPred, Group.pred, SMap.getD_put]
  by_cases h : d = r
  · simp [h]
  · have : ¬ r = d := fun e => h e.symm
    simp [this]

/-! ## The issue boundary -/

/-- What a boundary changes: paths, divergence stack, wave split and the slots' turn. -/
def PathsOnly (g h : Group) : Prop :=
  { h with slotA := g.slotA, slotB := g.slotB, dsp := g.dsp, split := g.split, nextB := g.nextB } = g

theorem PathsOnly.trans {a b c : Group} (h1 : PathsOnly a b) (h2 : PathsOnly b c) : PathsOnly a c := by
  unfold PathsOnly at h1 h2 ⊢
  exact (congrArg (fun x : Group =>
    { x with slotA := a.slotA, slotB := a.slotB, dsp := a.dsp, split := a.split, nextB := a.nextB }) h2).trans h1

theorem Group.joinSlot_paths {g h : Group} {top : Option StackEntry} {ps : PSlot} (e : g.joinSlot top ps = some h) :
    PathsOnly g h := by
  unfold Group.joinSlot at e
  repeat' split at e
  all_goals first
    | (simp only [Option.some.injEq] at e; subst e; cases ps <;> rfl)
    | cases e

theorem State.boundary_paths {s : State} {g h : Group} (e : s.boundary g = some h) : PathsOnly g h := by
  unfold State.boundary at e
  split at e
  · simp only [Option.some.injEq] at e; subst e; rfl
  · split at e
    · simp only [Option.some.injEq] at e; subst e; rfl
    · simp only at e
      split at e
      · rename_i hj; simp only [Option.some.injEq] at e; subst e; exact Group.joinSlot_paths hj
      · exact Group.joinSlot_paths e
  · split at e
    · split at e
      · split at e
        · simp only [Option.some.injEq] at e; subst e; rfl
        · cases e
      · simp only [Option.some.injEq] at e; subst e; rfl
    · cases e
  · simp only at e
    split at e
    · simp only [Option.some.injEq] at e; subst e; rfl
    · split at e
      · split at e
        · simp only [Option.some.injEq] at e; subst e; rfl
        · split at e
          · simp only [Option.some.injEq] at e; subst e; rfl
          · exact Group.joinSlot_paths e
      · cases e

theorem State.settleFrom_paths (s : State) (n : Nat) (g : Group) : PathsOnly g (s.settleFrom n g) := by
  induction n generalizing g with
  | zero => rfl
  | succ n ih =>
    unfold State.settleFrom
    split
    · rename_i h e; exact (State.boundary_paths e).trans (ih h)
    · rfl

/-- A boundary changes nothing of a group but its paths, stack pointer, split and turn. -/
theorem State.settle_paths (s : State) (g : Group) : PathsOnly g (s.settle g) := s.settleFrom_paths 260 g

theorem State.atBoundary_paths (s : State) (g : Group) : PathsOnly g (s.atBoundary g) := by
  unfold State.atBoundary
  split
  · rfl
  · exact s.settle_paths g

theorem PathsOnly.fuse {g h : Group} (e : PathsOnly g h) : h.fuse = g.fuse := by
  have := congrArg Group.fuse e
  exact this

theorem PathsOnly.regs {g h : Group} (e : PathsOnly g h) : h.regs = g.regs := by
  unfold PathsOnly at e; rw [← e]; rfl

theorem PathsOnly.same {g h k : Group} (e : PathsOnly h k) (s : SameGroup g h) : SameGroup g k := by
  unfold PathsOnly at e; unfold SameGroup at *
  rw [← e] at s
  exact s

/-! ## Issue -/

theorem State.veil_sv (s : State) (g : Group) (i : Instr) (t : State) (key r : Nat) : t.sv key (s.veil g i) r = t.sv key g r := rfl

theorem State.fuseNext_veil (s : State) (key : Nat) (g : Group) (ps : PSlot) (p : Path) (i j : Instr) (chain : Option Chain) :
    s.fuseNext key (s.veil g j) ps p i chain = s.fuseNext key g ps p i chain := rfl

theorem State.veil_path (s : State) (g : Group) (i : Instr) (ps : PSlot) : (s.veil g i).path ps = g.path ps := by
  cases ps <;> rfl

/-- An instruction that may issue takes its effect. -/
theorem issue_go {i : Instr} {s : State} {g : Group} {p : Path} {latch : Option Nat} {chain : Option Chain}
    (h : Goes i s g p latch chain) (k : Ctx → Out) :
    issue i s k = k (Issuing i s g p latch chain) := by
  obtain ⟨⟨g0, hg, rfl, hv⟩, hp⟩ := h
  have hp0 : g0.path s.cur.pslot = some p := (s.veil_path g0 i _).symm.trans hp
  simp only [issue, hg, hp0, hv]
  rfl

theorem Started.path (i : Instr) (s : State) (g : Group) (p : Path) (chain : Option Chain) (ps : PSlot) :
    (Started i s g p chain).path ps = g.path ps := by cases ps <;> rfl

@[simp] theorem Started.src (i : Instr) (s : State) (g : Group) (p : Path) (chain : Option Chain) (r l : Nat) :
    (Started i s g p chain).src r l = g.src r l := rfl
@[simp] theorem Started.src64 (i : Instr) (s : State) (g : Group) (p : Path) (chain : Option Chain) (r l : Nat) :
    (Started i s g p chain).src64 r l = g.src64 r l := rfl
@[simp] theorem Started.vr (i : Instr) (s : State) (g : Group) (p : Path) (chain : Option Chain) (r l : Nat) :
    (Started i s g p chain).vr r l = g.vr r l := rfl
@[simp] theorem Started.sr (i : Instr) (s : State) (g : Group) (p : Path) (chain : Option Chain) (r : Nat) :
    (Started i s g p chain).sr r = g.sr r := rfl
@[simp] theorem Started.sr64 (i : Instr) (s : State) (g : Group) (p : Path) (chain : Option Chain) (r : Nat) :
    (Started i s g p chain).sr64 r = g.sr64 r := rfl
@[simp] theorem Started.pred (i : Instr) (s : State) (g : Group) (p : Path) (chain : Option Chain) (r : Nat) :
    (Started i s g p chain).pred r = g.pred r := rfl
@[simp] theorem Started.pr (i : Instr) (s : State) (g : Group) (p : Path) (chain : Option Chain) (r l : Nat) :
    (Started i s g p chain).pr r l = lane (g.pred r) l := rfl
@[simp] theorem Started.view (i : Instr) (s : State) (g : Group) (p : Path) (chain : Option Chain) (r l : Nat) :
    (Started i s g p chain).view r l = g.view r l := rfl
@[simp] theorem Started.gstat (i : Instr) (s : State) (g : Group) (p : Path) (chain : Option Chain) :
    (Started i s g p chain).gstat = g.gstat := rfl
@[simp] theorem Started.team (i : Instr) (s : State) (g : Group) (p : Path) (chain : Option Chain) :
    (Started i s g p chain).team = g.team := rfl
@[simp] theorem Started.ctx (i : Instr) (s : State) (g : Group) (p : Path) (chain : Option Chain) :
    (Started i s g p chain).ctx = g.ctx := rfl
@[simp] theorem Started.sysValue (i : Instr) (s : State) (g : Group) (p : Path) (chain : Option Chain) (t : State)
    (key r : Nat) : t.sysValue key (Started i s g p chain) r = t.sysValue key g r := rfl
@[simp] theorem Started.sv (i : Instr) (s : State) (g : Group) (p : Path) (chain : Option Chain) (t : State)
    (key r : Nat) : t.sv key (Started i s g p chain) r = t.sv key g r := rfl

theorem Group.path_setPath (g : Group) (ps : PSlot) (x : Option Path) : (g.setPath ps x).path ps = x := by cases ps <;> rfl

theorem Group.path_other_setPath (g : Group) (ps : PSlot) (x : Option Path) :
    (g.setPath ps x).path ps.other = g.path ps.other := by cases ps <;> rfl

theorem Group.regs_setPath (g : Group) (ps : PSlot) (x : Option Path) : (g.setPath ps x).regs = g.regs := by
  cases ps <;> rfl

/-- `k` is the started group but for its registers. -/
def RegsOnly (k0 k : Group) : Prop := { k with v := k0.v, b := k0.b, s := k0.s, p := k0.p, gstat := k0.gstat } = k0

theorem RegsOnly.latches {k0 k : Group} (h : RegsOnly k0 k) (b : SMap Word) : RegsOnly k0 { k with b := b } := h

/-- Completing with a group that differs from `g` in its registers and in what issuing has moved: `k0` is `g` as issued. -/
theorem completesAt_retire {i : Instr} {s t : State} {g k : Group} {p p1 : Path} {chain : Option Chain} {pc : DWord}
    (act : Word) (latch : Option Nat) (g1 : Group) (q : Path) (nx : DWord)
    (hk : SameGroup g k) (hp : k.path s.cur.pslot = some p1) (hp1 : p1.advance pc = p.advance pc)
    (ho : k.path s.cur.pslot.other = g.path s.cur.pslot.other) (hc : k.chain = chain) (hd : k.dsp = g.dsp)
    (hn : k.nextB = decide (s.cur.pslot = .a)) (hf : k.fuse = s.fuseNext s.cur.key g s.cur.pslot p i chain)
    (he : exec i s = .next (Ctx.retireAt ⟨t, s.cur.key, g1, s.cur.pslot, q, act, latch, nx⟩ k pc)) :
    CompletesAt i s t g p chain k.regs pc := by
  set k1 := k.setPath s.cur.pslot (some (p1.advance pc)) with hk1
  have hsame1 : SameGroup g k1 := by
    rw [hk1]; unfold SameGroup at *
    cases s.cur.pslot <;> exact hk
  have hex : k.ex = g.ex := by have := congrArg Group.ex hk; exact this
  refine ⟨t.atBoundary k1, ?_, ?_, ?_, ?_, ?_⟩
  · rw [he]
    simp only [Ctx.retireAt, hp]
    rfl
  · rw [(State.atBoundary_paths _ k1).regs, hk1, Group.regs_setPath]
  · exact (State.atBoundary_paths _ k1).same hsame1
  · refine ⟨k1, rfl, ?_, ?_, ?_, ?_, ?_, ?_⟩
    · rw [hk1, Group.path_setPath, hp1]
    · rw [hk1, Group.path_other_setPath, ho]
    · exact (show (k.setPath _ _).chain = k.chain by cases s.cur.pslot <;> rfl).trans hc
    · exact (show (k.setPath _ _).dsp = k.dsp by cases s.cur.pslot <;> rfl).trans hd
    · exact (show (k.setPath _ _).ex = k.ex by cases s.cur.pslot <;> rfl).trans hex
    · exact (show (k.setPath _ _).nextB = k.nextB by cases s.cur.pslot <;> rfl).trans hn
  · rw [(State.atBoundary_paths _ k1).fuse, hk1]
    exact (show (k.setPath _ _).fuse = k.fuse by cases s.cur.pslot <;> rfl).trans hf

/-- Completing with a group that changed only in its registers. -/
theorem completes_done {i : Instr} {s : State} {g : Group} {p : Path} {latch : Option Nat} {chain : Option Chain}
    (h : Goes i s g p latch chain) (n : Nat) (k : Group) (hk : RegsOnly (Started i s g p chain) k)
    (he : exec i s = .next (Ctx.retireAt ⟨{ s with free := s.free + n }, s.cur.key, Started i s g p chain, s.cur.pslot, p,
      p.act, latch, p.pc + BitVec.ofNat 64 i.size⟩ k (p.pc + BitVec.ofNat 64 i.size))) :
    Completes i s g p chain n k.regs := by
  have hpath : ∀ ps, k.path ps = g.path ps := by
    intro ps
    unfold RegsOnly at hk
    have : (Started i s g p chain).path ps = k.path ps := by rw [← hk]; cases ps <;> rfl
    rw [← this, Started.path]
  have hsame : SameGroup g k := by
    unfold SameGroup RegsOnly at *
    exact congrArg (fun x : Group =>
      { x with nextB := g.nextB, since := g.since, chain := g.chain, fuse := g.fuse, split := g.split, stepDue := g.stepDue, mxrd := g.mxrd,
               v := g.v, b := g.b, s := g.s, p := g.p, gstat := g.gstat, slotA := g.slotA, slotB := g.slotB, dsp := g.dsp }) hk
  exact completesAt_retire _ _ _ _ _ hsame ((hpath _).trans h.path) rfl (hpath _)
    (by have := congrArg Group.chain hk; exact this) (by have := congrArg Group.dsp hk; exact this)
    (by have := congrArg Group.nextB hk; exact this) (by have := congrArg Group.fuse hk; exact this) he

/-! ## The shapes of instructions -/

theorem Started.regs (i : Instr) (s : State) (g : Group) (p : Path) (chain : Option Chain) :
    (Started i s g p chain).regs = g.regs := rfl

theorem Group.regs_setLanes (g : Group) (d : Nat) (act : Word) (f : Nat → Word) :
    (g.setLanes d ((lanesOf act).map fun l => (l, f l))).regs = g.regs.lanes act d f := by
  have h : ∀ r l, (if l < 32 then (g.setLanes d ((lanesOf act).map fun l => (l, f l))).vr r l else 0)
      = if r = d ∧ lane act l = true then f l else if l < 32 then g.vr r l else 0 := by
    intro r l
    by_cases hl : l < 32
    · simp only [hl, if_true]; exact g.vr_setLanes d act f r l hl
    · have : ¬ lane act l = true := fun h => hl (lane_lt h)
      simp [hl, this]
  simp only [Group.regs, Regs.lanes, Regs.mk.injEq]
  exact ⟨funext fun r => funext fun l => h r l, rfl, rfl, rfl, rfl⟩

theorem Group.regs_flag (g : Group) (w : Word) : (g.flag w).regs = g.regs.flag w := rfl

theorem Group.regs_setSr (g : Group) (d : Nat) (x : Word) : (g.setSr d x).regs = g.regs.scalar d x := by
  simp only [Group.regs, Regs.scalar, Regs.mk.injEq]
  exact ⟨rfl, rfl, rfl, funext fun r => g.sr_setSr d r x, rfl⟩

theorem Group.regs_setPred (g : Group) (d : Nat) (act x : Word) : (g.setPred d act x).regs = g.regs.pred act d x := by
  simp only [Group.regs, Regs.pred, Regs.mk.injEq]
  exact ⟨rfl, rfl, funext fun r => g.pred_setPred d r act x, rfl, rfl⟩

theorem Group.regs_latch (g : Group) (k : Nat) (act : Word) (f : Nat → Word) (n : Nat) :
    ({ g with b := SMap.putAll 0 g.b (latchWrites n k ((lanesOf act).map fun l => (l, f l))) } : Group).regs
      = g.regs.latch (some k) act f n := by
  have hfind : ∀ l, ((lanesOf act).map fun l => (l, f l)).find? (fun e => e.1 == l)
      = if lane act l = true then some (l, f l) else none := by
    intro l
    by_cases h : lane act l = true
    · rw [if_pos h]
      have hm : l ∈ lanesOf act := (mem_lanesOf act l).mpr h
      generalize lanesOf act = ls at hm
      induction ls with
      | nil => cases hm
      | cons x r ih =>
        by_cases hx : x = l
        · simp [hx]
        · have : l ∈ r := by
            rcases List.mem_cons.mp hm with h | h
            · exact absurd h.symm hx
            · exact h
          simpa [hx] using ih this
    · rw [if_neg h, List.find?_eq_none]
      intro e he
      obtain ⟨k, hk, rfl⟩ := List.mem_map.mp he
      simp only [beq_iff_eq]
      intro hkl
      exact h (hkl ▸ (mem_lanesOf act k).mp hk)
  have h : ∀ j l, (if l < 32 then SMap.getD (SMap.putAll 0 g.b (latchWrites n k ((lanesOf act).map fun l => (l, f l))))
        (32 * j + l) 0 else 0)
      = if some k = some j ∧ l < 32 then (if lane act l = true then f l else Config.freeWord (n + l))
        else if l < 32 then SMap.getD g.b (32 * j + l) 0 else 0 := by
    intro j l
    by_cases hl : l < 32
    · rw [if_pos hl, SMap.getD_putAll 0 (fun x => if lane act (x % 32) = true then f (x % 32) else Config.freeWord (n + x % 32))]
      · have hmem : 32 * j + l ∈ List.map Prod.fst (latchWrites n k ((lanesOf act).map fun l => (l, f l))) ↔ k = j := by
          simp only [latchWrites, List.map_map, List.mem_map, Function.comp, mem_run]
          constructor
          · rintro ⟨a, _, h⟩; omega
          · rintro rfl; exact ⟨l, by omega, rfl⟩
        by_cases hkj : k = j
        · subst hkj
          rw [if_pos (hmem.mpr rfl), show (32 * k + l) % 32 = l by omega]
          simp [hl]
        · rw [if_neg (fun h => hkj (hmem.mp h)), if_neg (by simp [hkj]), if_pos hl]
      · intro e he
        simp only [latchWrites, List.mem_map, mem_run] at he
        obtain ⟨a, ha, rfl⟩ := he
        simp only [hfind, show (32 * k + a) % 32 = a by omega]
        by_cases h : lane act a = true <;> simp [h]
    · simp [hl]
  exact congrArg (fun b => (⟨g.regs.v, b, g.regs.p, g.regs.r, g.regs.gstat⟩ : Regs)) (funext fun j => funext fun l => h j l)

theorem number_mem {α : Type} (d : Nat) (ws : List α) (r : Nat) (x : α) :
    (r, x) ∈ number d ws ↔ d ≤ r ∧ ws[r - d]? = some x := by
  induction ws generalizing d with
  | nil => simp [number]
  | cons y t ih =>
    simp only [number, List.mem_cons, Prod.mk.injEq, ih]
    constructor
    · rintro (⟨rfl, rfl⟩ | ⟨h, hx⟩)
      · simp
      · refine ⟨by omega, ?_⟩
        rw [show r - d = (r - (d + 1)) + 1 by omega, List.getElem?_cons_succ, hx]
    · rintro ⟨h, hx⟩
      by_cases hr : r = d
      · subst hr; simp at hx; exact .inl ⟨rfl, hx.symm⟩
      · right
        rw [show r - d = (r - (d + 1)) + 1 by omega, List.getElem?_cons_succ] at hx
        exact ⟨by omega, hx⟩

/-- Writing a list of words to consecutive registers of each active lane. -/
theorem Group.regs_span (g : Group) (d : Nat) (act : Word) (ws : Nat → List Word) :
    (g.setMany (((lanesOf act).map fun l => wordWrites d l (ws l)).flatten)).regs = g.regs.span act d ws := by
  set xs := ((lanesOf act).map fun l => wordWrites d l (ws l)).flatten with hxs
  have hmem : ∀ e : (Nat × Nat) × Word, e ∈ xs ↔ lane act e.1.2 = true ∧ d ≤ e.1.1 ∧ (ws e.1.2)[e.1.1 - d]? = some e.2 := by
    rintro ⟨⟨r, l⟩, x⟩
    simp only [hxs, List.mem_flatten, List.mem_map, wordWrites]
    constructor
    · rintro ⟨_, ⟨k, hk, rfl⟩, he⟩
      obtain ⟨⟨r', x'⟩, hm, he⟩ := List.mem_map.mp he
      simp only [Prod.mk.injEq] at he
      obtain ⟨⟨rfl, rfl⟩, rfl⟩ := he
      exact ⟨(mem_lanesOf act k).mp hk, (number_mem d (ws k) r' x').mp hm⟩
    · rintro ⟨hl, hd, hx⟩
      exact ⟨_, ⟨l, (mem_lanesOf act l).mpr hl, rfl⟩, List.mem_map.mpr ⟨(r, x), (number_mem d (ws l) r x).mpr ⟨hd, hx⟩, rfl⟩⟩
  have hw : ∀ r l, (if l < 32 then (g.setMany xs).vr r l else 0)
      = if lane act l = true ∧ d ≤ r ∧ r - d < (ws l).length then (ws l).getD (r - d) 0
        else if l < 32 then g.vr r l else 0 := by
    intro r l
    by_cases hl : l < 32
    · rw [if_pos hl, Group.vr_setMany g (fun r l => (ws l).getD (r - d) 0) xs]
      · by_cases hc : lane act l = true ∧ d ≤ r ∧ r - d < (ws l).length
        · rw [if_pos hc, if_pos]
          refine List.mem_map.mpr ⟨((r, l), (ws l)[r - d]), (hmem _).mpr ⟨hc.1, hc.2.1, ?_⟩, rfl⟩
          simp [hc.2.2]
        · rw [if_neg hc, if_neg, if_pos hl]
          intro hm
          obtain ⟨⟨k, x⟩, he, hk⟩ := List.mem_map.mp hm
          simp only at hk
          subst hk
          obtain ⟨h1, h2, h3⟩ := (hmem _).mp he
          exact hc ⟨h1, h2, by
            by_contra hlen
            simp only at h3
            rw [List.getElem?_eq_none (by omega)] at h3
            cases h3⟩
      · intro e he
        obtain ⟨h1, h2, h3⟩ := (hmem e).mp he
        refine ⟨lane_lt h1, ?_⟩
        simp [List.getD_eq_getElem?_getD, h3]
      · exact hl
    · have : ¬ lane act l = true := fun h => hl (lane_lt h)
      simp [hl, this]
  simp only [Group.regs, Regs.span, Regs.mk.injEq]
  exact ⟨funext fun r => funext fun l => hw r l, rfl, rfl, rfl, rfl⟩

theorem viewWrites_eq (r l : Nat) (t : Triple) : viewWrites r l t = wordWrites r l (tripleWords t) := rfl

/-- An instruction that delivers one result in each active lane (01 R22, 02 R61). -/
theorem laneOp_of {i : Instr} {w : BitVec 1} {d : Nat} {f : State → Group → Path → Nat → Word}
    {fl : State → Group → Path → Word} (F : Ctx → List (Nat × Word)) (FL : Ctx → Word)
    (he : ∀ s, exec i s = issue i s fun c => c.deliver w d (F c) (FL c))
    (hF : ∀ s g p latch chain, F ⟨s, s.cur.key, Started i s g p chain, s.cur.pslot, p, p.act, latch,
      p.pc + BitVec.ofNat 64 i.size⟩ = (lanesOf p.act).map fun l => (l, f s g p l))
    (hFL : ∀ s g p latch chain, FL ⟨s, s.cur.key, Started i s g p chain, s.cur.pslot, p, p.act, latch,
      p.pc + BitVec.ofNat 64 i.size⟩ = fl s g p) : LaneOp i w d f fl := by
  intro s g p latch chain h
  have hx := he s
  rw [issue_go h] at hx
  change exec i s = Ctx.deliver ⟨s, s.cur.key, Started i s g p chain, _, _, _, _, _⟩ w d (F ⟨s, s.cur.key, Started i s g p chain, _, _, _, _, _⟩)
    (FL ⟨s, s.cur.key, Started i s g p chain, _, _, _, _, _⟩) at hx
  rw [hF, hFL] at hx
  have hr : ((if w = 1 then Started i s g p chain
        else (Started i s g p chain).setLanes d ((lanesOf p.act).map fun l => (l, f s g p l))).flag (fl s g p)).regs
      = (if w = 1 then g.regs else g.regs.lanes p.act d (f s g p)).flag
          (fl s g p) := by
    rw [Group.regs_flag]
    split
    · rfl
    · rw [Group.regs_setLanes]; rfl
  have hro : RegsOnly (Started i s g p chain) ((if w = 1 then Started i s g p chain
        else (Started i s g p chain).setLanes d ((lanesOf p.act).map fun l => (l, f s g p l))).flag
          (fl s g p)) := by
    split <;> rfl
  cases latch with
  | none =>
    simp only [Ctx.deliver] at hx
    have := completes_done h 0 _ hro hx
    rw [hr] at this
    exact this
  | some k =>
    simp only [Ctx.deliver] at hx
    have := completes_done h 32 _ (hro.latches _) hx
    rw [Group.regs_latch, hr] at this
    exact this

theorem allFlags_map (ls : List Nat) (f : Nat → Nat × Word) :
    allFlags (ls.map fun l => (l, f l)) = (ls.map fun l => (f l).2).foldr (fun a b => a ||| b) 0 := by
  induction ls with
  | nil => rfl
  | cons x r ih => simp only [List.map_cons, allFlags, List.foldr_cons, ih]

/-- A float instruction (04 R129). -/
theorem floatOp_of {i : Instr} {w : BitVec 1} {d : Nat} {f : Group → Nat → Nat × Word} (F : Ctx → Nat → Nat × Word)
    (he : ∀ s, exec i s = issue i s fun c => c.floatLanes w d (F c))
    (hF : ∀ s g p latch chain l, F ⟨s, s.cur.key, Started i s g p chain, s.cur.pslot, p, p.act, latch,
      p.pc + BitVec.ofNat 64 i.size⟩ l = f g l) : FloatOp i w d f := by
  refine laneOp_of (fun c => wordsOf (c.lanes.map fun l => (l, F c l))) (fun c => allFlags (c.lanes.map fun l => (l, F c l)))
    he ?_ ?_
  · intro s g p latch chain
    simp only [wordsOf, List.map_map, Ctx.lanes]
    exact List.map_congr_left fun l _ => by simp only [Function.comp, hF]
  · intro s g p latch chain
    rw [allFlags_map]
    simp only [laneFlags, Ctx.lanes, hF]

/-- A one-source instruction. -/
theorem lane1_of {i : Instr} {a : Nat} {w : BitVec 1} {d : Nat} {f f' : Word → Word}
    (he : ∀ s, exec i s = issue i s fun c => c.lane1 a w d f') (hf : ∀ x, f' x = f x) : Lane1 i a w d f :=
  laneOp_of (fun c => c.map fun l => f' (c.g.src a l)) (fun _ => 0) he
    (fun _ _ _ _ _ => List.map_congr_left fun l _ => congrArg (Prod.mk l) (hf _)) (fun _ _ _ _ _ => rfl)

/-- A two-source instruction. -/
theorem lane2_of {i : Instr} {a b : Nat} {w : BitVec 1} {d : Nat} {f f' : Word → Word → Word}
    (he : ∀ s, exec i s = issue i s fun c => c.lane2 b a w d f') (hf : ∀ x y, f' x y = f x y) : Lane2 i a b w d f :=
  laneOp_of (fun c => c.map fun l => f' (c.g.src a l) (c.g.src b l)) (fun _ => 0) he
    (fun _ _ _ _ _ => List.map_congr_left fun l _ => congrArg (Prod.mk l) (hf _ _)) (fun _ _ _ _ _ => rfl)

/-- A two-source instruction that also reads its destination. -/
theorem lane3_of {i : Instr} {a b : Nat} {w : BitVec 1} {d : Nat} {f f' : Word → Word → Word → Word}
    (he : ∀ s, exec i s = issue i s fun c => c.lane3 b a w d f') (hf : ∀ x y z, f' x y z = f x y z) : Lane3 i a b w d f :=
  laneOp_of (fun c => c.map fun l => f' (c.g.src a l) (c.g.src b l) (c.g.src d l)) (fun _ => 0) he
    (fun _ _ _ _ _ => List.map_congr_left fun l _ => congrArg (Prod.mk l) (hf _ _ _)) (fun _ _ _ _ _ => rfl)

/-- An instruction that completes with a group changed only in its registers. -/
theorem regOp_of {i : Instr} {R : State → Group → Path → Regs} (F : Ctx → Group)
    (he : ∀ s, exec i s = issue i s fun c => c.done (F c))
    (hF : ∀ s g p latch chain, RegsOnly (Started i s g p chain) (F ⟨s, s.cur.key, Started i s g p chain, s.cur.pslot, p,
      p.act, latch, p.pc + BitVec.ofNat 64 i.size⟩) ∧ (F ⟨s, s.cur.key, Started i s g p chain, s.cur.pslot, p,
      p.act, latch, p.pc + BitVec.ofNat 64 i.size⟩).regs = R s g p) : RegOp i R := by
  intro s g p latch chain h
  have hx := he s
  rw [issue_go h] at hx
  have := completes_done h 0 _ (hF s g p latch chain).1 hx
  rw [(hF s g p latch chain).2] at this
  exact this

end Sys2Proof.Machine
end

