-- ==== Sys2Proof/Laws/Size.lean ====
section
/-! SUPPORT. The length of each encoded instruction (02 R55). -/

namespace Sys2Proof

/-- Fields above bit 0 leave bit 0 as it is. -/
theorem place_mod_two (fs : List (Nat × Nat)) (m : Nat) (h : (fs.all fun e => decide (1 ≤ e.2)) = true) :
    place m fs % 2 = m % 2 := by
  induction fs generalizing m with
  | nil => rfl
  | cons e r ih =>
    obtain ⟨x, lo⟩ := e
    simp only [List.all_cons, Bool.and_eq_true, decide_eq_true_eq] at h
    obtain ⟨k, hk⟩ := Nat.exists_eq_add_of_le h.1
    rw [place, ih _ h.2, hk, pow_add, pow_one, Nat.add_mod, Nat.mul_comm x, Nat.mul_assoc, Nat.mul_mod_right]
    simp

/-- An instruction's length from the fixed bits of its encoding. -/
theorem Instr.size_of {i : Instr} {m n : Nat} {fs : List (Nat × Nat)} (h : encodeBits i = some (place m fs))
    (hf : (fs.all fun e => decide (1 ≤ e.2)) = true) (hn : (if m % 2 = 0 then 2 else 4) = n) : i.size = n := by
  unfold Instr.size
  rw [h]
  simp only [place_mod_two fs m hf]
  exact hn

@[simp] theorem Instr.size_iadd (x0 : BitVec 7) (x1 : BitVec 7) (x2 : BitVec 1) (x3 : BitVec 7) : (Instr.iadd x0 x1 x2 x3).size = 4 :=
  Instr.size_of rfl rfl rfl
@[simp] theorem Instr.size_isub (x0 : BitVec 7) (x1 : BitVec 7) (x2 : BitVec 1) (x3 : BitVec 7) : (Instr.isub x0 x1 x2 x3).size = 4 :=
  Instr.size_of rfl rfl rfl
@[simp] theorem Instr.size_imul (x0 : BitVec 7) (x1 : BitVec 7) (x2 : BitVec 1) (x3 : BitVec 7) : (Instr.imul x0 x1 x2 x3).size = 4 :=
  Instr.size_of rfl rfl rfl
@[simp] theorem Instr.size_imad (x0 : BitVec 7) (x1 : BitVec 7) (x2 : BitVec 1) (x3 : BitVec 7) : (Instr.imad x0 x1 x2 x3).size = 4 :=
  Instr.size_of rfl rfl rfl
@[simp] theorem Instr.size_imulhS32 (x0 : BitVec 7) (x1 : BitVec 7) (x2 : BitVec 1) (x3 : BitVec 7) : (Instr.imulhS32 x0 x1 x2 x3).size = 4 :=
  Instr.size_of rfl rfl rfl
@[simp] theorem Instr.size_imulhW32 (x0 : BitVec 7) (x1 : BitVec 7) (x2 : BitVec 1) (x3 : BitVec 7) : (Instr.imulhW32 x0 x1 x2 x3).size = 4 :=
  Instr.size_of rfl rfl rfl
@[simp] theorem Instr.size_iminS32 (x0 : BitVec 7) (x1 : BitVec 7) (x2 : BitVec 1) (x3 : BitVec 7) : (Instr.iminS32 x0 x1 x2 x3).size = 4 :=
  Instr.size_of rfl rfl rfl
@[simp] theorem Instr.size_iminW32 (x0 : BitVec 7) (x1 : BitVec 7) (x2 : BitVec 1) (x3 : BitVec 7) : (Instr.iminW32 x0 x1 x2 x3).size = 4 :=
  Instr.size_of rfl rfl rfl
@[simp] theorem Instr.size_imaxS32 (x0 : BitVec 7) (x1 : BitVec 7) (x2 : BitVec 1) (x3 : BitVec 7) : (Instr.imaxS32 x0 x1 x2 x3).size = 4 :=
  Instr.size_of rfl rfl rfl
@[simp] theorem Instr.size_imaxW32 (x0 : BitVec 7) (x1 : BitVec 7) (x2 : BitVec 1) (x3 : BitVec 7) : (Instr.imaxW32 x0 x1 x2 x3).size = 4 :=
  Instr.size_of rfl rfl rfl
@[simp] theorem Instr.size_iabs (x0 : BitVec 7) (x1 : BitVec 1) (x2 : BitVec 7) : (Instr.iabs x0 x1 x2).size = 4 :=
  Instr.size_of rfl rfl rfl
@[simp] theorem Instr.size_ineg (x0 : BitVec 7) (x1 : BitVec 1) (x2 : BitVec 7) : (Instr.ineg x0 x1 x2).size = 4 :=
  Instr.size_of rfl rfl rfl
@[simp] theorem Instr.size_popc (x0 : BitVec 7) (x1 : BitVec 1) (x2 : BitVec 7) : (Instr.popc x0 x1 x2).size = 4 :=
  Instr.size_of rfl rfl rfl
@[simp] theorem Instr.size_clz (x0 : BitVec 7) (x1 : BitVec 1) (x2 : BitVec 7) : (Instr.clz x0 x1 x2).size = 4 :=
  Instr.size_of rfl rfl rfl
@[simp] theorem Instr.size_and (x0 : BitVec 7) (x1 : BitVec 7) (x2 : BitVec 1) (x3 : BitVec 7) : (Instr.and x0 x1 x2 x3).size = 4 :=
  Instr.size_of rfl rfl rfl
@[simp] theorem Instr.size_or (x0 : BitVec 7) (x1 : BitVec 7) (x2 : BitVec 1) (x3 : BitVec 7) : (Instr.or x0 x1 x2 x3).size = 4 :=
  Instr.size_of rfl rfl rfl
@[simp] theorem Instr.size_xor (x0 : BitVec 7) (x1 : BitVec 7) (x2 : BitVec 1) (x3 : BitVec 7) : (Instr.xor x0 x1 x2 x3).size = 4 :=
  Instr.size_of rfl rfl rfl
@[simp] theorem Instr.size_not (x0 : BitVec 7) (x1 : BitVec 1) (x2 : BitVec 7) : (Instr.not x0 x1 x2).size = 4 :=
  Instr.size_of rfl rfl rfl
@[simp] theorem Instr.size_shl (x0 : BitVec 7) (x1 : BitVec 7) (x2 : BitVec 1) (x3 : BitVec 7) : (Instr.shl x0 x1 x2 x3).size = 4 :=
  Instr.size_of rfl rfl rfl
@[simp] theorem Instr.size_shr (x0 : BitVec 7) (x1 : BitVec 7) (x2 : BitVec 1) (x3 : BitVec 7) : (Instr.shr x0 x1 x2 x3).size = 4 :=
  Instr.size_of rfl rfl rfl
@[simp] theorem Instr.size_sar (x0 : BitVec 7) (x1 : BitVec 7) (x2 : BitVec 1) (x3 : BitVec 7) : (Instr.sar x0 x1 x2 x3).size = 4 :=
  Instr.size_of rfl rfl rfl
@[simp] theorem Instr.size_brev (x0 : BitVec 7) (x1 : BitVec 1) (x2 : BitVec 7) : (Instr.brev x0 x1 x2).size = 4 :=
  Instr.size_of rfl rfl rfl
@[simp] theorem Instr.size_bfeW32 (x0 : BitVec 7) (x1 : BitVec 7) (x2 : BitVec 1) (x3 : BitVec 7) : (Instr.bfeW32 x0 x1 x2 x3).size = 4 :=
  Instr.size_of rfl rfl rfl
@[simp] theorem Instr.size_bfeS32 (x0 : BitVec 7) (x1 : BitVec 7) (x2 : BitVec 1) (x3 : BitVec 7) : (Instr.bfeS32 x0 x1 x2 x3).size = 4 :=
  Instr.size_of rfl rfl rfl
@[simp] theorem Instr.size_bfi (x0 : BitVec 7) (x1 : BitVec 7) (x2 : BitVec 1) (x3 : BitVec 7) : (Instr.bfi x0 x1 x2 x3).size = 4 :=
  Instr.size_of rfl rfl rfl
@[simp] theorem Instr.size_mov (x0 : BitVec 7) (x1 : BitVec 1) (x2 : BitVec 7) : (Instr.mov x0 x1 x2).size = 4 :=
  Instr.size_of rfl rfl rfl
@[simp] theorem Instr.size_sel (x0 : BitVec 3) (x1 : BitVec 7) (x2 : BitVec 7) (x3 : BitVec 1) (x4 : BitVec 7) : (Instr.sel x0 x1 x2 x3 x4).size = 4 :=
  Instr.size_of rfl rfl rfl
@[simp] theorem Instr.size_iaddc (x0 : BitVec 3) (x1 : BitVec 7) (x2 : BitVec 7) (x3 : BitVec 7) : (Instr.iaddc x0 x1 x2 x3).size = 4 :=
  Instr.size_of rfl rfl rfl
@[simp] theorem Instr.size_lea64 (x0 : BitVec 3) (x1 : BitVec 7) (x2 : BitVec 7) (x3 : BitVec 7) : (Instr.lea64 x0 x1 x2 x3).size = 4 :=
  Instr.size_of rfl rfl rfl
@[simp] theorem Instr.size_icmp (x0 : BitVec 3) (x1 : BitVec 7) (x2 : BitVec 7) (x3 : BitVec 2) (x4 : BitVec 5) : (Instr.icmp x0 x1 x2 x3 x4).size = 4 :=
  Instr.size_of rfl rfl rfl
@[simp] theorem Instr.size_cvt (x0 : BitVec 4) (x1 : BitVec 4) (x2 : BitVec 7) (x3 : BitVec 1) (x4 : BitVec 7) : (Instr.cvt x0 x1 x2 x3 x4).size = 4 :=
  Instr.size_of rfl rfl rfl
@[simp] theorem Instr.size_movi (x0 : BitVec 16) (x1 : BitVec 1) (x2 : BitVec 7) : (Instr.movi x0 x1 x2).size = 4 :=
  Instr.size_of rfl rfl rfl
@[simp] theorem Instr.size_movh (x0 : BitVec 16) (x1 : BitVec 1) (x2 : BitVec 7) : (Instr.movh x0 x1 x2).size = 4 :=
  Instr.size_of rfl rfl rfl
@[simp] theorem Instr.size_iaddImm (x0 : BitVec 16) (x1 : BitVec 1) (x2 : BitVec 7) : (Instr.iaddImm x0 x1 x2).size = 4 :=
  Instr.size_of rfl rfl rfl
@[simp] theorem Instr.size_andImm (x0 : BitVec 16) (x1 : BitVec 1) (x2 : BitVec 7) : (Instr.andImm x0 x1 x2).size = 4 :=
  Instr.size_of rfl rfl rfl
@[simp] theorem Instr.size_shflIdx (x0 : BitVec 7) (x1 : BitVec 7) (x2 : BitVec 7) : (Instr.shflIdx x0 x1 x2).size = 4 :=
  Instr.size_of rfl rfl rfl
@[simp] theorem Instr.size_shflUp (x0 : BitVec 7) (x1 : BitVec 7) (x2 : BitVec 7) : (Instr.shflUp x0 x1 x2).size = 4 :=
  Instr.size_of rfl rfl rfl
@[simp] theorem Instr.size_shflDn (x0 : BitVec 7) (x1 : BitVec 7) (x2 : BitVec 7) : (Instr.shflDn x0 x1 x2).size = 4 :=
  Instr.size_of rfl rfl rfl
@[simp] theorem Instr.size_shflXor (x0 : BitVec 7) (x1 : BitVec 7) (x2 : BitVec 7) : (Instr.shflXor x0 x1 x2).size = 4 :=
  Instr.size_of rfl rfl rfl
@[simp] theorem Instr.size_redl (x0 : BitVec 4) (x1 : BitVec 7) (x2 : BitVec 7) : (Instr.redl x0 x1 x2).size = 4 :=
  Instr.size_of rfl rfl rfl
@[simp] theorem Instr.size_scanlInc (x0 : BitVec 4) (x1 : BitVec 7) (x2 : BitVec 7) : (Instr.scanlInc x0 x1 x2).size = 4 :=
  Instr.size_of rfl rfl rfl
@[simp] theorem Instr.size_scanlExc (x0 : BitVec 4) (x1 : BitVec 7) (x2 : BitVec 7) : (Instr.scanlExc x0 x1 x2).size = 4 :=
  Instr.size_of rfl rfl rfl
@[simp] theorem Instr.size_bcast (x0 : BitVec 8) (x1 : BitVec 7) : (Instr.bcast x0 x1).size = 4 :=
  Instr.size_of rfl rfl rfl
@[simp] theorem Instr.size_rdlane (x0 : BitVec 7) (x1 : BitVec 8) (x2 : BitVec 7) : (Instr.rdlane x0 x1 x2).size = 4 :=
  Instr.size_of rfl rfl rfl
@[simp] theorem Instr.size_voteBallot (x0 : BitVec 8) (x1 : BitVec 7) : (Instr.voteBallot x0 x1).size = 4 :=
  Instr.size_of rfl rfl rfl
@[simp] theorem Instr.size_actmask (x0 : BitVec 8) : (Instr.actmask x0).size = 4 :=
  Instr.size_of rfl rfl rfl
@[simp] theorem Instr.size_matchLanes (x0 : BitVec 7) (x1 : BitVec 7) : (Instr.matchLanes x0 x1).size = 4 :=
  Instr.size_of rfl rfl rfl
@[simp] theorem Instr.size_pand (x0 : BitVec 1) (x1 : BitVec 5) (x2 : BitVec 1) (x3 : BitVec 5) (x4 : BitVec 5) : (Instr.pand x0 x1 x2 x3 x4).size = 4 :=
  Instr.size_of rfl rfl rfl
@[simp] theorem Instr.size_por (x0 : BitVec 1) (x1 : BitVec 5) (x2 : BitVec 1) (x3 : BitVec 5) (x4 : BitVec 5) : (Instr.por x0 x1 x2 x3 x4).size = 4 :=
  Instr.size_of rfl rfl rfl
@[simp] theorem Instr.size_pxor (x0 : BitVec 1) (x1 : BitVec 5) (x2 : BitVec 1) (x3 : BitVec 5) (x4 : BitVec 5) : (Instr.pxor x0 x1 x2 x3 x4).size = 4 :=
  Instr.size_of rfl rfl rfl
@[simp] theorem Instr.size_pnot (x0 : BitVec 1) (x1 : BitVec 5) (x2 : BitVec 5) : (Instr.pnot x0 x1 x2).size = 4 :=
  Instr.size_of rfl rfl rfl
@[simp] theorem Instr.size_pmov (x0 : BitVec 1) (x1 : BitVec 5) (x2 : BitVec 5) : (Instr.pmov x0 x1 x2).size = 4 :=
  Instr.size_of rfl rfl rfl
@[simp] theorem Instr.size_voteAll (x0 : BitVec 1) (x1 : BitVec 5) (x2 : BitVec 5) : (Instr.voteAll x0 x1 x2).size = 4 :=
  Instr.size_of rfl rfl rfl
@[simp] theorem Instr.size_voteAny (x0 : BitVec 1) (x1 : BitVec 5) (x2 : BitVec 5) : (Instr.voteAny x0 x1 x2).size = 4 :=
  Instr.size_of rfl rfl rfl
@[simp] theorem Instr.size_voteUni (x0 : BitVec 1) (x1 : BitVec 5) (x2 : BitVec 5) : (Instr.voteUni x0 x1 x2).size = 4 :=
  Instr.size_of rfl rfl rfl
@[simp] theorem Instr.size_grd (x0 : BitVec 2) (x1 : BitVec 1) (x2 : BitVec 5) : (Instr.grd x0 x1 x2).size = 4 :=
  Instr.size_of rfl rfl rfl
@[simp] theorem Instr.size_fadd (x0 : BitVec 3) (x1 : BitVec 7) (x2 : BitVec 7) (x3 : BitVec 1) (x4 : BitVec 7) : (Instr.fadd x0 x1 x2 x3 x4).size = 4 :=
  Instr.size_of rfl rfl rfl
@[simp] theorem Instr.size_fsub (x0 : BitVec 3) (x1 : BitVec 7) (x2 : BitVec 7) (x3 : BitVec 1) (x4 : BitVec 7) : (Instr.fsub x0 x1 x2 x3 x4).size = 4 :=
  Instr.size_of rfl rfl rfl
@[simp] theorem Instr.size_fmul (x0 : BitVec 3) (x1 : BitVec 7) (x2 : BitVec 7) (x3 : BitVec 1) (x4 : BitVec 7) : (Instr.fmul x0 x1 x2 x3 x4).size = 4 :=
  Instr.size_of rfl rfl rfl
@[simp] theorem Instr.size_ffma (x0 : BitVec 3) (x1 : BitVec 7) (x2 : BitVec 7) (x3 : BitVec 1) (x4 : BitVec 7) : (Instr.ffma x0 x1 x2 x3 x4).size = 4 :=
  Instr.size_of rfl rfl rfl
@[simp] theorem Instr.size_fmin (x0 : BitVec 7) (x1 : BitVec 7) (x2 : BitVec 1) (x3 : BitVec 7) : (Instr.fmin x0 x1 x2 x3).size = 4 :=
  Instr.size_of rfl rfl rfl
@[simp] theorem Instr.size_fmax (x0 : BitVec 7) (x1 : BitVec 7) (x2 : BitVec 1) (x3 : BitVec 7) : (Instr.fmax x0 x1 x2 x3).size = 4 :=
  Instr.size_of rfl rfl rfl
@[simp] theorem Instr.size_frcp (x0 : BitVec 7) (x1 : BitVec 1) (x2 : BitVec 7) : (Instr.frcp x0 x1 x2).size = 4 :=
  Instr.size_of rfl rfl rfl
@[simp] theorem Instr.size_frsq (x0 : BitVec 7) (x1 : BitVec 1) (x2 : BitVec 7) : (Instr.frsq x0 x1 x2).size = 4 :=
  Instr.size_of rfl rfl rfl
@[simp] theorem Instr.size_fsqrt (x0 : BitVec 7) (x1 : BitVec 1) (x2 : BitVec 7) : (Instr.fsqrt x0 x1 x2).size = 4 :=
  Instr.size_of rfl rfl rfl
@[simp] theorem Instr.size_fexp2 (x0 : BitVec 7) (x1 : BitVec 1) (x2 : BitVec 7) : (Instr.fexp2 x0 x1 x2).size = 4 :=
  Instr.size_of rfl rfl rfl
@[simp] theorem Instr.size_flog2 (x0 : BitVec 7) (x1 : BitVec 1) (x2 : BitVec 7) : (Instr.flog2 x0 x1 x2).size = 4 :=
  Instr.size_of rfl rfl rfl
@[simp] theorem Instr.size_fsin (x0 : BitVec 7) (x1 : BitVec 1) (x2 : BitVec 7) : (Instr.fsin x0 x1 x2).size = 4 :=
  Instr.size_of rfl rfl rfl
@[simp] theorem Instr.size_fcos (x0 : BitVec 7) (x1 : BitVec 1) (x2 : BitVec 7) : (Instr.fcos x0 x1 x2).size = 4 :=
  Instr.size_of rfl rfl rfl
@[simp] theorem Instr.size_fcmp (x0 : BitVec 3) (x1 : BitVec 7) (x2 : BitVec 7) (x3 : BitVec 2) (x4 : BitVec 5) : (Instr.fcmp x0 x1 x2 x3 x4).size = 4 :=
  Instr.size_of rfl rfl rfl
@[simp] theorem Instr.size_fcvt (x0 : BitVec 4) (x1 : BitVec 4) (x2 : BitVec 2) (x3 : BitVec 7) (x4 : BitVec 1) (x5 : BitVec 7) : (Instr.fcvt x0 x1 x2 x3 x4 x5).size = 4 :=
  Instr.size_of rfl rfl rfl
@[simp] theorem Instr.size_hadd2 (x0 : BitVec 7) (x1 : BitVec 7) (x2 : BitVec 1) (x3 : BitVec 7) : (Instr.hadd2 x0 x1 x2 x3).size = 4 :=
  Instr.size_of rfl rfl rfl
@[simp] theorem Instr.size_hmul2 (x0 : BitVec 7) (x1 : BitVec 7) (x2 : BitVec 1) (x3 : BitVec 7) : (Instr.hmul2 x0 x1 x2 x3).size = 4 :=
  Instr.size_of rfl rfl rfl
@[simp] theorem Instr.size_hfma2 (x0 : BitVec 7) (x1 : BitVec 7) (x2 : BitVec 1) (x3 : BitVec 7) : (Instr.hfma2 x0 x1 x2 x3).size = 4 :=
  Instr.size_of rfl rfl rfl
@[simp] theorem Instr.size_faddImm (x0 : BitVec 16) (x1 : BitVec 1) (x2 : BitVec 7) : (Instr.faddImm x0 x1 x2).size = 4 :=
  Instr.size_of rfl rfl rfl
@[simp] theorem Instr.size_fmulImm (x0 : BitVec 16) (x1 : BitVec 1) (x2 : BitVec 7) : (Instr.fmulImm x0 x1 x2).size = 4 :=
  Instr.size_of rfl rfl rfl
@[simp] theorem Instr.size_moviF32 (x0 : BitVec 16) (x1 : BitVec 1) (x2 : BitVec 7) : (Instr.moviF32 x0 x1 x2).size = 4 :=
  Instr.size_of rfl rfl rfl
@[simp] theorem Instr.size_moviF16 (x0 : BitVec 16) (x1 : BitVec 1) (x2 : BitVec 7) : (Instr.moviF16 x0 x1 x2).size = 4 :=
  Instr.size_of rfl rfl rfl
@[simp] theorem Instr.size_qcvtQ (x0 : BitVec 7) (x1 : BitVec 7) (x2 : BitVec 7) : (Instr.qcvtQ x0 x1 x2).size = 4 :=
  Instr.size_of rfl rfl rfl
@[simp] theorem Instr.size_qcvtF32 (x0 : BitVec 7) (x1 : BitVec 7) (x2 : BitVec 7) : (Instr.qcvtF32 x0 x1 x2).size = 4 :=
  Instr.size_of rfl rfl rfl
@[simp] theorem Instr.size_qpack (x0 : BitVec 7) (x1 : BitVec 7) (x2 : BitVec 7) : (Instr.qpack x0 x1 x2).size = 4 :=
  Instr.size_of rfl rfl rfl
@[simp] theorem Instr.size_qunpk (x0 : BitVec 7) (x1 : BitVec 7) (x2 : BitVec 7) : (Instr.qunpk x0 x1 x2).size = 4 :=
  Instr.size_of rfl rfl rfl
@[simp] theorem Instr.size_tunpk (x0 : BitVec 7) (x1 : BitVec 7) : (Instr.tunpk x0 x1).size = 4 :=
  Instr.size_of rfl rfl rfl
@[simp] theorem Instr.size_sadd (x0 : BitVec 8) (x1 : BitVec 8) (x2 : BitVec 8) : (Instr.sadd x0 x1 x2).size = 4 :=
  Instr.size_of rfl rfl rfl
@[simp] theorem Instr.size_ssub (x0 : BitVec 8) (x1 : BitVec 8) (x2 : BitVec 8) : (Instr.ssub x0 x1 x2).size = 4 :=
  Instr.size_of rfl rfl rfl
@[simp] theorem Instr.size_smul (x0 : BitVec 8) (x1 : BitVec 8) (x2 : BitVec 8) : (Instr.smul x0 x1 x2).size = 4 :=
  Instr.size_of rfl rfl rfl
@[simp] theorem Instr.size_smov (x0 : BitVec 8) (x1 : BitVec 8) : (Instr.smov x0 x1).size = 4 :=
  Instr.size_of rfl rfl rfl
@[simp] theorem Instr.size_sand (x0 : BitVec 8) (x1 : BitVec 8) (x2 : BitVec 8) : (Instr.sand x0 x1 x2).size = 4 :=
  Instr.size_of rfl rfl rfl
@[simp] theorem Instr.size_sor (x0 : BitVec 8) (x1 : BitVec 8) (x2 : BitVec 8) : (Instr.sor x0 x1 x2).size = 4 :=
  Instr.size_of rfl rfl rfl
@[simp] theorem Instr.size_sxor (x0 : BitVec 8) (x1 : BitVec 8) (x2 : BitVec 8) : (Instr.sxor x0 x1 x2).size = 4 :=
  Instr.size_of rfl rfl rfl
@[simp] theorem Instr.size_slea64 (x0 : BitVec 8) (x1 : BitVec 8) (x2 : BitVec 8) : (Instr.slea64 x0 x1 x2).size = 4 :=
  Instr.size_of rfl rfl rfl
@[simp] theorem Instr.size_sshl (x0 : BitVec 8) (x1 : BitVec 8) (x2 : BitVec 8) : (Instr.sshl x0 x1 x2).size = 4 :=
  Instr.size_of rfl rfl rfl
@[simp] theorem Instr.size_sshr (x0 : BitVec 8) (x1 : BitVec 8) (x2 : BitVec 8) : (Instr.sshr x0 x1 x2).size = 4 :=
  Instr.size_of rfl rfl rfl
@[simp] theorem Instr.size_scmp (x0 : BitVec 1) (x1 : BitVec 8) (x2 : BitVec 8) (x3 : BitVec 3) (x4 : BitVec 5) : (Instr.scmp x0 x1 x2 x3 x4).size = 4 :=
  Instr.size_of rfl rfl rfl
@[simp] theorem Instr.size_smovi (x0 : BitVec 16) (x1 : BitVec 8) : (Instr.smovi x0 x1).size = 4 :=
  Instr.size_of rfl rfl rfl
@[simp] theorem Instr.size_smoviH (x0 : BitVec 16) (x1 : BitVec 8) : (Instr.smoviH x0 x1).size = 4 :=
  Instr.size_of rfl rfl rfl
@[simp] theorem Instr.size_sld (x0 : BitVec 9) (x1 : BitVec 8) (x2 : BitVec 8) : (Instr.sld x0 x1 x2).size = 4 :=
  Instr.size_of rfl rfl rfl
@[simp] theorem Instr.size_bra (x0 : BitVec 18) (x1 : BitVec 5) (x2 : BitVec 1) (x3 : BitVec 1) : (Instr.bra x0 x1 x2 x3).size = 4 :=
  Instr.size_of rfl rfl rfl
@[simp] theorem Instr.size_jmp (x0 : BitVec 18) : (Instr.jmp x0).size = 4 :=
  Instr.size_of rfl rfl rfl
@[simp] theorem Instr.size_call (x0 : BitVec 18) (x1 : BitVec 5) : (Instr.call x0 x1).size = 4 :=
  Instr.size_of rfl rfl rfl
@[simp] theorem Instr.size_joinpt (x0 : BitVec 18) : (Instr.joinpt x0).size = 4 :=
  Instr.size_of rfl rfl rfl
@[simp] theorem Instr.size_brx (x0 : BitVec 8) : (Instr.brx x0).size = 4 :=
  Instr.size_of rfl rfl rfl
@[simp] theorem Instr.size_ret (x0 : BitVec 8) : (Instr.ret x0).size = 4 :=
  Instr.size_of rfl rfl rfl
@[simp] theorem Instr.size_exit : (Instr.exit).size = 4 :=
  Instr.size_of rfl rfl rfl
@[simp] theorem Instr.size_yield : (Instr.yield).size = 4 :=
  Instr.size_of rfl rfl rfl
@[simp] theorem Instr.size_nop : (Instr.nop).size = 4 :=
  Instr.size_of rfl rfl rfl
@[simp] theorem Instr.size_barArv (x0 : BitVec 4) : (Instr.barArv x0).size = 4 :=
  Instr.size_of rfl rfl rfl
@[simp] theorem Instr.size_barWait (x0 : BitVec 4) : (Instr.barWait x0).size = 4 :=
  Instr.size_of rfl rfl rfl
@[simp] theorem Instr.size_barSync (x0 : BitVec 4) : (Instr.barSync x0).size = 4 :=
  Instr.size_of rfl rfl rfl
@[simp] theorem Instr.size_ldReg (x0 : BitVec 7) (x1 : BitVec 7) (x2 : BitVec 1) (x3 : BitVec 3) (x4 : BitVec 7) : (Instr.ldReg x0 x1 x2 x3 x4).size = 4 :=
  Instr.size_of rfl rfl rfl
@[simp] theorem Instr.size_ldImm (x0 : BitVec 7) (x1 : BitVec 7) (x2 : BitVec 1) (x3 : BitVec 3) (x4 : BitVec 7) : (Instr.ldImm x0 x1 x2 x3 x4).size = 4 :=
  Instr.size_of rfl rfl rfl
@[simp] theorem Instr.size_stReg (x0 : BitVec 7) (x1 : BitVec 7) (x2 : BitVec 1) (x3 : BitVec 3) (x4 : BitVec 7) : (Instr.stReg x0 x1 x2 x3 x4).size = 4 :=
  Instr.size_of rfl rfl rfl
@[simp] theorem Instr.size_stImm (x0 : BitVec 7) (x1 : BitVec 7) (x2 : BitVec 1) (x3 : BitVec 3) (x4 : BitVec 7) : (Instr.stImm x0 x1 x2 x3 x4).size = 4 :=
  Instr.size_of rfl rfl rfl
@[simp] theorem Instr.size_ldStrong (x0 : BitVec 3) (x1 : BitVec 3) (x2 : BitVec 7) (x3 : BitVec 1) (x4 : BitVec 3) (x5 : BitVec 7) : (Instr.ldStrong x0 x1 x2 x3 x4 x5).size = 4 :=
  Instr.size_of rfl rfl rfl
@[simp] theorem Instr.size_stStrong (x0 : BitVec 3) (x1 : BitVec 3) (x2 : BitVec 7) (x3 : BitVec 1) (x4 : BitVec 3) (x5 : BitVec 7) : (Instr.stStrong x0 x1 x2 x3 x4 x5).size = 4 :=
  Instr.size_of rfl rfl rfl
@[simp] theorem Instr.size_atom (x0 : BitVec 1) (x1 : BitVec 2) (x2 : BitVec 3) (x3 : BitVec 7) (x4 : BitVec 1) (x5 : BitVec 4) (x6 : BitVec 7) : (Instr.atom x0 x1 x2 x3 x4 x5 x6).size = 4 :=
  Instr.size_of rfl rfl rfl
@[simp] theorem Instr.size_updScalarBase (x0 : BitVec 7) (x1 : BitVec 7) (x2 : BitVec 4) (x3 : BitVec 7) : (Instr.updScalarBase x0 x1 x2 x3).size = 4 :=
  Instr.size_of rfl rfl rfl
@[simp] theorem Instr.size_updVectorBase (x0 : BitVec 7) (x1 : BitVec 4) (x2 : BitVec 7) : (Instr.updVectorBase x0 x1 x2).size = 4 :=
  Instr.size_of rfl rfl rfl
@[simp] theorem Instr.size_prefL1 (x0 : BitVec 7) (x1 : BitVec 1) : (Instr.prefL1 x0 x1).size = 4 :=
  Instr.size_of rfl rfl rfl
@[simp] theorem Instr.size_prefL2 (x0 : BitVec 7) (x1 : BitVec 1) : (Instr.prefL2 x0 x1).size = 4 :=
  Instr.size_of rfl rfl rfl
@[simp] theorem Instr.size_collapse (x0 : BitVec 7) (x1 : BitVec 1) : (Instr.collapse x0 x1).size = 4 :=
  Instr.size_of rfl rfl rfl
@[simp] theorem Instr.size_cctlClean (x0 : BitVec 3) (x1 : BitVec 7) (x2 : BitVec 1) : (Instr.cctlClean x0 x1 x2).size = 4 :=
  Instr.size_of rfl rfl rfl
@[simp] theorem Instr.size_cctlInv (x0 : BitVec 3) (x1 : BitVec 7) (x2 : BitVec 1) : (Instr.cctlInv x0 x1 x2).size = 4 :=
  Instr.size_of rfl rfl rfl
@[simp] theorem Instr.size_cctlClinv (x0 : BitVec 3) (x1 : BitVec 7) (x2 : BitVec 1) : (Instr.cctlClinv x0 x1 x2).size = 4 :=
  Instr.size_of rfl rfl rfl
@[simp] theorem Instr.size_fence (x0 : BitVec 3) (x1 : BitVec 3) (x2 : BitVec 3) : (Instr.fence x0 x1 x2).size = 4 :=
  Instr.size_of rfl rfl rfl
@[simp] theorem Instr.size_waita (x0 : BitVec 8) (x1 : BitVec 8) (x2 : BitVec 8) : (Instr.waita x0 x1 x2).size = 4 :=
  Instr.size_of rfl rfl rfl
@[simp] theorem Instr.size_lds (x0 : BitVec 7) (x1 : BitVec 1) (x2 : BitVec 7) (x3 : BitVec 3) (x4 : BitVec 7) : (Instr.lds x0 x1 x2 x3 x4).size = 4 :=
  Instr.size_of rfl rfl rfl
@[simp] theorem Instr.size_sts (x0 : BitVec 7) (x1 : BitVec 1) (x2 : BitVec 7) (x3 : BitVec 3) (x4 : BitVec 7) : (Instr.sts x0 x1 x2 x3 x4).size = 4 :=
  Instr.size_of rfl rfl rfl
@[simp] theorem Instr.size_ldsTake (x0 : BitVec 7) (x1 : BitVec 1) (x2 : BitVec 7) (x3 : BitVec 3) (x4 : BitVec 7) : (Instr.ldsTake x0 x1 x2 x3 x4).size = 4 :=
  Instr.size_of rfl rfl rfl
@[simp] theorem Instr.size_spfill (x0 : BitVec 7) (x1 : BitVec 1) (x2 : BitVec 7) : (Instr.spfill x0 x1 x2).size = 4 :=
  Instr.size_of rfl rfl rfl
@[simp] theorem Instr.size_spclear (x0 : BitVec 7) (x1 : BitVec 1) (x2 : BitVec 7) : (Instr.spclear x0 x1 x2).size = 4 :=
  Instr.size_of rfl rfl rfl
@[simp] theorem Instr.size_subscr (x0 : BitVec 8) (x1 : BitVec 7) (x2 : BitVec 2) (x3 : BitVec 1) (x4 : BitVec 7) : (Instr.subscr x0 x1 x2 x3 x4).size = 4 :=
  Instr.size_of rfl rfl rfl
@[simp] theorem Instr.size_mxloop (x0 : BitVec 7) (x1 : BitVec 8) (x2 : BitVec 2) : (Instr.mxloop x0 x1 x2).size = 4 :=
  Instr.size_of rfl rfl rfl
@[simp] theorem Instr.size_mxzero (x0 : BitVec 2) : (Instr.mxzero x0).size = 4 :=
  Instr.size_of rfl rfl rfl
@[simp] theorem Instr.size_mxrd (x0 : BitVec 7) (x1 : BitVec 8) (x2 : BitVec 2) : (Instr.mxrd x0 x1 x2).size = 4 :=
  Instr.size_of rfl rfl rfl
@[simp] theorem Instr.size_mxepi (x0 : BitVec 7) (x1 : BitVec 8) (x2 : BitVec 2) : (Instr.mxepi x0 x1 x2).size = 4 :=
  Instr.size_of rfl rfl rfl
@[simp] theorem Instr.size_mxcfg (x0 : BitVec 8) (x1 : BitVec 2) : (Instr.mxcfg x0 x1).size = 4 :=
  Instr.size_of rfl rfl rfl
@[simp] theorem Instr.size_opfence : (Instr.opfence).size = 4 :=
  Instr.size_of rfl rfl rfl
@[simp] theorem Instr.size_stinit (x0 : BitVec 7) (x1 : BitVec 7) : (Instr.stinit x0 x1).size = 4 :=
  Instr.size_of rfl rfl rfl
@[simp] theorem Instr.size_stacc (x0 : BitVec 7) (x1 : BitVec 7) : (Instr.stacc x0 x1).size = 4 :=
  Instr.size_of rfl rfl rfl
@[simp] theorem Instr.size_stwacc (x0 : BitVec 7) (x1 : BitVec 7) (x2 : BitVec 7) : (Instr.stwacc x0 x1 x2).size = 4 :=
  Instr.size_of rfl rfl rfl
@[simp] theorem Instr.size_stmerge (x0 : BitVec 7) (x1 : BitVec 7) (x2 : BitVec 7) : (Instr.stmerge x0 x1 x2).size = 4 :=
  Instr.size_of rfl rfl rfl
@[simp] theorem Instr.size_stxl (x0 : BitVec 7) (x1 : BitVec 7) : (Instr.stxl x0 x1).size = 4 :=
  Instr.size_of rfl rfl rfl
@[simp] theorem Instr.size_stdrainMean (x0 : BitVec 7) (x1 : BitVec 7) : (Instr.stdrainMean x0 x1).size = 4 :=
  Instr.size_of rfl rfl rfl
@[simp] theorem Instr.size_stdrainPvar (x0 : BitVec 7) (x1 : BitVec 7) : (Instr.stdrainPvar x0 x1).size = 4 :=
  Instr.size_of rfl rfl rfl
@[simp] theorem Instr.size_stdrainSvar (x0 : BitVec 7) (x1 : BitVec 7) : (Instr.stdrainSvar x0 x1).size = 4 :=
  Instr.size_of rfl rfl rfl
@[simp] theorem Instr.size_stdrainRdev (x0 : BitVec 8) (x1 : BitVec 4) (x2 : BitVec 7) : (Instr.stdrainRdev x0 x1 x2).size = 4 :=
  Instr.size_of rfl rfl rfl
@[simp] theorem Instr.size_stdrainNorm (x0 : BitVec 8) (x1 : BitVec 4) (x2 : BitVec 7) : (Instr.stdrainNorm x0 x1 x2).size = 4 :=
  Instr.size_of rfl rfl rfl
@[simp] theorem Instr.size_stld (x0 : BitVec 7) (x1 : BitVec 7) (x2 : BitVec 1) (x3 : BitVec 7) : (Instr.stld x0 x1 x2 x3).size = 4 :=
  Instr.size_of rfl rfl rfl
@[simp] theorem Instr.size_stst (x0 : BitVec 7) (x1 : BitVec 7) (x2 : BitVec 1) (x3 : BitVec 7) : (Instr.stst x0 x1 x2 x3).size = 4 :=
  Instr.size_of rfl rfl rfl
@[simp] theorem Instr.size_tcopyIn (x0 : BitVec 8) (x1 : BitVec 8) (x2 : BitVec 8) : (Instr.tcopyIn x0 x1 x2).size = 4 :=
  Instr.size_of rfl rfl rfl
@[simp] theorem Instr.size_tcopyOut (x0 : BitVec 8) (x1 : BitVec 8) (x2 : BitVec 8) : (Instr.tcopyOut x0 x1 x2).size = 4 :=
  Instr.size_of rfl rfl rfl
@[simp] theorem Instr.size_bclose (x0 : BitVec 6) (x1 : BitVec 8) : (Instr.bclose x0 x1).size = 4 :=
  Instr.size_of rfl rfl rfl
@[simp] theorem Instr.size_bwait (x0 : BitVec 6) (x1 : BitVec 8) : (Instr.bwait x0 x1).size = 4 :=
  Instr.size_of rfl rfl rfl
@[simp] theorem Instr.size_unsub (x0 : BitVec 8) : (Instr.unsub x0).size = 4 :=
  Instr.size_of rfl rfl rfl
@[simp] theorem Instr.size_subst (x0 : BitVec 8) (x1 : BitVec 8) : (Instr.subst x0 x1).size = 4 :=
  Instr.size_of rfl rfl rfl
@[simp] theorem Instr.size_evset (x0 : BitVec 8) : (Instr.evset x0).size = 4 :=
  Instr.size_of rfl rfl rfl
@[simp] theorem Instr.size_evclr (x0 : BitVec 8) : (Instr.evclr x0).size = 4 :=
  Instr.size_of rfl rfl rfl
@[simp] theorem Instr.size_launch (x0 : BitVec 8) (x1 : BitVec 8) : (Instr.launch x0 x1).size = 4 :=
  Instr.size_of rfl rfl rfl
@[simp] theorem Instr.size_sendam (x0 : BitVec 3) (x1 : BitVec 8) (x2 : BitVec 8) : (Instr.sendam x0 x1 x2).size = 4 :=
  Instr.size_of rfl rfl rfl
@[simp] theorem Instr.size_trap (x0 : BitVec 6) : (Instr.trap x0).size = 4 :=
  Instr.size_of rfl rfl rfl
@[simp] theorem Instr.size_bkpt (x0 : BitVec 6) : (Instr.bkpt x0).size = 4 :=
  Instr.size_of rfl rfl rfl
@[simp] theorem Instr.size_eret (x0 : BitVec 8) : (Instr.eret x0).size = 4 :=
  Instr.size_of rfl rfl rfl
@[simp] theorem Instr.size_tlbsd (x0 : BitVec 2) (x1 : BitVec 8) : (Instr.tlbsd x0 x1).size = 4 :=
  Instr.size_of rfl rfl rfl
@[simp] theorem Instr.size_halt : (Instr.halt).size = 4 :=
  Instr.size_of rfl rfl rfl
@[simp] theorem Instr.size_wrpeer (x0 : BitVec 2) (x1 : BitVec 8) : (Instr.wrpeer x0 x1).size = 4 :=
  Instr.size_of rfl rfl rfl
@[simp] theorem Instr.size_rdsys (x0 : BitVec 12) (x1 : BitVec 8) : (Instr.rdsys x0 x1).size = 4 :=
  Instr.size_of rfl rfl rfl
@[simp] theorem Instr.size_wrsys (x0 : BitVec 12) (x1 : BitVec 8) : (Instr.wrsys x0 x1).size = 4 :=
  Instr.size_of rfl rfl rfl
@[simp] theorem Instr.size_mov16 (x0 : BitVec 5) (x1 : BitVec 6) : (Instr.mov16 x0 x1).size = 2 :=
  Instr.size_of rfl rfl rfl
@[simp] theorem Instr.size_iadd16 (x0 : BitVec 5) (x1 : BitVec 6) : (Instr.iadd16 x0 x1).size = 2 :=
  Instr.size_of rfl rfl rfl
@[simp] theorem Instr.size_isub16 (x0 : BitVec 5) (x1 : BitVec 6) : (Instr.isub16 x0 x1).size = 2 :=
  Instr.size_of rfl rfl rfl
@[simp] theorem Instr.size_and16 (x0 : BitVec 5) (x1 : BitVec 6) : (Instr.and16 x0 x1).size = 2 :=
  Instr.size_of rfl rfl rfl
@[simp] theorem Instr.size_or16 (x0 : BitVec 5) (x1 : BitVec 6) : (Instr.or16 x0 x1).size = 2 :=
  Instr.size_of rfl rfl rfl
@[simp] theorem Instr.size_xor16 (x0 : BitVec 5) (x1 : BitVec 6) : (Instr.xor16 x0 x1).size = 2 :=
  Instr.size_of rfl rfl rfl
@[simp] theorem Instr.size_shl16 (x0 : BitVec 5) (x1 : BitVec 6) : (Instr.shl16 x0 x1).size = 2 :=
  Instr.size_of rfl rfl rfl
@[simp] theorem Instr.size_shr16 (x0 : BitVec 5) (x1 : BitVec 6) : (Instr.shr16 x0 x1).size = 2 :=
  Instr.size_of rfl rfl rfl
@[simp] theorem Instr.size_sar16 (x0 : BitVec 5) (x1 : BitVec 6) : (Instr.sar16 x0 x1).size = 2 :=
  Instr.size_of rfl rfl rfl
@[simp] theorem Instr.size_imin16 (x0 : BitVec 5) (x1 : BitVec 6) : (Instr.imin16 x0 x1).size = 2 :=
  Instr.size_of rfl rfl rfl
@[simp] theorem Instr.size_imax16 (x0 : BitVec 5) (x1 : BitVec 6) : (Instr.imax16 x0 x1).size = 2 :=
  Instr.size_of rfl rfl rfl
@[simp] theorem Instr.size_fadd16 (x0 : BitVec 5) (x1 : BitVec 6) : (Instr.fadd16 x0 x1).size = 2 :=
  Instr.size_of rfl rfl rfl
@[simp] theorem Instr.size_fmul16 (x0 : BitVec 5) (x1 : BitVec 6) : (Instr.fmul16 x0 x1).size = 2 :=
  Instr.size_of rfl rfl rfl
@[simp] theorem Instr.size_fmin16 (x0 : BitVec 5) (x1 : BitVec 6) : (Instr.fmin16 x0 x1).size = 2 :=
  Instr.size_of rfl rfl rfl
@[simp] theorem Instr.size_fmax16 (x0 : BitVec 5) (x1 : BitVec 6) : (Instr.fmax16 x0 x1).size = 2 :=
  Instr.size_of rfl rfl rfl
@[simp] theorem Instr.size_ffma16 (x0 : BitVec 5) (x1 : BitVec 6) : (Instr.ffma16 x0 x1).size = 2 :=
  Instr.size_of rfl rfl rfl

end Sys2Proof
end

