-- ==== Sys2Proof/Laws/State.lean ====
section
/-! SUPPORT. One lemma per field for each update of the machine and of a group: what the update leaves alone, and what it
sets. -/

namespace Sys2Proof.Machine

/-! ## setGroup -/

@[simp] theorem State.setGroup_dev (s : State) (k : Nat) (x : Group) : (s.setGroup k x).dev = s.dev := rfl
@[simp] theorem State.setGroup_inc (s : State) (k : Nat) (x : Group) : (s.setGroup k x).inc = s.inc := rfl
@[simp] theorem State.setGroup_now (s : State) (k : Nat) (x : Group) : (s.setGroup k x).now = s.now := rfl
@[simp] theorem State.setGroup_fabric (s : State) (k : Nat) (x : Group) : (s.setGroup k x).fabric = s.fabric := rfl
@[simp] theorem State.setGroup_free (s : State) (k : Nat) (x : Group) : (s.setGroup k x).free = s.free := rfl
@[simp] theorem State.setGroup_agenda (s : State) (k : Nat) (x : Group) : (s.setGroup k x).agenda = s.agenda := rfl
@[simp] theorem State.setGroup_issueNext (s : State) (k : Nat) (x : Group) : (s.setGroup k x).issueNext = s.issueNext := rfl
@[simp] theorem State.setGroup_cur (s : State) (k : Nat) (x : Group) : (s.setGroup k x).cur = s.cur := rfl
@[simp] theorem State.setGroup_nextUid (s : State) (k : Nat) (x : Group) : (s.setGroup k x).nextUid = s.nextUid := rfl
@[simp] theorem State.setGroup_nextTeam (s : State) (k : Nat) (x : Group) : (s.setGroup k x).nextTeam = s.nextTeam := rfl
@[simp] theorem State.setGroup_nextPos (s : State) (k : Nat) (x : Group) : (s.setGroup k x).nextPos = s.nextPos := rfl
@[simp] theorem State.setGroup_nextOrder (s : State) (k : Nat) (x : Group) : (s.setGroup k x).nextOrder = s.nextOrder := rfl
@[simp] theorem State.setGroup_mem (s : State) (k : Nat) (x : Group) : (s.setGroup k x).mem = s.mem := rfl
@[simp] theorem State.setGroup_groups (s : State) (k : Nat) (x : Group) : (s.setGroup k x).groups = SMap.insert s.groups k x := rfl
@[simp] theorem State.setGroup_teams (s : State) (k : Nat) (x : Group) : (s.setGroup k x).teams = s.teams := rfl
@[simp] theorem State.setGroup_cores (s : State) (k : Nat) (x : Group) : (s.setGroup k x).cores = s.cores := rfl
@[simp] theorem State.setGroup_fusedClusters (s : State) (k : Nat) (x : Group) : (s.setGroup k x).fusedClusters = s.fusedClusters := rfl
@[simp] theorem State.setGroup_caches (s : State) (k : Nat) (x : Group) : (s.setGroup k x).caches = s.caches := rfl
@[simp] theorem State.setGroup_slices (s : State) (k : Nat) (x : Group) : (s.setGroup k x).slices = s.slices := rfl
@[simp] theorem State.setGroup_remap (s : State) (k : Nat) (x : Group) : (s.setGroup k x).remap = s.remap := rfl
@[simp] theorem State.setGroup_redirect (s : State) (k : Nat) (x : Group) : (s.setGroup k x).redirect = s.redirect := rfl
@[simp] theorem State.setGroup_net (s : State) (k : Nat) (x : Group) : (s.setGroup k x).net = s.net := rfl
@[simp] theorem State.setGroup_stamps (s : State) (k : Nat) (x : Group) : (s.setGroup k x).stamps = s.stamps := rfl
@[simp] theorem State.setGroup_contexts (s : State) (k : Nat) (x : Group) : (s.setGroup k x).contexts = s.contexts := rfl
@[simp] theorem State.setGroup_ctxarg (s : State) (k : Nat) (x : Group) : (s.setGroup k x).ctxarg = s.ctxarg := rfl
@[simp] theorem State.setGroup_ctxcmd (s : State) (k : Nat) (x : Group) : (s.setGroup k x).ctxcmd = s.ctxcmd := rfl
@[simp] theorem State.setGroup_ctxstat (s : State) (k : Nat) (x : Group) : (s.setGroup k x).ctxstat = s.ctxstat := rfl
@[simp] theorem State.setGroup_cbtbase (s : State) (k : Nat) (x : Group) : (s.setGroup k x).cbtbase = s.cbtbase := rfl
@[simp] theorem State.setGroup_sems (s : State) (k : Nat) (x : Group) : (s.setGroup k x).sems = s.sems := rfl
@[simp] theorem State.setGroup_tieLoser (s : State) (k : Nat) (x : Group) : (s.setGroup k x).tieLoser = s.tieLoser := rfl
@[simp] theorem State.setGroup_ports (s : State) (k : Nat) (x : Group) : (s.setGroup k x).ports = s.ports := rfl
@[simp] theorem State.setGroup_preempts (s : State) (k : Nat) (x : Group) : (s.setGroup k x).preempts = s.preempts := rfl
@[simp] theorem State.setGroup_fwNotes (s : State) (k : Nat) (x : Group) : (s.setGroup k x).fwNotes = s.fwNotes := rfl
@[simp] theorem State.setGroup_halts (s : State) (k : Nat) (x : Group) : (s.setGroup k x).halts = s.halts := rfl
@[simp] theorem State.setGroup_reserved (s : State) (k : Nat) (x : Group) : (s.setGroup k x).reserved = s.reserved := rfl
@[simp] theorem State.setGroup_awaiting (s : State) (k : Nat) (x : Group) : (s.setGroup k x).awaiting = s.awaiting := rfl
@[simp] theorem State.setGroup_shootdowns (s : State) (k : Nat) (x : Group) : (s.setGroup k x).shootdowns = s.shootdowns := rfl
@[simp] theorem State.setGroup_collectives (s : State) (k : Nat) (x : Group) : (s.setGroup k x).collectives = s.collectives := rfl
@[simp] theorem State.setGroup_lostCids (s : State) (k : Nat) (x : Group) : (s.setGroup k x).lostCids = s.lostCids := rfl
@[simp] theorem State.setGroup_sent (s : State) (k : Nat) (x : Group) : (s.setGroup k x).sent = s.sent := rfl
@[simp] theorem State.setGroup_outbox (s : State) (k : Nat) (x : Group) : (s.setGroup k x).outbox = s.outbox := rfl
@[simp] theorem State.setGroup_flying (s : State) (k : Nat) (x : Group) : (s.setGroup k x).flying = s.flying := rfl
@[simp] theorem State.setGroup_replicas (s : State) (k : Nat) (x : Group) : (s.setGroup k x).replicas = s.replicas := rfl
@[simp] theorem State.setGroup_links (s : State) (k : Nat) (x : Group) : (s.setGroup k x).links = s.links := rfl
@[simp] theorem State.setGroup_bridgesUp (s : State) (k : Nat) (x : Group) : (s.setGroup k x).bridgesUp = s.bridgesUp := rfl
@[simp] theorem State.setGroup_remotes (s : State) (k : Nat) (x : Group) : (s.setGroup k x).remotes = s.remotes := rfl
@[simp] theorem State.setGroup_power (s : State) (k : Nat) (x : Group) : (s.setGroup k x).power = s.power := rfl
@[simp] theorem State.setGroup_firmware (s : State) (k : Nat) (x : Group) : (s.setGroup k x).firmware = s.firmware := rfl
@[simp] theorem State.setGroup_ready (s : State) (k : Nat) (x : Group) : (s.setGroup k x).ready = s.ready := rfl
@[simp] theorem State.setGroup_recovery (s : State) (k : Nat) (x : Group) : (s.setGroup k x).recovery = s.recovery := rfl
@[simp] theorem State.setGroup_thermtrip (s : State) (k : Nat) (x : Group) : (s.setGroup k x).thermtrip = s.thermtrip := rfl
@[simp] theorem State.setGroup_bootCode (s : State) (k : Nat) (x : Group) : (s.setGroup k x).bootCode = s.bootCode := rfl

/-! ## setCore -/

@[simp] theorem State.setCore_dev (s : State) (n : Nat) (x : Core) : (s.setCore n x).dev = s.dev := rfl
@[simp] theorem State.setCore_inc (s : State) (n : Nat) (x : Core) : (s.setCore n x).inc = s.inc := rfl
@[simp] theorem State.setCore_now (s : State) (n : Nat) (x : Core) : (s.setCore n x).now = s.now := rfl
@[simp] theorem State.setCore_fabric (s : State) (n : Nat) (x : Core) : (s.setCore n x).fabric = s.fabric := rfl
@[simp] theorem State.setCore_free (s : State) (n : Nat) (x : Core) : (s.setCore n x).free = s.free := rfl
@[simp] theorem State.setCore_agenda (s : State) (n : Nat) (x : Core) : (s.setCore n x).agenda = s.agenda := rfl
@[simp] theorem State.setCore_issueNext (s : State) (n : Nat) (x : Core) : (s.setCore n x).issueNext = s.issueNext := rfl
@[simp] theorem State.setCore_cur (s : State) (n : Nat) (x : Core) : (s.setCore n x).cur = s.cur := rfl
@[simp] theorem State.setCore_nextUid (s : State) (n : Nat) (x : Core) : (s.setCore n x).nextUid = s.nextUid := rfl
@[simp] theorem State.setCore_nextTeam (s : State) (n : Nat) (x : Core) : (s.setCore n x).nextTeam = s.nextTeam := rfl
@[simp] theorem State.setCore_nextPos (s : State) (n : Nat) (x : Core) : (s.setCore n x).nextPos = s.nextPos := rfl
@[simp] theorem State.setCore_nextOrder (s : State) (n : Nat) (x : Core) : (s.setCore n x).nextOrder = s.nextOrder := rfl
@[simp] theorem State.setCore_mem (s : State) (n : Nat) (x : Core) : (s.setCore n x).mem = s.mem := rfl
@[simp] theorem State.setCore_groups (s : State) (n : Nat) (x : Core) : (s.setCore n x).groups = s.groups := rfl
@[simp] theorem State.setCore_teams (s : State) (n : Nat) (x : Core) : (s.setCore n x).teams = s.teams := rfl
@[simp] theorem State.setCore_cores (s : State) (n : Nat) (x : Core) : (s.setCore n x).cores = SMap.insert s.cores n x := rfl
@[simp] theorem State.setCore_fusedClusters (s : State) (n : Nat) (x : Core) : (s.setCore n x).fusedClusters = s.fusedClusters := rfl
@[simp] theorem State.setCore_caches (s : State) (n : Nat) (x : Core) : (s.setCore n x).caches = s.caches := rfl
@[simp] theorem State.setCore_slices (s : State) (n : Nat) (x : Core) : (s.setCore n x).slices = s.slices := rfl
@[simp] theorem State.setCore_remap (s : State) (n : Nat) (x : Core) : (s.setCore n x).remap = s.remap := rfl
@[simp] theorem State.setCore_redirect (s : State) (n : Nat) (x : Core) : (s.setCore n x).redirect = s.redirect := rfl
@[simp] theorem State.setCore_net (s : State) (n : Nat) (x : Core) : (s.setCore n x).net = s.net := rfl
@[simp] theorem State.setCore_stamps (s : State) (n : Nat) (x : Core) : (s.setCore n x).stamps = s.stamps := rfl
@[simp] theorem State.setCore_contexts (s : State) (n : Nat) (x : Core) : (s.setCore n x).contexts = s.contexts := rfl
@[simp] theorem State.setCore_ctxarg (s : State) (n : Nat) (x : Core) : (s.setCore n x).ctxarg = s.ctxarg := rfl
@[simp] theorem State.setCore_ctxcmd (s : State) (n : Nat) (x : Core) : (s.setCore n x).ctxcmd = s.ctxcmd := rfl
@[simp] theorem State.setCore_ctxstat (s : State) (n : Nat) (x : Core) : (s.setCore n x).ctxstat = s.ctxstat := rfl
@[simp] theorem State.setCore_cbtbase (s : State) (n : Nat) (x : Core) : (s.setCore n x).cbtbase = s.cbtbase := rfl
@[simp] theorem State.setCore_sems (s : State) (n : Nat) (x : Core) : (s.setCore n x).sems = s.sems := rfl
@[simp] theorem State.setCore_tieLoser (s : State) (n : Nat) (x : Core) : (s.setCore n x).tieLoser = s.tieLoser := rfl
@[simp] theorem State.setCore_ports (s : State) (n : Nat) (x : Core) : (s.setCore n x).ports = s.ports := rfl
@[simp] theorem State.setCore_preempts (s : State) (n : Nat) (x : Core) : (s.setCore n x).preempts = s.preempts := rfl
@[simp] theorem State.setCore_fwNotes (s : State) (n : Nat) (x : Core) : (s.setCore n x).fwNotes = s.fwNotes := rfl
@[simp] theorem State.setCore_halts (s : State) (n : Nat) (x : Core) : (s.setCore n x).halts = s.halts := rfl
@[simp] theorem State.setCore_reserved (s : State) (n : Nat) (x : Core) : (s.setCore n x).reserved = s.reserved := rfl
@[simp] theorem State.setCore_awaiting (s : State) (n : Nat) (x : Core) : (s.setCore n x).awaiting = s.awaiting := rfl
@[simp] theorem State.setCore_shootdowns (s : State) (n : Nat) (x : Core) : (s.setCore n x).shootdowns = s.shootdowns := rfl
@[simp] theorem State.setCore_collectives (s : State) (n : Nat) (x : Core) : (s.setCore n x).collectives = s.collectives := rfl
@[simp] theorem State.setCore_lostCids (s : State) (n : Nat) (x : Core) : (s.setCore n x).lostCids = s.lostCids := rfl
@[simp] theorem State.setCore_sent (s : State) (n : Nat) (x : Core) : (s.setCore n x).sent = s.sent := rfl
@[simp] theorem State.setCore_outbox (s : State) (n : Nat) (x : Core) : (s.setCore n x).outbox = s.outbox := rfl
@[simp] theorem State.setCore_flying (s : State) (n : Nat) (x : Core) : (s.setCore n x).flying = s.flying := rfl
@[simp] theorem State.setCore_replicas (s : State) (n : Nat) (x : Core) : (s.setCore n x).replicas = s.replicas := rfl
@[simp] theorem State.setCore_links (s : State) (n : Nat) (x : Core) : (s.setCore n x).links = s.links := rfl
@[simp] theorem State.setCore_bridgesUp (s : State) (n : Nat) (x : Core) : (s.setCore n x).bridgesUp = s.bridgesUp := rfl
@[simp] theorem State.setCore_remotes (s : State) (n : Nat) (x : Core) : (s.setCore n x).remotes = s.remotes := rfl
@[simp] theorem State.setCore_power (s : State) (n : Nat) (x : Core) : (s.setCore n x).power = s.power := rfl
@[simp] theorem State.setCore_firmware (s : State) (n : Nat) (x : Core) : (s.setCore n x).firmware = s.firmware := rfl
@[simp] theorem State.setCore_ready (s : State) (n : Nat) (x : Core) : (s.setCore n x).ready = s.ready := rfl
@[simp] theorem State.setCore_recovery (s : State) (n : Nat) (x : Core) : (s.setCore n x).recovery = s.recovery := rfl
@[simp] theorem State.setCore_thermtrip (s : State) (n : Nat) (x : Core) : (s.setCore n x).thermtrip = s.thermtrip := rfl
@[simp] theorem State.setCore_bootCode (s : State) (n : Nat) (x : Core) : (s.setCore n x).bootCode = s.bootCode := rfl

/-! ## setTeam -/

@[simp] theorem State.setTeam_dev (s : State) (n : Nat) (x : Team) : (s.setTeam n x).dev = s.dev := rfl
@[simp] theorem State.setTeam_inc (s : State) (n : Nat) (x : Team) : (s.setTeam n x).inc = s.inc := rfl
@[simp] theorem State.setTeam_now (s : State) (n : Nat) (x : Team) : (s.setTeam n x).now = s.now := rfl
@[simp] theorem State.setTeam_fabric (s : State) (n : Nat) (x : Team) : (s.setTeam n x).fabric = s.fabric := rfl
@[simp] theorem State.setTeam_free (s : State) (n : Nat) (x : Team) : (s.setTeam n x).free = s.free := rfl
@[simp] theorem State.setTeam_agenda (s : State) (n : Nat) (x : Team) : (s.setTeam n x).agenda = s.agenda := rfl
@[simp] theorem State.setTeam_issueNext (s : State) (n : Nat) (x : Team) : (s.setTeam n x).issueNext = s.issueNext := rfl
@[simp] theorem State.setTeam_cur (s : State) (n : Nat) (x : Team) : (s.setTeam n x).cur = s.cur := rfl
@[simp] theorem State.setTeam_nextUid (s : State) (n : Nat) (x : Team) : (s.setTeam n x).nextUid = s.nextUid := rfl
@[simp] theorem State.setTeam_nextTeam (s : State) (n : Nat) (x : Team) : (s.setTeam n x).nextTeam = s.nextTeam := rfl
@[simp] theorem State.setTeam_nextPos (s : State) (n : Nat) (x : Team) : (s.setTeam n x).nextPos = s.nextPos := rfl
@[simp] theorem State.setTeam_nextOrder (s : State) (n : Nat) (x : Team) : (s.setTeam n x).nextOrder = s.nextOrder := rfl
@[simp] theorem State.setTeam_mem (s : State) (n : Nat) (x : Team) : (s.setTeam n x).mem = s.mem := rfl
@[simp] theorem State.setTeam_groups (s : State) (n : Nat) (x : Team) : (s.setTeam n x).groups = s.groups := rfl
@[simp] theorem State.setTeam_teams (s : State) (n : Nat) (x : Team) : (s.setTeam n x).teams = SMap.insert s.teams n x := rfl
@[simp] theorem State.setTeam_cores (s : State) (n : Nat) (x : Team) : (s.setTeam n x).cores = s.cores := rfl
@[simp] theorem State.setTeam_fusedClusters (s : State) (n : Nat) (x : Team) : (s.setTeam n x).fusedClusters = s.fusedClusters := rfl
@[simp] theorem State.setTeam_caches (s : State) (n : Nat) (x : Team) : (s.setTeam n x).caches = s.caches := rfl
@[simp] theorem State.setTeam_slices (s : State) (n : Nat) (x : Team) : (s.setTeam n x).slices = s.slices := rfl
@[simp] theorem State.setTeam_remap (s : State) (n : Nat) (x : Team) : (s.setTeam n x).remap = s.remap := rfl
@[simp] theorem State.setTeam_redirect (s : State) (n : Nat) (x : Team) : (s.setTeam n x).redirect = s.redirect := rfl
@[simp] theorem State.setTeam_net (s : State) (n : Nat) (x : Team) : (s.setTeam n x).net = s.net := rfl
@[simp] theorem State.setTeam_stamps (s : State) (n : Nat) (x : Team) : (s.setTeam n x).stamps = s.stamps := rfl
@[simp] theorem State.setTeam_contexts (s : State) (n : Nat) (x : Team) : (s.setTeam n x).contexts = s.contexts := rfl
@[simp] theorem State.setTeam_ctxarg (s : State) (n : Nat) (x : Team) : (s.setTeam n x).ctxarg = s.ctxarg := rfl
@[simp] theorem State.setTeam_ctxcmd (s : State) (n : Nat) (x : Team) : (s.setTeam n x).ctxcmd = s.ctxcmd := rfl
@[simp] theorem State.setTeam_ctxstat (s : State) (n : Nat) (x : Team) : (s.setTeam n x).ctxstat = s.ctxstat := rfl
@[simp] theorem State.setTeam_cbtbase (s : State) (n : Nat) (x : Team) : (s.setTeam n x).cbtbase = s.cbtbase := rfl
@[simp] theorem State.setTeam_sems (s : State) (n : Nat) (x : Team) : (s.setTeam n x).sems = s.sems := rfl
@[simp] theorem State.setTeam_tieLoser (s : State) (n : Nat) (x : Team) : (s.setTeam n x).tieLoser = s.tieLoser := rfl
@[simp] theorem State.setTeam_ports (s : State) (n : Nat) (x : Team) : (s.setTeam n x).ports = s.ports := rfl
@[simp] theorem State.setTeam_preempts (s : State) (n : Nat) (x : Team) : (s.setTeam n x).preempts = s.preempts := rfl
@[simp] theorem State.setTeam_fwNotes (s : State) (n : Nat) (x : Team) : (s.setTeam n x).fwNotes = s.fwNotes := rfl
@[simp] theorem State.setTeam_halts (s : State) (n : Nat) (x : Team) : (s.setTeam n x).halts = s.halts := rfl
@[simp] theorem State.setTeam_reserved (s : State) (n : Nat) (x : Team) : (s.setTeam n x).reserved = s.reserved := rfl
@[simp] theorem State.setTeam_awaiting (s : State) (n : Nat) (x : Team) : (s.setTeam n x).awaiting = s.awaiting := rfl
@[simp] theorem State.setTeam_shootdowns (s : State) (n : Nat) (x : Team) : (s.setTeam n x).shootdowns = s.shootdowns := rfl
@[simp] theorem State.setTeam_collectives (s : State) (n : Nat) (x : Team) : (s.setTeam n x).collectives = s.collectives := rfl
@[simp] theorem State.setTeam_lostCids (s : State) (n : Nat) (x : Team) : (s.setTeam n x).lostCids = s.lostCids := rfl
@[simp] theorem State.setTeam_sent (s : State) (n : Nat) (x : Team) : (s.setTeam n x).sent = s.sent := rfl
@[simp] theorem State.setTeam_outbox (s : State) (n : Nat) (x : Team) : (s.setTeam n x).outbox = s.outbox := rfl
@[simp] theorem State.setTeam_flying (s : State) (n : Nat) (x : Team) : (s.setTeam n x).flying = s.flying := rfl
@[simp] theorem State.setTeam_replicas (s : State) (n : Nat) (x : Team) : (s.setTeam n x).replicas = s.replicas := rfl
@[simp] theorem State.setTeam_links (s : State) (n : Nat) (x : Team) : (s.setTeam n x).links = s.links := rfl
@[simp] theorem State.setTeam_bridgesUp (s : State) (n : Nat) (x : Team) : (s.setTeam n x).bridgesUp = s.bridgesUp := rfl
@[simp] theorem State.setTeam_remotes (s : State) (n : Nat) (x : Team) : (s.setTeam n x).remotes = s.remotes := rfl
@[simp] theorem State.setTeam_power (s : State) (n : Nat) (x : Team) : (s.setTeam n x).power = s.power := rfl
@[simp] theorem State.setTeam_firmware (s : State) (n : Nat) (x : Team) : (s.setTeam n x).firmware = s.firmware := rfl
@[simp] theorem State.setTeam_ready (s : State) (n : Nat) (x : Team) : (s.setTeam n x).ready = s.ready := rfl
@[simp] theorem State.setTeam_recovery (s : State) (n : Nat) (x : Team) : (s.setTeam n x).recovery = s.recovery := rfl
@[simp] theorem State.setTeam_thermtrip (s : State) (n : Nat) (x : Team) : (s.setTeam n x).thermtrip = s.thermtrip := rfl
@[simp] theorem State.setTeam_bootCode (s : State) (n : Nat) (x : Team) : (s.setTeam n x).bootCode = s.bootCode := rfl

/-! ## setContext -/

@[simp] theorem State.setContext_dev (s : State) (n : Nat) (x : Context) : (s.setContext n x).dev = s.dev := rfl
@[simp] theorem State.setContext_inc (s : State) (n : Nat) (x : Context) : (s.setContext n x).inc = s.inc := rfl
@[simp] theorem State.setContext_now (s : State) (n : Nat) (x : Context) : (s.setContext n x).now = s.now := rfl
@[simp] theorem State.setContext_fabric (s : State) (n : Nat) (x : Context) : (s.setContext n x).fabric = s.fabric := rfl
@[simp] theorem State.setContext_free (s : State) (n : Nat) (x : Context) : (s.setContext n x).free = s.free := rfl
@[simp] theorem State.setContext_agenda (s : State) (n : Nat) (x : Context) : (s.setContext n x).agenda = s.agenda := rfl
@[simp] theorem State.setContext_issueNext (s : State) (n : Nat) (x : Context) : (s.setContext n x).issueNext = s.issueNext := rfl
@[simp] theorem State.setContext_cur (s : State) (n : Nat) (x : Context) : (s.setContext n x).cur = s.cur := rfl
@[simp] theorem State.setContext_nextUid (s : State) (n : Nat) (x : Context) : (s.setContext n x).nextUid = s.nextUid := rfl
@[simp] theorem State.setContext_nextTeam (s : State) (n : Nat) (x : Context) : (s.setContext n x).nextTeam = s.nextTeam := rfl
@[simp] theorem State.setContext_nextPos (s : State) (n : Nat) (x : Context) : (s.setContext n x).nextPos = s.nextPos := rfl
@[simp] theorem State.setContext_nextOrder (s : State) (n : Nat) (x : Context) : (s.setContext n x).nextOrder = s.nextOrder := rfl
@[simp] theorem State.setContext_mem (s : State) (n : Nat) (x : Context) : (s.setContext n x).mem = s.mem := rfl
@[simp] theorem State.setContext_groups (s : State) (n : Nat) (x : Context) : (s.setContext n x).groups = s.groups := rfl
@[simp] theorem State.setContext_teams (s : State) (n : Nat) (x : Context) : (s.setContext n x).teams = s.teams := rfl
@[simp] theorem State.setContext_cores (s : State) (n : Nat) (x : Context) : (s.setContext n x).cores = s.cores := rfl
@[simp] theorem State.setContext_fusedClusters (s : State) (n : Nat) (x : Context) : (s.setContext n x).fusedClusters = s.fusedClusters := rfl
@[simp] theorem State.setContext_caches (s : State) (n : Nat) (x : Context) : (s.setContext n x).caches = s.caches := rfl
@[simp] theorem State.setContext_slices (s : State) (n : Nat) (x : Context) : (s.setContext n x).slices = s.slices := rfl
@[simp] theorem State.setContext_remap (s : State) (n : Nat) (x : Context) : (s.setContext n x).remap = s.remap := rfl
@[simp] theorem State.setContext_redirect (s : State) (n : Nat) (x : Context) : (s.setContext n x).redirect = s.redirect := rfl
@[simp] theorem State.setContext_net (s : State) (n : Nat) (x : Context) : (s.setContext n x).net = s.net := rfl
@[simp] theorem State.setContext_stamps (s : State) (n : Nat) (x : Context) : (s.setContext n x).stamps = s.stamps := rfl
@[simp] theorem State.setContext_contexts (s : State) (n : Nat) (x : Context) : (s.setContext n x).contexts = SMap.insert s.contexts n x := rfl
@[simp] theorem State.setContext_ctxarg (s : State) (n : Nat) (x : Context) : (s.setContext n x).ctxarg = s.ctxarg := rfl
@[simp] theorem State.setContext_ctxcmd (s : State) (n : Nat) (x : Context) : (s.setContext n x).ctxcmd = s.ctxcmd := rfl
@[simp] theorem State.setContext_ctxstat (s : State) (n : Nat) (x : Context) : (s.setContext n x).ctxstat = s.ctxstat := rfl
@[simp] theorem State.setContext_cbtbase (s : State) (n : Nat) (x : Context) : (s.setContext n x).cbtbase = s.cbtbase := rfl
@[simp] theorem State.setContext_sems (s : State) (n : Nat) (x : Context) : (s.setContext n x).sems = s.sems := rfl
@[simp] theorem State.setContext_tieLoser (s : State) (n : Nat) (x : Context) : (s.setContext n x).tieLoser = s.tieLoser := rfl
@[simp] theorem State.setContext_ports (s : State) (n : Nat) (x : Context) : (s.setContext n x).ports = s.ports := rfl
@[simp] theorem State.setContext_preempts (s : State) (n : Nat) (x : Context) : (s.setContext n x).preempts = s.preempts := rfl
@[simp] theorem State.setContext_fwNotes (s : State) (n : Nat) (x : Context) : (s.setContext n x).fwNotes = s.fwNotes := rfl
@[simp] theorem State.setContext_halts (s : State) (n : Nat) (x : Context) : (s.setContext n x).halts = s.halts := rfl
@[simp] theorem State.setContext_reserved (s : State) (n : Nat) (x : Context) : (s.setContext n x).reserved = s.reserved := rfl
@[simp] theorem State.setContext_awaiting (s : State) (n : Nat) (x : Context) : (s.setContext n x).awaiting = s.awaiting := rfl
@[simp] theorem State.setContext_shootdowns (s : State) (n : Nat) (x : Context) : (s.setContext n x).shootdowns = s.shootdowns := rfl
@[simp] theorem State.setContext_collectives (s : State) (n : Nat) (x : Context) : (s.setContext n x).collectives = s.collectives := rfl
@[simp] theorem State.setContext_lostCids (s : State) (n : Nat) (x : Context) : (s.setContext n x).lostCids = s.lostCids := rfl
@[simp] theorem State.setContext_sent (s : State) (n : Nat) (x : Context) : (s.setContext n x).sent = s.sent := rfl
@[simp] theorem State.setContext_outbox (s : State) (n : Nat) (x : Context) : (s.setContext n x).outbox = s.outbox := rfl
@[simp] theorem State.setContext_flying (s : State) (n : Nat) (x : Context) : (s.setContext n x).flying = s.flying := rfl
@[simp] theorem State.setContext_replicas (s : State) (n : Nat) (x : Context) : (s.setContext n x).replicas = s.replicas := rfl
@[simp] theorem State.setContext_links (s : State) (n : Nat) (x : Context) : (s.setContext n x).links = s.links := rfl
@[simp] theorem State.setContext_bridgesUp (s : State) (n : Nat) (x : Context) : (s.setContext n x).bridgesUp = s.bridgesUp := rfl
@[simp] theorem State.setContext_remotes (s : State) (n : Nat) (x : Context) : (s.setContext n x).remotes = s.remotes := rfl
@[simp] theorem State.setContext_power (s : State) (n : Nat) (x : Context) : (s.setContext n x).power = s.power := rfl
@[simp] theorem State.setContext_firmware (s : State) (n : Nat) (x : Context) : (s.setContext n x).firmware = s.firmware := rfl
@[simp] theorem State.setContext_ready (s : State) (n : Nat) (x : Context) : (s.setContext n x).ready = s.ready := rfl
@[simp] theorem State.setContext_recovery (s : State) (n : Nat) (x : Context) : (s.setContext n x).recovery = s.recovery := rfl
@[simp] theorem State.setContext_thermtrip (s : State) (n : Nat) (x : Context) : (s.setContext n x).thermtrip = s.thermtrip := rfl
@[simp] theorem State.setContext_bootCode (s : State) (n : Nat) (x : Context) : (s.setContext n x).bootCode = s.bootCode := rfl

/-! ## setCache -/

@[simp] theorem State.setCache_dev (s : State) (n : Nat) (x : Cache) : (s.setCache n x).dev = s.dev := rfl
@[simp] theorem State.setCache_inc (s : State) (n : Nat) (x : Cache) : (s.setCache n x).inc = s.inc := rfl
@[simp] theorem State.setCache_now (s : State) (n : Nat) (x : Cache) : (s.setCache n x).now = s.now := rfl
@[simp] theorem State.setCache_fabric (s : State) (n : Nat) (x : Cache) : (s.setCache n x).fabric = s.fabric := rfl
@[simp] theorem State.setCache_free (s : State) (n : Nat) (x : Cache) : (s.setCache n x).free = s.free := rfl
@[simp] theorem State.setCache_agenda (s : State) (n : Nat) (x : Cache) : (s.setCache n x).agenda = s.agenda := rfl
@[simp] theorem State.setCache_issueNext (s : State) (n : Nat) (x : Cache) : (s.setCache n x).issueNext = s.issueNext := rfl
@[simp] theorem State.setCache_cur (s : State) (n : Nat) (x : Cache) : (s.setCache n x).cur = s.cur := rfl
@[simp] theorem State.setCache_nextUid (s : State) (n : Nat) (x : Cache) : (s.setCache n x).nextUid = s.nextUid := rfl
@[simp] theorem State.setCache_nextTeam (s : State) (n : Nat) (x : Cache) : (s.setCache n x).nextTeam = s.nextTeam := rfl
@[simp] theorem State.setCache_nextPos (s : State) (n : Nat) (x : Cache) : (s.setCache n x).nextPos = s.nextPos := rfl
@[simp] theorem State.setCache_nextOrder (s : State) (n : Nat) (x : Cache) : (s.setCache n x).nextOrder = s.nextOrder := rfl
@[simp] theorem State.setCache_mem (s : State) (n : Nat) (x : Cache) : (s.setCache n x).mem = s.mem := rfl
@[simp] theorem State.setCache_groups (s : State) (n : Nat) (x : Cache) : (s.setCache n x).groups = s.groups := rfl
@[simp] theorem State.setCache_teams (s : State) (n : Nat) (x : Cache) : (s.setCache n x).teams = s.teams := rfl
@[simp] theorem State.setCache_cores (s : State) (n : Nat) (x : Cache) : (s.setCache n x).cores = s.cores := rfl
@[simp] theorem State.setCache_fusedClusters (s : State) (n : Nat) (x : Cache) : (s.setCache n x).fusedClusters = s.fusedClusters := rfl
@[simp] theorem State.setCache_caches (s : State) (n : Nat) (x : Cache) : (s.setCache n x).caches = SMap.insert s.caches n x := rfl
@[simp] theorem State.setCache_slices (s : State) (n : Nat) (x : Cache) : (s.setCache n x).slices = s.slices := rfl
@[simp] theorem State.setCache_remap (s : State) (n : Nat) (x : Cache) : (s.setCache n x).remap = s.remap := rfl
@[simp] theorem State.setCache_redirect (s : State) (n : Nat) (x : Cache) : (s.setCache n x).redirect = s.redirect := rfl
@[simp] theorem State.setCache_net (s : State) (n : Nat) (x : Cache) : (s.setCache n x).net = s.net := rfl
@[simp] theorem State.setCache_stamps (s : State) (n : Nat) (x : Cache) : (s.setCache n x).stamps = s.stamps := rfl
@[simp] theorem State.setCache_contexts (s : State) (n : Nat) (x : Cache) : (s.setCache n x).contexts = s.contexts := rfl
@[simp] theorem State.setCache_ctxarg (s : State) (n : Nat) (x : Cache) : (s.setCache n x).ctxarg = s.ctxarg := rfl
@[simp] theorem State.setCache_ctxcmd (s : State) (n : Nat) (x : Cache) : (s.setCache n x).ctxcmd = s.ctxcmd := rfl
@[simp] theorem State.setCache_ctxstat (s : State) (n : Nat) (x : Cache) : (s.setCache n x).ctxstat = s.ctxstat := rfl
@[simp] theorem State.setCache_cbtbase (s : State) (n : Nat) (x : Cache) : (s.setCache n x).cbtbase = s.cbtbase := rfl
@[simp] theorem State.setCache_sems (s : State) (n : Nat) (x : Cache) : (s.setCache n x).sems = s.sems := rfl
@[simp] theorem State.setCache_tieLoser (s : State) (n : Nat) (x : Cache) : (s.setCache n x).tieLoser = s.tieLoser := rfl
@[simp] theorem State.setCache_ports (s : State) (n : Nat) (x : Cache) : (s.setCache n x).ports = s.ports := rfl
@[simp] theorem State.setCache_preempts (s : State) (n : Nat) (x : Cache) : (s.setCache n x).preempts = s.preempts := rfl
@[simp] theorem State.setCache_fwNotes (s : State) (n : Nat) (x : Cache) : (s.setCache n x).fwNotes = s.fwNotes := rfl
@[simp] theorem State.setCache_halts (s : State) (n : Nat) (x : Cache) : (s.setCache n x).halts = s.halts := rfl
@[simp] theorem State.setCache_reserved (s : State) (n : Nat) (x : Cache) : (s.setCache n x).reserved = s.reserved := rfl
@[simp] theorem State.setCache_awaiting (s : State) (n : Nat) (x : Cache) : (s.setCache n x).awaiting = s.awaiting := rfl
@[simp] theorem State.setCache_shootdowns (s : State) (n : Nat) (x : Cache) : (s.setCache n x).shootdowns = s.shootdowns := rfl
@[simp] theorem State.setCache_collectives (s : State) (n : Nat) (x : Cache) : (s.setCache n x).collectives = s.collectives := rfl
@[simp] theorem State.setCache_lostCids (s : State) (n : Nat) (x : Cache) : (s.setCache n x).lostCids = s.lostCids := rfl
@[simp] theorem State.setCache_sent (s : State) (n : Nat) (x : Cache) : (s.setCache n x).sent = s.sent := rfl
@[simp] theorem State.setCache_outbox (s : State) (n : Nat) (x : Cache) : (s.setCache n x).outbox = s.outbox := rfl
@[simp] theorem State.setCache_flying (s : State) (n : Nat) (x : Cache) : (s.setCache n x).flying = s.flying := rfl
@[simp] theorem State.setCache_replicas (s : State) (n : Nat) (x : Cache) : (s.setCache n x).replicas = s.replicas := rfl
@[simp] theorem State.setCache_links (s : State) (n : Nat) (x : Cache) : (s.setCache n x).links = s.links := rfl
@[simp] theorem State.setCache_bridgesUp (s : State) (n : Nat) (x : Cache) : (s.setCache n x).bridgesUp = s.bridgesUp := rfl
@[simp] theorem State.setCache_remotes (s : State) (n : Nat) (x : Cache) : (s.setCache n x).remotes = s.remotes := rfl
@[simp] theorem State.setCache_power (s : State) (n : Nat) (x : Cache) : (s.setCache n x).power = s.power := rfl
@[simp] theorem State.setCache_firmware (s : State) (n : Nat) (x : Cache) : (s.setCache n x).firmware = s.firmware := rfl
@[simp] theorem State.setCache_ready (s : State) (n : Nat) (x : Cache) : (s.setCache n x).ready = s.ready := rfl
@[simp] theorem State.setCache_recovery (s : State) (n : Nat) (x : Cache) : (s.setCache n x).recovery = s.recovery := rfl
@[simp] theorem State.setCache_thermtrip (s : State) (n : Nat) (x : Cache) : (s.setCache n x).thermtrip = s.thermtrip := rfl
@[simp] theorem State.setCache_bootCode (s : State) (n : Nat) (x : Cache) : (s.setCache n x).bootCode = s.bootCode := rfl

/-! ## setSlice -/

@[simp] theorem State.setSlice_dev (s : State) (n : Nat) (x : Slice) : (s.setSlice n x).dev = s.dev := rfl
@[simp] theorem State.setSlice_inc (s : State) (n : Nat) (x : Slice) : (s.setSlice n x).inc = s.inc := rfl
@[simp] theorem State.setSlice_now (s : State) (n : Nat) (x : Slice) : (s.setSlice n x).now = s.now := rfl
@[simp] theorem State.setSlice_fabric (s : State) (n : Nat) (x : Slice) : (s.setSlice n x).fabric = s.fabric := rfl
@[simp] theorem State.setSlice_free (s : State) (n : Nat) (x : Slice) : (s.setSlice n x).free = s.free := rfl
@[simp] theorem State.setSlice_agenda (s : State) (n : Nat) (x : Slice) : (s.setSlice n x).agenda = s.agenda := rfl
@[simp] theorem State.setSlice_issueNext (s : State) (n : Nat) (x : Slice) : (s.setSlice n x).issueNext = s.issueNext := rfl
@[simp] theorem State.setSlice_cur (s : State) (n : Nat) (x : Slice) : (s.setSlice n x).cur = s.cur := rfl
@[simp] theorem State.setSlice_nextUid (s : State) (n : Nat) (x : Slice) : (s.setSlice n x).nextUid = s.nextUid := rfl
@[simp] theorem State.setSlice_nextTeam (s : State) (n : Nat) (x : Slice) : (s.setSlice n x).nextTeam = s.nextTeam := rfl
@[simp] theorem State.setSlice_nextPos (s : State) (n : Nat) (x : Slice) : (s.setSlice n x).nextPos = s.nextPos := rfl
@[simp] theorem State.setSlice_nextOrder (s : State) (n : Nat) (x : Slice) : (s.setSlice n x).nextOrder = s.nextOrder := rfl
@[simp] theorem State.setSlice_mem (s : State) (n : Nat) (x : Slice) : (s.setSlice n x).mem = s.mem := rfl
@[simp] theorem State.setSlice_groups (s : State) (n : Nat) (x : Slice) : (s.setSlice n x).groups = s.groups := rfl
@[simp] theorem State.setSlice_teams (s : State) (n : Nat) (x : Slice) : (s.setSlice n x).teams = s.teams := rfl
@[simp] theorem State.setSlice_cores (s : State) (n : Nat) (x : Slice) : (s.setSlice n x).cores = s.cores := rfl
@[simp] theorem State.setSlice_fusedClusters (s : State) (n : Nat) (x : Slice) : (s.setSlice n x).fusedClusters = s.fusedClusters := rfl
@[simp] theorem State.setSlice_caches (s : State) (n : Nat) (x : Slice) : (s.setSlice n x).caches = s.caches := rfl
@[simp] theorem State.setSlice_slices (s : State) (n : Nat) (x : Slice) : (s.setSlice n x).slices = SMap.insert s.slices n x := rfl
@[simp] theorem State.setSlice_remap (s : State) (n : Nat) (x : Slice) : (s.setSlice n x).remap = s.remap := rfl
@[simp] theorem State.setSlice_redirect (s : State) (n : Nat) (x : Slice) : (s.setSlice n x).redirect = s.redirect := rfl
@[simp] theorem State.setSlice_net (s : State) (n : Nat) (x : Slice) : (s.setSlice n x).net = s.net := rfl
@[simp] theorem State.setSlice_stamps (s : State) (n : Nat) (x : Slice) : (s.setSlice n x).stamps = s.stamps := rfl
@[simp] theorem State.setSlice_contexts (s : State) (n : Nat) (x : Slice) : (s.setSlice n x).contexts = s.contexts := rfl
@[simp] theorem State.setSlice_ctxarg (s : State) (n : Nat) (x : Slice) : (s.setSlice n x).ctxarg = s.ctxarg := rfl
@[simp] theorem State.setSlice_ctxcmd (s : State) (n : Nat) (x : Slice) : (s.setSlice n x).ctxcmd = s.ctxcmd := rfl
@[simp] theorem State.setSlice_ctxstat (s : State) (n : Nat) (x : Slice) : (s.setSlice n x).ctxstat = s.ctxstat := rfl
@[simp] theorem State.setSlice_cbtbase (s : State) (n : Nat) (x : Slice) : (s.setSlice n x).cbtbase = s.cbtbase := rfl
@[simp] theorem State.setSlice_sems (s : State) (n : Nat) (x : Slice) : (s.setSlice n x).sems = s.sems := rfl
@[simp] theorem State.setSlice_tieLoser (s : State) (n : Nat) (x : Slice) : (s.setSlice n x).tieLoser = s.tieLoser := rfl
@[simp] theorem State.setSlice_ports (s : State) (n : Nat) (x : Slice) : (s.setSlice n x).ports = s.ports := rfl
@[simp] theorem State.setSlice_preempts (s : State) (n : Nat) (x : Slice) : (s.setSlice n x).preempts = s.preempts := rfl
@[simp] theorem State.setSlice_fwNotes (s : State) (n : Nat) (x : Slice) : (s.setSlice n x).fwNotes = s.fwNotes := rfl
@[simp] theorem State.setSlice_halts (s : State) (n : Nat) (x : Slice) : (s.setSlice n x).halts = s.halts := rfl
@[simp] theorem State.setSlice_reserved (s : State) (n : Nat) (x : Slice) : (s.setSlice n x).reserved = s.reserved := rfl
@[simp] theorem State.setSlice_awaiting (s : State) (n : Nat) (x : Slice) : (s.setSlice n x).awaiting = s.awaiting := rfl
@[simp] theorem State.setSlice_shootdowns (s : State) (n : Nat) (x : Slice) : (s.setSlice n x).shootdowns = s.shootdowns := rfl
@[simp] theorem State.setSlice_collectives (s : State) (n : Nat) (x : Slice) : (s.setSlice n x).collectives = s.collectives := rfl
@[simp] theorem State.setSlice_lostCids (s : State) (n : Nat) (x : Slice) : (s.setSlice n x).lostCids = s.lostCids := rfl
@[simp] theorem State.setSlice_sent (s : State) (n : Nat) (x : Slice) : (s.setSlice n x).sent = s.sent := rfl
@[simp] theorem State.setSlice_outbox (s : State) (n : Nat) (x : Slice) : (s.setSlice n x).outbox = s.outbox := rfl
@[simp] theorem State.setSlice_flying (s : State) (n : Nat) (x : Slice) : (s.setSlice n x).flying = s.flying := rfl
@[simp] theorem State.setSlice_replicas (s : State) (n : Nat) (x : Slice) : (s.setSlice n x).replicas = s.replicas := rfl
@[simp] theorem State.setSlice_links (s : State) (n : Nat) (x : Slice) : (s.setSlice n x).links = s.links := rfl
@[simp] theorem State.setSlice_bridgesUp (s : State) (n : Nat) (x : Slice) : (s.setSlice n x).bridgesUp = s.bridgesUp := rfl
@[simp] theorem State.setSlice_remotes (s : State) (n : Nat) (x : Slice) : (s.setSlice n x).remotes = s.remotes := rfl
@[simp] theorem State.setSlice_power (s : State) (n : Nat) (x : Slice) : (s.setSlice n x).power = s.power := rfl
@[simp] theorem State.setSlice_firmware (s : State) (n : Nat) (x : Slice) : (s.setSlice n x).firmware = s.firmware := rfl
@[simp] theorem State.setSlice_ready (s : State) (n : Nat) (x : Slice) : (s.setSlice n x).ready = s.ready := rfl
@[simp] theorem State.setSlice_recovery (s : State) (n : Nat) (x : Slice) : (s.setSlice n x).recovery = s.recovery := rfl
@[simp] theorem State.setSlice_thermtrip (s : State) (n : Nat) (x : Slice) : (s.setSlice n x).thermtrip = s.thermtrip := rfl
@[simp] theorem State.setSlice_bootCode (s : State) (n : Nat) (x : Slice) : (s.setSlice n x).bootCode = s.bootCode := rfl

/-! ## setPort -/

@[simp] theorem State.setPort_dev (s : State) (n : Nat) (x : Port) : (s.setPort n x).dev = s.dev := rfl
@[simp] theorem State.setPort_inc (s : State) (n : Nat) (x : Port) : (s.setPort n x).inc = s.inc := rfl
@[simp] theorem State.setPort_now (s : State) (n : Nat) (x : Port) : (s.setPort n x).now = s.now := rfl
@[simp] theorem State.setPort_fabric (s : State) (n : Nat) (x : Port) : (s.setPort n x).fabric = s.fabric := rfl
@[simp] theorem State.setPort_free (s : State) (n : Nat) (x : Port) : (s.setPort n x).free = s.free := rfl
@[simp] theorem State.setPort_agenda (s : State) (n : Nat) (x : Port) : (s.setPort n x).agenda = s.agenda := rfl
@[simp] theorem State.setPort_issueNext (s : State) (n : Nat) (x : Port) : (s.setPort n x).issueNext = s.issueNext := rfl
@[simp] theorem State.setPort_cur (s : State) (n : Nat) (x : Port) : (s.setPort n x).cur = s.cur := rfl
@[simp] theorem State.setPort_nextUid (s : State) (n : Nat) (x : Port) : (s.setPort n x).nextUid = s.nextUid := rfl
@[simp] theorem State.setPort_nextTeam (s : State) (n : Nat) (x : Port) : (s.setPort n x).nextTeam = s.nextTeam := rfl
@[simp] theorem State.setPort_nextPos (s : State) (n : Nat) (x : Port) : (s.setPort n x).nextPos = s.nextPos := rfl
@[simp] theorem State.setPort_nextOrder (s : State) (n : Nat) (x : Port) : (s.setPort n x).nextOrder = s.nextOrder := rfl
@[simp] theorem State.setPort_mem (s : State) (n : Nat) (x : Port) : (s.setPort n x).mem = s.mem := rfl
@[simp] theorem State.setPort_groups (s : State) (n : Nat) (x : Port) : (s.setPort n x).groups = s.groups := rfl
@[simp] theorem State.setPort_teams (s : State) (n : Nat) (x : Port) : (s.setPort n x).teams = s.teams := rfl
@[simp] theorem State.setPort_cores (s : State) (n : Nat) (x : Port) : (s.setPort n x).cores = s.cores := rfl
@[simp] theorem State.setPort_fusedClusters (s : State) (n : Nat) (x : Port) : (s.setPort n x).fusedClusters = s.fusedClusters := rfl
@[simp] theorem State.setPort_caches (s : State) (n : Nat) (x : Port) : (s.setPort n x).caches = s.caches := rfl
@[simp] theorem State.setPort_slices (s : State) (n : Nat) (x : Port) : (s.setPort n x).slices = s.slices := rfl
@[simp] theorem State.setPort_remap (s : State) (n : Nat) (x : Port) : (s.setPort n x).remap = s.remap := rfl
@[simp] theorem State.setPort_redirect (s : State) (n : Nat) (x : Port) : (s.setPort n x).redirect = s.redirect := rfl
@[simp] theorem State.setPort_net (s : State) (n : Nat) (x : Port) : (s.setPort n x).net = s.net := rfl
@[simp] theorem State.setPort_stamps (s : State) (n : Nat) (x : Port) : (s.setPort n x).stamps = s.stamps := rfl
@[simp] theorem State.setPort_contexts (s : State) (n : Nat) (x : Port) : (s.setPort n x).contexts = s.contexts := rfl
@[simp] theorem State.setPort_ctxarg (s : State) (n : Nat) (x : Port) : (s.setPort n x).ctxarg = s.ctxarg := rfl
@[simp] theorem State.setPort_ctxcmd (s : State) (n : Nat) (x : Port) : (s.setPort n x).ctxcmd = s.ctxcmd := rfl
@[simp] theorem State.setPort_ctxstat (s : State) (n : Nat) (x : Port) : (s.setPort n x).ctxstat = s.ctxstat := rfl
@[simp] theorem State.setPort_cbtbase (s : State) (n : Nat) (x : Port) : (s.setPort n x).cbtbase = s.cbtbase := rfl
@[simp] theorem State.setPort_sems (s : State) (n : Nat) (x : Port) : (s.setPort n x).sems = s.sems := rfl
@[simp] theorem State.setPort_tieLoser (s : State) (n : Nat) (x : Port) : (s.setPort n x).tieLoser = s.tieLoser := rfl
@[simp] theorem State.setPort_ports (s : State) (n : Nat) (x : Port) : (s.setPort n x).ports = SMap.insert s.ports n x := rfl
@[simp] theorem State.setPort_preempts (s : State) (n : Nat) (x : Port) : (s.setPort n x).preempts = s.preempts := rfl
@[simp] theorem State.setPort_fwNotes (s : State) (n : Nat) (x : Port) : (s.setPort n x).fwNotes = s.fwNotes := rfl
@[simp] theorem State.setPort_halts (s : State) (n : Nat) (x : Port) : (s.setPort n x).halts = s.halts := rfl
@[simp] theorem State.setPort_reserved (s : State) (n : Nat) (x : Port) : (s.setPort n x).reserved = s.reserved := rfl
@[simp] theorem State.setPort_awaiting (s : State) (n : Nat) (x : Port) : (s.setPort n x).awaiting = s.awaiting := rfl
@[simp] theorem State.setPort_shootdowns (s : State) (n : Nat) (x : Port) : (s.setPort n x).shootdowns = s.shootdowns := rfl
@[simp] theorem State.setPort_collectives (s : State) (n : Nat) (x : Port) : (s.setPort n x).collectives = s.collectives := rfl
@[simp] theorem State.setPort_lostCids (s : State) (n : Nat) (x : Port) : (s.setPort n x).lostCids = s.lostCids := rfl
@[simp] theorem State.setPort_sent (s : State) (n : Nat) (x : Port) : (s.setPort n x).sent = s.sent := rfl
@[simp] theorem State.setPort_outbox (s : State) (n : Nat) (x : Port) : (s.setPort n x).outbox = s.outbox := rfl
@[simp] theorem State.setPort_flying (s : State) (n : Nat) (x : Port) : (s.setPort n x).flying = s.flying := rfl
@[simp] theorem State.setPort_replicas (s : State) (n : Nat) (x : Port) : (s.setPort n x).replicas = s.replicas := rfl
@[simp] theorem State.setPort_links (s : State) (n : Nat) (x : Port) : (s.setPort n x).links = s.links := rfl
@[simp] theorem State.setPort_bridgesUp (s : State) (n : Nat) (x : Port) : (s.setPort n x).bridgesUp = s.bridgesUp := rfl
@[simp] theorem State.setPort_remotes (s : State) (n : Nat) (x : Port) : (s.setPort n x).remotes = s.remotes := rfl
@[simp] theorem State.setPort_power (s : State) (n : Nat) (x : Port) : (s.setPort n x).power = s.power := rfl
@[simp] theorem State.setPort_firmware (s : State) (n : Nat) (x : Port) : (s.setPort n x).firmware = s.firmware := rfl
@[simp] theorem State.setPort_ready (s : State) (n : Nat) (x : Port) : (s.setPort n x).ready = s.ready := rfl
@[simp] theorem State.setPort_recovery (s : State) (n : Nat) (x : Port) : (s.setPort n x).recovery = s.recovery := rfl
@[simp] theorem State.setPort_thermtrip (s : State) (n : Nat) (x : Port) : (s.setPort n x).thermtrip = s.thermtrip := rfl
@[simp] theorem State.setPort_bootCode (s : State) (n : Nat) (x : Port) : (s.setPort n x).bootCode = s.bootCode := rfl

/-! ## Group.setVr -/

@[simp] theorem Group.setVr_uid (g : Group) (r l : Nat) (x : Word) : (g.setVr r l x).uid = g.uid := rfl
@[simp] theorem Group.setVr_ctx (g : Group) (r l : Nat) (x : Word) : (g.setVr r l x).ctx = g.ctx := rfl
@[simp] theorem Group.setVr_team (g : Group) (r l : Nat) (x : Word) : (g.setVr r l x).team = g.team := rfl
@[simp] theorem Group.setVr_seg (g : Group) (r l : Nat) (x : Word) : (g.setVr r l x).seg = g.seg := rfl
@[simp] theorem Group.setVr_segGrp (g : Group) (r l : Nat) (x : Word) : (g.setVr r l x).segGrp = g.segGrp := rfl
@[simp] theorem Group.setVr_grpid (g : Group) (r l : Nat) (x : Word) : (g.setVr r l x).grpid = g.grpid := rfl
@[simp] theorem Group.setVr_producer (g : Group) (r l : Nat) (x : Word) : (g.setVr r l x).producer = g.producer := rfl
@[simp] theorem Group.setVr_priv (g : Group) (r l : Nat) (x : Word) : (g.setVr r l x).priv = g.priv := rfl
@[simp] theorem Group.setVr_vregs (g : Group) (r l : Nat) (x : Word) : (g.setVr r l x).vregs = g.vregs := rfl
@[simp] theorem Group.setVr_sregs (g : Group) (r l : Nat) (x : Word) : (g.setVr r l x).sregs = g.sregs := rfl
@[simp] theorem Group.setVr_barriers (g : Group) (r l : Nat) (x : Word) : (g.setVr r l x).barriers = g.barriers := rfl
@[simp] theorem Group.setVr_tiles (g : Group) (r l : Nat) (x : Word) : (g.setVr r l x).tiles = g.tiles := rfl
@[simp] theorem Group.setVr_divstack (g : Group) (r l : Nat) (x : Word) : (g.setVr r l x).divstack = g.divstack := rfl
@[simp] theorem Group.setVr_b (g : Group) (r l : Nat) (x : Word) : (g.setVr r l x).b = g.b := rfl
@[simp] theorem Group.setVr_s (g : Group) (r l : Nat) (x : Word) : (g.setVr r l x).s = g.s := rfl
@[simp] theorem Group.setVr_p (g : Group) (r l : Nat) (x : Word) : (g.setVr r l x).p = g.p := rfl
@[simp] theorem Group.setVr_gstat (g : Group) (r l : Nat) (x : Word) : (g.setVr r l x).gstat = g.gstat := rfl
@[simp] theorem Group.setVr_slotA (g : Group) (r l : Nat) (x : Word) : (g.setVr r l x).slotA = g.slotA := rfl
@[simp] theorem Group.setVr_slotB (g : Group) (r l : Nat) (x : Word) : (g.setVr r l x).slotB = g.slotB := rfl
@[simp] theorem Group.setVr_ex (g : Group) (r l : Nat) (x : Word) : (g.setVr r l x).ex = g.ex := rfl
@[simp] theorem Group.setVr_dsp (g : Group) (r l : Nat) (x : Word) : (g.setVr r l x).dsp = g.dsp := rfl
@[simp] theorem Group.setVr_batch (g : Group) (r l : Nat) (x : Word) : (g.setVr r l x).batch = g.batch := rfl
@[simp] theorem Group.setVr_positions (g : Group) (r l : Nat) (x : Word) : (g.setVr r l x).positions = g.positions := rfl
@[simp] theorem Group.setVr_mxrd (g : Group) (r l : Nat) (x : Word) : (g.setVr r l x).mxrd = g.mxrd := rfl
@[simp] theorem Group.setVr_queue (g : Group) (r l : Nat) (x : Word) : (g.setVr r l x).queue = g.queue := rfl
@[simp] theorem Group.setVr_loads (g : Group) (r l : Nat) (x : Word) : (g.setVr r l x).loads = g.loads := rfl
@[simp] theorem Group.setVr_answers (g : Group) (r l : Nat) (x : Word) : (g.setVr r l x).answers = g.answers := rfl
@[simp] theorem Group.setVr_asked (g : Group) (r l : Nat) (x : Word) : (g.setVr r l x).asked = g.asked := rfl
@[simp] theorem Group.setVr_pending (g : Group) (r l : Nat) (x : Word) : (g.setVr r l x).pending = g.pending := rfl
@[simp] theorem Group.setVr_chain (g : Group) (r l : Nat) (x : Word) : (g.setVr r l x).chain = g.chain := rfl
@[simp] theorem Group.setVr_fuse (g : Group) (r l : Nat) (x : Word) : (g.setVr r l x).fuse = g.fuse := rfl
@[simp] theorem Group.setVr_split (g : Group) (r l : Nat) (x : Word) : (g.setVr r l x).split = g.split := rfl
@[simp] theorem Group.setVr_nextB (g : Group) (r l : Nat) (x : Word) : (g.setVr r l x).nextB = g.nextB := rfl
@[simp] theorem Group.setVr_since (g : Group) (r l : Nat) (x : Word) : (g.setVr r l x).since = g.since := rfl
@[simp] theorem Group.setVr_ready (g : Group) (r l : Nat) (x : Word) : (g.setVr r l x).ready = g.ready := rfl
@[simp] theorem Group.setVr_stop (g : Group) (r l : Nat) (x : Word) : (g.setVr r l x).stop = g.stop := rfl
@[simp] theorem Group.setVr_status (g : Group) (r l : Nat) (x : Word) : (g.setVr r l x).status = g.status := rfl
@[simp] theorem Group.setVr_freeze (g : Group) (r l : Nat) (x : Word) : (g.setVr r l x).freeze = g.freeze := rfl
@[simp] theorem Group.setVr_before (g : Group) (r l : Nat) (x : Word) : (g.setVr r l x).before = g.before := rfl
@[simp] theorem Group.setVr_svcPend (g : Group) (r l : Nat) (x : Word) : (g.setVr r l x).svcPend = g.svcPend := rfl
@[simp] theorem Group.setVr_cause (g : Group) (r l : Nat) (x : Word) : (g.setVr r l x).cause = g.cause := rfl
@[simp] theorem Group.setVr_trapSlot (g : Group) (r l : Nat) (x : Word) : (g.setVr r l x).trapSlot = g.trapSlot := rfl
@[simp] theorem Group.setVr_mcheck (g : Group) (r l : Nat) (x : Word) : (g.setVr r l x).mcheck = g.mcheck := rfl
@[simp] theorem Group.setVr_reeval (g : Group) (r l : Nat) (x : Word) : (g.setVr r l x).reeval = g.reeval := rfl
@[simp] theorem Group.setVr_savedFrz (g : Group) (r l : Nat) (x : Word) : (g.setVr r l x).savedFrz = g.savedFrz := rfl
@[simp] theorem Group.setVr_stepDue (g : Group) (r l : Nat) (x : Word) : (g.setVr r l x).stepDue = g.stepDue := rfl
@[simp] theorem Group.setVr_arena (g : Group) (r l : Nat) (x : Word) : (g.setVr r l x).arena = g.arena := rfl

/-! ## Group.setSr -/

@[simp] theorem Group.setSr_uid (g : Group) (r : Nat) (x : Word) : (g.setSr r x).uid = g.uid := rfl
@[simp] theorem Group.setSr_ctx (g : Group) (r : Nat) (x : Word) : (g.setSr r x).ctx = g.ctx := rfl
@[simp] theorem Group.setSr_team (g : Group) (r : Nat) (x : Word) : (g.setSr r x).team = g.team := rfl
@[simp] theorem Group.setSr_seg (g : Group) (r : Nat) (x : Word) : (g.setSr r x).seg = g.seg := rfl
@[simp] theorem Group.setSr_segGrp (g : Group) (r : Nat) (x : Word) : (g.setSr r x).segGrp = g.segGrp := rfl
@[simp] theorem Group.setSr_grpid (g : Group) (r : Nat) (x : Word) : (g.setSr r x).grpid = g.grpid := rfl
@[simp] theorem Group.setSr_producer (g : Group) (r : Nat) (x : Word) : (g.setSr r x).producer = g.producer := rfl
@[simp] theorem Group.setSr_priv (g : Group) (r : Nat) (x : Word) : (g.setSr r x).priv = g.priv := rfl
@[simp] theorem Group.setSr_vregs (g : Group) (r : Nat) (x : Word) : (g.setSr r x).vregs = g.vregs := rfl
@[simp] theorem Group.setSr_sregs (g : Group) (r : Nat) (x : Word) : (g.setSr r x).sregs = g.sregs := rfl
@[simp] theorem Group.setSr_barriers (g : Group) (r : Nat) (x : Word) : (g.setSr r x).barriers = g.barriers := rfl
@[simp] theorem Group.setSr_tiles (g : Group) (r : Nat) (x : Word) : (g.setSr r x).tiles = g.tiles := rfl
@[simp] theorem Group.setSr_divstack (g : Group) (r : Nat) (x : Word) : (g.setSr r x).divstack = g.divstack := rfl
@[simp] theorem Group.setSr_v (g : Group) (r : Nat) (x : Word) : (g.setSr r x).v = g.v := rfl
@[simp] theorem Group.setSr_b (g : Group) (r : Nat) (x : Word) : (g.setSr r x).b = g.b := rfl
@[simp] theorem Group.setSr_p (g : Group) (r : Nat) (x : Word) : (g.setSr r x).p = g.p := rfl
@[simp] theorem Group.setSr_gstat (g : Group) (r : Nat) (x : Word) : (g.setSr r x).gstat = g.gstat := rfl
@[simp] theorem Group.setSr_slotA (g : Group) (r : Nat) (x : Word) : (g.setSr r x).slotA = g.slotA := rfl
@[simp] theorem Group.setSr_slotB (g : Group) (r : Nat) (x : Word) : (g.setSr r x).slotB = g.slotB := rfl
@[simp] theorem Group.setSr_ex (g : Group) (r : Nat) (x : Word) : (g.setSr r x).ex = g.ex := rfl
@[simp] theorem Group.setSr_dsp (g : Group) (r : Nat) (x : Word) : (g.setSr r x).dsp = g.dsp := rfl
@[simp] theorem Group.setSr_batch (g : Group) (r : Nat) (x : Word) : (g.setSr r x).batch = g.batch := rfl
@[simp] theorem Group.setSr_positions (g : Group) (r : Nat) (x : Word) : (g.setSr r x).positions = g.positions := rfl
@[simp] theorem Group.setSr_mxrd (g : Group) (r : Nat) (x : Word) : (g.setSr r x).mxrd = g.mxrd := rfl
@[simp] theorem Group.setSr_queue (g : Group) (r : Nat) (x : Word) : (g.setSr r x).queue = g.queue := rfl
@[simp] theorem Group.setSr_loads (g : Group) (r : Nat) (x : Word) : (g.setSr r x).loads = g.loads := rfl
@[simp] theorem Group.setSr_answers (g : Group) (r : Nat) (x : Word) : (g.setSr r x).answers = g.answers := rfl
@[simp] theorem Group.setSr_asked (g : Group) (r : Nat) (x : Word) : (g.setSr r x).asked = g.asked := rfl
@[simp] theorem Group.setSr_pending (g : Group) (r : Nat) (x : Word) : (g.setSr r x).pending = g.pending := rfl
@[simp] theorem Group.setSr_chain (g : Group) (r : Nat) (x : Word) : (g.setSr r x).chain = g.chain := rfl
@[simp] theorem Group.setSr_fuse (g : Group) (r : Nat) (x : Word) : (g.setSr r x).fuse = g.fuse := rfl
@[simp] theorem Group.setSr_split (g : Group) (r : Nat) (x : Word) : (g.setSr r x).split = g.split := rfl
@[simp] theorem Group.setSr_nextB (g : Group) (r : Nat) (x : Word) : (g.setSr r x).nextB = g.nextB := rfl
@[simp] theorem Group.setSr_since (g : Group) (r : Nat) (x : Word) : (g.setSr r x).since = g.since := rfl
@[simp] theorem Group.setSr_ready (g : Group) (r : Nat) (x : Word) : (g.setSr r x).ready = g.ready := rfl
@[simp] theorem Group.setSr_stop (g : Group) (r : Nat) (x : Word) : (g.setSr r x).stop = g.stop := rfl
@[simp] theorem Group.setSr_status (g : Group) (r : Nat) (x : Word) : (g.setSr r x).status = g.status := rfl
@[simp] theorem Group.setSr_freeze (g : Group) (r : Nat) (x : Word) : (g.setSr r x).freeze = g.freeze := rfl
@[simp] theorem Group.setSr_before (g : Group) (r : Nat) (x : Word) : (g.setSr r x).before = g.before := rfl
@[simp] theorem Group.setSr_svcPend (g : Group) (r : Nat) (x : Word) : (g.setSr r x).svcPend = g.svcPend := rfl
@[simp] theorem Group.setSr_cause (g : Group) (r : Nat) (x : Word) : (g.setSr r x).cause = g.cause := rfl
@[simp] theorem Group.setSr_trapSlot (g : Group) (r : Nat) (x : Word) : (g.setSr r x).trapSlot = g.trapSlot := rfl
@[simp] theorem Group.setSr_mcheck (g : Group) (r : Nat) (x : Word) : (g.setSr r x).mcheck = g.mcheck := rfl
@[simp] theorem Group.setSr_reeval (g : Group) (r : Nat) (x : Word) : (g.setSr r x).reeval = g.reeval := rfl
@[simp] theorem Group.setSr_savedFrz (g : Group) (r : Nat) (x : Word) : (g.setSr r x).savedFrz = g.savedFrz := rfl
@[simp] theorem Group.setSr_stepDue (g : Group) (r : Nat) (x : Word) : (g.setSr r x).stepDue = g.stepDue := rfl
@[simp] theorem Group.setSr_arena (g : Group) (r : Nat) (x : Word) : (g.setSr r x).arena = g.arena := rfl

/-! ## Group.setLanes -/

@[simp] theorem Group.setLanes_uid (g : Group) (r : Nat) (xs : List (Nat × Word)) : (g.setLanes r xs).uid = g.uid := rfl
@[simp] theorem Group.setLanes_ctx (g : Group) (r : Nat) (xs : List (Nat × Word)) : (g.setLanes r xs).ctx = g.ctx := rfl
@[simp] theorem Group.setLanes_team (g : Group) (r : Nat) (xs : List (Nat × Word)) : (g.setLanes r xs).team = g.team := rfl
@[simp] theorem Group.setLanes_seg (g : Group) (r : Nat) (xs : List (Nat × Word)) : (g.setLanes r xs).seg = g.seg := rfl
@[simp] theorem Group.setLanes_segGrp (g : Group) (r : Nat) (xs : List (Nat × Word)) : (g.setLanes r xs).segGrp = g.segGrp := rfl
@[simp] theorem Group.setLanes_grpid (g : Group) (r : Nat) (xs : List (Nat × Word)) : (g.setLanes r xs).grpid = g.grpid := rfl
@[simp] theorem Group.setLanes_producer (g : Group) (r : Nat) (xs : List (Nat × Word)) : (g.setLanes r xs).producer = g.producer := rfl
@[simp] theorem Group.setLanes_priv (g : Group) (r : Nat) (xs : List (Nat × Word)) : (g.setLanes r xs).priv = g.priv := rfl
@[simp] theorem Group.setLanes_vregs (g : Group) (r : Nat) (xs : List (Nat × Word)) : (g.setLanes r xs).vregs = g.vregs := rfl
@[simp] theorem Group.setLanes_sregs (g : Group) (r : Nat) (xs : List (Nat × Word)) : (g.setLanes r xs).sregs = g.sregs := rfl
@[simp] theorem Group.setLanes_barriers (g : Group) (r : Nat) (xs : List (Nat × Word)) : (g.setLanes r xs).barriers = g.barriers := rfl
@[simp] theorem Group.setLanes_tiles (g : Group) (r : Nat) (xs : List (Nat × Word)) : (g.setLanes r xs).tiles = g.tiles := rfl
@[simp] theorem Group.setLanes_divstack (g : Group) (r : Nat) (xs : List (Nat × Word)) : (g.setLanes r xs).divstack = g.divstack := rfl
@[simp] theorem Group.setLanes_b (g : Group) (r : Nat) (xs : List (Nat × Word)) : (g.setLanes r xs).b = g.b := rfl
@[simp] theorem Group.setLanes_s (g : Group) (r : Nat) (xs : List (Nat × Word)) : (g.setLanes r xs).s = g.s := rfl
@[simp] theorem Group.setLanes_p (g : Group) (r : Nat) (xs : List (Nat × Word)) : (g.setLanes r xs).p = g.p := rfl
@[simp] theorem Group.setLanes_gstat (g : Group) (r : Nat) (xs : List (Nat × Word)) : (g.setLanes r xs).gstat = g.gstat := rfl
@[simp] theorem Group.setLanes_slotA (g : Group) (r : Nat) (xs : List (Nat × Word)) : (g.setLanes r xs).slotA = g.slotA := rfl
@[simp] theorem Group.setLanes_slotB (g : Group) (r : Nat) (xs : List (Nat × Word)) : (g.setLanes r xs).slotB = g.slotB := rfl
@[simp] theorem Group.setLanes_ex (g : Group) (r : Nat) (xs : List (Nat × Word)) : (g.setLanes r xs).ex = g.ex := rfl
@[simp] theorem Group.setLanes_dsp (g : Group) (r : Nat) (xs : List (Nat × Word)) : (g.setLanes r xs).dsp = g.dsp := rfl
@[simp] theorem Group.setLanes_batch (g : Group) (r : Nat) (xs : List (Nat × Word)) : (g.setLanes r xs).batch = g.batch := rfl
@[simp] theorem Group.setLanes_positions (g : Group) (r : Nat) (xs : List (Nat × Word)) : (g.setLanes r xs).positions = g.positions := rfl
@[simp] theorem Group.setLanes_mxrd (g : Group) (r : Nat) (xs : List (Nat × Word)) : (g.setLanes r xs).mxrd = g.mxrd := rfl
@[simp] theorem Group.setLanes_queue (g : Group) (r : Nat) (xs : List (Nat × Word)) : (g.setLanes r xs).queue = g.queue := rfl
@[simp] theorem Group.setLanes_loads (g : Group) (r : Nat) (xs : List (Nat × Word)) : (g.setLanes r xs).loads = g.loads := rfl
@[simp] theorem Group.setLanes_answers (g : Group) (r : Nat) (xs : List (Nat × Word)) : (g.setLanes r xs).answers = g.answers := rfl
@[simp] theorem Group.setLanes_asked (g : Group) (r : Nat) (xs : List (Nat × Word)) : (g.setLanes r xs).asked = g.asked := rfl
@[simp] theorem Group.setLanes_pending (g : Group) (r : Nat) (xs : List (Nat × Word)) : (g.setLanes r xs).pending = g.pending := rfl
@[simp] theorem Group.setLanes_chain (g : Group) (r : Nat) (xs : List (Nat × Word)) : (g.setLanes r xs).chain = g.chain := rfl
@[simp] theorem Group.setLanes_fuse (g : Group) (r : Nat) (xs : List (Nat × Word)) : (g.setLanes r xs).fuse = g.fuse := rfl
@[simp] theorem Group.setLanes_split (g : Group) (r : Nat) (xs : List (Nat × Word)) : (g.setLanes r xs).split = g.split := rfl
@[simp] theorem Group.setLanes_nextB (g : Group) (r : Nat) (xs : List (Nat × Word)) : (g.setLanes r xs).nextB = g.nextB := rfl
@[simp] theorem Group.setLanes_since (g : Group) (r : Nat) (xs : List (Nat × Word)) : (g.setLanes r xs).since = g.since := rfl
@[simp] theorem Group.setLanes_ready (g : Group) (r : Nat) (xs : List (Nat × Word)) : (g.setLanes r xs).ready = g.ready := rfl
@[simp] theorem Group.setLanes_stop (g : Group) (r : Nat) (xs : List (Nat × Word)) : (g.setLanes r xs).stop = g.stop := rfl
@[simp] theorem Group.setLanes_status (g : Group) (r : Nat) (xs : List (Nat × Word)) : (g.setLanes r xs).status = g.status := rfl
@[simp] theorem Group.setLanes_freeze (g : Group) (r : Nat) (xs : List (Nat × Word)) : (g.setLanes r xs).freeze = g.freeze := rfl
@[simp] theorem Group.setLanes_before (g : Group) (r : Nat) (xs : List (Nat × Word)) : (g.setLanes r xs).before = g.before := rfl
@[simp] theorem Group.setLanes_svcPend (g : Group) (r : Nat) (xs : List (Nat × Word)) : (g.setLanes r xs).svcPend = g.svcPend := rfl
@[simp] theorem Group.setLanes_cause (g : Group) (r : Nat) (xs : List (Nat × Word)) : (g.setLanes r xs).cause = g.cause := rfl
@[simp] theorem Group.setLanes_trapSlot (g : Group) (r : Nat) (xs : List (Nat × Word)) : (g.setLanes r xs).trapSlot = g.trapSlot := rfl
@[simp] theorem Group.setLanes_mcheck (g : Group) (r : Nat) (xs : List (Nat × Word)) : (g.setLanes r xs).mcheck = g.mcheck := rfl
@[simp] theorem Group.setLanes_reeval (g : Group) (r : Nat) (xs : List (Nat × Word)) : (g.setLanes r xs).reeval = g.reeval := rfl
@[simp] theorem Group.setLanes_savedFrz (g : Group) (r : Nat) (xs : List (Nat × Word)) : (g.setLanes r xs).savedFrz = g.savedFrz := rfl
@[simp] theorem Group.setLanes_stepDue (g : Group) (r : Nat) (xs : List (Nat × Word)) : (g.setLanes r xs).stepDue = g.stepDue := rfl
@[simp] theorem Group.setLanes_arena (g : Group) (r : Nat) (xs : List (Nat × Word)) : (g.setLanes r xs).arena = g.arena := rfl

/-! ## Group.setMany -/

@[simp] theorem Group.setMany_uid (g : Group) (xs : List ((Nat × Nat) × Word)) : (g.setMany xs).uid = g.uid := rfl
@[simp] theorem Group.setMany_ctx (g : Group) (xs : List ((Nat × Nat) × Word)) : (g.setMany xs).ctx = g.ctx := rfl
@[simp] theorem Group.setMany_team (g : Group) (xs : List ((Nat × Nat) × Word)) : (g.setMany xs).team = g.team := rfl
@[simp] theorem Group.setMany_seg (g : Group) (xs : List ((Nat × Nat) × Word)) : (g.setMany xs).seg = g.seg := rfl
@[simp] theorem Group.setMany_segGrp (g : Group) (xs : List ((Nat × Nat) × Word)) : (g.setMany xs).segGrp = g.segGrp := rfl
@[simp] theorem Group.setMany_grpid (g : Group) (xs : List ((Nat × Nat) × Word)) : (g.setMany xs).grpid = g.grpid := rfl
@[simp] theorem Group.setMany_producer (g : Group) (xs : List ((Nat × Nat) × Word)) : (g.setMany xs).producer = g.producer := rfl
@[simp] theorem Group.setMany_priv (g : Group) (xs : List ((Nat × Nat) × Word)) : (g.setMany xs).priv = g.priv := rfl
@[simp] theorem Group.setMany_vregs (g : Group) (xs : List ((Nat × Nat) × Word)) : (g.setMany xs).vregs = g.vregs := rfl
@[simp] theorem Group.setMany_sregs (g : Group) (xs : List ((Nat × Nat) × Word)) : (g.setMany xs).sregs = g.sregs := rfl
@[simp] theorem Group.setMany_barriers (g : Group) (xs : List ((Nat × Nat) × Word)) : (g.setMany xs).barriers = g.barriers := rfl
@[simp] theorem Group.setMany_tiles (g : Group) (xs : List ((Nat × Nat) × Word)) : (g.setMany xs).tiles = g.tiles := rfl
@[simp] theorem Group.setMany_divstack (g : Group) (xs : List ((Nat × Nat) × Word)) : (g.setMany xs).divstack = g.divstack := rfl
@[simp] theorem Group.setMany_b (g : Group) (xs : List ((Nat × Nat) × Word)) : (g.setMany xs).b = g.b := rfl
@[simp] theorem Group.setMany_s (g : Group) (xs : List ((Nat × Nat) × Word)) : (g.setMany xs).s = g.s := rfl
@[simp] theorem Group.setMany_p (g : Group) (xs : List ((Nat × Nat) × Word)) : (g.setMany xs).p = g.p := rfl
@[simp] theorem Group.setMany_gstat (g : Group) (xs : List ((Nat × Nat) × Word)) : (g.setMany xs).gstat = g.gstat := rfl
@[simp] theorem Group.setMany_slotA (g : Group) (xs : List ((Nat × Nat) × Word)) : (g.setMany xs).slotA = g.slotA := rfl
@[simp] theorem Group.setMany_slotB (g : Group) (xs : List ((Nat × Nat) × Word)) : (g.setMany xs).slotB = g.slotB := rfl
@[simp] theorem Group.setMany_ex (g : Group) (xs : List ((Nat × Nat) × Word)) : (g.setMany xs).ex = g.ex := rfl
@[simp] theorem Group.setMany_dsp (g : Group) (xs : List ((Nat × Nat) × Word)) : (g.setMany xs).dsp = g.dsp := rfl
@[simp] theorem Group.setMany_batch (g : Group) (xs : List ((Nat × Nat) × Word)) : (g.setMany xs).batch = g.batch := rfl
@[simp] theorem Group.setMany_positions (g : Group) (xs : List ((Nat × Nat) × Word)) : (g.setMany xs).positions = g.positions := rfl
@[simp] theorem Group.setMany_mxrd (g : Group) (xs : List ((Nat × Nat) × Word)) : (g.setMany xs).mxrd = g.mxrd := rfl
@[simp] theorem Group.setMany_queue (g : Group) (xs : List ((Nat × Nat) × Word)) : (g.setMany xs).queue = g.queue := rfl
@[simp] theorem Group.setMany_loads (g : Group) (xs : List ((Nat × Nat) × Word)) : (g.setMany xs).loads = g.loads := rfl
@[simp] theorem Group.setMany_answers (g : Group) (xs : List ((Nat × Nat) × Word)) : (g.setMany xs).answers = g.answers := rfl
@[simp] theorem Group.setMany_asked (g : Group) (xs : List ((Nat × Nat) × Word)) : (g.setMany xs).asked = g.asked := rfl
@[simp] theorem Group.setMany_pending (g : Group) (xs : List ((Nat × Nat) × Word)) : (g.setMany xs).pending = g.pending := rfl
@[simp] theorem Group.setMany_chain (g : Group) (xs : List ((Nat × Nat) × Word)) : (g.setMany xs).chain = g.chain := rfl
@[simp] theorem Group.setMany_fuse (g : Group) (xs : List ((Nat × Nat) × Word)) : (g.setMany xs).fuse = g.fuse := rfl
@[simp] theorem Group.setMany_split (g : Group) (xs : List ((Nat × Nat) × Word)) : (g.setMany xs).split = g.split := rfl
@[simp] theorem Group.setMany_nextB (g : Group) (xs : List ((Nat × Nat) × Word)) : (g.setMany xs).nextB = g.nextB := rfl
@[simp] theorem Group.setMany_since (g : Group) (xs : List ((Nat × Nat) × Word)) : (g.setMany xs).since = g.since := rfl
@[simp] theorem Group.setMany_ready (g : Group) (xs : List ((Nat × Nat) × Word)) : (g.setMany xs).ready = g.ready := rfl
@[simp] theorem Group.setMany_stop (g : Group) (xs : List ((Nat × Nat) × Word)) : (g.setMany xs).stop = g.stop := rfl
@[simp] theorem Group.setMany_status (g : Group) (xs : List ((Nat × Nat) × Word)) : (g.setMany xs).status = g.status := rfl
@[simp] theorem Group.setMany_freeze (g : Group) (xs : List ((Nat × Nat) × Word)) : (g.setMany xs).freeze = g.freeze := rfl
@[simp] theorem Group.setMany_before (g : Group) (xs : List ((Nat × Nat) × Word)) : (g.setMany xs).before = g.before := rfl
@[simp] theorem Group.setMany_svcPend (g : Group) (xs : List ((Nat × Nat) × Word)) : (g.setMany xs).svcPend = g.svcPend := rfl
@[simp] theorem Group.setMany_cause (g : Group) (xs : List ((Nat × Nat) × Word)) : (g.setMany xs).cause = g.cause := rfl
@[simp] theorem Group.setMany_trapSlot (g : Group) (xs : List ((Nat × Nat) × Word)) : (g.setMany xs).trapSlot = g.trapSlot := rfl
@[simp] theorem Group.setMany_mcheck (g : Group) (xs : List ((Nat × Nat) × Word)) : (g.setMany xs).mcheck = g.mcheck := rfl
@[simp] theorem Group.setMany_reeval (g : Group) (xs : List ((Nat × Nat) × Word)) : (g.setMany xs).reeval = g.reeval := rfl
@[simp] theorem Group.setMany_savedFrz (g : Group) (xs : List ((Nat × Nat) × Word)) : (g.setMany xs).savedFrz = g.savedFrz := rfl
@[simp] theorem Group.setMany_stepDue (g : Group) (xs : List ((Nat × Nat) × Word)) : (g.setMany xs).stepDue = g.stepDue := rfl
@[simp] theorem Group.setMany_arena (g : Group) (xs : List ((Nat × Nat) × Word)) : (g.setMany xs).arena = g.arena := rfl

/-! ## Group.setPred -/

@[simp] theorem Group.setPred_uid (g : Group) (r : Nat) (act x : Word) : (g.setPred r act x).uid = g.uid := rfl
@[simp] theorem Group.setPred_ctx (g : Group) (r : Nat) (act x : Word) : (g.setPred r act x).ctx = g.ctx := rfl
@[simp] theorem Group.setPred_team (g : Group) (r : Nat) (act x : Word) : (g.setPred r act x).team = g.team := rfl
@[simp] theorem Group.setPred_seg (g : Group) (r : Nat) (act x : Word) : (g.setPred r act x).seg = g.seg := rfl
@[simp] theorem Group.setPred_segGrp (g : Group) (r : Nat) (act x : Word) : (g.setPred r act x).segGrp = g.segGrp := rfl
@[simp] theorem Group.setPred_grpid (g : Group) (r : Nat) (act x : Word) : (g.setPred r act x).grpid = g.grpid := rfl
@[simp] theorem Group.setPred_producer (g : Group) (r : Nat) (act x : Word) : (g.setPred r act x).producer = g.producer := rfl
@[simp] theorem Group.setPred_priv (g : Group) (r : Nat) (act x : Word) : (g.setPred r act x).priv = g.priv := rfl
@[simp] theorem Group.setPred_vregs (g : Group) (r : Nat) (act x : Word) : (g.setPred r act x).vregs = g.vregs := rfl
@[simp] theorem Group.setPred_sregs (g : Group) (r : Nat) (act x : Word) : (g.setPred r act x).sregs = g.sregs := rfl
@[simp] theorem Group.setPred_barriers (g : Group) (r : Nat) (act x : Word) : (g.setPred r act x).barriers = g.barriers := rfl
@[simp] theorem Group.setPred_tiles (g : Group) (r : Nat) (act x : Word) : (g.setPred r act x).tiles = g.tiles := rfl
@[simp] theorem Group.setPred_divstack (g : Group) (r : Nat) (act x : Word) : (g.setPred r act x).divstack = g.divstack := rfl
@[simp] theorem Group.setPred_v (g : Group) (r : Nat) (act x : Word) : (g.setPred r act x).v = g.v := rfl
@[simp] theorem Group.setPred_b (g : Group) (r : Nat) (act x : Word) : (g.setPred r act x).b = g.b := rfl
@[simp] theorem Group.setPred_s (g : Group) (r : Nat) (act x : Word) : (g.setPred r act x).s = g.s := rfl
@[simp] theorem Group.setPred_gstat (g : Group) (r : Nat) (act x : Word) : (g.setPred r act x).gstat = g.gstat := rfl
@[simp] theorem Group.setPred_slotA (g : Group) (r : Nat) (act x : Word) : (g.setPred r act x).slotA = g.slotA := rfl
@[simp] theorem Group.setPred_slotB (g : Group) (r : Nat) (act x : Word) : (g.setPred r act x).slotB = g.slotB := rfl
@[simp] theorem Group.setPred_ex (g : Group) (r : Nat) (act x : Word) : (g.setPred r act x).ex = g.ex := rfl
@[simp] theorem Group.setPred_dsp (g : Group) (r : Nat) (act x : Word) : (g.setPred r act x).dsp = g.dsp := rfl
@[simp] theorem Group.setPred_batch (g : Group) (r : Nat) (act x : Word) : (g.setPred r act x).batch = g.batch := rfl
@[simp] theorem Group.setPred_positions (g : Group) (r : Nat) (act x : Word) : (g.setPred r act x).positions = g.positions := rfl
@[simp] theorem Group.setPred_mxrd (g : Group) (r : Nat) (act x : Word) : (g.setPred r act x).mxrd = g.mxrd := rfl
@[simp] theorem Group.setPred_queue (g : Group) (r : Nat) (act x : Word) : (g.setPred r act x).queue = g.queue := rfl
@[simp] theorem Group.setPred_loads (g : Group) (r : Nat) (act x : Word) : (g.setPred r act x).loads = g.loads := rfl
@[simp] theorem Group.setPred_answers (g : Group) (r : Nat) (act x : Word) : (g.setPred r act x).answers = g.answers := rfl
@[simp] theorem Group.setPred_asked (g : Group) (r : Nat) (act x : Word) : (g.setPred r act x).asked = g.asked := rfl
@[simp] theorem Group.setPred_pending (g : Group) (r : Nat) (act x : Word) : (g.setPred r act x).pending = g.pending := rfl
@[simp] theorem Group.setPred_chain (g : Group) (r : Nat) (act x : Word) : (g.setPred r act x).chain = g.chain := rfl
@[simp] theorem Group.setPred_fuse (g : Group) (r : Nat) (act x : Word) : (g.setPred r act x).fuse = g.fuse := rfl
@[simp] theorem Group.setPred_split (g : Group) (r : Nat) (act x : Word) : (g.setPred r act x).split = g.split := rfl
@[simp] theorem Group.setPred_nextB (g : Group) (r : Nat) (act x : Word) : (g.setPred r act x).nextB = g.nextB := rfl
@[simp] theorem Group.setPred_since (g : Group) (r : Nat) (act x : Word) : (g.setPred r act x).since = g.since := rfl
@[simp] theorem Group.setPred_ready (g : Group) (r : Nat) (act x : Word) : (g.setPred r act x).ready = g.ready := rfl
@[simp] theorem Group.setPred_stop (g : Group) (r : Nat) (act x : Word) : (g.setPred r act x).stop = g.stop := rfl
@[simp] theorem Group.setPred_status (g : Group) (r : Nat) (act x : Word) : (g.setPred r act x).status = g.status := rfl
@[simp] theorem Group.setPred_freeze (g : Group) (r : Nat) (act x : Word) : (g.setPred r act x).freeze = g.freeze := rfl
@[simp] theorem Group.setPred_before (g : Group) (r : Nat) (act x : Word) : (g.setPred r act x).before = g.before := rfl
@[simp] theorem Group.setPred_svcPend (g : Group) (r : Nat) (act x : Word) : (g.setPred r act x).svcPend = g.svcPend := rfl
@[simp] theorem Group.setPred_cause (g : Group) (r : Nat) (act x : Word) : (g.setPred r act x).cause = g.cause := rfl
@[simp] theorem Group.setPred_trapSlot (g : Group) (r : Nat) (act x : Word) : (g.setPred r act x).trapSlot = g.trapSlot := rfl
@[simp] theorem Group.setPred_mcheck (g : Group) (r : Nat) (act x : Word) : (g.setPred r act x).mcheck = g.mcheck := rfl
@[simp] theorem Group.setPred_reeval (g : Group) (r : Nat) (act x : Word) : (g.setPred r act x).reeval = g.reeval := rfl
@[simp] theorem Group.setPred_savedFrz (g : Group) (r : Nat) (act x : Word) : (g.setPred r act x).savedFrz = g.savedFrz := rfl
@[simp] theorem Group.setPred_stepDue (g : Group) (r : Nat) (act x : Word) : (g.setPred r act x).stepDue = g.stepDue := rfl
@[simp] theorem Group.setPred_arena (g : Group) (r : Nat) (act x : Word) : (g.setPred r act x).arena = g.arena := rfl

/-! ## Group.flag -/

@[simp] theorem Group.flag_uid (g : Group) (w : Word) : (g.flag w).uid = g.uid := rfl
@[simp] theorem Group.flag_ctx (g : Group) (w : Word) : (g.flag w).ctx = g.ctx := rfl
@[simp] theorem Group.flag_team (g : Group) (w : Word) : (g.flag w).team = g.team := rfl
@[simp] theorem Group.flag_seg (g : Group) (w : Word) : (g.flag w).seg = g.seg := rfl
@[simp] theorem Group.flag_segGrp (g : Group) (w : Word) : (g.flag w).segGrp = g.segGrp := rfl
@[simp] theorem Group.flag_grpid (g : Group) (w : Word) : (g.flag w).grpid = g.grpid := rfl
@[simp] theorem Group.flag_producer (g : Group) (w : Word) : (g.flag w).producer = g.producer := rfl
@[simp] theorem Group.flag_priv (g : Group) (w : Word) : (g.flag w).priv = g.priv := rfl
@[simp] theorem Group.flag_vregs (g : Group) (w : Word) : (g.flag w).vregs = g.vregs := rfl
@[simp] theorem Group.flag_sregs (g : Group) (w : Word) : (g.flag w).sregs = g.sregs := rfl
@[simp] theorem Group.flag_barriers (g : Group) (w : Word) : (g.flag w).barriers = g.barriers := rfl
@[simp] theorem Group.flag_tiles (g : Group) (w : Word) : (g.flag w).tiles = g.tiles := rfl
@[simp] theorem Group.flag_divstack (g : Group) (w : Word) : (g.flag w).divstack = g.divstack := rfl
@[simp] theorem Group.flag_v (g : Group) (w : Word) : (g.flag w).v = g.v := rfl
@[simp] theorem Group.flag_b (g : Group) (w : Word) : (g.flag w).b = g.b := rfl
@[simp] theorem Group.flag_s (g : Group) (w : Word) : (g.flag w).s = g.s := rfl
@[simp] theorem Group.flag_p (g : Group) (w : Word) : (g.flag w).p = g.p := rfl
@[simp] theorem Group.flag_slotA (g : Group) (w : Word) : (g.flag w).slotA = g.slotA := rfl
@[simp] theorem Group.flag_slotB (g : Group) (w : Word) : (g.flag w).slotB = g.slotB := rfl
@[simp] theorem Group.flag_ex (g : Group) (w : Word) : (g.flag w).ex = g.ex := rfl
@[simp] theorem Group.flag_dsp (g : Group) (w : Word) : (g.flag w).dsp = g.dsp := rfl
@[simp] theorem Group.flag_batch (g : Group) (w : Word) : (g.flag w).batch = g.batch := rfl
@[simp] theorem Group.flag_positions (g : Group) (w : Word) : (g.flag w).positions = g.positions := rfl
@[simp] theorem Group.flag_mxrd (g : Group) (w : Word) : (g.flag w).mxrd = g.mxrd := rfl
@[simp] theorem Group.flag_queue (g : Group) (w : Word) : (g.flag w).queue = g.queue := rfl
@[simp] theorem Group.flag_loads (g : Group) (w : Word) : (g.flag w).loads = g.loads := rfl
@[simp] theorem Group.flag_answers (g : Group) (w : Word) : (g.flag w).answers = g.answers := rfl
@[simp] theorem Group.flag_asked (g : Group) (w : Word) : (g.flag w).asked = g.asked := rfl
@[simp] theorem Group.flag_pending (g : Group) (w : Word) : (g.flag w).pending = g.pending := rfl
@[simp] theorem Group.flag_chain (g : Group) (w : Word) : (g.flag w).chain = g.chain := rfl
@[simp] theorem Group.flag_fuse (g : Group) (w : Word) : (g.flag w).fuse = g.fuse := rfl
@[simp] theorem Group.flag_split (g : Group) (w : Word) : (g.flag w).split = g.split := rfl
@[simp] theorem Group.flag_nextB (g : Group) (w : Word) : (g.flag w).nextB = g.nextB := rfl
@[simp] theorem Group.flag_since (g : Group) (w : Word) : (g.flag w).since = g.since := rfl
@[simp] theorem Group.flag_ready (g : Group) (w : Word) : (g.flag w).ready = g.ready := rfl
@[simp] theorem Group.flag_stop (g : Group) (w : Word) : (g.flag w).stop = g.stop := rfl
@[simp] theorem Group.flag_status (g : Group) (w : Word) : (g.flag w).status = g.status := rfl
@[simp] theorem Group.flag_freeze (g : Group) (w : Word) : (g.flag w).freeze = g.freeze := rfl
@[simp] theorem Group.flag_before (g : Group) (w : Word) : (g.flag w).before = g.before := rfl
@[simp] theorem Group.flag_svcPend (g : Group) (w : Word) : (g.flag w).svcPend = g.svcPend := rfl
@[simp] theorem Group.flag_cause (g : Group) (w : Word) : (g.flag w).cause = g.cause := rfl
@[simp] theorem Group.flag_trapSlot (g : Group) (w : Word) : (g.flag w).trapSlot = g.trapSlot := rfl
@[simp] theorem Group.flag_mcheck (g : Group) (w : Word) : (g.flag w).mcheck = g.mcheck := rfl
@[simp] theorem Group.flag_reeval (g : Group) (w : Word) : (g.flag w).reeval = g.reeval := rfl
@[simp] theorem Group.flag_savedFrz (g : Group) (w : Word) : (g.flag w).savedFrz = g.savedFrz := rfl
@[simp] theorem Group.flag_stepDue (g : Group) (w : Word) : (g.flag w).stepDue = g.stepDue := rfl
@[simp] theorem Group.flag_arena (g : Group) (w : Word) : (g.flag w).arena = g.arena := rfl

/-! ## What the accessors read after an update -/

theorem State.group_setGroup (s : State) (j k : Nat) (x : Group) :
    (s.setGroup j x).group k = if k = j then some x else s.group k := SMap.find_insert _ _ _ _

@[simp] theorem State.context_setGroup (s : State) (k : Nat) (x : Group) (c : Nat) : (s.setGroup k x).context c = s.context c := rfl
@[simp] theorem State.core_setGroup (s : State) (k : Nat) (x : Group) (c : Nat) : (s.setGroup k x).core c = s.core c := rfl
@[simp] theorem State.team_setGroup (s : State) (k : Nat) (x : Group) (c : Nat) : (s.setGroup k x).team c = s.team c := rfl
@[simp] theorem State.asidOf_setGroup (s : State) (k : Nat) (x g : Group) : (s.setGroup k x).asidOf g = s.asidOf g := rfl
@[simp] theorem State.group_setCore (s : State) (n : Nat) (x : Core) (k : Nat) : (s.setCore n x).group k = s.group k := rfl
@[simp] theorem State.group_setTeam (s : State) (n : Nat) (x : Team) (k : Nat) : (s.setTeam n x).group k = s.group k := rfl
@[simp] theorem State.group_setContext (s : State) (n : Nat) (x : Context) (k : Nat) : (s.setContext n x).group k = s.group k := rfl
@[simp] theorem State.group_setCache (s : State) (n : Nat) (x : Cache) (k : Nat) : (s.setCache n x).group k = s.group k := rfl
@[simp] theorem State.group_setSlice (s : State) (n : Nat) (x : Slice) (k : Nat) : (s.setSlice n x).group k = s.group k := rfl
@[simp] theorem State.group_setPort (s : State) (n : Nat) (x : Port) (k : Nat) : (s.setPort n x).group k = s.group k := rfl
@[simp] theorem State.context_setCore (s : State) (n : Nat) (x : Core) (c : Nat) : (s.setCore n x).context c = s.context c := rfl
@[simp] theorem State.context_setPort (s : State) (n : Nat) (x : Port) (c : Nat) : (s.setPort n x).context c = s.context c := rfl

end Sys2Proof.Machine
end

