-- ==== Sys2Proof/Laws/Issue.lean ====
section
/-! SUPPORT. What the shared operations of every instruction can do: the common checks, completing, trapping, waiting, and
entering Translation; and what an address check does. -/

namespace Sys2Proof.Machine

/-- The meaning of every encoded instruction starts with the common checks. -/
theorem exec_issue (i : Instr) (s : State) (h : i.size ≠ 0) : ∃ k, exec i s = issue i s k := by
  cases i
  case iadd => unfold exec execIadd; exact ⟨_, rfl⟩
  case isub => unfold exec execIsub; exact ⟨_, rfl⟩
  case imul => unfold exec execImul; exact ⟨_, rfl⟩
  case imad => unfold exec execImad; exact ⟨_, rfl⟩
  case imulhS32 => unfold exec execImulhS32; exact ⟨_, rfl⟩
  case imulhW32 => unfold exec execImulhW32; exact ⟨_, rfl⟩
  case iminS32 => unfold exec execIminS32; exact ⟨_, rfl⟩
  case iminW32 => unfold exec execIminW32; exact ⟨_, rfl⟩
  case imaxS32 => unfold exec execImaxS32; exact ⟨_, rfl⟩
  case imaxW32 => unfold exec execImaxW32; exact ⟨_, rfl⟩
  case iabs => unfold exec execIabs; exact ⟨_, rfl⟩
  case ineg => unfold exec execIneg; exact ⟨_, rfl⟩
  case popc => unfold exec execPopc; exact ⟨_, rfl⟩
  case clz => unfold exec execClz; exact ⟨_, rfl⟩
  case and => unfold exec execAnd; exact ⟨_, rfl⟩
  case or => unfold exec execOr; exact ⟨_, rfl⟩
  case xor => unfold exec execXor; exact ⟨_, rfl⟩
  case not => unfold exec execNot; exact ⟨_, rfl⟩
  case shl => unfold exec execShl; exact ⟨_, rfl⟩
  case shr => unfold exec execShr; exact ⟨_, rfl⟩
  case sar => unfold exec execSar; exact ⟨_, rfl⟩
  case brev => unfold exec execBrev; exact ⟨_, rfl⟩
  case bfeW32 => unfold exec execBfeW32; exact ⟨_, rfl⟩
  case bfeS32 => unfold exec execBfeS32; exact ⟨_, rfl⟩
  case bfi => unfold exec execBfi; exact ⟨_, rfl⟩
  case mov => unfold exec execMov; exact ⟨_, rfl⟩
  case sel => unfold exec execSel; exact ⟨_, rfl⟩
  case iaddc => unfold exec execIaddc; exact ⟨_, rfl⟩
  case lea64 => unfold exec execLea64; exact ⟨_, rfl⟩
  case icmp => unfold exec execIcmp; exact ⟨_, rfl⟩
  case cvt => unfold exec execCvt; exact ⟨_, rfl⟩
  case movi => unfold exec execMovi; exact ⟨_, rfl⟩
  case movh => unfold exec execMovh; exact ⟨_, rfl⟩
  case iaddImm => unfold exec execIaddImm; exact ⟨_, rfl⟩
  case andImm => unfold exec execAndImm; exact ⟨_, rfl⟩
  case shflIdx => unfold exec execShflIdx; exact ⟨_, rfl⟩
  case shflUp => unfold exec execShflUp; exact ⟨_, rfl⟩
  case shflDn => unfold exec execShflDn; exact ⟨_, rfl⟩
  case shflXor => unfold exec execShflXor; exact ⟨_, rfl⟩
  case redl => unfold exec execRedl; exact ⟨_, rfl⟩
  case scanlInc => unfold exec execScanlInc; exact ⟨_, rfl⟩
  case scanlExc => unfold exec execScanlExc; exact ⟨_, rfl⟩
  case bcast => unfold exec execBcast; exact ⟨_, rfl⟩
  case rdlane => unfold exec execRdlane; exact ⟨_, rfl⟩
  case voteBallot => unfold exec execVoteBallot; exact ⟨_, rfl⟩
  case actmask => unfold exec execActmask; exact ⟨_, rfl⟩
  case matchLanes => unfold exec execMatchLanes; exact ⟨_, rfl⟩
  case pand => unfold exec execPand; exact ⟨_, rfl⟩
  case por => unfold exec execPor; exact ⟨_, rfl⟩
  case pxor => unfold exec execPxor; exact ⟨_, rfl⟩
  case pnot => unfold exec execPnot; exact ⟨_, rfl⟩
  case pmov => unfold exec execPmov; exact ⟨_, rfl⟩
  case voteAll => unfold exec execVoteAll; exact ⟨_, rfl⟩
  case voteAny => unfold exec execVoteAny; exact ⟨_, rfl⟩
  case voteUni => unfold exec execVoteUni; exact ⟨_, rfl⟩
  case grd => unfold exec execGrd; exact ⟨_, rfl⟩
  case fadd => unfold exec execFadd; exact ⟨_, rfl⟩
  case fsub => unfold exec execFsub; exact ⟨_, rfl⟩
  case fmul => unfold exec execFmul; exact ⟨_, rfl⟩
  case ffma => unfold exec execFfma; exact ⟨_, rfl⟩
  case fmin => unfold exec execFmin; exact ⟨_, rfl⟩
  case fmax => unfold exec execFmax; exact ⟨_, rfl⟩
  case frcp => unfold exec execFrcp; exact ⟨_, rfl⟩
  case frsq => unfold exec execFrsq; exact ⟨_, rfl⟩
  case fsqrt => unfold exec execFsqrt; exact ⟨_, rfl⟩
  case fexp2 => unfold exec execFexp2; exact ⟨_, rfl⟩
  case flog2 => unfold exec execFlog2; exact ⟨_, rfl⟩
  case fsin => unfold exec execFsin; exact ⟨_, rfl⟩
  case fcos => unfold exec execFcos; exact ⟨_, rfl⟩
  case fcmp => unfold exec execFcmp; exact ⟨_, rfl⟩
  case fcvt => unfold exec execFcvt; exact ⟨_, rfl⟩
  case hadd2 => unfold exec execHadd2; exact ⟨_, rfl⟩
  case hmul2 => unfold exec execHmul2; exact ⟨_, rfl⟩
  case hfma2 => unfold exec execHfma2; exact ⟨_, rfl⟩
  case faddImm => unfold exec execFaddImm; exact ⟨_, rfl⟩
  case fmulImm => unfold exec execFmulImm; exact ⟨_, rfl⟩
  case moviF32 => unfold exec execMoviF32; exact ⟨_, rfl⟩
  case moviF16 => unfold exec execMoviF16; exact ⟨_, rfl⟩
  case qcvtQ => unfold exec execQcvtQ; exact ⟨_, rfl⟩
  case qcvtF32 => unfold exec execQcvtF32; exact ⟨_, rfl⟩
  case qpack => unfold exec execQpack; exact ⟨_, rfl⟩
  case qunpk => unfold exec execQunpk; exact ⟨_, rfl⟩
  case tunpk => unfold exec execTunpk; exact ⟨_, rfl⟩
  case sadd => unfold exec execSadd; exact ⟨_, rfl⟩
  case ssub => unfold exec execSsub; exact ⟨_, rfl⟩
  case smul => unfold exec execSmul; exact ⟨_, rfl⟩
  case smov => unfold exec execSmov; exact ⟨_, rfl⟩
  case sand => unfold exec execSand; exact ⟨_, rfl⟩
  case sor => unfold exec execSor; exact ⟨_, rfl⟩
  case sxor => unfold exec execSxor; exact ⟨_, rfl⟩
  case slea64 => unfold exec execSlea64; exact ⟨_, rfl⟩
  case sshl => unfold exec execSshl; exact ⟨_, rfl⟩
  case sshr => unfold exec execSshr; exact ⟨_, rfl⟩
  case scmp => unfold exec execScmp; exact ⟨_, rfl⟩
  case smovi => unfold exec execSmovi; exact ⟨_, rfl⟩
  case smoviH => unfold exec execSmoviH; exact ⟨_, rfl⟩
  case sld => unfold exec execSld; exact ⟨_, rfl⟩
  case bra => unfold exec execBra; exact ⟨_, rfl⟩
  case jmp => unfold exec execJmp; exact ⟨_, rfl⟩
  case call => unfold exec execCall; exact ⟨_, rfl⟩
  case joinpt => unfold exec execJoinpt; exact ⟨_, rfl⟩
  case brx => unfold exec execBrx; exact ⟨_, rfl⟩
  case ret => unfold exec execRet; exact ⟨_, rfl⟩
  case exit => unfold exec execExit; exact ⟨_, rfl⟩
  case yield => unfold exec execYield; exact ⟨_, rfl⟩
  case nop => unfold exec execNop; exact ⟨_, rfl⟩
  case barArv => unfold exec execBarArv; exact ⟨_, rfl⟩
  case barWait => unfold exec execBarWait; exact ⟨_, rfl⟩
  case barSync => unfold exec execBarSync; exact ⟨_, rfl⟩
  case ldReg => unfold exec execLdReg; exact ⟨_, rfl⟩
  case ldImm => unfold exec execLdImm; exact ⟨_, rfl⟩
  case stReg => unfold exec execStReg; exact ⟨_, rfl⟩
  case stImm => unfold exec execStImm; exact ⟨_, rfl⟩
  case ldStrong => unfold exec execLdStrong; exact ⟨_, rfl⟩
  case stStrong => unfold exec execStStrong; exact ⟨_, rfl⟩
  case atom => unfold exec execAtom; exact ⟨_, rfl⟩
  case updScalarBase => unfold exec execUpdScalarBase; exact ⟨_, rfl⟩
  case updVectorBase => unfold exec execUpdVectorBase; exact ⟨_, rfl⟩
  case prefL1 => unfold exec execPrefL1; exact ⟨_, rfl⟩
  case prefL2 => unfold exec execPrefL2; exact ⟨_, rfl⟩
  case collapse => unfold exec execCollapse; exact ⟨_, rfl⟩
  case cctlClean => unfold exec execCctlClean; exact ⟨_, rfl⟩
  case cctlInv => unfold exec execCctlInv; exact ⟨_, rfl⟩
  case cctlClinv => unfold exec execCctlClinv; exact ⟨_, rfl⟩
  case fence => unfold exec execFence; exact ⟨_, rfl⟩
  case waita => unfold exec execWaita; exact ⟨_, rfl⟩
  case lds => unfold exec execLds; exact ⟨_, rfl⟩
  case sts => unfold exec execSts; exact ⟨_, rfl⟩
  case ldsTake => unfold exec execLdsTake; exact ⟨_, rfl⟩
  case spfill => unfold exec execSpfill; exact ⟨_, rfl⟩
  case spclear => unfold exec execSpclear; exact ⟨_, rfl⟩
  case subscr => unfold exec execSubscr; exact ⟨_, rfl⟩
  case mxloop => unfold exec execMxloop; exact ⟨_, rfl⟩
  case mxzero => unfold exec execMxzero; exact ⟨_, rfl⟩
  case mxrd => unfold exec execMxrd; exact ⟨_, rfl⟩
  case mxepi => unfold exec execMxepi; exact ⟨_, rfl⟩
  case mxcfg => unfold exec execMxcfg; exact ⟨_, rfl⟩
  case opfence => unfold exec execOpfence; exact ⟨_, rfl⟩
  case stinit => unfold exec execStinit; exact ⟨_, rfl⟩
  case stacc => unfold exec execStacc; exact ⟨_, rfl⟩
  case stwacc => unfold exec execStwacc; exact ⟨_, rfl⟩
  case stmerge => unfold exec execStmerge; exact ⟨_, rfl⟩
  case stxl => unfold exec execStxl; exact ⟨_, rfl⟩
  case stdrainMean => unfold exec execStdrainMean; exact ⟨_, rfl⟩
  case stdrainPvar => unfold exec execStdrainPvar; exact ⟨_, rfl⟩
  case stdrainSvar => unfold exec execStdrainSvar; exact ⟨_, rfl⟩
  case stdrainRdev => unfold exec execStdrainRdev; exact ⟨_, rfl⟩
  case stdrainNorm => unfold exec execStdrainNorm; exact ⟨_, rfl⟩
  case stld => unfold exec execStld; exact ⟨_, rfl⟩
  case stst => unfold exec execStst; exact ⟨_, rfl⟩
  case tcopyIn => unfold exec execTcopyIn; exact ⟨_, rfl⟩
  case tcopyOut => unfold exec execTcopyOut; exact ⟨_, rfl⟩
  case bclose => unfold exec execBclose; exact ⟨_, rfl⟩
  case bwait => unfold exec execBwait; exact ⟨_, rfl⟩
  case unsub => unfold exec execUnsub; exact ⟨_, rfl⟩
  case subst => unfold exec execSubst; exact ⟨_, rfl⟩
  case evset => unfold exec execEvset; exact ⟨_, rfl⟩
  case evclr => unfold exec execEvclr; exact ⟨_, rfl⟩
  case launch => unfold exec execLaunch; exact ⟨_, rfl⟩
  case sendam => unfold exec execSendam; exact ⟨_, rfl⟩
  case trap => unfold exec execTrap; exact ⟨_, rfl⟩
  case bkpt => unfold exec execBkpt; exact ⟨_, rfl⟩
  case eret => unfold exec execEret; exact ⟨_, rfl⟩
  case tlbsd => unfold exec execTlbsd; exact ⟨_, rfl⟩
  case halt => unfold exec execHalt; exact ⟨_, rfl⟩
  case wrpeer => unfold exec execWrpeer; exact ⟨_, rfl⟩
  case rdsys => unfold exec execRdsys; exact ⟨_, rfl⟩
  case wrsys => unfold exec execWrsys; exact ⟨_, rfl⟩
  case mov16 => unfold exec execMov16; exact ⟨_, rfl⟩
  case iadd16 => unfold exec execIadd16; exact ⟨_, rfl⟩
  case isub16 => unfold exec execIsub16; exact ⟨_, rfl⟩
  case and16 => unfold exec execAnd16; exact ⟨_, rfl⟩
  case or16 => unfold exec execOr16; exact ⟨_, rfl⟩
  case xor16 => unfold exec execXor16; exact ⟨_, rfl⟩
  case shl16 => unfold exec execShl16; exact ⟨_, rfl⟩
  case shr16 => unfold exec execShr16; exact ⟨_, rfl⟩
  case sar16 => unfold exec execSar16; exact ⟨_, rfl⟩
  case imin16 => unfold exec execImin16; exact ⟨_, rfl⟩
  case imax16 => unfold exec execImax16; exact ⟨_, rfl⟩
  case fadd16 => unfold exec execFadd16; exact ⟨_, rfl⟩
  case fmul16 => unfold exec execFmul16; exact ⟨_, rfl⟩
  case fmin16 => unfold exec execFmin16; exact ⟨_, rfl⟩
  case fmax16 => unfold exec execFmax16; exact ⟨_, rfl⟩
  case ffma16 => unfold exec execFfma16; exact ⟨_, rfl⟩
  all_goals exact absurd rfl h

/-- What issuing answers: a stop where no path stands at the issue point, else what the checks decide. -/
theorem issue_cases {i : Instr} {s : State} {k : Ctx → Out} {out : Out} (h : issue i s k = out) :
    (out = .fault .noIssuingGroup ∧ ∀ g, s.group s.cur.key = some g → g.path s.cur.pslot = none)
    ∨ ∃ g p, s.group s.cur.key = some g ∧ g.path s.cur.pslot = some p ∧
      ((∃ t, s.verdict s.cur.key g s.cur.pslot p i = .trap t ∧ out = .next (s.trapIssue s.cur.key s.cur.pslot t))
      ∨ (s.verdict s.cur.key g s.cur.pslot p i = .stop
        ∧ out = .next (s.setGroup s.cur.key (g.stopAt s.cur.pslot p.blocked)))
      ∨ (s.verdict s.cur.key g s.cur.pslot p i = .wait
        ∧ out = .next (s.setGroup s.cur.key (g.setWait s.cur.pslot p.blocked)))
      ∨ ∃ latch chain, Goes i s (s.veil g i) p latch chain ∧ out = k (Issuing i s (s.veil g i) p latch chain)) := by
  unfold issue at h
  split at h
  · rename_i hg
    exact .inl ⟨h.symm, fun g he => by rw [hg] at he; cases he⟩
  · rename_i g hg
    split at h
    · rename_i hp
      exact .inl ⟨h.symm, fun g' he => by rw [hg] at he; cases he; exact hp⟩
    · rename_i p hp
      refine .inr ⟨g, p, hg, hp, ?_⟩
      split at h
      · rename_i t hv; exact .inl ⟨t, hv, h.symm⟩
      · rename_i hv; exact .inr (.inl ⟨hv, h.symm⟩)
      · rename_i hv; exact .inr (.inr (.inl ⟨hv, h.symm⟩))
      · rename_i latch chain hv; exact .inr (.inr (.inr ⟨latch, chain, ⟨⟨g, hg, rfl, hv⟩, (s.veil_path g i _).trans hp⟩, h.symm⟩))

/-- Completing answers the group at the next instruction, after the issue boundary. -/
theorem Ctx.done_eq (c : Ctx) (g : Group) : c.done g = .next (c.retireAt g c.nxt) := rfl

/-- A trap is taken once what the group has issued completes; until then the path waits. -/
theorem Ctx.trap_eq {c : Ctx} {g : Group} (h : c.s.group c.key = some g) (t : Trap) :
    c.trap t = if c.s.trapReady g then .next (c.s.trapIssue c.key c.ps t)
      else .next (c.s.setGroup c.key (g.stopAt c.ps .operand)) := by
  simp only [Ctx.trap, h]

/-- A trap that resumes at the next instruction moves the path on first. -/
theorem Ctx.trapNext_eq {c : Ctx} {g : Group} (h : c.s.group c.key = some g) (hr : c.s.trapReady g = true) (t : Trap) :
    c.trapNext t = .next ((c.s.setGroup c.key (g.setPath c.ps (some (c.p.advance c.nxt)))).trapIssue c.key c.ps
      { t with pc := some c.p.pc }) := by
  simp only [Ctx.trapNext, h, hr, if_true]

/-- A trap that issues gives the other slot the next turn. -/
theorem State.trapIssue_eq {s : State} {key : Nat} {g : Group} (h : s.group key = some g) (ps : PSlot) (t : Trap) :
    s.trapIssue key ps t = (s.setGroup key { g with nextB := decide (ps = .a) }).raiseTrap key ps t := by
  simp only [State.trapIssue, h]

/-- A group that is not split can take a trap once no scalar answer is outstanding and no path completes what it has issued. -/
theorem State.trapReady_of_quiet {s : State} {g : Group} (ha : g.answers = []) (hc : g.completing = false) (hl : g.split = none) :
    s.trapReady g = true := by
  simp [State.trapReady, Group.splitStalls, ha, hc, hl]

/-- Waiting before issue changes the path's wait only. -/
theorem Ctx.stall_eq {c : Ctx} {g : Group} (h : c.s.group c.key = some g) (w : Wait) :
    c.stall w = .next (c.s.setGroup c.key (g.setWait c.ps w)) := by
  unfold Ctx.stall
  simp only [h]

/-- A lane access traps, completes or is pending. -/
theorem Ctx.access_cases (c : Ctx) (n : Nat) (ls : List (Nat × Nat)) (op : MemOp) :
    (misaligned n ls ≠ 0 ∧ c.access n ls op = c.trap { Trap.of cAlign with lanes := misaligned n ls })
    ∨ (misaligned n ls = 0 ∧ ls = [] ∧ c.access n ls op = c.done c.g)
    ∨ (misaligned n ls = 0 ∧ ls ≠ [] ∧ c.access n ls op = c.pend ls op) := by
  unfold Ctx.access
  by_cases h : misaligned n ls = 0
  · cases ls with
    | nil => exact .inr (.inl ⟨h, rfl, by simp [h]⟩)
    | cons e r => exact .inr (.inr ⟨h, by simp, by simp [h]⟩)
  · exact .inl ⟨h, if_pos h⟩

/-- A queued access traps, completes, waits for an entry, or is pending with the restartable flag cleared. -/
theorem Ctx.queued_cases (c : Ctx) (n : Nat) (ls : List (Nat × Nat)) (op : MemOp) :
    (misaligned n ls ≠ 0 ∧ c.queued n ls op = c.trap { Trap.of cAlign with lanes := misaligned n ls })
    ∨ (misaligned n ls = 0 ∧ ls = [] ∧ c.queued n ls op = c.done c.g)
    ∨ (misaligned n ls = 0 ∧ ls ≠ [] ∧ 16 ≤ c.g.queue.length ∧ c.queued n ls op = c.stall .operand)
    ∨ (misaligned n ls = 0 ∧ ls ≠ [] ∧ c.g.queue.length < 16 ∧ c.queued n ls op = c.publish.pend ls op) := by
  unfold Ctx.queued
  by_cases h : misaligned n ls = 0
  · cases ls with
    | nil => exact .inr (.inl ⟨h, rfl, by simp [h]⟩)
    | cons e r =>
      by_cases hq : 16 ≤ c.g.queue.length
      · exact .inr (.inr (.inl ⟨h, by simp, hq, by simp [h, hq]⟩))
      · exact .inr (.inr (.inr ⟨h, by simp, by omega, by simp [h, hq]⟩))
  · exact .inl ⟨h, if_pos h⟩

/-- An access with one address traps when it is misaligned, and else is pending. -/
theorem Ctx.accessOne_cases (c : Ctx) (n a : Nat) (op : MemOp) :
    (a % n ≠ 0 ∧ c.accessOne n a op = c.trap (Trap.of cAlign)) ∨ (a % n = 0 ∧ c.accessOne n a op = c.pend [(0, a)] op) := by
  unfold Ctx.accessOne
  by_cases h : a % n = 0
  · exact .inr ⟨h, by simp [h]⟩
  · exact .inl ⟨h, by simp [h]⟩

/-- A scratchpad access traps on an overrun, then on a misaligned lane, and else goes on. -/
theorem Ctx.spCheck_cases (c : Ctx) (k n m : Nat) (ls : List (Nat × Nat)) (f : Out) :
    (overrun (c.spSize k) n ls ≠ 0
      ∧ c.spCheck k n m ls f = c.trap { Trap.of cResource with lanes := overrun (c.spSize k) n ls })
    ∨ (overrun (c.spSize k) n ls = 0 ∧ misaligned m ls ≠ 0
      ∧ c.spCheck k n m ls f = c.trap { Trap.of cAlign with lanes := misaligned m ls })
    ∨ (overrun (c.spSize k) n ls = 0 ∧ misaligned m ls = 0 ∧ c.spCheck k n m ls f = f) := by
  unfold Ctx.spCheck
  by_cases h : overrun (c.spSize k) n ls = 0
  · by_cases h2 : misaligned m ls = 0
    · exact .inr (.inr ⟨h, h2, by simp [h, h2]⟩)
    · exact .inr (.inl ⟨h, h2, by simp only [h, h2, ne_eq, not_true_eq_false, if_false, not_false_eq_true, if_true]⟩)
  · exact .inl ⟨h, if_pos h⟩

/-- Setting a path's wait leaves registers as they were. -/
theorem Group.regs_setWait (g : Group) (ps : PSlot) (w : Wait) : (g.setWait ps w).regs = g.regs := by
  unfold Group.setWait
  split
  · exact Group.regs_setPath ..
  · rfl

/-- So does the mark of a trap that waits. -/
theorem Group.regs_stopAt (g : Group) (ps : PSlot) (w : Wait) : (g.stopAt ps w).regs = g.regs := g.regs_setWait ps w

/-! ## Address checks -/

/-- A translation leaves every group as it was, and every byte of device memory. -/
theorem State.noteTranslation_frame (s : State) (n a va : Nat) :
    (s.noteTranslation n a va).groups = s.groups ∧ (s.noteTranslation n a va).mem = s.mem
    ∧ (s.noteTranslation n a va).caches = s.caches ∧ (s.noteTranslation n a va).cores = s.cores := by
  unfold State.noteTranslation
  dsimp only
  repeat' split
  all_goals exact ⟨rfl, rfl, rfl, rfl⟩

theorem State.useRemap_frame (s : State) (n a va : Nat) :
    (s.useRemap n a va).groups = s.groups ∧ (s.useRemap n a va).mem = s.mem
    ∧ (s.useRemap n a va).caches = s.caches ∧ (s.useRemap n a va).cores = s.cores := by
  unfold State.useRemap
  split
  all_goals exact ⟨rfl, rfl, rfl, rfl⟩

theorem State.noteAll_frame (s : State) (n a : Nat) (op : MemOp) (ls : List (Nat × Nat)) :
    (s.noteAll n a op ls).groups = s.groups ∧ (s.noteAll n a op ls).mem = s.mem
    ∧ (s.noteAll n a op ls).caches = s.caches ∧ (s.noteAll n a op ls).cores = s.cores := by
  have gen : ∀ (f : State → Nat × Nat → State), (∀ st e, (f st e).groups = st.groups ∧ (f st e).mem = st.mem
      ∧ (f st e).caches = st.caches ∧ (f st e).cores = st.cores) → ∀ (ls : List (Nat × Nat)) (st : State),
      (ls.foldl f st).groups = st.groups ∧ (ls.foldl f st).mem = st.mem
      ∧ (ls.foldl f st).caches = st.caches ∧ (ls.foldl f st).cores = st.cores := by
    intro f hf ls
    induction ls with
    | nil => exact fun st => ⟨rfl, rfl, rfl, rfl⟩
    | cons e r ih =>
      intro st
      have h := hf st e
      have k := ih (f st e)
      exact ⟨k.1.trans h.1, k.2.1.trans h.2.1, k.2.2.1.trans h.2.2.1, k.2.2.2.trans h.2.2.2⟩
  refine gen _ (fun st e => ?_) ls s
  split
  · exact State.noteTranslation_frame ..
  · exact State.useRemap_frame ..

theorem State.group_noteAll (s : State) (n a : Nat) (op : MemOp) (ls : List (Nat × Nat)) (k : Nat) :
    (s.noteAll n a op ls).group k = s.group k := by
  unfold State.group; rw [(s.noteAll_frame n a op ls).1]

/-- When every lane reaches its address, every lane passes. -/
theorem State.checkLanes_pass (s : State) (core a : Nat) (op : MemOp) (ts : Nat × Nat → Xl) (ls : List (Nat × Nat))
    (h : ∀ e ∈ ls, s.reach core a op e.2 = .ok (ts e)) : s.checkLanes core a op ls = ⟨ls.map fun e => (e.1, ts e), []⟩ := by
  have gen : ∀ (ls : List (Nat × Nat)) (acc : Checked), (∀ e ∈ ls, s.reach core a op e.2 = .ok (ts e)) →
      ls.foldl (fun acc e =>
        match s.reach core a op e.2 with
        | .ok t => { acc with pass := acc.pass ++ [(e.1, t)] }
        | .error k => { acc with fail := acc.fail ++ [(e.1, k, e.2)] }) acc
      = { acc with pass := acc.pass ++ ls.map fun e => (e.1, ts e) } := by
    intro ls
    induction ls with
    | nil => intro acc _; simp
    | cons e r ih =>
      intro acc h
      simp only [List.foldl_cons, h e (by simp)]
      rw [ih _ fun x hx => h x (List.mem_cons_of_mem _ hx)]
      simp
  unfold State.checkLanes
  exact (gen ls ⟨[], []⟩ h).trans (by simp)

end Sys2Proof.Machine
end

