-- ==== Sys2Proof/Tests/Slice0.lean ====
section
/-! SUPPORT. Tests: every encoded instruction's word read back, ill-formed terms refused, small runs of one step, and for each
obligation states and operands that meet its hypotheses. -/

namespace Sys2Proof.Tests
open Sys2Proof.Machine
set_option Elab.async false

/-! ## Decoding: a word of each row, its fields placed as 02 Tables 2-1, 2-3 and 2-10 place them -/

/-- Does a word of so many bits decode to the instruction? -/
def reads (e : Nat × Nat × Instr) : Bool := decide (decodeTableWord e.1 e.2.1 = some e.2.2)

/-- Words of the integer rows. -/
def integer1Words : List (Nat × Nat × Instr) :=
  [(32, 0x12FF7E01, .iadd 75 126 1 124),
    (32, 0x387CFB81, .isub 97 121 1 119),
    (32, 0x5DFA7901, .imul 119 116 1 114),
    (32, 0x7377F681, .imad 77 111 1 109),
    (32, 0x98F57401, .imulhS32 99 106 1 104),
    (32, 0xBE72F181, .imulhW32 121 101 1 99),
    (32, 0x13F06F03, .iminS32 79 96 1 94),
    (32, 0x396DEC83, .iminW32 101 91 1 89),
    (32, 0x5EEB6A03, .imaxS32 123 86 1 84),
    (32, 0x7468E783, .imaxW32 81 81 1 79),
    (32, 0x8033FD83, .iabs 103 1 123),
    (32, 0xA03EE883, .ineg 125 1 81)]

theorem test_decode_integer1 : integer1Words.all reads = true := by decide +kernel

/-- Words of the integer rows. -/
def integer2Words : List (Nat × Nat × Instr) :=
  [(32, 0xC025EF83, .popc 75 1 95),
    (32, 0xE030FA83, .clz 97 1 117),
    (32, 0x1DFA7905, .and 119 116 1 114),
    (32, 0x3377F685, .or 77 111 1 109),
    (32, 0x58F57405, .xor 99 106 1 104),
    (32, 0x603CE685, .not 121 1 77),
    (32, 0x93F06F05, .shl 79 96 1 94),
    (32, 0xB96DEC85, .shr 101 91 1 89),
    (32, 0xDEEB6A05, .sar 123 86 1 84),
    (32, 0xE028F285, .brev 81 1 101),
    (32, 0x19E66507, .bfeW32 103 76 1 74),
    (32, 0x3F63E287, .bfeS32 125 71 1 69)]

theorem test_decode_integer2 : integer2Words.all reads = true := by decide +kernel

/-- Words of the integer rows. -/
def integer3Words : List (Nat × Nat × Instr) :=
  [(32, 0x52FF7E07, .bfi 75 126 1 124),
    (32, 0x6030FA87, .mov 97 1 117),
    (32, 0xFD25EF89, .sel 7 116 75 1 95),
    (32, 0xBBF0B68B, .iaddc 5 111 97 109),
    (32, 0xFABBB40D, .lea64 7 106 119 104),
    (32, 0xB966B88F, .icmp 5 101 77 3 17),
    (32, 0xF831FB91, .cvt 15 8 99 1 119),
    (32, 0x80A57C93, .movi 32933 1 121),
    (32, 0x80BBE793, .movh 32955 1 79),
    (32, 0x80D17295, .iaddImm 32977 1 101),
    (32, 0x80E7FD95, .andImm 32999 1 123)]

theorem test_decode_integer3 : integer3Words.all reads = true := by decide +kernel

/-- Words of the crossLane rows. -/
def crossLane1Words : List (Nat × Nat × Instr) :=
  [(32, 0x12FF2F97, .shflIdx 75 126 95),
    (32, 0x387CBA97, .shflUp 97 121 117),
    (32, 0x5DFA2597, .shflDn 119 116 75),
    (32, 0x7377B097, .shflXor 77 111 97),
    (32, 0x02F53B99, .redl 11 106 119),
    (32, 0x2272A699, .scanlInc 9 101 77),
    (32, 0x43F03199, .scanlExc 15 96 99),
    (32, 0x00296D9B, .bcast 165 91),
    (32, 0x3EF5A79B, .rdlane 123 214 79),
    (32, 0x4034689B, .voteBallot 209 81),
    (32, 0x6039C01B, .actmask 231),
    (32, 0x9F40239B, .matchLanes 125 71)]

theorem test_decode_crossLane1 : crossLane1Words.all reads = true := by decide +kernel

/-- Words of the crossLane rows. -/
def crossLane2Words : List (Nat × Nat × Instr) :=
  [(32, 0x07DE099D, .pand 1 30 1 28 19),
    (32, 0x273B8C9D, .por 1 25 1 23 25),
    (32, 0x46990F9D, .pxor 1 20 1 18 31),
    (32, 0x601F889D, .pnot 1 31 17),
    (32, 0x801D0B9D, .pmov 1 26 23),
    (32, 0xA01A8E9D, .voteAll 1 21 29),
    (32, 0xC018099D, .voteAny 1 16 19),
    (32, 0xE01D8C9D, .voteUni 1 27 25),
    (32, 0x00007F9F, .grd 3 1 31)]

theorem test_decode_crossLane2 : crossLane2Words.all reads = true := by decide +kernel

/-- Words of the float rows. -/
def float1Words : List (Nat × Nat × Instr) :=
  [(32, 0xFFAFF9A1, .fadd 7 126 95 1 115),
    (32, 0xBE7AE4A3, .fsub 5 121 117 1 73),
    (32, 0xFD25EFA5, .fmul 7 116 75 1 95),
    (32, 0xBBF0FAA7, .ffma 5 111 97 1 117),
    (32, 0x18F57429, .fmin 99 106 1 104),
    (32, 0x3E72F1A9, .fmax 121 101 1 99),
    (32, 0x0027F1AB, .frcp 79 1 99),
    (32, 0x2032FCAB, .frsq 101 1 121),
    (32, 0x403DE7AB, .fsqrt 123 1 79),
    (32, 0x6028F2AB, .fexp2 81 1 101),
    (32, 0x8033FDAB, .flog2 103 1 123),
    (32, 0xA03EE8AB, .fsin 125 1 81)]

theorem test_decode_float1 : float1Words.all reads = true := by decide +kernel

/-- Words of the float rows. -/
def float2Words : List (Nat × Nat × Instr) :=
  [(32, 0xC025EFAB, .fcos 75 1 95),
    (32, 0xBE7ABCAD, .fcmp 5 121 117 3 25),
    (32, 0xFCF9782F, .fcvt 15 12 3 114 1 112),
    (32, 0x1377F6B1, .hadd2 77 111 1 109),
    (32, 0x38F57431, .hmul2 99 106 1 104),
    (32, 0x5E72F1B1, .hfma2 121 101 1 99),
    (32, 0x808F71B3, .faddImm 32911 1 99),
    (32, 0x80A5FCB3, .fmulImm 32933 1 121),
    (32, 0x80BB67B5, .moviF32 32955 1 79),
    (32, 0x80D1F2B5, .moviF16 32977 1 101),
    (32, 0x19E63DB7, .qcvtQ 103 76 123),
    (32, 0x3F63A8B7, .qcvtF32 125 71 81)]

theorem test_decode_float2 : float2Words.all reads = true := by decide +kernel

/-- Words of the float rows. -/
def float3Words : List (Nat × Nat × Instr) :=
  [(32, 0x52FF2FB7, .qpack 75 126 95),
    (32, 0x787CBAB7, .qunpk 97 121 117),
    (32, 0x803BBA37, .tunpk 119 116)]

theorem test_decode_float3 : float3Words.all reads = true := by decide +kernel

/-- Words of the scalar rows. -/
def scalar1Words : List (Nat × Nat × Instr) :=
  [(32, 0x45FF4FB9, .sadd 139 254 159),
    (32, 0xD0FCDAB9, .ssub 161 249 181),
    (32, 0x5BFA65BB, .smul 183 244 203),
    (32, 0x8066F7BB, .smov 205 239),
    (32, 0x71F57BBD, .sand 227 234 247),
    (32, 0xFCF2C6BD, .sor 249 229 141),
    (32, 0x47F051BF, .sxor 143 224 163),
    (32, 0xD2EDDCBF, .slea64 165 219 185),
    (32, 0x5DEB67C1, .sshl 187 214 207),
    (32, 0xE8E8F2C1, .sshr 209 209 229),
    (32, 0xE67DEFC3, .scmp 1 204 251 6 31),
    (32, 0x80FD63C5, .smovi 33021 199)]

theorem test_decode_scalar1 : scalar1Words.all reads = true := by decide +kernel

/-- Words of the scalar rows. -/
def scalar2Words : List (Nat × Nat × Instr) :=
  [(32, 0x800BFF45, .smoviH 32779 254),
    (32, 0x90FCDAC7, .sld 289 249 181)]

theorem test_decode_scalar2 : scalar2Words.all reads = true := by decide +kernel

/-- Words of the control rows. -/
def controlWords : List (Nat × Nat × Instr) :=
  [(32, 0x8002FDC9, .bra 131083 30 1 1),
    (32, 0x8008404B, .jmp 131105),
    (32, 0x800DE8CB, .call 131127 20),
    (32, 0x8013414B, .joinpt 131149),
    (32, 0x0071804D, .brx 227),
    (32, 0x207C804D, .ret 249),
    (32, 0x4000004D, .exit),
    (32, 0x6000004D, .yield),
    (32, 0x8000004D, .nop),
    (32, 0xA480004D, .barArv 9),
    (32, 0xC780004D, .barWait 15),
    (32, 0xE680004D, .barSync 13)]

theorem test_decode_control : controlWords.all reads = true := by decide +kernel

/-- Words of the memory rows. -/
def memory1Words : List (Nat × Nat × Instr) :=
  [(32, 0x97FB39CF, .ldReg 75 126 1 4 115),
    (32, 0xC3E7E4D1, .ldImm 97 121 1 7 73),
    (32, 0xEFD3AFD3, .stReg 119 116 1 6 95),
    (32, 0x9BBF7AD5, .stImm 77 111 1 5 117),
    (32, 0x7DDFF357, .ldStrong 7 6 119 1 7 102),
    (32, 0xDB3770D7, .stStrong 5 5 77 1 5 97),
    (32, 0xFEF725D9, .atom 1 3 7 94 1 12 75),
    (32, 0xCB6E6CDB, .updScalarBase 101 91 9 89),
    (32, 0x01EFA7DD, .updVectorBase 123 14 79),
    (32, 0x0146005F, .prefL1 81 1),
    (32, 0x019E00DF, .prefL2 103 1),
    (32, 0x01F6015F, .collapse 125 1)]

theorem test_decode_memory1 : memory1Words.all reads = true := by decide +kernel

/-- Words of the memory rows. -/
def memory2Words : List (Nat × Nat × Instr) :=
  [(32, 0x0FFA01DF, .cctlClean 7 126 1),
    (32, 0x0BE6025F, .cctlInv 5 121 1),
    (32, 0x0FD202DF, .cctlClinv 7 116 1),
    (32, 0x5E014061, .fence 5 7 5),
    (32, 0x71F57BE3, .waita 227 234 247)]

theorem test_decode_memory2 : memory2Words.all reads = true := by decide +kernel

/-- Words of the scratchpad rows. -/
def scratchpadWords : List (Nat × Nat × Instr) :=
  [(32, 0x97BF39E5, .lds 75 1 95 4 115),
    (32, 0xC3EBE4E7, .sts 97 1 117 7 73),
    (32, 0xEF97AFE9, .ldsTake 119 1 75 6 95),
    (32, 0x9BC2006B, .spfill 77 1 97),
    (32, 0xC7EE406B, .spclear 99 1 119),
    (32, 0xF9CBF0ED, .subscr 249 101 3 1 97)]

theorem test_decode_scratchpad : scratchpadWords.all reads = true := by decide +kernel

/-- Words of the matrixAndCopy rows. -/
def matrixAndCopy1Words : List (Nat × Nat × Instr) :=
  [(32, 0x12FF81EF, .mxloop 75 254 3),
    (32, 0x200001EF, .mxzero 3),
    (32, 0x5DFD01EF, .mxrd 119 244 3),
    (32, 0x737BC1EF, .mxepi 77 239 3),
    (32, 0x8038C1EF, .mxcfg 227 3),
    (32, 0xA000006F, .opfence),
    (32, 0x0027B071, .stinit 79 96),
    (32, 0x2032ADF1, .stacc 101 91),
    (32, 0x5EEB27F1, .stwacc 123 86 79),
    (32, 0x7468B2F1, .stmerge 81 81 101),
    (32, 0x8033A671, .stxl 103 76),
    (32, 0xA03EA3F1, .stdrainMean 125 71)]

theorem test_decode_matrixAndCopy1 : matrixAndCopy1Words.all reads = true := by decide +kernel

/-- Words of the matrixAndCopy rows. -/
def matrixAndCopy2Words : List (Nat × Nat × Instr) :=
  [(32, 0xC025BF71, .stdrainPvar 75 126),
    (32, 0xE030BCF1, .stdrainSvar 97 121),
    (32, 0x02DF25F3, .stdrainRdev 183 12 75),
    (32, 0x0737F0F3, .stdrainNorm 205 15 97),
    (32, 0xC7AA3475, .stld 99 106 1 104),
    (32, 0xF39671F5, .stst 121 101 1 99),
    (32, 0x47F051F7, .tcopyIn 143 224 163),
    (32, 0xD2EDDCF7, .tcopyOut 165 219 185)]

theorem test_decode_matrixAndCopy2 : matrixAndCopy2Words.all reads = true := by decide +kernel

/-- Words of the system rows. -/
def system1Words : List (Nat × Nat × Instr) :=
  [(32, 0x15807F79, .bclose 43 254),
    (32, 0x30FC8079, .bwait 33 249),
    (32, 0x405B8079, .unsub 183),
    (32, 0x6066F7F9, .subst 205 239),
    (32, 0x80718079, .evset 227),
    (32, 0xA07C8079, .evclr 249),
    (32, 0xC047F079, .launch 143 224),
    (32, 0xE2EDDCF9, .sendam 5 219 185),
    (32, 0x1D80007B, .trap 59),
    (32, 0x3880007B, .bkpt 49),
    (32, 0x4073807B, .eret 231),
    (32, 0x61E3807B, .tlbsd 3 199)]

theorem test_decode_system1 : system1Words.all reads = true := by decide +kernel

/-- Words of the system rows. -/
def system2Words : List (Nat × Nat × Instr) :=
  [(32, 0x8000007B, .halt),
    (32, 0xA1FC807B, .wrpeer 3 249),
    (32, 0xC41BFA7B, .rdsys 2103 244),
    (32, 0xE426F7FB, .wrsys 2125 239)]

theorem test_decode_system2 : system2Words.all reads = true := by decide +kernel

/-- Words of the short rows. -/
def short1Words : List (Nat × Nat × Instr) :=
  [(16, 0xDFC0, .mov16 27 62),
    (16, 0x8F22, .iadd16 17 57),
    (16, 0xBE84, .isub16 23 52),
    (16, 0xEDE6, .and16 29 47),
    (16, 0x9D48, .or16 19 42),
    (16, 0xCCAA, .xor16 25 37),
    (16, 0xFC0C, .shl16 31 32),
    (16, 0xAF6E, .shr16 21 59),
    (16, 0xDED0, .sar16 27 54),
    (16, 0x8E32, .imin16 17 49),
    (16, 0xBD94, .imax16 23 44),
    (16, 0xECF6, .fadd16 29 39)]

theorem test_decode_short1 : short1Words.all reads = true := by decide +kernel

/-- Words of the short rows. -/
def short2Words : List (Nat × Nat × Instr) :=
  [(16, 0xDFD8, .fmul16 27 62),
    (16, 0x8F3A, .fmin16 17 57),
    (16, 0xBE9C, .fmax16 23 52),
    (16, 0xEDFE, .ffma16 29 47)]

theorem test_decode_short2 : short2Words.all reads = true := by decide +kernel

/-! ## Well-formed instructions: one ill-formed term for each check -/

/-- Codes that no instruction or not this instruction takes (02 R62, R73; 04 R122, R129, R131, R132, R138; 05 R151 to R177;
07 R235, R242, R244). -/
theorem test_refuses_codes :
    ([.cvt 8 0 1 0 2, .cvt 0 8 1 0 2, .cvt 6 0 2 1 2, .fcvt 0 1 0 1 0 2, .fcvt 11 8 0 1 0 2, .fadd 4 1 2 0 3, .fsub 5 1 2 0 3,
      .fmul 6 1 2 0 3, .ffma 7 1 2 0 3, .fcmp 0 1 2 3 4, .redl 11 1 2, .scanlInc 11 1 2, .scanlExc 15 1 2, .voteBallot 1 32,
      .ldReg 1 2 0 7 3, .ldImm 1 2 0 7 3, .stReg 1 2 0 7 3, .stImm 1 2 0 7 3, .ldStrong 2 0 2 0 4 3, .ldStrong 1 6 2 0 4 3,
      .ldStrong 1 0 2 0 6 3, .stStrong 1 0 2 0 4 3] : List Instr).all (fun i => !WellFormed.wf i) = true := by decide +kernel

theorem test_refuses_more_codes :
    ([.atom 0 0 0 1 0 13 2, .atom 1 0 0 1 0 10 2, .atom 0 0 6 1 0 0 2, .updScalarBase 1 2 12 3, .updVectorBase 2 12 3,
      .cctlClean 6 1 0, .cctlInv 7 1 0, .cctlClinv 6 1 0, .fence 0 0 0, .fence 5 0 0, .fence 1 6 0, .fence 1 0 3, .lds 0 0 1 7 2,
      .lds 32 1 1 4 2, .sts 0 0 1 7 2, .ldsTake 64 1 1 4 2, .spfill 32 1 1, .spclear 127 1 1, .stld 1 2 1 4, .stst 1 2 1 4,
      .bclose 3 1, .bwait 3 1, .sendam 7 1 2, .tlbsd 3 2, .rdsys 0x006 1, .rdsys 0xFFF 1, .wrsys 0x001 1, .wrsys 0x015 1]
      : List Instr).all (fun i => !WellFormed.wf i) = true := by decide +kernel

/-- Register fields that name no legal register (01 R20, R21, R26; 02 R59 to R61; 06 R208). -/
theorem test_refuses_registers :
    ([.iadd 1 2 0 124, .imul 1 2 1 127, .lea64 0 1 2 3, .lea64 0 1 3 4, .icmp 0 2 3 2 1, .ldReg 1 96 0 4 3,
      .ldReg 1 62 1 4 3, .ldImm 0 1 0 5 3, .ldImm 0 1 0 6 6, .stImm 0 1 0 6 122, .qpack 1 2 3, .qunpk 1 2 6, .sadd 192 1 2,
      .sadd 216 1 2, .sadd 1 2 192, .slea64 0 1 3, .sld 0 1 2, .ret 3, .brx 193, .stacc 1 3, .stmerge 1 2 4, .stxl 2 32,
      .mxrd 124 0 1, .bclose 0 192, .rdsys 0 200] : List Instr).all (fun i => !WellFormed.wf i) = true := by decide +kernel

/-- Their neighbours are accepted. -/
theorem test_accepts_neighbours :
    ([.cvt 7 6 2 0 4, .cvt 0 1 2 1 3, .fcvt 10 8 3 1 1 2, .fadd 3 124 127 1 123, .fcmp 0 1 2 2 4, .redl 10 1 2, .voteBallot 1 31,
      .ldReg 1 95 0 6 120, .ldReg 1 61 1 4 3, .ldStrong 4 5 2 0 5 2, .stStrong 2 4 2 0 4 3, .atom 0 0 5 1 0 12 2,
      .updScalarBase 1 2 11 30, .fence 4 5 2, .lds 31 1 1 6 4, .lds 127 0 1 4 5, .stld 0 2 1 4, .bclose 2 191, .sendam 6 1 2,
      .tlbsd 2 2, .rdsys 0x015 1, .wrsys 0x014 215, .sadd 215 200 191, .mxrd 123 215 3, .qpack 1 4 3, .sel 7 127 126 1 5]
      : List Instr).all WellFormed.wf = true := by decide +kernel

/-! ## States that meet the statements' hypotheses -/

/-- The machine whose path at the issue point has `i` next. -/
def ready (i : Instr) : State := State.reset.placeCode (encode i)

/-- Its group changed. -/
def edit (f : Group → Group) (s : State) : State :=
  match s.group 0 with
  | some g => s.setGroup 0 (f g)
  | none => s

/-- Its path changed. -/
def editPath (f : Path → Path) (s : State) : State := edit (fun g => { g with slotA := g.slotA.map f }) s

/-- Does the path at the issue point issue `i`, and does `h` hold of its group, as the instruction finds it, and path? -/
def goesWith (s : State) (i : Instr) (h : Group → Path → Bool) : Bool :=
  match s.group s.cur.key with
  | none => false
  | some g => match g.path s.cur.pslot with
    | none => false
    | some p => match s.verdict s.cur.key g s.cur.pslot p i with
      | .go _ _ => h (s.veil g i) p
      | _ => false

/-- Such a state meets the hypothesis `Goes` of the statements. -/
theorem goes_of_goesWith {s : State} {i : Instr} {h : Group → Path → Bool} (e : goesWith s i h = true) :
    ∃ g p latch chain, Goes i s g p latch chain ∧ h g p = true := by
  unfold goesWith at e
  split at e
  · cases e
  · rename_i g hg
    split at e
    · cases e
    · rename_i p hp
      split at e
      · rename_i latch chain hv
        exact ⟨_, p, latch, chain, ⟨⟨g, hg, rfl, hv⟩, (s.veil_path g i _).trans hp⟩, e⟩
      · cases e

/-- Does it issue `i` right after the fetch state is placed? -/
def issues (i : Instr) : Bool := goesWith (ready i) i fun _ _ => true

theorem witness_IntegerResults :
    ([.iadd 4 8 0 2, .isub 4 8 0 2, .imul 4 8 0 2, .imad 4 8 0 2, .imulhS32 4 8 0 2, .imulhW32 4 8 0 2,
      .iminS32 4 8 0 2, .iminW32 4 8 0 2, .imaxS32 4 8 0 2, .imaxW32 4 8 0 2, .iabs 4 0 0, .ineg 4 0 0, .popc 4 0 0,
      .clz 4 0 0, .and 4 8 0 2, .or 4 8 0 2, .xor 4 8 0 2, .not 4 0 0, .shl 4 8 0 2, .shr 4 8 0 2, .sar 4 8 0 2,
      .brev 4 0 0, .bfeW32 4 8 0 2, .bfeS32 4 8 0 2, .bfi 4 8 0 2, .mov 4 0 0] : List Instr).all issues = true := by decide +kernel

theorem witness_ImmediateAndShortResults :
    ([.movi 4 0 0, .movh 4 0 0, .iaddImm 4 0 0, .andImm 4 0 0, .bcast 4 8, .moviF32 4 0 0, .moviF16 4 0 0, .mov16 4 8,
      .iadd16 4 8, .isub16 4 8, .and16 4 8, .or16 4 8, .xor16 4 8, .shl16 4 8, .shr16 4 8, .sar16 4 8, .imin16 4 8,
      .imax16 4 8, .fadd16 4 8, .fmul16 4 8, .fmin16 4 8, .fmax16 4 8, .ffma16 4 8] : List Instr).all issues = true := by decide +kernel

theorem witness_FloatResults :
    ([.fadd 1 8 0 0 1, .fsub 1 8 0 0 1, .fmul 1 8 0 0 1, .ffma 1 8 0 0 1, .fmin 4 8 0 2, .fmax 4 8 0 2, .frcp 4 0 0,
      .frsq 4 0 0, .fsqrt 4 0 0, .fexp2 4 0 0, .flog2 4 0 0, .fsin 4 0 0, .fcos 4 0 0, .hadd2 4 8 0 2, .hmul2 4 8 0 2,
      .hfma2 4 8 0 2, .faddImm 4 0 0, .fmulImm 4 0 0] : List Instr).all issues = true := by decide +kernel

theorem witness_CarryScaleSelectRules :
    ([.sel 1 8 0 0 1, .iaddc 1 8 0 2, .lea64 1 8 0 2] : List Instr).all issues = true := by decide +kernel

theorem witness_ConversionAndCompareResults :
    ([.icmp 1 8 0 1 1, .cvt 4 7 0 2 0, .fcmp 1 8 0 1 1, .fcvt 4 8 1 2 0 6, .cvt 5 7 2 0 4, .fcvt 5 8 1 2 0 4] : List Instr).all issues = true := by decide +kernel

theorem witness_CrossLaneResults :
    ([.shflIdx 4 8 0, .shflUp 4 8 0, .shflDn 4 8 0, .shflXor 4 8 0, .redl 4 8 0, .scanlInc 4 8 0, .scanlExc 4 8 0] : List Instr).all issues = true := by decide +kernel

theorem witness_PredicateAndTransferResults :
    ([.rdlane 4 8 0, .voteBallot 4 8, .actmask 4, .matchLanes 4 8, .pand 0 8 0 2 1, .por 0 8 0 2 1, .pxor 0 8 0 2 1,
      .pnot 0 8 0, .pmov 0 8 0, .voteAll 0 8 0, .voteAny 0 8 0, .voteUni 0 8 0] : List Instr).all issues = true := by decide +kernel

theorem witness_ScalarResults :
    ([.sadd 4 8 0, .ssub 4 8 0, .smul 4 8 0, .smov 4 8, .sand 4 8 0, .sor 4 8 0, .sxor 4 8 0, .slea64 4 8 0,
      .sshl 4 8 0, .sshr 4 8 0, .scmp 0 8 0 1 1, .smovi 4 8, .smoviH 4 8] : List Instr).all issues = true := by decide +kernel

theorem witness_StatisticsResults :
    ([.stinit 4 8, .stacc 4 8, .stwacc 4 8 0, .stmerge 4 8 0, .stxl 4 8, .stdrainMean 4 8, .stdrainPvar 4 8,
      .stdrainSvar 4 8, .stdrainRdev 4 8 0, .stdrainNorm 4 8 0] : List Instr).all issues = true := by decide +kernel

/-- Does it issue `i` with its group changed by `f`, and does `h` hold? -/
def goesAt (i : Instr) (f : Group → Group) (h : Group → Path → Bool) : Bool := goesWith (edit f (ready i)) i h

/-- A vector register with one word in every lane. -/
def fill (r : Nat) (w : Word) (g : Group) : Group := g.setLanes r ((run 0 32).map fun l => (l, w))

/-- Scalar registers from `r` with these words. -/
def scalars (r : Nat) (ws : List Word) (g : Group) : Group :=
  (number r ws).foldl (fun (g : Group) e => g.setSr e.1 e.2) g

/-- The path of slot A changed. -/
def slotA (f : Path → Path) (g : Group) : Group := { g with slotA := g.slotA.map f }

/-- A latch chain of two: its leader's state. -/
theorem witness_latch_chain :
    let s := State.reset.placeCode (encode (.iadd 4 8 0 0) ++ encode (.iadd 124 8 0 2))
    (s.group 0).map (fun g => (g.path .a).map fun p => s.verdict 0 g .a p (.iadd 4 8 0 0))
      = some (some (.go (some 0) (some ⟨.a, 1, 2, 0x1000, [.iadd 124 8 0 2]⟩))) := by decide +kernel

/-- Does every active lane's format word in a register hold what is asked? -/
def formats (r : Nat) (ok : Bool) (g : Group) (p : Path) : Bool :=
  g.answers.isEmpty && (lanesOf p.act).all fun l => validFormat (g.src r l) == ok

theorem witness_NarrowResults :
    (([.qcvtQ 4 8 0, .qcvtF32 4 8 0, .qpack 4 8 0, .qunpk 4 8 0] : List Instr).all fun i =>
      goesAt i (fill 4 20) (formats 4 true) && goesAt i (fill 4 0) (formats 4 false)) = true
    ∧ goesAt (.tunpk 4 8) (fill 4 242) (fun g p => (lanesOf p.act).all fun l => decide ((g.src 4 l).toNat % 256 ≤ 242)) = true
    ∧ goesAt (.tunpk 4 8) (fill 4 243) (fun g _ => !g.gstat.getLsbD 22) = true
    ∧ goesAt (.tunpk 4 8) (fun g => { fill 4 243 g with gstat := 0x00400000 }) (fun g p =>
        g.answers.isEmpty && g.gstat.getLsbD 22 && (lanesOf p.act).all fun l => decide (242 < (g.src 4 l).toNat % 256)) = true := by
  decide +kernel

theorem witness_JumpAndBranchResults :
    (([.jmp 4, .call 4 8, .brx 4, .nop, .yield] : List Instr).all issues) = true
    ∧ goesAt (.ret 4) (slotA fun p => { p with depth := 1 }) (fun g p => p.depth != 0 && g.sr64 4 == 0) = true
    ∧ goesAt (.bra 4 8 0 0) id (fun g p => p.act &&& psrc g 0 8 == 0) = true
    ∧ goesAt (.bra 4 8 1 0) id (fun g p => p.act &&& psrc g 1 8 != 0 && p.act &&& ~~~psrc g 1 8 == 0) = true
    ∧ goesAt (.bra 4 8 0 0) (fun g => g.setPred 8 0xFFFFFFFF 1) (fun g p =>
        p.act &&& psrc g 0 8 != 0 && p.act &&& ~~~psrc g 0 8 != 0 && (g.path .b).isNone) = true := by decide +kernel

/-- A second path in slot B. -/
def both (g : Group) : Group :=
  { slotA (fun p => { p with mask := 0xFFFF }) g with slotB := some { entryPath 0 with mask := 0xFFFF0000 } }

theorem witness_DivergenceResults :
    let i := Instr.bra 4 8 0 0
    let s := edit (fun g => both (g.setPred 8 0xFFFFFFFF 1)) (ready i)
    goesWith s i (fun g p => p.act &&& psrc g 0 8 != 0 && p.act &&& ~~~psrc g 0 8 != 0 && (g.path .b).isSome
      && decide (g.dsp + 1 ≤ g.divstack)
      && (s.pushEntries 0 g g.dsp [⟨p.act &&& psrc g 0 8, false, p.depth, p.gk, 0x1008, p.jp, 0⟩]).toOption.isSome) = true
    ∧ goesWith (ready (.joinpt 4)) (.joinpt 4) (fun g p => (g.path .b).isNone && decide (g.dsp + 1 ≤ g.divstack)
      && ((ready (.joinpt 4)).pushEntries 0 g g.dsp [⟨p.mask, true, p.depth, 0, 0x1008, p.jp, 0⟩]).toOption.isSome) = true
    ∧ issues .exit = true ∧ issues (.grd 3 1 8) = true := by decide +kernel

/-- May its trap be taken at once? -/
def trapsNow (g : Group) (_ : Path) : Bool := State.reset.trapReady g

/-- An answer to the group is outstanding. -/
def owedAnswer (g : Group) : Group := { g with answers := [40] }

theorem witness_DivergenceResults_pushes :
    let i := Instr.joinpt 4
    goesWith (edit both (ready i)) i (fun g p => match g.path .b with
      | some y => !y.isHeld && decide (g.dsp + 2 ≤ g.divstack) && ((edit both (ready i)).pushEntries 0 g g.dsp
          [⟨y.mask, false, y.depth, y.gk, y.pc, y.jp, 0⟩, ⟨p.mask, true, p.depth, 0, 0x1008, p.jp, 0⟩]).toOption.isSome
      | none => false) = true
    ∧ goesAt i (fun g => let h := both g
        { h with slotB := h.slotB.map fun y => { y with wait := .held .arrive } }) (fun g _ => g.slotB.any Path.isHeld) = true := by
  decide +kernel

theorem witness_ControlTraps :
    ([.jmp 0x20000, .call 0x20000 8, .ret 4, .bra 0x20000 8 0 0, .joinpt 0x20000] : List Instr).all (fun i =>
        goesAt i id trapsNow && goesAt i owedAnswer fun g p => !trapsNow g p) = true
    ∧ goesAt (.call 4 8) (slotA fun p => { p with depth := 255 }) trapsNow = true
    ∧ goesAt (.ret 4) (fun g => slotA (fun p => { p with depth := 1 }) (scalars 4 [1, 0] g))
        (fun g p => trapsNow g p && g.sr64 4 % 2 == 1) = true
    ∧ goesAt (.brx 4) (scalars 4 [1, 0]) (fun g p => trapsNow g p && g.sr64 4 % 2 == 1) = true
    ∧ goesAt (.bra 4 8 0 1) (fun g => g.setPred 8 0xFFFFFFFF 1) (fun g p =>
        trapsNow g p && p.act &&& psrc g 0 8 != 0 && p.act &&& ~~~psrc g 0 8 != 0) = true
    ∧ goesAt (.bra 4 8 0 0) (fun g => { both (g.setPred 8 0xFFFFFFFF 1) with divstack := 0 }) (fun g p =>
        trapsNow g p && p.act &&& psrc g 0 8 != 0 && p.act &&& ~~~psrc g 0 8 != 0) = true
    ∧ goesAt (.joinpt 4) (fun g => { g with divstack := 0 }) (fun g p => trapsNow g p && g.slotB.isNone) = true
    ∧ goesAt (.joinpt 4) (fun g => { both g with divstack := 1 }) (fun g p => trapsNow g p && g.slotB.any fun y => !y.isHeld) = true := by
  decide +kernel

/-- Lanes are active and the store queue has room. -/
def active (g : Group) (p : Path) : Bool := p.act != 0 && decide (g.queue.length < 16) && g.src 4 0 == 0 && g.sr64 16 == 0

theorem witness_GlobalAccessesEnterTranslation :
    ([.ldReg 4 8 0 4 2, .ldReg 4 8 1 6 4, .ldImm 4 8 0 4 2, .ldStrong 1 4 8 0 4 3, .stReg 4 8 0 4 2, .stImm 4 8 0 4 2,
      .stStrong 2 4 8 0 4 3, .atom 0 1 4 8 0 1 8, .atom 1 1 4 8 0 1 8, .updScalarBase 4 8 2 7, .updVectorBase 8 2 7,
      .collapse 8 0, .cctlClean 1 8 0, .cctlInv 1 8 0, .cctlClinv 1 8 0, .stld 4 8 0 6, .stld 0 8 1 6, .stst 4 8 0 6,
      .stst 0 8 1 6] : List Instr).all (fun i => goesAt i id active) = true := by decide +kernel

theorem witness_AccessCorners :
    goesAt (.sld 4 8 0) id (fun g _ => (BitVec.ofInt 64 ((g.sr64 8 : Int) + 16)).toNat % 4 == 0) = true
    ∧ goesAt (.waita 4 8 12) (scalars 8 [4, 0]) (fun g _ => g.sr64 8 == 4) = true
    ∧ goesAt (.launch 4 8) (scalars 4 [128, 0]) (fun g _ => g.sr64 4 == 128) = true
    ∧ goesAt (.tcopyIn 4 8 12) (scalars 8 [128, 0]) (fun g _ => g.sr64 8 == 128) = true
    ∧ goesAt (.tcopyOut 4 8 12) (scalars 8 [128, 0]) (fun g _ => g.sr64 8 == 128) = true
    ∧ goesAt (.subscr 6 2 3 1 10) (scalars 4 [64, 0, 262016]) (fun g _ => g.sr 6 == 262016 && g.sr64 4 == 64) = true
    ∧ ([.ldReg 4 8 0 4 2, .ldImm 4 8 0 4 2, .ldStrong 1 4 8 0 4 3, .stReg 4 8 0 4 2, .stImm 4 8 0 4 2, .stStrong 2 4 8 0 4 3,
        .atom 0 1 4 8 0 1 8, .updScalarBase 4 8 2 7, .updVectorBase 8 2 7, .stld 4 8 0 6, .stst 4 8 0 6, .collapse 8 0,
        .cctlClean 1 8 0, .cctlInv 1 8 0, .cctlClinv 1 8 0] : List Instr).all (fun i =>
        goesAt i (slotA fun p => { p with replay := some 0 }) fun _ p => p.act == 0) = true
    ∧ ([.ldReg 4 8 0 4 2, .ldImm 4 8 0 4 2, .ldStrong 1 4 8 0 4 3, .stReg 4 8 0 4 2, .stImm 4 8 0 4 2, .stStrong 2 4 8 0 4 3,
        .atom 0 1 4 8 0 1 8, .updScalarBase 4 8 2 7, .stld 4 8 0 6, .stst 4 8 0 6] : List Instr).all (fun i =>
        goesAt i (scalars 16 [2, 0]) fun g p => trapsNow g p && lane p.act 0 && g.src 4 0 == 0 && g.sr64 16 == 2) = true
    ∧ goesAt (.updVectorBase 8 2 7) (fill 16 2) (fun g p => trapsNow g p && lane p.act 0 && g.src64 16 0 % 4 == 2) = true
    ∧ ([.sld 4 8 0, .waita 4 8 12, .launch 8 4, .tcopyIn 4 8 12, .tcopyOut 4 8 12] : List Instr).all (fun i =>
        goesAt i (scalars 8 [2, 0]) fun g p => trapsNow g p && g.sr64 8 == 2) = true
    ∧ (([2, 65] : List Word).all fun w => goesAt (.subscr 6 2 3 1 10) (scalars 4 [64, 0, w]) fun g p =>
        trapsNow g p && g.sr 6 == w) = true
    ∧ goesAt (.subscr 6 2 3 1 10) (scalars 4 [64, 0, 0x80000000]) (fun g p => trapsNow g p && g.sr 6 == 0x80000000) = true := by
  decide +kernel

/-- The context of the path at the issue point with this many entries in its device queue, perhaps halting. -/
def queuedLaunches (n : Nat) (state : Byte) (i : Instr) : State :=
  let s := edit (slotA fun p => { p with wait := .held (.launch 5) }) (ready i)
  match s.group 0 with
  | some g => s.setContext g.ctx { s.context g.ctx with devq := List.replicate n ⟨5, 0, 1, 0⟩, state := state }
  | none => s

theorem witness_launch_held :
    let i := Instr.launch 4 8
    let holds := fun (s : State) (room opened : Bool) => goesWith s i fun g p =>
      p.wait == .held (.launch 5) && decide ((s.context g.ctx).devq.length < 64) == room && s.intakeOpen g.ctx == opened
    holds (queuedLaunches 0 1 i) true true = true ∧ holds (queuedLaunches 64 2 i) false false = true ∧ holds (queuedLaunches 64 1 i) false true = true := by
  decide +kernel

/-- A store that has not performed. -/
def unperformed : QEntry := .store [(64, [1])] 0 5

theorem witness_OrderingResults :
    ([.prefL1 8 0, .prefL2 8 0, .opfence] : List Instr).all (fun i => goesAt i id fun g _ => g.loads.isEmpty) = true
    ∧ goesWith (ready (.fence 1 4 0)) (.fence 1 4 0) (fun g _ => (ready (.fence 1 4 0)).acquired g) = true
    ∧ goesWith (ready (.fence 4 4 0)) (.fence 4 4 0) (fun g _ => (ready (.fence 4 4 0)).released g) = true
    ∧ goesAt (.fence 2 4 2) (fun g => { g with queue := [unperformed] }) (fun _ _ => true) = true
    ∧ goesAt (.fence 2 4 0) (fun g => { g with queue := [unperformed] })
        (fun g _ => !(ready (.fence 2 4 0)).released g) = true
    ∧ goesAt .opfence (fun g => { both g with slotB := some { entryPath 0 with mask := 0xFFFF0000, wait := .emptyLine 0 [0] 0 false false } })
        (fun g _ => g.slotB.any fun y => y.wait == .emptyLine 0 [0] 0 false false) = true := by decide +kernel

/-- The segment of the team at the issue point changed. -/
def editSegment (f : Segment → Segment) (s : State) : State :=
  match s.segment 0 0 with
  | some g => s.setSegment 0 0 (f g)
  | none => s

/-- A segment, the declared scratchpad at least a line, and perhaps its first line full. -/
def hasLine (s : State) (full : Bool) : Bool :=
  match s.team 0, s.segment 0 0 with
  | some t, some g => decide (128 ≤ t.scratch) && g.isFull 0 == full
  | _, _ => false

theorem witness_ScratchpadResults :
    (([.lds 0 0 4 4 2, .lds 0 1 4 4 2, .ldsTake 0 0 4 6 8] : List Instr).all fun i =>
      let s := editSegment (fun g => g.setFull 0 true) (edit (fill 4 112) (ready i))
      goesWith s i (fun g p => (lanesOf p.act).all fun l => g.src 4 l == 112) && hasLine s true) = true
    ∧ (([.sts 0 0 4 4 2, .sts 0 1 4 6 8, .spclear 0 0 4] : List Instr).all fun i =>
      let s := edit (fill 4 112) (ready i)
      goesWith s i (fun g p => (lanesOf p.act).all fun l => g.src 4 l == 112) && hasLine s false) = true
    ∧ (let s := edit (fill 4 127) (ready (.spfill 0 0 4))
      goesWith s (.spfill 0 0 4) (fun g p => p.act != 0 && s.released g) && hasLine s false) = true := by decide +kernel

theorem witness_ScratchpadStallsAndTraps :
    (([.lds 0 0 4 4 2, .ldsTake 0 0 4 6 8, .sts 0 0 4 4 2] : List Instr).all fun i =>
      ([0x80000000, 2] : List Word).all fun w => goesAt i (fill 4 w) fun g p => trapsNow g p && g.src 4 0 == w && lane p.act 0) = true
    ∧ (([.spfill 0 0 4, .spclear 0 0 4] : List Instr).all fun i =>
      goesAt i (fill 4 0x80000000) fun g p => trapsNow g p && g.src 4 0 == 0x80000000 && lane p.act 0) = true
    ∧ (let s := edit (fill 4 112) (ready (.ldsTake 0 0 4 6 8))
      goesWith s (.ldsTake 0 0 4 6 8) (fun g p => lane p.act 0 && g.src 4 0 == 112 && !s.acquiring g) && hasLine s false) = true
    ∧ (let s := edit (fill 4 112) (ready (.lds 0 0 4 4 2))
      goesWith s (.lds 0 0 4 4 2) (fun g p => lane p.act 0 && g.src 4 0 == 112 && !s.acquiring g) && hasLine s false) = true
    ∧ (let s := editSegment (fun g => g.setFull 0 true)
        (edit (fun g => (fill 4 112 g).setLanes 4 [(1, 240)]) (ready (.lds 0 0 4 4 2)))
      goesWith s (.lds 0 0 4 4 2) (fun g p => g.src 4 0 == 112 && g.src 4 1 == 240 && !s.acquiring g && lane p.act 1 && lane p.act 0
        && !p.isHeld && g.slotB.isNone && g.split.isNone) && hasLine s true
        && (s.segment 0 0).any fun g => !g.isFull 1) = true := by decide +kernel

/-- The team's barriers with barrier 3 as given. -/
def barrier3 (ac an : SMap Word) (s : State) : State :=
  match s.team 0 with
  | some t => s.setTeam 0 { t with bars := [(3, ⟨false, ac, an⟩)] }
  | none => s

theorem witness_BarrierResults :
    goesWith (ready (.barArv 3)) (.barArv 3) (fun g _ => (ready (.barArv 3)).released g) = true
    ∧ goesWith (barrier3 [(0, 1)] [(0, 1)] (ready (.barArv 3))) (.barArv 3) (fun g p => g.answers.isEmpty && p.mask &&& 1 != 0) = true
    ∧ goesWith (ready (.barWait 3)) (.barWait 3) (fun g _ => (ready (.barWait 3)).acquired g) = true
    ∧ goesWith (barrier3 [(0, 1)] [] (ready (.barWait 3))) (.barWait 3) (fun _ p => p.mask &&& 1 != 0) = true
    ∧ goesWith (ready (.barSync 3)) (.barSync 3) (fun g p => !p.inBarrier && (ready (.barSync 3)).released g) = true
    ∧ goesAt (.barSync 3) (slotA fun p => { p with wait := .barrier 3 })
        (fun g p => p.inBarrier && (ready (.barSync 3)).acquired g) = true
    ∧ (let b : Barrier := ⟨false, [(0, 0xFFFFFFFF), (1, 0xFFFF)], [(0, 1)]⟩
       let ex : SMap Word := [(1, 0xFFFF0000)]
       b.check 2 ex ≠ b ∧ b.check 3 ex = b)
    ∧ (let b : Barrier := ⟨false, [(0, 0xFFFFFFFF)], [(0, 0xFFFFFFFF)]⟩
       b.check 1 [] = ⟨false, [], []⟩) := by decide +kernel

theorem witness_EventAndMessageResults :
    ([.evset 6, .evclr 6] : List Instr).all (fun i => goesWith (ready i) i fun g _ => (ready i).released g) = true
    ∧ ([.evset 6, .sendam 1 6 12] : List Instr).all (fun i => goesAt i (fun g => { g with queue := [unperformed] })
        fun g _ => !(ready i).released g) = true
    ∧ goesAt (.evclr 6) (fun g => { both g with slotB := some { entryPath 0 with mask := 0xFFFF0000, wait := .held (.evset 1) } })
        (fun g _ => g.slotB.any fun y => y.wait == .held (.evset 1)) = true
    ∧ (let i := Instr.sendam 1 6 12
       goesWith (ready i) i (fun g _ => g.sr 6 == 0 && g.sr 7 == 0 && (ready i).released g && (ready i).dev == 0)
       && goesAt i (scalars 6 [0, 0x1000]) (fun g _ => (g.sr 7).extractLsb' 12 20 != 0)
       && (let s : State := { edit (scalars 6 [0x100, 0]) (ready i) with remotes := [(1, ⟨false, 0, []⟩)] }
           goesWith s i fun g _ => s.released g && !(s.remote 1).reachable && g.sr 6 == 0x100)) = true := by decide +kernel

theorem witness_SystemResults :
    ([.trap 3, .bkpt 3, .rdsys 0x010 6, .wrsys 0 6, .wrsys 0x010 6, .halt] : List Instr).all
      (fun i => goesAt i id fun g _ => g.answers.isEmpty) = true
    ∧ (let i := Instr.eret 6
       goesWith (ready i) i (fun g _ => g.sr 6 == 0 && g.status == .running)
       && (let t := edit (scalars 6 [1]) (ready i)
           match t.group 0 with
           | none => false
           | some g =>
             let s := t.setGroup 1 { g with status := .trapped, uid := 7 }
             goesWith s i fun g _ => g.sr 6 == 1 && (s.loadVirt 0 (s.asidOf g) (s.recordAddr g.ctx 0 1) 256).toOption.isSome)) = true
    ∧ (let i := Instr.tlbsd 0 4
       let s := edit (scalars 4 [65536, 0, 1, 1]) (ready i)
       goesWith s i (fun g _ => g.sr64 4 % 65536 == 0 && s.shootdowns.isEmpty)
       && goesWith (edit (slotA fun p => { p with wait := .held .plain }) { s with shootdowns := [⟨0, .a, 1, 65536, 65536, [], []⟩] }) i (fun g p => g.uid == 0 && p.isHeld)) = true
    ∧ goesWith (ready (.wrpeer 1 4)) (.wrpeer 1 4) (fun g _ => ((ready (.wrpeer 1 4)).segment g.team g.seg).isSome) = true := by
  decide +kernel

/-- Does an MXLOOP of one element in MODE `m`, its registers 4 and 5 holding format words, meet its hypotheses? -/
def loops (m k : Nat) : Bool :=
  let i := Instr.mxloop 4 4 1
  let s := edit (fun g => fill 4 20 (fill 5 20 (scalars 4 [0, 0, 0, 0, BitVec.ofNat 32 (k + m * 2 ^ 16), 0x10101, 0, 0] g))) (ready i)
  goesWith s i fun g p =>
    let c := Issuing i s g p none none
    let ws := g.block 4 8
    let narrow := loopMode g 4 == 0
    let vs := if narrow then [4, 5] else []
    let lp := loopOf ws (if narrow then c.agreed 4 else 0) (if narrow then c.agreed 5 else 0)
    let cfg := s.latestCfg 0 g.team g.seg 1
    let wide := fun (v : Nat) => if narrow then c.widest v else modeBits lp.mode
    decide ((s.core 0).matq.length < 8) && (s.segment g.team g.seg).isSome && decide (5 < g.vregs) && !c.vectorsBusy vs
    && goodLoop ws && ((lp.spans (wide 4) (wide 5) cfg).all fun y => decide (0 ≤ y.1) && decide (y.1 + (y.2 : Int) ≤ (c.spSize g.seg : Int)))
    && (c.vote vs).isNone && !lp.badPair cfg

/-- Does an MXEPI of one element with this output type and destination meet its hypotheses? -/
def epis (otype dest : Nat) : Bool :=
  let i := Instr.mxepi 4 4 1
  let s := editSegment (fun g => { g with peers := [(0, BitVec.ofNat 128 (2 ^ 127))] })
    (edit (fun g => fill 4 20 (scalars 4 [BitVec.ofNat 32 (dest + 4 * otype), 0, 0, 0x0101, 0, 0, 4, 0] g)) (ready i))
  goesWith s i fun g p =>
    let c := Issuing i s g p none none
    let ws := g.block 4 8
    let narrow := epiType g 4 == 3
    let vs := if narrow then [4] else []
    match s.segment g.team g.seg with
    | none => false
    | some seg =>
      let peer := SMap.getD seg.peers (bits (ws.getD 0 (0 : Word)).toNat 4 2) 0
      let ep := epiOf ws peer (if narrow then c.agreed 4 else 0)
      let ebits := if narrow then c.widest 4 else ep.elemBits
      (!narrow || ((NFmt.ofWord ep.fmt).blk == 0)) && !c.vectorsBusy vs && goodEpi ws ebits && (c.vote vs).isNone
      && ep.dest == dest && decide (ep.dlo + (ep.m - 1) * ep.stride + rowBytes ep.n ebits ≤ c.spSize g.seg)
      && peer.getLsbD 127

theorem witness_MatrixInstructionResults :
    goesWith (ready (.mxzero 1)) (.mxzero 1) (fun _ _ => decide (((ready (.mxzero 1)).core 0).matq.length < 8)) = true
    ∧ goesAt (.mxcfg 4 1) (scalars 4 [0x10100, 0x10001, 0x10001, 0x11110101, 0x0101])
        (fun g _ => goodUnfold (g.block 4 5)) = true
    ∧ goesAt (.mxrd 4 6 1) (scalars 6 [0x600 + 124]) (fun g _ => decide (4 + readCount (g.sr 6) ≤ g.vregs)
        && decide (124 + readCount (g.sr 6) ≤ 128)) = true
    ∧ loops 1 1 = true ∧ loops 0 1 = true ∧ epis 0 0 = true ∧ epis 3 0 = true ∧ epis 0 1 = true ∧ epis 0 2 = true := by decide +kernel

theorem witness_BatchAndSubscriptionResults :
    ([.bclose 1 6, .bwait 1 6, .bwait 0 6, .unsub 6, .subst 6 12] : List Instr).all
      (fun i => goesAt i id fun g _ => g.positions.isEmpty) = true
    ∧ goesAt (.bwait 1 6) (fun g => { scalars 6 [1] g with positions := [⟨5, 1, some 1⟩], batch := [(1, 1)] })
        (fun g _ => coversOpt (SMap.getD g.batch 1 0) (g.sr 6) (some 1)) = true := by decide +kernel

theorem witness_DecodeOfEncode : (Instr.iadd 4 8 0 2).size ≠ 0 := by decide

theorem witness_EncodeOfDecode :
    decode [0x01, 0x01, 0x22, 0x01, 0x55] = .ok (.iadd 4 68 0 2, [0x55]) ∧ (Instr.iadd 4 68 0 2).size ≠ 0 := by decide +kernel

/-- Is the path at the issue point of a state with one turn on its agenda about to fetch, as StepRunsDecoded and FetchTraps suppose,
and does `ok` hold of what it fetches? -/
def fetches (s : State) (ok : Path → Except XKind (Except Reject Instr) → Bool) : Bool :=
  let q : IssuePoint := ⟨0, 0, .a⟩
  let s0 : State := { s.tick.renew with agenda := [] }
  match s0.group q.key with
  | none => false
  | some g0 =>
    let g := s0.atBoundary g0
    let h : Group := { g with stop := none }
    let s1 : State := { s0.setGroup q.key h with cur := q }
    match g.path .a with
    | none => false
    | some p => s.agenda == [.issue q] && !s.thermtrip && s0.picks q && g0.status == .running && !s0.stopped g0 .a
        && !g.inIssue && g.inHand.isNone && g.mcheck.isEmpty && g.dueStep.isNone && g.mayIssue .a && s1.trapReady h
        && ok p ((s1.fetchFill q.core (s1.asidOf h) p.pc.toNat).codeAt q.core (s1.asidOf h) p.pc.toNat)

/-- Does it fetch an instruction? -/
def runs (i : Instr) : Bool :=
  fetches (ready i) fun p r => p.pc == 0x1000 && (match r with
    | .ok (.ok j) => decide (j = i)
    | _ => false)

theorem witness_StepRunsDecodedInstruction :
    ([.iadd 4 8 0 2, .mov16 3 2, .ldReg 4 8 0 4 2, .bra 4 8 0 0, .halt] : List Instr).all runs = true
    ∧ fetches (State.reset.placeCode [0x7F, 0, 0, 0]) (fun _ r => match r with
        | .ok (.error (.unassigned w)) => w == 0x7F
        | _ => false) = true
    ∧ fetches (editPath (fun p => { p with pc := 0x40000000 }) (ready .nop)) (fun p r => p.pc.toNat % 2 == 0 && match r with
        | .error _ => true
        | .ok _ => false) = true
    ∧ fetches (editPath (fun p => { p with pc := 0x1001 }) (ready .nop)) (fun p _ => p.pc.toNat % 2 == 1) = true := by
  decide +kernel

/-- The verdict on `i` with its group changed by `f`, when it is a trap: the cause. -/
def causes (i : Instr) (f : Group → Group) : Option Nat :=
  let s := edit f (ready i)
  match s.group 0 with
  | none => none
  | some g => match g.path .a with
    | none => none
    | some p => match s.verdict 0 g .a p i with
      | .trap t => if g.chain.isNone && g.loads.isEmpty && g.answers.isEmpty then some t.cause else none
      | .wait => some 0
      | .stop => some 0x100
      | .go _ _ => none

/-- One state for each check: a code and a guard that are illegal, what registers make illegal, latch, role, resource,
privilege, and an operand that has not arrived. -/
theorem witness_IssueChecks :
    [causes (.fadd 4 1 2 0 3) id, causes (.jmp 4) (slotA fun p => { p with gk := 1 }), causes (.eret 6) (scalars 6 [64]),
      causes (.iadd 124 8 0 2) id, causes (.tcopyIn 4 8 12) (fun g => { g with producer := false }),
      causes (.iadd 4 8 0 20) (fun g => { g with vregs := 20 }), causes (.eret 6) (fun g => { g with priv := .user }),
      causes (.iadd 4 8 0 2) (fun g => { g with loads := [⟨0, .a, .vector 4 4, [⟨0, 0, none⟩]⟩] }),
      causes (.iadd 124 8 0 2) (fun g =>
        { both g with split := some 0, slotB := some { entryPath 0 with mask := 0xFFFF0000, wait := .emptyLine 0 [0] 0 false false } })]
    = [some 2, some 2, some 2, some 3, some 4, some 5, some 6, some 0, some 0x100] := by decide +kernel

/-- A trap of the placed group at U can be recorded, and at S nothing of it is outstanding. -/
theorem witness_TrapEntry :
    (let s := edit (fun g => { g with priv := .user }) (ready .nop)
     decide (s.landAll 0 = s) && match s.group 0 with
      | some g => g.priv == .user && (s.storeVirt 0 (s.asidOf g) ((s.context g.ctx).trbase.toNat + 0)
          ((Trap.of 0x08).record g .a g.split.isSome)).isSome && (g.path .a).isSome && decide (g.dsp < 256)
      | none => false) = true
    ∧ (decide ((ready .nop).landAll 0 = ready .nop) && match (ready .nop).group 0 with
      | some g => g.priv == .supervisor && ((ready .nop).context g.ctx).state == 1
      | none => false) = true := by decide +kernel

theorem witness_StackEntryBytes :
    let e : StackEntry := ⟨0xF0, true, 255, 255, 0x00FFFFFFFFFFFFFE, some 0x00FFFFFFFFFFFFFE, 0xFFFF⟩
    e.gk < 256 ∧ e.jp ≠ some 0x00FFFFFFFFFFFFFF ∧ e.bytes.length = 64 := by decide +kernel

theorem witness_StepKeepsMemoryForm :
    Memory.wf (ready .nop).mem = true ∧ (match step (ready .nop) with | .next _ => true | _ => false) = true := by decide +kernel

theorem witness_FloatLaws : (F32.decode 0x3F800000).isNan = false ∧ 0x3F800000 < 2 ^ F32.width := by decide +kernel

/-- Each case of the zero-sign rule: an operand that is finite and not zero, and an FFMA whose sum is exactly zero. -/
theorem witness_ZeroSignRule :
    F32.decode 0x3F800000 = .fin false 0x800000 (-23) ∧ F32.decode 0xBF800000 = .fin true 0x800000 (-23)
    ∧ F32.decode 0x80000000 = .fin true 0 (-149)
    ∧ 0x800000 * 0x800000 * 2 ^ ((-23 : Int) + -23 - min (-23 + -23) (-23)).toNat
      = 0x800000 * 2 ^ ((-23 : Int) - min (-23 + -23) (-23)).toNat := by decide +kernel

theorem witness_WaitingPathReturns :
    (match (ready .nop).group 0 with
      | some g => match (ready .nop).pushEntries 0 g 0 [⟨0xF0, false, 2, 3, 0x1010, some 0x1020, 7⟩] with
        | .ok m => (m.stackTop { g with dsp := 1 }).any (fun e => !e.join && e.mask == 0xF0) && g.slotB.isNone && g.split.isNone
            && (slotA (fun p => { p with jp := some p.pc }) g).slotA.any fun p => p.jp == some p.pc && !p.isHeld
        | .error _ => false
      | none => false) = true := by decide +kernel

/-! ### Events -/

/-- The machine with a running group and nothing for it to do. -/
def base : State := ready .nop

/-- Its group. -/
def baseGroup : Group := (base.group 0).getD (placedGroup 0 0)

/-- Its group changed. -/
def withGroup (f : Group → Group) : State := edit f base

/-- The group of a state, when something holds of it. -/
def groupHas (s : State) (h : Group → Bool) : Bool :=
  match s.group (groupKey 0 0) with
  | some g => h g
  | none => false

/-- A wave split whose slot B waits. -/
def splitOn (w : Wait) (g : Group) : Group :=
  { both g with split := some 0, slotB := some { entryPath 0 with mask := 0xFFFF0000, wait := w } }

theorem witness_WakeRules :
    groupHas (withGroup (slotA fun p => { p with wait := .held .fence })) (fun g => g.slotA.isSome) = true
    ∧ (let s : State := { withGroup (fun g => { slotA (fun p => { p with wait := .emptyLine 0 [3] 5 false false }) g with gstat := 0x01000000 })
         with now := 5 + 2 ^ 10 + 1 }
       groupHas s (fun g => g.status == .running && g.freeze == Freeze.none && g.answers.isEmpty
         && (g.gstat.extractLsb' 24 4).toNat == 1 && decide (5 + 2 ^ (1 + 9) < s.now)) = true
       ∧ (s.segment 0 0).map (fun x => x.isFull 3) = some false)
    ∧ (let s : State := { withGroup (fun g => { splitOn (.emptyLine 0 [3] 5 false false) g with gstat := 0x01000000 }) with now := 5 + 2 ^ 10 + 1 }
       groupHas s (fun g => g.answers.isEmpty && !s.trapReady g && g.slotA.any (fun p => !p.onEmptyLine) && g.slotB.isSome) = true
       ∧ (s.segment 0 0).map (fun x => x.isFull 3) = some false) := by decide +kernel

/-- A parked WAITA of a word at `a`. -/
def parkedAt (a : Nat) (timeout : Option Nat) : Wait := .parked ⟨12, a, a + 2 ^ 56, 7, timeout, 0, 0⟩

theorem witness_WaitaChecks :
    (let s := withGroup (slotA fun p => { p with wait := parkedAt 0x4000 (some 0) })
     groupHas s (fun g => g.status == .running && g.freeze == Freeze.none && g.answers.isEmpty
       && (match s.loadVirt 0 (s.asidOf g) 0x4000 4 with
           | .ok (s1, bs) => decide (s1.group 0 = some g) && ofBytes bs == 0
           | .error _ => false)
       && s.checkDue 0 ⟨12, 0x4000, 0x4000 + 2 ^ 56, 7, some 0, 0, 0⟩)) = true
    ∧ (let s := withGroup (slotA fun p => { p with wait := parkedAt (2 ^ 40) none })
       groupHas s (fun g => g.answers.isEmpty && s.checkDue 0 ⟨12, 2 ^ 40, 2 ^ 40 + 2 ^ 56, 7, none, 0, 0⟩
         && (match s.loadVirt 0 (s.asidOf g) (2 ^ 40) 4 with | .ok _ => false | .error _ => true))) = true := by decide +kernel

/-- The placed group with an access at these addresses of its lanes pending. -/
def pendingAccess (op : MemOp) (ls : List (Nat × Nat)) : State :=
  withGroup fun g => { g with status := .translation, pending := some ⟨.a, 0x1000, ls, op, 0⟩ }

/-- The machine once its requests have been noted and what must come before the load has performed. -/
def before (s : State) (g : Group) (op : MemOp) (ls : List (Nat × Nat)) (all : Bool) : State :=
  let t := (s.takeRefusals (s.context g.ctx).dctag.toNat ls).noteAll 0 (s.asidOf g) op ls
  t.ordered 0 (all || !t.acquired g)

/-- May the access be answered, with a group when it is, and do its lanes reach their addresses as `ok` says? -/
def passesAll (op : MemOp) (ls : List (Nat × Nat)) (ok : Nat → Bool) : Bool :=
  let s := pendingAccess op ls
  groupHas s fun g => s.trapReady g && ((before s g op ls true).group 0).isSome && ((before s g op ls false).group 0).isSome
    && ls.all fun e => (s.reach 0 (s.asidOf g) op e.2).toOption.isSome == ok e.1

/-- The placed group with a load in Translation that hits in lane 0 and misses in lane 1. -/
def halfHit : State :=
  (pendingAccess (.load 4 2) [(0, 0x4000), (1, 0x8000)]).setCache 0 ⟨[⟨(2 ^ 56 + 0x4000) / 128, [(0, (.s, 0))], true, true⟩], [], 0⟩

theorem witness_AcceptedAccesses :
    ([.store 4 2, .storeStrong 4 2 2 5, .stst 6, .atom 0 false 2 4 5, .load 4 2, .loadStrong 4 2 1 5, .loadStrong 4 2 4 5, .stld 6,
      .sld 8] : List MemOp).all (fun op => passesAll op [(0, 0x4000), (31, 0x3FFFFFF0)] (fun _ => true)
        && passesAll op [(0, 0x4000), (31, 2 ^ 30)] (fun l => l == 0)) = true
    ∧ groupHas halfHit (fun g =>
      let u := before halfHit g (.load 4 2) [(0, 0x4000), (1, 0x8000)] false
      u.hits 0 ((2 ^ 56 + 0x4000) / 32) && !u.hits 0 ((2 ^ 56 + 0x8000) / 32)
        && (match u.group 0 with
          | some h => h.slotA.isSome && h.slotB.isNone && h.split.isNone
          | none => false)) = true := by decide +kernel

theorem witness_LoadsAndStores :
    groupHas (withGroup fun g => { splitOn .missData g with
        loads := [⟨0x1000, .b, .vector 2 4, [⟨0, 0x4000 + 2 ^ 56, none⟩]⟩, ⟨0x1000, .b, .vector 3 4, [⟨0, 0x4000 + 2 ^ 56, none⟩]⟩] })
      (fun g => match g.loads with
        | _ :: r => r.any (fun y => y.slot == .b) && g.slotB.any fun p => p.wait == .missData
        | [] => false) = true
    ∧ groupHas (withGroup fun g => { g with queue := [unperformed] })
      (fun g => !base.farPending g.uid && !base.entryFar unperformed) = true
    ∧ (let s := { withGroup fun g => { g with queue := [.atom 0 false 2 [⟨0x1000, .a, 0, 64, 0, 1⟩] 4 5] } with
        net := [.far 1 baseGroup.uid (.upd .addW32 64 [1])] }.setCollapse 17 (some ⟨17, .addW32, [0], [], [], some baseGroup.uid⟩)
       groupHas s fun g => g.queue.all QEntry.isRelease && s.farPending g.uid && !(s.forcedBy g.uid).isEmpty) = true
    ∧ (let s := base.setCache 0 ⟨[⟨4, [(1, (.m, 5))], true, true⟩], [], 0⟩
       (s.cache 0).sector 17 = some (.m, 5) ∧ s.subscribed 17 = false ∧ (17 * 32 + 31) / 32 = 17 ∧ (17 * 32 + 31) % 32 + 1 ≤ 32) := by
  decide +kernel

/-- A trapped group whose service waits. -/
def trapWaits (tsvc : DWord) : State :=
  let s := withGroup fun g => { g with status := .trapped, svcPend := true, cause := 8 }
  (s.setCore 0 { s.core 0 with trapq := [0] }).setContext 0 { s.context 0 with tsvc := tsvc }

theorem witness_ServiceAndFetchTraps :
    (let s := trapWaits 0
     (s.core 0).trapq = [0] ∧ s.group (groupKey 0 64) = none
     ∧ groupHas s (fun g => g.status == .trapped && g.svcPend && (s.context g.ctx).tsvc == 0) = true)
    ∧ (let s := trapWaits 0x2000
       groupHas s (fun g => match (s.setCore 0 { s.core 0 with trapq := [] }).loadVirt 0 (s.asidOf g) 0x2000 64 with
         | .ok (_, bs) => !goodService bs
         | .error _ => false) = true)
    ∧ (let s := { trapWaits 0x2000 with mem := Memory.writeN base.mem 0x2000 (layout 64 [(0, 0x314B4C47), (4, 1), (6, 1), (7, 1), (8, 6)]) }
       groupHas s (fun g => match (s.setCore 0 { s.core 0 with trapq := [] }).loadVirt 0 (s.asidOf g) 0x2000 64 with
         | .ok (t, bs) => goodService bs && decide (t.context g.ctx = s.context g.ctx)
         | .error _ => false) = true)
    ∧ groupHas (withGroup fun g => { g with mcheck := [(0x1000, .a, 0x4000)] })
        (fun g => !g.mcheck.isEmpty && g.status == .running && !g.inIssue && base.trapReady g) = true
    ∧ groupHas base (fun g => base.trapReady g && g.status == .running && !g.inIssue && g.mayIssue .a) = true := by decide +kernel

/-- The placed group with one access at `va` pending. -/
def oneAccess (op : MemOp) (va : Nat) : Bool := passesAll op [(0, va)] fun _ => true

theorem witness_AcceptedSystemAccesses :
    ([.upd 1 2, .upd 11 2, .collapse, .cctl 3 1, .waita 12 7 0, .waita 12 0 5, .subscr 10 3 8 true, .tcopy false 12 20,
      .tcopy true 12 20, .launch 8, .mxepi 1 (epiOf [0x1, 0, 0, 0x0101, 0x4000, 0, 4, 0] 0 0)] : List MemOp).all
      (fun op => oneAccess op 0x4000) = true
    ∧ base.updatesAtHome (0x4000 + 2 ^ 56) = false
    ∧ (let s := base.setCache 0 ⟨[⟨4, [(1, (.u .addW32, 5))], true, true⟩], [], 0⟩
       (s.cache 0).sector 17 = some (.u .addW32, 5) ∧ s.collapseRec 17 = none)
    ∧ (base.segment 0 0).map (fun g => SMap.has g.bound 3) = some false
    ∧ ((editSegment (fun g => { g with bound := [(3, ⟨none, true, 0, 0, none, false, false, 0x4000 + 2 ^ 56, 8⟩)] }) base).segment 0 0).map
        (fun g => SMap.has g.bound 3) = some true := by decide +kernel

/-- A matrix position of the placed team at the head of core 0's queue. -/
def matFirst (op : MatOp) (after : List MatPos) : State :=
  base.setCore 0 { base.core 0 with matq := ⟨5, 0, 0, 0, 1, op, []⟩ :: after }

/-- A loop of one element with a step left. -/
def oneLoop (left : Nat) : LoopCtl := loopOf [0, 0, 0, 0, BitVec.ofNat 32 (left + 2 ^ 16), 0x10101, 0, 0] 0 0

theorem witness_MatrixUnitRules :
    ([.config [0, 0, 0, 0, 0], .zero, .read 4 0 0 1 1, .loop (oneLoop 1), .loop (oneLoop 2)] : List MatOp).all (fun op =>
      let s := matFirst op []
      (s.core 0).matq == [⟨5, 0, 0, 0, 1, op, []⟩] && (s.segment 0 0).isSome && !s.engineStopped 0 1) = true
    ∧ [0, 1, 2].all (fun d =>
      let c := epiOf [BitVec.ofNat 32 d, 0, 0, 0x0101, 0x4000, 0, 4, 0] 0 0
      let s := matFirst (.epilogue c) []
      c.dest == d && !c.clear && (s.segment 0 0).isSome && !s.engineStopped 0 1) = true
    ∧ (let g := (((base.segment 0 0).getD (Segment.start 0 1)).setFull 0 true)
       (oneLoop 1).fetched g (g.unfold 1) = true ∧ (oneLoop 1).fetched (g.setFull 0 false) (g.unfold 1) = false
       ∧ (oneLoop 1).left ≤ 1 ∧ 1 < (oneLoop 2).left ∧ (oneLoop 1).m ≤ 128 ∧ (oneLoop 1).n ≤ 128) := by decide +kernel

/-- A copy of the placed team, its first in its direction. -/
def oneCopy (out : Bool) (lines : List Nat) : CopyJob :=
  ⟨5, 0, 0, 0, 0, out, Shape.ofBytes (List.replicate 128 0), 0, 0, 0, 0, 0, [], [], lines, 0, [], []⟩

/-- The machine with that copy. -/
def copies (j : CopyJob) : State := base.setCore 0 { base.core 0 with copies := [j] }

theorem witness_CopyStreamerRules :
    [[3], [3, 4]].all (fun ls =>
      let j := oneCopy false ls
      let s := copies j
      (s.core 0).copies == [j] && !s.engineStopped 0 2 && ((s.copyLine 0 j 3).segment 0 0).isSome) = true
    ∧ (let j := oneCopy true []
       ((copies j).core 0).copies = [j] ∧ (copies j).engineStopped 0 2 = false) := by decide +kernel

/-- Does the placed group complete a barrier instruction alone: is no phase open for its lanes after `f` of barrier 3? -/
def barrierAlone (i : Instr) (inside : Bool) (f : State → Group → Path → Barrier → Barrier) : Bool :=
  let s := edit (slotA fun p => if inside then { p with wait := .barrier 3 } else p) (ready i)
  goesWith s i fun g p => match s.team g.team with
    | some tm =>
      let b := f s g p (tm.barrier 3)
      s.released g && s.acquired g && p.inBarrier == inside
      && p.mask &&& (SMap.getD b.ac g.grpid 0 ||| SMap.getD b.an g.grpid 0) == 0
    | none => false

theorem witness_BarrierAndWakeCompletions :
    barrierAlone (.barArv 3) false (fun _ _ _ b => b) = true ∧ barrierAlone (.barWait 3) false (fun _ _ _ b => b) = true
    ∧ barrierAlone (.barSync 3) false (fun s g p b => (b.arrive g.grpid p.mask).check 1 (s.exMasks g.team)) = true
    ∧ barrierAlone (.barSync 3) true (fun _ _ _ b => b) = true
    ∧ (let s := withGroup (slotA fun p => { p with wait := .operand })
       groupHas s fun g => g.slotB.isNone && decide (g.queue.length < 16) && (match g.slotA with
         | some p => (match s.codeAt 0 (s.asidOf g) p.pc.toNat with
           | .ok (.ok i) => !s.registersBusy g p i
           | _ => false)
         | none => false)) = true
    ∧ (let s := editSegment (fun g => g.setFull 3 true) (withGroup (slotA fun p => { p with wait := .emptyLine 0 [3] 5 false false }))
       groupHas s (fun g => g.slotB.isNone) = true ∧ (s.segment 0 0).map (fun x => x.isFull 3) = some true) := by decide +kernel

/-- A packet of one team of one group in the placed context, its kernel at 0x2000. -/
def onePacket : BitVec 1024 := handlerPacket 1 0x2000 ⟨1, 1, 6, 0, 0, 0, 0, false, 0⟩

/-- Its kernel header. -/
def oneHeader : List Byte := layout 64 [(0, 0x314B4C47), (4, 1), (6, 1), (7, 1), (8, 6)]

/-- The machine with that kernel in memory and the placed context changed. -/
def withContext (f : Context → Context) : State :=
  { base.setContext 0 (f (base.context 0)) with mem := Memory.writeN base.mem 0x2000 oneHeader }

/-- A launch of the packet. -/
def oneLaunch (st : LState) (next : Nat) : Launch := ⟨3, onePacket, .device, st, true, next, 0, 0⟩

/-- The machine with a packet at the head of a host queue of port 0 whose entries lie at `a`. -/
def hostPacket (a : DWord) : State :=
  let s := withContext id
  let s1 := s.setPort 0 { s.port 0 with hostMem := SMap.putAll 0 [] (number 0x1000 (toBytes 128 onePacket.toNat)) }
  s1.setQueue 0 2 ⟨a, 0x8000, 0x80000004, 1, 0, 0, 0⟩

theorem witness_LaunchRules :
    (let s := withContext fun c => { c with devq := [⟨onePacket, 0, 12, 0⟩] }
     s.heads 0 = [(0, none)] ∧ s.intakeOpen 0 = true ∧ (s.context 0).devq = [⟨onePacket, 0, 12, 0⟩]
     ∧ ((s.setContext 0 { s.context 0 with devq := [] }).checkPacket 0 false onePacket).2 = 0
     ∧ ((s.setContext 0 { s.context 0 with devq := [] }).checkPacket 0 false 0).2 ≠ 0)
    ∧ (let s := hostPacket 0x1000
       s.heads 0 = [(0, some (0, 2))] ∧ s.intakeOpen 0 = true
       ∧ (match s.readEntry 0 ((s.port 0).queue 2) with
          | some (s1, bs) => (s1.checkPacket 0 true (BitVec.ofNat 1024 (ofBytes bs))).2 == 0
          | none => false) = true)
    ∧ (let s := (hostPacket 0x1000).setQueue 0 2 ⟨2 ^ 40, 0x8000, 0xC0000004, 1, 0, 0, 0⟩
       s.heads 0 = [(0, some (0, 2))] ∧ (s.readEntry 0 ((s.port 0).queue 2)).isNone)
    ∧ (withContext fun c => { c with state := 2, devq := [⟨onePacket, 0, 12, 0⟩] }).intakeOpen 0 = false
    ∧ smaller 0xFFFFFFFF 0 = true ∧ smaller 0 0x80000000 = false
    ∧ (let l := oneLaunch .blocked 0
       ({ base.context 0 with launches := [l] } : Context).launches[0]? = some l ∧ l.eligible = true) := by decide +kernel

theorem witness_PlacementRules :
    (let s := withContext fun c => { c with launches := [oneLaunch .active 0] }
     s.works.map (fun w => (w.ctx, w.launch.num, s.siteOf w)) = [(0, 3, some ([32], []))]
     ∧ s.fitsDevice (0, 3) onePacket = some [32] ∧ s.segFits onePacket 0 32 = true)
    ∧ (withContext id).works.isEmpty
    ∧ (let t := withContext fun c => { c with launches := [oneLaunch .active 0] }
       let s := { t with reserved := ((run 1 7).map fun k => (k, (5, 5))), groups := [], teams :=
         ((run 0 32).map fun k => (k, { placedTeam with segs := [(0, Segment.start k 1)], fused := true })) }
       s.works.map (fun w => (w.ctx, w.launch.num, (s.siteOf w).isNone)) = [(0, 3, true)]
       ∧ s.waiters 0 3 = [(0, (0, 3))] ∧ s.awaiting = [] ∧ SMap.has s.reserved 0 = false
       ∧ ({ s with reserved := (0, (5, 5)) :: s.reserved } : State).waiters 0 3 = [(0, (0, 3))])
    ∧ (let s := withContext fun c => { c with launches := [oneLaunch .active 1] }
       let s1 : State := { s with teams := [] }
       (s1.context 0).launches = [oneLaunch .active 1] ∧ gridTeams onePacket = 1 ∧ s1.teams.isEmpty) := by decide +kernel

/-- A handler job of the placed context. -/
def oneJob : HandlerJob := ⟨0, handlerPacket 1 0x2000 ⟨1, 1, 10, 0, 0, 0, 0, false, 0⟩, [1, 2], 3, 4⟩

theorem witness_StartRules :
    let s := base.setCore 1 { base.core 1 with msgq := [oneJob] }
    (s.core 1).msgq = [oneJob] ∧ s.handlerFits 1 oneJob = true ∧ s.freeSlot 1 = some 0 ∧ s.handlerArena oneJob = some []
    ∧ (s.context 0).state = 1 ∧ (Header.ofPacket oneJob.packet).divstack = 0 ∧ 1 / 4 ∉ s.fusedClusters := by decide +kernel

/-- The machine with a pre-emption of the placed team and its classes acknowledged. -/
def preempting (acks : List Nat) (restartable : Bool) : State :=
  { base.setTeam 0 { placedTeam with restartable := restartable } with preempts := [⟨0, acks, none, none⟩] }

theorem witness_PreemptionSteps :
    (base.team 0).map (fun x => x.saved.isNone && !x.restart && base.preempts.isEmpty) = some true
    ∧ (base.teamGroups 0).all (fun e => e.2.status == .running) = true ∧ (base.teamGroups 0).length = 1
    ∧ (preempting [] true).classStopped 0 0 = true
    ∧ [(true, true), (false, false)].all (fun r =>
        let s := preempting [0, 1, 2, 3, 4, 5] r.1
        s.teamQuiet 0 && ((s.team 0).map fun x => x.restartable) == some r.1
        && (s.teamGroups 0).all fun e => e.2.status != .trapped) = true
    ∧ (let s := { (withGroup fun g => { g with status := .done }) with preempts := [⟨0, [], none, none⟩] }
       (s.teamGroups 0).all (fun e => e.2.status == .done) = true) := by decide +kernel

/-- A team without segments: its image is its header. -/
def emptyTeam : Team := { placedTeam with segs := [] }

/-- The machine with that team and save slots of a size at an address. -/
def savable (slots size : Word) (at_ : DWord) : State :=
  { ((withContext fun c => { c with saveslots := slots, saveslotsz := size, savebase := at_ }).setTeam 0 emptyTeam) with
    groups := [], preempts := [⟨0, [0, 1, 2, 3, 4, 5], none, none⟩] }

theorem witness_SaveAndRestoreRules :
    (let s := savable 2 256 0x3000000
     ((s.context 0).saveSlot, (s.imageOf 0 emptyTeam).length) = (some 0, 256)
     ∧ (match s.homeWriteRun 1 0x3000000 (s.imageOf 0 emptyTeam) with | .ok _ => true | .error _ => false) = true)
    ∧ ((savable 0 256 0x3000000).context 0).saveSlot = none
    ∧ (255 : Word).toNat < ((savable 2 255 0x3000000).imageOf 0 emptyTeam).length
    ∧ (let s := savable 2 256 0x40000000
       (match s.homeWriteRun 1 0x40000000 (s.imageOf 0 emptyTeam) with | .ok _ => false | .error _ => true) = true)
    ∧ (let s := (savable 2 256 0x3000000).setTeam 0 { emptyTeam with saved := some 0 }
       (s.team 0).map (fun x => x.saved) = some (some 0) ∧ (match s.team 0, s.fitsDevice (savedOwner 0) 0 with
          | some x, some cores => s.queuesFit x cores && s.mayRestore 0 x
          | _, _ => false) = true
       ∧ (match s.homeLoad 1 0x3000000 256 with | .ok (_, img) => img.length == 256 | .error _ => false) = true) := by
  decide +kernel

/-- An active message to core 1 of the placed context. -/
def oneMessage : ActiveMsg := ⟨0, 1, 0, [7], 2, 0, 9, 12, 0⟩

/-- The machine with a message next and the handler table at 0x3000 with one entry. -/
def messages (ms : List Msg) (size : Word) (queued : Nat) : State :=
  let s := withContext fun c => { c with htb := 0x3000, htsize := size }
  { s.setCore 1 { s.core 1 with msgq := List.replicate queued oneJob } with
    net := ms
    mem := Memory.writeN (Memory.writeN s.mem 0x3000 (toBytes 16 (0x2000 + 2 ^ 63))) 0x2000
      (layout 64 [(0, 0x314B4C47), (4, 1), (6, 1), (7, 1), (8, 10)]) }

theorem witness_ActiveMessages :
    [(1, 0), (1, 15), (1, 16)].all (fun e =>
      let s := messages [.active oneMessage] e.1 e.2
      let t : State := { s with net := [] }
      t.messageCtx oneMessage == some 0
      && (let r := t.handlerOf 0 1 0
          r.2.isSome && (r.1.core 1).msgq.length == e.2)) = true
    ∧ ((messages [] 0 0).handlerOf 0 1 0).2 = none
    ∧ (messages [] 1 0).messageCtx { oneMessage with srcDev := 1 } = none
    ∧ (({ base with net := [.active { oneMessage with handler := 5 }, .active oneMessage] } : State).takeOrdered Msg.isActive 1).isNone := by
  decide +kernel

/-- A request to subscribe a segment's line to a block. -/
def oneRequest (va : Nat) : SubReq := ⟨0, 0, 0, 0, 0, 12, 0, 0, 3, 1, va, 8, true, 5⟩

/-- An entry it makes. -/
def oneEntry (strict : Bool) (held : List Push) (state : SubState) : SubEntry :=
  { newEntry (oneRequest 0x4000) 1 0 1 with strict := strict, held := held, state := state }

theorem witness_SubscriptionRules :
    (match base.keyPlace (secKey 1 0x4000) with | some (.vault _) => true | _ => false) = true
    ∧ (let h := homeOf (secKey 1 0x4000)
       (base.slice h).freeEntry = some 0)
    ∧ base.away 0 = false ∧ (base.setTeam 0 { placedTeam with saved := some 0 }).away 0 = true
    ∧ (let p : Push := ⟨List.replicate 64 1, 5, 0, 9⟩
       p.data.length ≤ 64 ∧ (oneEntry true [p] .lapsePending).held = [p] ∧ (oneEntry true [p, p] .lapsePending).strict = true
       ∧ (oneEntry false [] .active).strict = false ∧ (oneEntry true [] .active).gen = 1) := by decide +kernel

/-- The key of the sector at 0x4000 of the placed address space. -/
def oneKey : Nat := secKey 1 0x4000

/-- A second group on core 1, as the first but for what `f` changes. -/
def withOther (f : Group → Group) : State := base.setGroup 128 (f { baseGroup with uid := 7 })

/-- The machine whose core 1 waits to read the sector that core 0 holds in a state. -/
def readElsewhere (st : SecState) : State :=
  (withOther fun g => { g with loads := [⟨0x1000, .a, .vector 2 4, [⟨0, 0x4000 + 2 ^ 56, none⟩]⟩] }).setCache 0
    ((Cache.empty).put oneKey st 5)

/-- The machine whose core 1 waits to write it. -/
def writtenElsewhere (st : SecState) : State :=
  (withOther fun g => { g with queue := [.store [(0x4000 + 2 ^ 56, [1])] 0 5] }).setCache 0 ((Cache.empty).put oneKey st 5)

/-- The machine whose pages let other devices in, device 1 in the set of the context, whose tag is 7 (09 Table 9-7, 11 R337). -/
def letIn : State :=
  { base with mem := Memory.writeN base.mem 0x40002000 (toBytes 8 0x21F)
              contexts := SMap.insert base.contexts 0 { base.context 0 with devset := 3, dctag := 7 } }

/-- The placed tables with an entry at the 1 GiB level for 0x40000000 that names a table at 0x40003000 with this entry. -/
def mapped (e : Nat) : State :=
  { base with mem := Memory.writeN (Memory.writeN base.mem 0x40002008 (tableEntry 0x40003000)) 0x40003000 (toBytes 8 e) }

theorem witness_CoherenceRequests :
    (base.translate 1 0x4000 needR).toOption.isSome = true ∧ (base.translate 1 0x4000 needW).toOption.isSome = true
    ∧ (base.translate 1 (2 ^ 30) needW).toOption.isNone = true
    ∧ (readElsewhere .m).wantsRead 1 oneKey = true ∧ base.wantsRead 1 oneKey = false
    ∧ (writtenElsewhere .m).wantsWrite 1 oneKey = true ∧ base.wantsWrite 1 oneKey = false
    ∧ (writtenElsewhere .m).wantsStore 1 oneKey = true ∧ base.wantsStore 1 oneKey = false ∧ base.localCache 0 = 0
    ∧ base.localCache 768 = 1280 ∧ (match base.lookupAbroad 7 0x4000 needR with | .error k => k == .notMapped | .ok _ => false) = true
    ∧ (match letIn.lookupAbroad 7 0x4000 needW with | .ok t => letIn.sharesLine 1280 t && !letIn.sharesLine 1281 t | .error _ => false) = true
    ∧ (base.remote 1).reachable = true ∧ (readElsewhere .m).reader 0 oneKey = some 1 ∧ base.reader 0 oneKey = none
    ∧ (readElsewhere .m).answering 0 oneKey 0 = true
    ∧ (let s := mapped (0x1F + 2 ^ 56)
       let key := s.tagFor 1 0x40000000 / 32
       s.fromAbroad 256 key = true ∧ s.fromAbroad 0 key = false ∧ s.uOp key = none ∧ s.reader 256 key = none
       ∧ ((s.setCache 256 ((Cache.empty).put key .e 5)).holders key).any fun h => h.1 == 256 && h.2.1 == .e)
    ∧ letIn.subscribed oneKey = false
    ∧ ((base.setCache 0 { Cache.empty with wbuf := [(oneKey, (5, false))] }).cache 0).sector oneKey = none
    ∧ ((pendingAccess (.upd 1 2) [(0, 0x4000)]).groupsOf 0).any (fun g => base.pendingAt g (MemOp.updates .addW32) oneKey) = true
    ∧ base.updatesAtHome (0x4000 + 2 ^ 56) = false ∧ (base.cache 0).sector oneKey = none
    ∧ [SecState.m, .e].all (fun st => (readElsewhere st).tagFor 1 0x4000 / 32 == oneKey
        && ((readElsewhere st).cache 0).sector oneKey == some (st, 5)
        && (readElsewhere st).groups.any fun e => (readElsewhere st).cacheOf (e.1 / 128) != 0
          && (readElsewhere st).wantsRead ((readElsewhere st).cacheOf (e.1 / 128)) oneKey) = true
    ∧ [SecState.m, .e, .s].all (fun st => ((writtenElsewhere st).cache 0).sector oneKey == some (st, 5)
        && (writtenElsewhere st).groups.any fun e => (writtenElsewhere st).cacheOf (e.1 / 128) != 0
          && (writtenElsewhere st).wantsWrite ((writtenElsewhere st).cacheOf (e.1 / 128)) oneKey) = true := by decide +kernel

/-- A collapse of the sector in progress at its home. -/
def collapsing (asked : List Nat) (copies : SMap SectorData) : State :=
  base.setCollapse oneKey (some ⟨oneKey, .addW32, asked, copies, [], none⟩)

theorem witness_CollapseRules :
    (let s := base.setCache 0 { Cache.empty with wbuf := [(oneKey, (5, false)), (oneKey + 1, (6, true))] }
     (s.cache 0).wbuf = [] ++ (oneKey, 5, false) :: [(oneKey + 1, (6, true))])
    ∧ ((collapsing [0] []).collapseRec oneKey).isSome
    ∧ (let s := (collapsing [0] []).setCache 0 ((Cache.empty).put oneKey (.u .addW32) 5)
       (s.cache 0).sector oneKey = some (.u .addW32, 5) ∧ (s.collapseRec oneKey).map (fun c => c.asked) = some [0])
    ∧ ((collapsing [1] [(0, 5)]).collapseRec oneKey).map (fun c => SMap.has c.copies 0) = some true
    ∧ ((collapsing [0] [(1, 5)]).collapseRec oneKey).map (fun c => SMap.has c.copies 1 && c.asked.contains 0) = some true
    ∧ ((collapsing [] []).collapseRec oneKey).map (fun c => c.asked.isEmpty && c.copies.isEmpty) = some true
    ∧ (let c := (run 0 8).foldl (fun (c : Cache) i => c.put (oneKey + 4 * 128 * i) (.u .addW32) 5) Cache.empty
       let s := base.setCache 0 c
       (s.cache 0).sector oneKey = some (.u .addW32, 5) ∧ s.uOp oneKey = some .addW32 ∧ s.collapseRec oneKey = none
       ∧ 8 ≤ ((s.cache 0).lines.filter fun l => l.tag % s.setsOf 0 == oneKey / 4 % s.setsOf 0).length
       ∧ (((s.cache 0).lines.filter fun l => l.tag % s.setsOf 0 == oneKey / 4 % s.setsOf 0).getLast?.map Line.tag) = some (oneKey / 4)
       ∧ (let t := edit (fun g => { g with queue := [.store [(32 * (oneKey + 4 * 128 * 9), [1])] 0 5] }) s
          t.fillsSet 0 (oneKey / 4 % t.setsOf 0) = true))
    ∧ base.caches.Pairwise (fun a b => a.1 < b.1)
    ∧ ((mapped (0x1F + 2 ^ 56)).keyPlace ((mapped (0x1F + 2 ^ 56)).tagFor 1 0x40000000 / 32)).any (fun p => match p with
        | .remote d _ => d == 1
        | _ => false) = true
    ∧ (match base.keyPlace oneKey with | some (.vault _) => true | _ => false) = true := by decide +kernel

theorem witness_TranslationRules :
    (match base.entryAt (homeSlice 1 0x4000) 1 0x4000 with | .leaf _ => true | _ => false) = true
    ∧ (match base.entryAt (homeSlice 1 (2 ^ 31)) 1 (2 ^ 31) with | .bad => true | _ => false) = true
    ∧ (match (mapped (0x2F + 1 * 2 ^ 8)).entryBy (some 0) 1 0x40000000 with | .synonym n ca cb _ _ _ => (n, ca, cb) == (21, 1, 0) | _ => false) = true
    ∧ (match (mapped (0x1F + 32 * 2 ^ 16)).walk 1 0x40000000 with
       | .leaf l => l.bits == 21 && !l.host && l.dev == base.dev && l.frame == 32 && decide (96 * 65536 % 2 ^ l.bits = 0)
       | _ => false) = true
    ∧ (let d : Shootdown := ⟨0, .a, 1, 0x40000000, 2 ^ 21, [3, 64], [5]⟩
       let s := { base with shootdowns := [d] }
       3 ∈ d.todo ∧ 64 ∈ d.todo ∧ 63 ∉ d.todo ∧ 5 ∈ d.acks ∧ s.drainedFor d = true)
    ∧ (let key := base.tagFor 1 0x4000 / 32
       let s := base.setSlice (base.homeAt key) { base.slice (base.homeAt key) with
         reads := (run 0 256).map fun i => (0, key / 4, i % 3) }
       let reads := (s.slice (s.homeAt key)).reads.filter fun r => decide (s.fabric < r.1 + 4096) && r.2.1 == key / 4
       key / 4 ∉ (s.slice (s.homeAt key)).hot ∧ s.subscribed key = false ∧ s.onlyShared (key / 4) = true
       ∧ (s.slice (s.homeAt key)).hot.length < 16 ∧ 256 ≤ reads.length ∧ 3 ≤ (reads.map fun r => r.2.2).eraseDups.length) := by decide +kernel

/-- Sixteen hot lines at the home of that sector. -/
theorem witness_HotLineRule_full :
    let key := base.tagFor 1 0x4000 / 32
    let s := base.setSlice (base.homeAt key) { base.slice (base.homeAt key) with hot := List.replicate 16 (key / 4 + 65) }
    (s.slice (s.homeAt key)).hot.length = 16 ∧ (s.slice (s.homeAt key)).hot.head? = some (key / 4 + 65)
    ∧ s.homeAt (4 * (key / 4 + 65)) = s.homeAt key := by decide +kernel

theorem witness_RemapAndMigrationRules :
    Memory.wf base.mem = true ∧ 0x1000 + 0x1000 ≤ 0x2000 ∧ 0x2000 + 0x1000 ≤ 0x4000 := by decide +kernel

/-- A contribution of rank 0 in the step in turn, its row to 0x4000. -/
def oneContribution (rank : Nat) (seq : Word) : Contribution :=
  ⟨2, rank, seq, 0, 0, 0, 0x4000, 0, 0xFFFFFFFF, 4, 0, [[1, 2, 3, 4]], 4, 0, 5, 0⟩

/-- Its collective, of two ranks. -/
def oneCollective : Collective := ⟨3, 1, 0, 0x6000, 256, [], [], []⟩

theorem witness_CollectiveRules :
    (let s := { base with collectives := [(2, oneCollective)], sent := [oneContribution 0 3] }
     s.collectiveOf 2 = some oneCollective ∧ s.boundCtx (oneContribution 0 3) = some 0
     ∧ ([(0, 3), (2, 3), (0, 2), (0, 19)] : List (Nat × Word)).map (fun e => s.answerTo (oneContribution e.1 e.2))
       = [.accept, .badrank, .dup, .busy]
     ∧ s.sent[0]? = some (oneContribution 0 3))
    ∧ base.collectiveOf 2 = none
    ∧ (let k := oneCollective
       (oneContribution 1 3).rank ≠ (k.stepRec 3).folded ∧ (oneContribution 0 3).rank = (k.stepRec 3).folded
       ∧ (k.stepRec 3).folded ≠ k.ranksm1 ∧ k.staged = []) := by decide +kernel

/-- A flit that fails the receiver's check; that each sent flit passes it is a part of the statement itself. -/
theorem witness_failing_flit : goodFlit 0x10000000 = false := by
  have h : (flitField 0x10000000 28 3 == 0) = false := by decide +kernel
  unfold goodFlit
  rw [h, Bool.and_false]

theorem witness_LinkRules :
    (let l := Link.reset
     l.up = true ∧ l.reorder = [] ∧ l.replay.length < 1024 ∧ l.waiting = [] ∧ (∀ c ∈ l.owed, c < 8)
     ∧ ({ l with replay := List.replicate 1024 (0, 1, some 3) } : Link).replay.length = 1024 ∧ (0 : BitVec 12) = l.expect ∧ (2 : BitVec 12) ≠ l.expect
     ∧ ((2 : BitVec 12) - l.expect).toNat < 2048 ∧ 2048 ≤ ((0xFFF : BitVec 12) - l.expect).toNat)
    ∧ (let s := base.setLink 3 { Link.reset with up := false, portNum := 3 }
       (s.link 3).up = false ∧ (3 : BitVec 8) ≠ (s.link 0).portNum)
    ∧ (let s := base.setLink 3 { Link.reset with retrains := 3, nakSent := true }
       (s.link 3).up = true ∧ 3 ≤ (s.link 3).retrains ∧ (s.link 3).nakSent = true) := by decide +kernel

theorem witness_ReliabilityRules :
    (3 : Nat) ≠ base.dev ∧ 1 ≤ 512 / 512 ∧ 512 / 512 ≠ base.dev ∧ (base.segment 0 0).isSome ∧ base.thermtrip = false
    ∧ ({ base with thermtrip := true } : State).thermtrip = true
    ∧ (base.firmware.restart true).bootCode = 0
    ∧ (base.group (groupKey 0 0)).isSome ∧ (base.group (groupKey 5 5)).isNone ∧ (base.team 0).isSome ∧ (base.team 9).isNone
    ∧ (baseGroup.loads.isEmpty && (base.receiver baseGroup 0x4000).isNone) = true
    ∧ (let key := base.tagFor 1 0x4000 / 32
       ((base.setCache 3 ((Cache.empty).put key (.u .addW32) 5)).cache 3).sector key = some (.u .addW32, 5)
       ∧ (base.cache 3).sector key = none
       ∧ (let h := base.holderOf key 0
          let t := base.setSlice h { base.slice h with park := [((key, 3), (.addW32, 5))] }
          (t.slice h).park.any (fun e => e.1 == (key, 3)) = true))
    ∧ (base.setPort 1 Port.reset).ports.all (fun e => SMap.has (base.setPort 1 Port.reset).ports e.1) = true := by decide +kernel

/-- The machine whose port 0 owns a semaphore, a context command's slot argument in place. -/
def owned (sem : Nat) (arg : Word) (f : Context → Context) : State :=
  { base.setContext 0 (f (base.context 0)) with sems := [(sem, 1)], ctxarg := arg }

theorem witness_ContextCommands :
    (let s := owned 0 0 id
     (s.port 0).up = true ∧ s.ready = true ∧ SMap.getD s.sems 0 0 = BitVec.ofNat 2 ((0 : BitVec 1).toNat + 1)
     ∧ s.ctxstat.getLsbD 31 = false ∧ (s.context 0).state = 1 ∧ s.preempts = []
     ∧ s.teams.filter (fun y => y.1 == 0) = [(0, placedTeam)] ∧ placedTeam.resident = true ∧ s.allDone 0 = false)
    ∧ ((owned 0 0 fun c => { c with state := 2 }).context 0).state = 2
    ∧ ((owned 0 1 id).context 1).state = 0 ∧ ((owned 0 1 id).context 1).valid 0 = false
    ∧ (let c : Context := { Context.free with asid := 2, trbase := 0x100 * 256, mclogsz := 16 }
       c.state = 0 ∧ c.valid 0 = true)
    ∧ SMap.getD base.sems 0 0 ≠ (1 : BitVec 2)
    ∧ ({ owned 0 0 id with ctxstat := 0x80000000 } : State).ctxstat.getLsbD 31 = true := by decide +kernel

theorem witness_HostRules :
    (base.port 1).up = true ∧ SMap.getD base.sems 3 0 = 0 ∧ SMap.getD [(3, (2 : BitVec 2))] 3 0 = BitVec.ofNat 2 ((1 : BitVec 1).toNat + 1)
    ∧ SMap.sorted base.sems = true ∧ base.ready = true
    ∧ (let v : Word := 0x4
       let x := (base.port 1).queue 2
       x.qctl.getLsbD 31 = false ∧ 4 ≤ (v.extractLsb' 0 4).toNat ∧ x.qbase.toNat % 4096 = 0 ∧ x.cbase.toNat % 4096 = 0
       ∧ (base.context (v.extractLsb' 8 6).toNat).state = 1)
    ∧ (let s := base.setQueue 1 2 ⟨0, 0, 0x80000004, 0, 0, 0, 0⟩
       let x := (s.port 1).queue 2
       x.qctl.getLsbD 31 = true ∧ x.entries < ((17 : Word) - x.qhead).toNat ∧ ((16 : Word) - x.qhead).toNat ≤ x.entries
       ∧ (x.qhead - 0).toNat < 2 ^ 31 ∧ 2 ^ 31 ≤ (x.qhead - 1).toNat) := by decide +kernel

theorem witness_WindowsAndRegisters :
    (base.port 0).up = true ∧ base.ready = true
    ∧ (let s := base.setPort 0 { base.port 0 with winctx := [(0, 0x80000000)], winbase := [(0, BitVec.ofNat 64 (192 * 2 ^ 30 - 8))] }
       (SMap.getD (s.port 0).winctx 0 0).getLsbD 31 = true
       ∧ (SMap.getD (s.port 0).winbase 0 0).toNat + 0 + 8 ≤ 192 * 2 ^ 30
       ∧ 192 * 2 ^ 30 < (SMap.getD (s.port 0).winbase 0 0).toNat + 1 + 8)
    ∧ (SMap.getD (base.port 0).winctx 0 0).getLsbD 31 = false ∧ (base.context 0).state = 1 ∧ (base.context 1).state ≠ 1
    ∧ (match base.homeWriteRun 1 0x4000 (toBytes 8 5) with | .ok _ => true | .error _ => false) = true
    ∧ (match base.homeWriteRun 1 (2 ^ 30) (toBytes 8 5) with | .ok _ => false | .error _ => true) = true
    ∧ (match base.homeLoad 1 (2 ^ 30) 8 with | .ok _ => false | .error _ => true) = true
    ∧ (match base.homeLoad 1 0x4000 8 with | .ok _ => true | .error _ => false) = true
    ∧ SMap.getD (owned 1 0 id).sems 1 0 = BitVec.ofNat 2 ((0 : BitVec 1).toNat + 1) ∧ (owned 1 0 id).firmware.busy = false
    ∧ ({ base.firmware with busy := true } : Firmware).busy = true
    ∧ SMap.getD (owned 0 0 id).sems 0 0 = BitVec.ofNat 2 ((0 : BitVec 1).toNat + 1)
    ∧ ((owned 0 0 id).context 0).state ≠ 0 ∧ ((owned 0 0 id).context 5).state = 0
    ∧ ((base.port 0).queue 0).qctl.getLsbD 31 = false
    ∧ (((base.setQueue 0 0 ⟨0, 0, 0x80000004, 0, 0, 0, 0⟩).port 0).queue 0).qctl.getLsbD 31 = true
    ∧ SMap.getD (owned 3 0 id).sems 3 0 = BitVec.ofNat 2 ((0 : BitVec 1).toNat + 1)
    ∧ SMap.getD (owned 2 0 id).sems 2 0 = BitVec.ofNat 2 ((0 : BitVec 1).toNat + 1)
    ∧ ((run 0 16).map base.power.shareOf).sum ≤ 65535
    ∧ 65535 < ((run 0 16).map ({ base.power with share := [(0, 65535)] } : Power).shareOf).sum
    ∧ ({ base with ready := false } : State).ready = false := by decide +kernel

/-- A staged image with a sound head and no payload, or one that is not. -/
def staged (magic : Nat) (len : Nat) : Image := ⟨len, SMap.putAll 0 [] (number 0 (toBytes 4 magic))⟩

theorem witness_FirmwareAndPowerRules :
    (let s := owned 1 0 id
     SMap.getD s.sems 1 0 = BitVec.ofNat 2 ((0 : BitVec 1).toNat + 1) ∧ s.firmware.busy = false ∧ s.recovery = false
     ∧ s.firmware.arg0.toNat ≤ 2 ^ 26 ∧ s.firmware.staging = none)
    ∧ (staged 0 256).goodHead = false
    ∧ 84 + 32 * base.firmware.digests.length + 2420 + 1312 ≤ 61440
    ∧ 61440 < 84 + 32 * ({ base.firmware with digests := List.replicate 1900 none } : Firmware).digests.length + 2420 + 1312
    ∧ (0x5253544B : DWord) = 0x5253544B
    ∧ base.power.halved = false ∧ ({ base with thermtrip := true } : State).thermtrip = true
    ∧ ((run 0 16).all fun i => match clockBounds i with
        | some b => decide (b.1 ≤ base.power.clockOf i) && decide (base.power.clockOf i ≤ b.2)
        | none => true) = true := by decide +kernel

/-! ### States in which each waits, and the other cases of statements with several -/

/-- The placed group with something queued that has not performed. -/
def queued (e : QEntry) (s : State) : State := edit (fun g => { g with queue := [e] }) s

/-- A near atomic that acquires. -/
def nearAtom : QEntry := .atom 0 false 2 [⟨0x1000, .a, 0, 0x4000 + 2 ^ 56, 0, 1⟩] 1 0

theorem witness_waits_at_barriers :
    ([.barArv 3, .barSync 3] : List Instr).all (fun i =>
      goesWith (queued unperformed (ready i)) i fun g p => !(queued unperformed (ready i)).released g && !p.inBarrier) = true
    ∧ goesWith (queued nearAtom (ready (.barWait 3))) (.barWait 3) (fun g _ => !(queued nearAtom (ready (.barWait 3))).acquired g) = true
    ∧ (let s := (ready (.barSync 3)).setTeam 0 { placedTeam with grps := 2 }
       goesWith s (.barSync 3) fun g p => s.released g &&
         p.mask &&& SMap.getD ((((placedTeam.barrier 3).arrive g.grpid p.mask).check 2 (s.exMasks 0)).ac) g.grpid 0 != 0) = true
    ∧ (let s := barrier3 [(0, 1)] [] (edit (slotA fun p => { p with wait := .barrier 3 }) (ready (.barSync 3)))
       goesWith s (.barSync 3) fun _ p => p.inBarrier && p.mask &&& 1 != 0) = true := by decide +kernel

theorem witness_unmapped_prefetch :
    goesAt (.prefL2 8 0) (scalars 16 [0, 0x100]) (fun g p => (lanesOf p.act).all fun l => g.sr64 16 + (0 : DWord) == 2 ^ 40 && decide (l < 32)) = true
    ∧ (match base.translate 1 (2 ^ 40) needNone with | .ok _ => false | .error _ => true) = true := by decide +kernel

theorem witness_LoadsAndStores_atoms :
    groupHas (queued nearAtom base) (fun g => !base.farPending g.uid && !base.entryFar nearAtom) = true
    ∧ base.entryFar (.atom 0 false 2 [⟨0x1000, .a, 0, 0x4000 + 2 ^ 56, 0, 1⟩] 1 4) = true := by decide +kernel

theorem witness_AcceptedSystemAccesses_waits :
    ((editSegment (fun g => { g with pend := [(3, 16)] }) base).segment 0 0).map (fun g => SMap.getD g.pend 3 0) = some 16
    ∧ (let full : Context := { base.context 0 with devq := List.replicate 64 ⟨onePacket, 0, 12, 0⟩ }
       64 ≤ full.devq.length ∧ (base.setContext 0 full).intakeOpen 0 = true
       ∧ (base.setContext 0 { full with state := 2 }).intakeOpen 0 = false)
    ∧ 8 ≤ ((base.setCore 0 { base.core 0 with matq := List.replicate 8 ⟨5, 0, 0, 0, 1, .zero, []⟩ }).core 0).matq.length := by
  decide +kernel

theorem witness_MatrixUnitRules_touched :
    (let s := base.setCore 0 { base.core 0 with matq := [⟨5, 0, 0, 0, 1, .loop (oneLoop 1), [0]⟩] }
     (s.core 0).matq.head?.map (fun e => e.touched.isEmpty) = some false ∧ s.engineStopped 0 3 = false)
    ∧ ({ base with preempts := [⟨0, [3], none, none⟩] } : State).engineStopped 0 3 = true := by decide +kernel

/-- An outward copy of 64 words: two lines of memory. -/
def longCopy : CopyJob :=
  { oneCopy true [] with
    shape := Shape.ofBytes (layout 128 [(0, 0x4000), (12, 3), (13, 1), (16, 64), (20, 1), (24, 1), (28, 1), (32, 1)]), org := [0], box := [64] }

theorem witness_CopyStreamerRules_lines :
    longCopy.next + longCopy.lineRun.length < longCopy.elements.length
    ∧ (let j := { longCopy with next := 32 }
       j.elements.length ≤ j.next + j.lineRun.length)
    ∧ (let j := { longCopy with shape := { longCopy.shape with repl := 2 } }
       let s := { copies j with remotes := [(1, ⟨false, 0, []⟩)] }
       j.devices.any (fun d => !s.copyReaches j.ctx d) = true) := by decide +kernel

/-- The placed machine with a saved team of the placed launch's priority. -/
def savedBeside : State :=
  let s := withContext fun c => { c with launches := [oneLaunch .active 0] }
  s.setTeam 7 { placedTeam with launch := 3, packet := onePacket, segs := [], saved := some 0 }

theorem witness_PlacementRules_saved :
    savedBeside.works.any (fun w => savedBeside.savedTeams.any fun t =>
      rankBefore (savedBeside.savedRank t.2) w.rank && (savedBeside.fitsDevice (64, t.1) t.2.packet).isSome) = true
    ∧ (let s := { savedBeside with reserved := (run 0 8).map fun k => (k, (5, 5)) }
       s.waiters 0 3 ≠ [] ∧ s.awaiting = [] ∧ (run 0 8).all (fun k => SMap.has s.reserved k) = true
       ∧ (∀ o ∈ s.waiters 0 3, ∀ e ∈ s.reserved, e.2 ≠ o.2)) := by decide +kernel

/-- The machine with a launch accepted from the group: a packet of a context, the device queue with `n` entries. -/
def launching (ctxid : Byte) (n : Nat) (state : Byte) : State :=
  let s := pendingAccess (.launch 8) [(0, 0x4000)]
  ({ s with mem := Memory.write s.mem (0x4000 + 22) ctxid } : State).setContext 0
    { s.context 0 with devq := List.replicate n ⟨onePacket, 0, 12, 0⟩, state := state }

theorem witness_AcceptedSystemAccesses_launch :
    [(2, 0, 1, false, true, true), (1, 0, 1, true, true, true), (1, 64, 1, true, false, true), (1, 64, 2, true, false, false)].all
      (fun (y : Byte × Nat × Byte × Bool × Bool × Bool) =>
        let s := launching y.1 y.2.1 y.2.2.1
        groupHas s fun g =>
          let s1 := (s.takeRefusals (s.context g.ctx).dctag.toNat [(0, 0x4000)]).noteAll 0 (s.asidOf g)
            (.launch 8) [(0, 0x4000)]
          match s.reach 0 (s.asidOf g) (.launch 8) 0x4000 with
          | .ok t =>
            let r := s1.loadRun 0 (t.asid * 2 ^ 56 + t.va) 128
            let s2 := r.1.releaseAll 0
            decide ((ofBytes r.2 / 2 ^ 176 % 2 ^ 16 == 1) = y.2.2.2.1)
              && decide (decide ((s2.context 0).devq.length < 64) = y.2.2.2.2.1) && decide (s2.intakeOpen 0 = y.2.2.2.2.2)
              && (s2.group 0).isSome
          | .error _ => false) = true := by decide +kernel

theorem witness_PreemptionSteps_homes :
    base.homeDevices 0 = [] ∧ (preempting [] true).preempts.all (fun p => p.homes.isNone) = true
    ∧ base.net.all (fun m => !m.isPark 0) = true ∧ (preempting [0] true).preempts.any (fun p => p.acks.contains 0) = true := by
  decide +kernel

/-- The placed machine whose second GiB is on another device, and whose third is host memory behind port 1. -/
def elsewhere : State :=
  { base with
    mem := Memory.writeN (Memory.writeN base.mem 0x40002008 (toBytes 8 (0x21F + 5 * 2 ^ 56))) 0x40002010
      (toBytes 8 (0x1F + 2 ^ 11 + 2 ^ 12)) }

theorem witness_SubscriptionRules_places :
    (match elsewhere.keyPlace (secKey 1 0x40000000) with | some (.remote d _) => d == 5 && (elsewhere.remote d).reachable | _ => false) = true
    ∧ (match elsewhere.keyPlace (secKey 1 0x80000000) with | some (.host p _) => p == 1 | _ => false) = true
    ∧ ({ elsewhere with remotes := [(5, ⟨false, 0, []⟩)] } : State).remote 5 = ⟨false, 0, []⟩
    ∧ base.ctxOfTag 9 = none ∧ (base.setContext 0 { base.context 0 with dctag := 9 }).ctxOfTag 9 = some 0
    ∧ (match letIn.translate 1 0x4000 needNone with | .ok y => y.leaf.xdev | .error _ => false) = true
    ∧ (match base.translate 1 0x4000 needNone with | .ok y => !y.leaf.xdev | .error _ => false) = true
    ∧ (match base.translate 1 (2 ^ 40) needNone with | .ok _ => false | .error _ => true) = true
    ∧ ({ base with net := [.push 0 3 4 0 0 3 true ⟨[], 0, 0, 0⟩ 1] } : State).pushComes (handleOf 0 3 4 1) = true
    ∧ base.pushComes (handleOf 0 3 4 1) = false
    ∧ ({ base with flying := [(handleOf 0 3 4 1, 5)] } : State).flying.any (fun e => e.1 == handleOf 0 3 4 1) = true := by decide +kernel

/-- A full subscription table. -/
theorem witness_SubscriptionRules_full (n : Nat) (h : n < 1024) :
    SMap.has ((run 0 1024).map fun k => (k, oneEntry true [] .active)) n = true := by
  have full : ∀ m lo, lo ≤ n → n < lo + m → SMap.has ((run lo m).map fun k => (k, oneEntry true [] .active)) n = true := by
    intro m
    induction m with
    | zero => intro lo _ _; omega
    | succ m ih =>
      intro lo hl hu
      by_cases e : n = lo
      · simp [run, SMap.has, SMap.find, e]
      · simpa [run, SMap.has, SMap.find, e] using ih (lo + 1) (by omega) (by omega)
  exact full 1024 0 (by omega) (by omega)

theorem witness_CoherenceRequests_buffered :
    (let c : Cache := { Cache.empty with wbuf := [(oneKey, (5, false))] }
     let r := (readElsewhere .m).setCache 0 c
     let w := (writtenElsewhere .m).setCache 0 c
     (r.cache 0).sector oneKey = none ∧ SMap.find (r.cache 0).wbuf oneKey = some (5, false)
     ∧ r.groups.any (fun e => r.cacheOf (e.1 / 128) != 0 && r.wantsRead (r.cacheOf (e.1 / 128)) oneKey) = true
     ∧ w.groups.any (fun e => w.cacheOf (e.1 / 128) != 0 && w.wantsWrite (w.cacheOf (e.1 / 128)) oneKey) = true)
    ∧ base.groups.all (fun e => base.cacheOf (e.1 / 128) == 0 || !base.wantsRead (base.cacheOf (e.1 / 128)) oneKey) = true := by
  decide +kernel

theorem witness_CollapseRules_remote :
    (let key := secKey 1 0x40000000
     let s := elsewhere.setCache 0 ((Cache.empty).put key (.u .addW32) 5)
     s.uOp key = some .addW32 ∧ (match s.keyPlace key with | some (.remote _ _) => true | _ => false) = true)
    ∧ dieOf (base.homeAt oneKey) < 2 := by decide +kernel

theorem witness_LinkRules_waits :
    (let l : Link := { Link.reset with replay := List.replicate 1024 (0, 1, some 3), owed := [3, 4, 3], nakSent := true }
     1024 ≤ l.replay.length ∧ l.owed = 3 :: [4, 3] ∧ (∀ c ∈ l.owed, c < 8) ∧ l.nakSent = true ∧ l.reorder = [])
    ∧ (base.link 3).portNum = (base.link 0).portNum := by decide +kernel

theorem witness_ContextCommands_reeval :
    groupHas (withGroup fun g => { g with reeval := true }) (fun g => g.reeval && g.ctx == 0) = true
    ∧ groupHas base (fun g => !g.reeval) = true := by decide +kernel

/-- A group of the same team beside that of the issue point. -/
def withMate (s : State) : State := s.setGroup 1 { baseGroup with uid := 7 }

/-- The verdict on `i` with its group changed by `f`. -/
def verdictOn (i : Instr) (f : Group → Group) (mate : Bool := false) : Option Verdict :=
  let s := (if mate then withMate else id) (edit f (ready i))
  (s.group 0).bind fun g => (g.path .a).map fun p => s.verdict 0 g .a p i

/-- A wave split whose slot B waits in a read of a line. -/
def readInB (take : Bool) (g : Group) : Group := { both g with
  slotB := some { entryPath 0 with mask := 0xFFFF0000, wait := .emptyLine 0 [0] 0 false take } }

/-- One state for each reason to wait, and one in which nothing keeps the instruction; a chain in issue, by slot. -/
theorem witness_IssueGoes :
    [verdictOn (.eret 6) (fun g => { g with answers := [6] }), verdictOn .exit (fun g => { both g with split := some 0 }),
      verdictOn (.ldReg 4 8 0 4 2) (fun g => { g with asked := [9] }), verdictOn (.sts 0 0 4 4 2) (readInB true) true,
      verdictOn (.barArv 3) (readInB false) true, verdictOn (.iadd 4 8 0 2) (fun g => { g with loads := [⟨0, .a, .vector 4 4, [⟨0, 0, none⟩]⟩] })]
      = List.replicate 6 (some .wait)
    ∧ [verdictOn (.sts 0 0 4 4 2) (readInB false) true, verdictOn (.sts 0 0 4 4 2) (readInB true)] = List.replicate 2 (some (.go none none))
    ∧ verdictOn (.iadd 4 8 0 2) (fun g => { g with chain := some ⟨.a, 1, 2, 0x1000, [.iadd 4 8 0 2]⟩ }) = some (.go (some 1) none)
    ∧ verdictOn (.iadd 4 8 0 2) (fun g => { g with chain := some ⟨.b, 1, 2, 0x1000, [.iadd 4 8 0 2]⟩ }) = some .wait
    ∧ [Instr.iadd 4 8 0 2, .ldReg 4 8 0 4 2].all issues = true := by decide +kernel

/-- A path that finishes what it has issued while a trap of the other slot waits for it, and one that has nothing to finish. -/
theorem witness_StepRunsDecodedInstruction_finishes :
    groupHas (withGroup fun g => { both g with
        stop := some .a, slotB := some { entryPath 0 with mask := 0xFFFF0000, wait := .held (.evset 1) } })
      (fun g => g.finishes .b && !base.stopped g .b && base.stopped g .a && !base.trapReady g) = true
    ∧ groupHas (withGroup fun g => { readInB false g with split := some 0 })
      (fun g => g.finishes .b && !base.trapReady g && (g.unstop .a).stop.isNone) = true := by decide +kernel

theorem witness_ScratchpadStallsAndTraps_order :
    (let i := Instr.lds 0 0 4 4 2
     let s := withMate (edit (fun g => readInB false (fill 4 112 g)) (ready i))
     goesWith s i (fun g p => s.othersFill 0 g 0 [0] && (match g.path .b with
        | some y => y.wait == .emptyLine 0 [0] 0 false false
        | none => false) && p.act != 0 && !p.isHeld && !s.acquiring g && g.seg == 0) && hasLine s false) = true
    ∧ (let i := Instr.ldsTake 0 0 4 6 8
       let t := editSegment (fun g => g.setFull 0 true) (edit (fill 4 112) (ready i))
       let s := t.setGroup 1 { baseGroup with
         uid := 7, slotA := some { entryPath 0 with wait := .emptyLine 0 [0] 0 false true }, grpid := 0 }
       goesWith { s with now := 9 } i (fun g p => (lanesOf p.act).all fun l => g.src 4 l == 112)
         && (match s.segment 0 0 with
            | some seg => s.olderTake 0 seg 0 [0] 9 1
            | none => false)) = true := by decide +kernel

theorem witness_LaneSystemAccesses :
    ([.upd 1 2, .upd 11 2, .collapse, .cctl 3 1] : List MemOp).all (fun op => passesAll op [(0, 0x4000), (31, 0x3FFFFF00)] (fun _ => true)
        && passesAll op [(0, 0x4000), (31, 2 ^ 30)] (fun l => l == 0)) = true
    ∧ ([.waita 12 7 0, .subscr 10 3 8 true, .tcopy false 12 20, .launch 8] : List MemOp).all
        (fun op => passesAll op [(0, 2 ^ 30)] fun _ => false) = true := by decide +kernel

theorem witness_MatrixUnitRules_clear :
    [1, 2].all (fun d =>
      let c := epiOf [BitVec.ofNat 32 (d + 1024), 0, 0, 0x0101, 0x4000, 0, 4, 0] 0 0
      let s := matFirst (.epilogue c) []
      c.dest == d && c.clear && ((s.segment 0 0).any fun g => ((c.toMemory s 0 1 g 1).segment 0 0).isSome)
        && !s.engineStopped 0 1 && !s.engineStopped 0 3) = true := by decide +kernel

/-- A copy has written a word on device 1, and device 1 has, or has not, reported a page fault of it. -/
def replicated (failed : Bool) : State := { copies longCopy with replicas := [⟨longCopy.pos, 0, 1, failed, [(0x4000, [1, 2, 3, 4])]⟩] }

theorem witness_CopyStreamerRules_faults :
    [true, false].all (fun b => ((replicated b).replicas.find? fun r => r.isOf longCopy.pos 1).any (fun r => r.failed == b)
      && (replicated b).copyFaulted longCopy.pos 1 == b) = true
    ∧ ((copies longCopy).replicas.find? fun r => r.isOf longCopy.pos 1) = none := by decide +kernel

theorem witness_LaunchRules_behind :
    (let s := withContext fun c => { c with devq := [⟨onePacket, 0, 12, 0⟩, ⟨onePacket, 0, 13, 0⟩] }
     s.heads 0 = [(0, none)] ∧ s.intakeOpen 0 = true ∧ (s.context 0).devq.length = 2) := by decide +kernel

theorem witness_PlacementRules_launches :
    (let l := oneLaunch .active 1
     let s : State := { withContext (fun c => { c with launches := [{ l with num := 2 }, l, { l with num := 4 }] }) with teams := [] }
     (s.context 0).launches = [{ l with num := 2 }] ++ l :: [{ l with num := 4 }] ∧ l.num = 3) := by decide +kernel

theorem witness_SubscriptionRules_orphan :
    (let r : SubReq := { oneRequest 0x40000000 with team := 9 }
     let s : State := { elsewhere with outbox := [(5, ⟨5, 0, 7, .subReq r⟩)], net := [.subAns 5 0 12 1 r.pos] }
     s.outbox = [] ++ (5, ⟨5, 0, 7, .subReq r⟩) :: [] ∧ r.uid = 0 ∧ s.team r.team = none)
    ∧ elsewhere.remoteLine (32 * secKey 1 0x40000000 / 32) = true := by decide +kernel

/-- The machine in whose cache of core 0 the sector at 0x40000000, whose home is on device 1, waits to be written back. -/
def owes : State :=
  let s := mapped (0x1F + 2 ^ 56)
  s.setCache 0 { Cache.empty with wbuf := [(s.tagFor 1 0x40000000 / 32, (5, false))] }

theorem witness_CoherenceRequests_owing :
    (let key := owes.tagFor 1 0x40000000 / 32
     owes.fromAbroad 256 key = true ∧ owes.reader 256 key = none ∧ owes.answering 256 key 0 = true
     ∧ owes.owing 256 key = some (0, 5) ∧ owes.holders key = [] ∧ owes.uOp key = none
     ∧ (mapped (0x1F + 2 ^ 56)).owing 256 key = none)
    ∧ (match letIn.lookup 1 0x4000 with | .ok t => t.leaf.xdev | .error _ => false) = true ∧ letIn.ctxOfAsid 1 = some 0
    ∧ letIn.remoteLine oneKey = false ∧ letIn.discovered (oneKey / 4) = [1] := by decide +kernel

/-- A data flit with this SEQ. -/
def flit (n : Nat) : BitVec 512 := BitVec.ofNat 512 n

theorem witness_LinkRules_held :
    (let l : Link := { Link.reset with reorder := [flit 2, flit 1, flit 4], nakSent := true }
     l.expect = 0 ∧ l.reorder.Pairwise (fun g h => BitVec.ofNat 12 g.toNat ≠ BitVec.ofNat 12 h.toNat)
     ∧ (∀ i (hi : i < [flit 1, flit 2].length), [flit 1, flit 2][i] ∈ l.reorder
        ∧ BitVec.ofNat 12 ([flit 1, flit 2][i]).toNat = l.expect + 1 + BitVec.ofNat 12 i)
     ∧ (l.reorder.all fun g => BitVec.ofNat 12 g.toNat != l.expect + 1 + BitVec.ofNat 12 2) = true
     ∧ (l.takeData (flit 0)).reorder = [flit 4] ∧ (l.takeData (flit 0)).expect = 3
     ∧ (flit 0).getLsbD 15 = false ∧ l.take (flit 4) = l) := by decide +kernel

theorem witness_ReliabilityRules_die :
    (let key := base.tagFor 1 0x4000 / 32
     let h := base.holderOf key 0
     SMap.has ((base.setSlice h { base.slice h with die := [(key, (.addW32, 5))] }).slice h).die key = true
     ∧ ((base.setCache 256 ((Cache.empty).put key (.u .addW32) 5)).cache 256).sector key = some (.u .addW32, 5)
     ∧ (base.cache 256).sector key = none) := by decide +kernel

theorem witness_WindowsAndRegisters_lost :
    (let s : State := { owned 3 0 id with lostCids := [(5, [(0x200000 + 32 * 5, 8)]), (6, [(0x200000, 8)])] }
     ({ s with cbtbase := 0x200000 } : State).stillLost = [(6, [(0x200000, 8)])]) := by decide +kernel

/-! ## Steps: the worked examples of 03 and 04, one instruction each -/

/-- Run `i` with its group changed by `f`; what `h` reads of the group afterwards. -/
def after {α : Type} (i : Instr) (f : Group → Group) (h : Group → α) : Option α :=
  match step (edit f (ready i)) with
  | .next t => (t.group 0).map h
  | _ => none

/-- A path with these active lanes. -/
def lanesOn (m : Word) : Group → Group := slotA fun p => { p with mask := m }

/-- 04, example after R136: TUNPK v12, v3 of 0x9A. -/
theorem test_tunpk : after (.tunpk 3 12) (fill 3 0x9A) (fun g => g.vr 12 31) = some 0x11F0 := by decide +kernel

/-- The same example: BFE.S32 of trit 1. -/
theorem test_bfe_signed :
    after (.bfeS32 4 12 0 5) (fun g => fill 12 0x11F0 (fill 4 0x0404 g)) (fun g => g.vr 5 0) = some 0xFFFFFFFF := by decide +kernel

/-- 04, example after R135: QPACK v4, v8, v20, with its flags INEXACT, SAT and OVERFLOW. -/
theorem test_qpack :
    after (.qpack 20 8 4) (fun g => fill 20 0x000283B9 (fill 8 0x3F800000 (fill 9 0x40533333 (fill 10 0xBDA00000 (fill 11 0x43FA0000 g)))))
      (fun g => g.vr 4 7) = some 0x7E9A4538 := by decide +kernel

/-- 04, example after R133: FRSQ of 4.0 is 0.5 and sets no flag; FRCP of 3.0. -/
theorem test_frsq : after (.frsq 11 0 10) (fill 11 0x40800000) (fun g => (g.vr 10 0, g.gstat)) = some (0x3F000000, 0x0B000000) := by
  decide +kernel

theorem test_frcp : after (.frcp 11 0 10) (fill 11 0x40400000) (fun g => g.vr 10 0) = some 0x3EAAAAAB := by decide +kernel

/-- 04, example after R138: the active lanes 0, 2, 4, 5, 6, 7 hold their number plus 1. -/
def scanGroup (g : Group) : Group :=
  lanesOn 0xF5 (g.setLanes 4 ((run 0 32).map fun l => (l, BitVec.ofNat 32 (l + 1))))

theorem test_scanl_inc :
    after (.scanlInc 0 4 8) scanGroup (fun g => [0, 2, 4, 5, 6, 7].map (g.vr 8)) = some [1, 4, 9, 15, 22, 30] := by decide +kernel

theorem test_scanl_exc :
    after (.scanlExc 0 4 8) scanGroup (fun g => [0, 2, 4, 5, 6, 7].map (g.vr 8)) = some [0, 1, 4, 9, 15, 22] := by decide +kernel

theorem test_redl :
    after (.redl 0 4 8) scanGroup (fun g => [0, 1, 2, 4, 5, 6, 7].map (g.vr 8)) = some [30, 0, 30, 30, 30, 30, 30] := by decide +kernel

/-- 03, example after the statistics rules: STACC of 9 on the triple of 2 and 4 is W 3, M 5, S 26. -/
theorem test_stacc :
    after (.stacc 1 4) (fun g => fill 1 0x41100000 (fill 4 0x40000000 (fill 5 0x40400000 (fill 6 0x40000000 g))))
      (fun g => [4, 5, 6].map fun r => g.vr r 0) = some [0x40400000, 0x40A00000, 0x41D00000] := by decide +kernel

/-- 04 R116: IADD wraps; 04 R117: a shift by 32 is 0, SAR copies the sign. -/
theorem test_iadd_wraps : after (.iadd 5 4 0 6) (fun g => fill 4 0xFFFFFFFF (fill 5 2 g)) (fun g => g.vr 6 0) = some 1 := by
  decide +kernel

theorem test_shl_full : after (.shl 5 4 0 6) (fun g => fill 4 0xFFFFFFFF (fill 5 32 g)) (fun g => g.vr 6 0) = some 0 := by
  decide +kernel

theorem test_sar_full : after (.sar 5 4 0 6) (fun g => fill 4 0x80000000 (fill 5 99 g)) (fun g => g.vr 6 0) = some 0xFFFFFFFF := by
  decide +kernel

/-- 04, example after R142: CALL 64 bytes ahead saves the address after it. -/
theorem test_call :
    after (.call 32 10) id (fun g => (g.sr64 20, g.slotA.map fun p => (p.pc, p.depth))) = some (0x1004, some (0x1040, 1)) := by
  decide +kernel

/-- 01 R35: BRA with some lanes taken gives them the other slot. -/
theorem test_bra_divides :
    after (.bra 16 3 0 0) (fun g => g.setPred 3 0xFFFFFFFF 0xF) (fun g =>
      (g.slotA.map fun p => (p.mask, p.pc), g.slotB.map fun p => (p.mask, p.pc)))
      = some (some (0xFFFFFFF0, 0x1004), some (0xF, 0x1020)) := by decide +kernel

/-- 10 R307: a misaligned lane of a load at U traps with cause 7; an aligned load enters Translation. -/
theorem test_ld_misaligned :
    after (.ldReg 4 8 0 4 2) (fun g => { fill 4 2 g with priv := .user }) (fun g => (g.status, g.cause)) = some (.trapped, 7) := by
  decide +kernel

theorem test_ld_pends :
    after (.ldReg 4 8 0 4 2) (fill 4 8) (fun g => (g.status, g.pending.map fun x => x.lanes.head?))
      = some (.translation, some (some (0, 8))) := by decide +kernel

/-- 05 R170, R175; 09 R279: a read of a sector that a COLLAPSE is collapsing completes the collapse, so the group waits for it no
longer. -/
theorem test_read_ends_collapse :
    (let s := (base.setCache 1 ⟨[⟨4, [(1, (.u .addW32, 5))], true, true⟩], [], 0⟩).setCollapse 17
       (some ⟨17, .addW32, [1], [], [], some baseGroup.uid⟩)
     !s.released baseGroup && (s.readSec 0 17).1.released baseGroup
       && ((s.readSec 0 17).1.cache 1).sector 17 == none && (s.readSec 0 17).2 == 5) = true := by decide +kernel

end Sys2Proof.Tests
end

/-! ## Bytes of a little-endian number -/

namespace Sys2Proof

theorem length_toBytes (n x : Nat) : (toBytes n x).length = n := by
  induction n generalizing x with
  | zero => rfl
  | succ n ih => simp [toBytes, ih]

theorem ofBytes_toBytes (n x : Nat) : ofBytes (toBytes n x) = x % 256 ^ n := by
  induction n generalizing x with
  | zero => simp [toBytes, ofBytes, Nat.mod_one]
  | succ n ih => simp [toBytes, ofBytes, ih, Nat.pow_succ', Nat.mod_mul]

theorem take_toBytes {m n : Nat} (h : m ≤ n) (x : Nat) : (toBytes n x).take m = toBytes m x := by
  induction n generalizing m x with
  | zero => simp [Nat.le_zero.mp h, toBytes]
  | succ n ih =>
    cases m with
    | zero => rfl
    | succ m => simp [toBytes, ih (Nat.le_of_succ_le_succ h)]

theorem drop_toBytes {k n : Nat} (h : k ≤ n) (x : Nat) : (toBytes n x).drop k = toBytes (n - k) (x / 256 ^ k) := by
  induction k generalizing n x with
  | zero => simp
  | succ k ih =>
    obtain ⟨n, rfl⟩ := Nat.exists_eq_succ_of_ne_zero (by omega : n ≠ 0)
    simp [toBytes, ih (Nat.le_of_succ_le_succ h), Nat.pow_succ', Nat.div_div_eq_div_mul]

namespace Machine

/-- A field of a number's bytes is a digit run of the number. -/
theorem fieldAt_toBytes {off m n : Nat} (h : off + m ≤ n) (x : Nat) :
    fieldAt (toBytes n x) off m = x / 256 ^ off % 256 ^ m := by
  rw [fieldAt, drop_toBytes (by omega), take_toBytes (by omega), ofBytes_toBytes]

/-! ## Entries of the divergence stack (01 R33, Table 1-6) -/

/-- The 64 bits that stand for a join point in an entry. -/
def joinCode : Option DWord → Nat
  | some j => j.toNat
  | none => noJoin

theorem joinCode_lt (j : Option DWord) : joinCode j < 2 ^ 64 := by
  cases j with
  | none => decide
  | some x => exact x.isLt

theorem joinOf_joinCode {j : Option DWord} (h : j ≠ some 0x00FFFFFFFFFFFFFF) : joinOf (joinCode j) = j := by
  cases j with
  | none => rfl
  | some x =>
    have hx : x.toNat ≠ noJoin := fun e => h (congrArg some (BitVec.eq_of_toNat_eq e))
    simp [joinCode, joinOf, hx]

/-- The number whose bytes an entry is. -/
def StackEntry.number (e : StackEntry) : Nat :=
  e.mask.toNat + (if e.join then 1 else 0) * 256 ^ 4 + e.depth.toNat * 256 ^ 5 + e.gk * 256 ^ 6 + e.pc.toNat * 256 ^ 8
    + joinCode e.jp * 256 ^ 16 + e.gg.toNat * 256 ^ 24

/-- The sum behind an entry's layout. The base is a variable, so that checking a proof never computes its powers. -/
theorem foldl_entryFields (base mask join depth gk pc jp gg : Nat) :
    List.foldl (fun acc f => acc + f.2 * base ^ f.1) 0
        [(0, mask), (4, join), (5, depth), (6, gk), (8, pc), (16, jp), (24, gg)]
      = mask + join * base ^ 4 + depth * base ^ 5 + gk * base ^ 6 + pc * base ^ 8 + jp * base ^ 16 + gg * base ^ 24 := by
  simp only [List.foldl_cons, List.foldl_nil, Nat.zero_add, Nat.pow_zero, Nat.mul_one]

theorem StackEntry.bytes_eq (e : StackEntry) : e.bytes = toBytes 64 e.number :=
  congrArg (toBytes 64) (foldl_entryFields 256 e.mask.toNat (if e.join then 1 else 0) e.depth.toNat e.gk e.pc.toNat
    (joinCode e.jp) e.gg.toNat)

theorem StackEntry.length_bytes (e : StackEntry) : e.bytes.length = 64 := by rw [e.bytes_eq, length_toBytes]

theorem StackEntry.fieldAt_bytes (e : StackEntry) {off m : Nat} (h : off + m ≤ 64) :
    fieldAt e.bytes off m = e.number / 256 ^ off % 256 ^ m := by rw [e.bytes_eq, fieldAt_toBytes h]

/-- The fields of an entry do not overlap: each reads back from the entry's number. -/
theorem StackEntry.number_fields (e : StackEntry) (hgk : e.gk < 256) :
    e.number / 256 ^ 0 % 256 ^ 4 = e.mask.toNat ∧ e.number / 256 ^ 4 % 256 ^ 1 = (if e.join then 1 else 0)
    ∧ e.number / 256 ^ 5 % 256 ^ 1 = e.depth.toNat ∧ e.number / 256 ^ 6 % 256 ^ 1 = e.gk
    ∧ e.number / 256 ^ 8 % 256 ^ 8 = e.pc.toNat ∧ e.number / 256 ^ 16 % 256 ^ 8 = joinCode e.jp
    ∧ e.number / 256 ^ 24 % 256 ^ 4 = e.gg.toNat := by
  have hmask := e.mask.isLt
  have hjoin : (if e.join then 1 else 0) < 2 := by split <;> decide
  have hdepth := e.depth.isLt
  have hpc := e.pc.isLt
  have hjp := joinCode_lt e.jp
  have hgg := e.gg.isLt
  unfold StackEntry.number
  generalize (if e.join then 1 else 0) = join at hjoin ⊢
  refine ⟨?_, ?_, ?_, ?_, ?_, ?_, ?_⟩ <;> omega

/-- An entry reads back from its 64 bytes. -/
theorem StackEntry.ofBytes_bytes (e : StackEntry) (hgk : e.gk < 256) (hjp : e.jp ≠ some 0x00FFFFFFFFFFFFFF) :
    StackEntry.ofBytes e.bytes = e := by
  obtain ⟨hmask, hjoin, hdepth, hguard, hpc, hcode, hgg⟩ := e.number_fields hgk
  have hj : ((if e.join then 1 else 0) == 1) = e.join := by cases e.join <;> rfl
  simp only [StackEntry.ofBytes, e.fieldAt_bytes, Nat.reduceAdd, Nat.reduceLeDiff, hmask, hjoin, hdepth, hguard, hpc,
    hcode, hgg, hj, joinOf_joinCode hjp, BitVec.ofNat_toNat, BitVec.setWidth_eq]

/-- A pushed path comes back without a replay mask, ready, and without lanes of a guard that is over. -/
theorem StackEntry.toPath_ofPath (p : Path) :
    (StackEntry.ofPath p).toPath = { p with gg := if p.gk = 0 then 0 else p.gg, replay := none, wait := .ready } := rfl

/-- With both slots empty, a waiting path on top of the stack is popped into slot A. -/
theorem State.boundary_pop_empty {s : State} {g : Group} {e : StackEntry} (ht : s.stackTop g = some e) (hj : e.join = false)
    (ha : g.slotA = none) (hb : g.slotB = none) :
    s.boundary g = some { g with slotA := some e.toPath, dsp := g.dsp - 1 } := by
  simp [State.boundary, ha, hb, ht, hj]

/-- With the one path of the group at its join point, a waiting path on top of the stack is popped into the other slot. -/
theorem State.boundary_pop_atJoin {s : State} {g : Group} {e : StackEntry} {p : Path} (ht : s.stackTop g = some e)
    (hj : e.join = false) (ha : g.slotA = some p) (hb : g.slotB = none) (hs : g.split = none) (hjp : p.jp = some p.pc)
    (hh : p.isHeld = false) :
    s.boundary g = some { g with slotB := some e.toPath, dsp := g.dsp - 1 } := by
  have hat : p.atJoin = true := by simp [Path.atJoin, hjp]
  have hother : g.path PSlot.a.other = none := hb
  have hjoin : g.joinSlot (some e) .a = some { g with slotB := some e.toPath, dsp := g.dsp - 1 } := by
    simp [Group.joinSlot, Group.path, PSlot.other, Group.setPath, ha, hb, hat, hh, hj]
  simp [State.boundary, ha, hb, hs, ht, hj, hjoin]

end Machine
end Sys2Proof

open Sys2Proof Sys2Proof.Machine in
/-- Settles O30: an entry's fields do not overlap, so each reads back from the entry's bytes; a waiting path on top of the stack
takes the first branch of the issue boundary that its slots leave open. -/
theorem stackEntryBytes : Obligations.StackEntryBytes := by
  refine ⟨fun e hgk hjp => ⟨e.length_bytes, e.ofBytes_bytes hgk hjp⟩, fun p hgk hjp => ?_, fun s g e ht hj => ⟨?_, ?_⟩⟩
  · rw [StackEntry.ofBytes_bytes _ hgk hjp, StackEntry.toPath_ofPath]
  · exact State.boundary_pop_empty ht hj
  · exact fun p => State.boundary_pop_atJoin ht hj

/-! ## Waking paths, and the empty-line timeout (01 R36, R43 to R45; 05 R157) -/

namespace Sys2Proof.Machine

theorem groupKey_div {core slot : Nat} (h : slot < 128) : groupKey core slot / 128 = core := by
  unfold groupKey; omega

/-- A path may try again when it waits for an operand, its registers have arrived and the store queue has room. -/
theorem State.mayRetry_iff (s : State) (key : Nat) (g : Group) (p : Path) :
    s.mayRetry key g p = true ↔ p.wait = .operand ∧ ∀ i, s.codeAt (key / 128) (s.asidOf g) p.pc.toNat = .ok (.ok i) →
      s.registersBusy g p i = false ∧ g.queue.length < 16 := by
  unfold State.mayRetry
  split
  · next hw =>
    split
    · next i hi => simp [hw, hi]
    · next hno => simp only [hw, true_and, true_iff]; exact fun i hi => (hno i hi).elim
  · next hw => exact ⟨fun h => (Bool.false_ne_true h).elim, fun h => (hw h.1).elim⟩

/-- The lines a path waits for have become full. -/
theorem State.linesFull_iff (s : State) (team : Nat) (w : Wait) :
    s.linesFull team w = true ↔ ∃ k ls n seg t, w = .emptyLine k ls n false t ∧ s.segment team k = some seg ∧
      ∀ l ∈ ls, seg.isFull l = true := by
  unfold State.linesFull
  split
  · next k ls n t =>
    cases hseg : s.segment team k <;> simp [hseg]
  · next hw =>
    simp only [Bool.false_eq_true, false_iff]
    rintro ⟨k, ls, n, seg, t, rfl, -⟩
    exact hw _ _ _ _ rfl

/-- `b` is the slot `a` with the wait of its path changed by `next` where the path wakes. -/
def Woken (wakes : Path → Prop) (next : Wait → Wait) (a b : Option Path) : Prop :=
  match a with
  | none => b = none
  | some p => (wakes p ∧ b = some { p with wait := next p.wait }) ∨ (¬ wakes p ∧ b = some p)

theorem woken_some {wakes : Path → Prop} {next : Wait → Wait} {p : Path} {f : Bool} (hf : f = true ↔ wakes p) :
    Woken wakes next (some p) (if f then some { p with wait := next p.wait } else some p) := by
  cases f with
  | true => exact Or.inl ⟨hf.mp rfl, rfl⟩
  | false => exact Or.inr ⟨fun h => Bool.false_ne_true (hf.mpr h), rfl⟩

theorem State.woken_retryPath (s : State) (key : Nat) (g : Group) (a : Option Path) :
    Woken (fun p => p.wait = .operand ∧ ∀ i, s.codeAt (key / 128) (s.asidOf g) p.pc.toNat = .ok (.ok i) →
      s.registersBusy g p i = false ∧ g.queue.length < 16) (fun _ => .ready) a (s.retryPath key g a) := by
  cases a with
  | none => rfl
  | some p => exact woken_some (s.mayRetry_iff key g p)

theorem State.woken_wakeLines (s : State) (team : Nat) (a : Option Path) :
    Woken (fun p => ∃ k ls n seg t, p.wait = .emptyLine k ls n false t ∧ s.segment team k = some seg ∧
      ∀ l ∈ ls, seg.isFull l = true) Wait.filled a (s.wakeLines team a) := by
  cases a with
  | none => rfl
  | some p => exact woken_some (s.linesFull_iff team p.wait)

theorem exec_operandArrival {core slot : Nat} {s : State} {g : Group} (h : s.group (groupKey core slot) = some g) :
    exec (.operandArrival core slot) s = .next (s.setGroup (groupKey core slot)
      { g with slotA := s.retryPath (groupKey core slot) g g.slotA, slotB := s.retryPath (groupKey core slot) g g.slotB }) := by
  simp only [exec, execOperandArrival, h]

theorem exec_lineFillWake {core slot : Nat} {s : State} {g : Group} (h : s.group (groupKey core slot) = some g) :
    exec (.lineFillWake core slot) s = .next (s.setGroup (groupKey core slot)
      { g with slotA := s.wakeLines g.team g.slotA, slotB := s.wakeLines g.team g.slotB }) := by
  simp only [exec, execLineFillWake, h]

theorem operandAndLineWakes : Claims.OperandAndLineWakes := by
  intro core slot s g hg arrived filled again woken after hslot
  have hagain : again = Wait.filled := funext fun w => by cases w <;> rfl
  refine ⟨⟨_, _, ?_, ?_, exec_operandArrival hg⟩, ⟨_, _, ?_, ?_, exec_lineFillWake hg⟩⟩
  · have h := s.woken_retryPath (groupKey core slot) g g.slotA
    rw [groupKey_div hslot] at h
    exact h
  · have h := s.woken_retryPath (groupKey core slot) g g.slotB
    rw [groupKey_div hslot] at h
    exact h
  · rw [hagain]
    exact s.woken_wakeLines g.team g.slotA
  · rw [hagain]
    exact s.woken_wakeLines g.team g.slotB

/-- A path has stalled past the limit of GSTAT.ELT with one of its lines still empty. -/
def State.timesOut (s : State) (g : Group) (p : Option Path) : Bool :=
  stalledPast g s.now p && !(p.any fun x => s.linesFull g.team x.wait)

theorem State.expired_eq (s : State) (g : Group) :
    s.expired g = if s.timesOut g g.slotA && s.trapReady g then some .a
      else if s.timesOut g g.slotB && g.answers.isEmpty && !g.completing then some .b else none := by
  unfold State.expired State.timesOut
  cases g.slotA <;> cases g.slotB <;> rfl

/-- A path that stalls on empty lines times out when it is late and one of them is still empty. -/
theorem State.timesOut_stalled {s : State} {g : Group} {p : Path} {k start : Nat} {ls : List Nat} {t : Bool} {seg : Segment}
    (hw : p.wait = .emptyLine k ls start false t) (hseg : s.segment g.team k = some seg) :
    s.timesOut g (some p) = true ↔
      ((g.gstat.extractLsb' 24 4).toNat ≠ 0 ∧ start + 2 ^ ((g.gstat.extractLsb' 24 4).toNat + 9) < s.now)
        ∧ ∃ l ∈ ls, seg.isFull l = false := by
  have helt : bits g.gstat.toNat 24 4 = (g.gstat.extractLsb' 24 4).toNat := by
    simp [bits, BitVec.extractLsb'_toNat, Nat.shiftRight_eq_div_pow]
  simp [State.timesOut, stalledPast, hw, helt, State.linesFull, hseg]

theorem State.timesOut_of_not_onEmptyLine {s : State} {g : Group} {a : Option Path}
    (h : ∀ p, a = some p → p.onEmptyLine = false) : s.timesOut g a = false := by
  cases a with
  | none => rfl
  | some p =>
    have hp := h p rfl
    unfold Path.onEmptyLine at hp
    simp only [State.timesOut, stalledPast]
    split
    · next hw => rw [hw] at hp; cases hp
    · rfl

theorem exec_emptyLineTimeout_trap {core slot : Nat} {s : State} {g : Group} {ps : PSlot}
    (hg : s.group (groupKey core slot) = some g) (he : s.expired g = some ps) (hl : g.live = true) (hi : g.inIssue = false) :
    exec (.emptyLineTimeout core slot) s = .next (s.raiseTrap (groupKey core slot) ps (Trap.of cEmptyLine)) := by
  simp [exec, execEmptyLineTimeout, hg, he, hl, hi]

theorem exec_emptyLineTimeout_none {core slot : Nat} {s : State} {g : Group}
    (hg : s.group (groupKey core slot) = some g) (he : s.expired g = none) :
    exec (.emptyLineTimeout core slot) s = .next s := by
  simp only [exec, execEmptyLineTimeout, hg, he]

theorem emptyLineTimeoutRule : Claims.EmptyLineTimeoutRule := by
  intro core slot s g k ls start seg _ hg hseg elt stalls late empty trap
  refine ⟨fun hst hfr hch hfu hans hcomp hlate hempty => ?_, ?_⟩
  · have hlive : g.live = true := by simp [Group.live, Group.frozen, hst, hfr, Freeze.none]
    have hissue : g.inIssue = false := by simp [Group.inIssue, hch, hfu]
    refine ⟨?_, ?_⟩
    · rintro ⟨p, t, ha, hw⟩ hready
      have hout : s.timesOut g g.slotA = true := ha ▸ (State.timesOut_stalled hw hseg).mpr ⟨hlate, hempty⟩
      exact exec_emptyLineTimeout_trap hg (by simp [State.expired_eq, hout, hready]) hlive hissue
    · rintro hA ⟨p, t, hb, hw⟩
      have hout : s.timesOut g g.slotB = true := hb ▸ (State.timesOut_stalled hw hseg).mpr ⟨hlate, hempty⟩
      exact exec_emptyLineTimeout_trap hg
        (by simp [State.expired_eq, State.timesOut_of_not_onEmptyLine hA, hout, hans, hcomp]) hlive hissue
  · rintro ⟨p, t, ha, hw⟩ hb hno
    have hA : s.timesOut g g.slotA = false := by
      rw [ha, Bool.eq_false_iff, ne_eq, State.timesOut_stalled hw hseg]
      exact fun ⟨hlate, hempty⟩ => hno.elim (· hlate) (· hempty)
    have hB : s.timesOut g g.slotB = false := State.timesOut_of_not_onEmptyLine (by simp [hb])
    exact exec_emptyLineTimeout_none hg (by simp [State.expired_eq, hA, hB])

end Sys2Proof.Machine

/-- Settles O33: each event is its definition at the group, and a path wakes, or times out, exactly under the condition stated. -/
theorem wakeRules : Obligations.WakeRules :=
  ⟨Sys2Proof.Machine.operandAndLineWakes, Sys2Proof.Machine.emptyLineTimeoutRule⟩

/-! ## What starts with what (01 R11 to R19; 07 R237) -/

namespace Sys2Proof

/-- A lookup among the entries of a run of keys. -/
theorem SMap.find_map_run {α : Type} (f : Nat → α) (lo n j : Nat) :
    SMap.find ((run lo n).map fun k => (k, f k)) j = if lo ≤ j ∧ j < lo + n then some (f j) else none := by
  induction n generalizing lo with
  | zero => simp only [run, List.map_nil, SMap.find]; rw [if_neg (by omega)]
  | succ n ih =>
    simp only [run, List.map_cons, SMap.find, ih]
    by_cases hj : j = lo
    · subst hj; rw [if_pos rfl, if_pos (by omega)]
    · rw [if_neg hj]; exact if_congr (by omega) rfl rfl

namespace Machine

/-- Numbered words read back by their numbers, over what was there before. -/
theorem getD_putAll_number (m : SMap Word) (ws : List Word) (d r : Nat) :
    SMap.getD (SMap.putAll 0 m (number d ws)) r 0 = if d ≤ r ∧ r < d + ws.length then ws.getD (r - d) 0 else SMap.getD m r 0 := by
  induction ws generalizing m d with
  | nil => simp only [number, SMap.putAll, List.length_nil]; rw [if_neg (by omega)]
  | cons w ws ih =>
    rw [number, SMap.putAll, ih, SMap.getD_put, List.length_cons]
    by_cases hr : r = d
    · subst hr; rw [if_neg (by omega), if_pos rfl, if_pos (by omega), Nat.sub_self, List.getD_cons_zero]
    · rw [if_neg hr]
      by_cases hin : d + 1 ≤ r ∧ r < d + 1 + ws.length
      · rw [if_pos hin, if_pos (by omega), show r - d = r - (d + 1) + 1 by omega, List.getD_cons_succ]
      · rw [if_neg hin, if_neg (by omega)]

theorem getD_startScalars (ws : List Word) (r : Nat) : SMap.getD (startScalars ws) r 0 = ws.getD r 0 := by
  rw [startScalars, getD_putAll_number]
  by_cases hr : r < ws.length
  · rw [if_pos (by omega), Nat.sub_zero]
  · rw [if_neg (by omega), List.getD_eq_default _ _ (by omega)]; rfl

theorem Group.sr_start (b : Birth) (h : Header) (kaddr now : Nat) (ws : List Word) (r : Nat) :
    (Group.start b h kaddr ws now).sr r = ws.getD r 0 := getD_startScalars ws r

theorem Group.vr_start (b : Birth) (h : Header) (kaddr now : Nat) (ws : List Word) {r l : Nat} (hl : l < 32) :
    (Group.start b h kaddr ws now).vr r l = if r = 0 then BitVec.ofNat 32 l else 0 := by
  change SMap.getD startVector (32 * r + l) 0 = _
  rw [SMap.getD, startVector, SMap.find_map_run (BitVec.ofNat 32)]
  by_cases hr : r = 0
  · subst hr
    by_cases h0 : l = 0
    · subst h0; rfl
    · rw [if_pos (by omega), if_pos rfl, Nat.mul_zero, Nat.zero_add]
  · rw [if_neg (by omega), if_neg hr]

/-- The latches of a group that starts are 0 (log 1). -/
theorem Group.latch_start (b : Birth) (h : Header) (kaddr now : Nat) (ws : List Word) {j : Nat} (hj : 124 ≤ j) (l : Nat) :
    (Group.start b h kaddr ws now).src j l = 0 := by
  rw [Group.src, if_pos hj]; rfl

theorem groupAndSegmentStart : Claims.GroupAndSegmentStart := by
  intro b h kaddr now ws core n g
  exact ⟨fun r l hl => Group.vr_start b h kaddr now ws hl, fun j l hj _ => Group.latch_start b h kaddr now ws hj l, fun _ => rfl,
    Group.sr_start b h kaddr now ws, rfl, rfl, rfl, rfl, rfl, rfl, rfl, rfl, rfl, rfl, rfl, rfl, rfl, fun _ => rfl, fun _ => rfl,
    fun _ _ _ => rfl, fun _ => rfl, fun _ => rfl⟩

/-! ### Handlers -/

/-- The first message of the queue whose group fits is the one that starts. -/
theorem exec_handlerStart {core slot : Nat} {s : State} {j : HandlerJob} {rest : List HandlerJob} {arena : List Nat}
    (hq : (s.core core).msgq = j :: rest) (hf : s.handlerFits core j = true) (hslot : s.freeSlot core = some slot)
    (ha : s.handlerArena j = some arena) :
    exec (.handlerStart core) s = .next ((s.setCore core { s.core core with msgq := rest }).startHandler core slot j arena) := by
  have hpick : s.pickHandler core [] (j :: rest) = some (j, rest) := by simp [State.pickHandler, hf]
  simp only [exec, execHandlerStart, hq, hpick, hslot, ha]

/-- The group a handler starts as. -/
def handlerGroup (s : State) (j : HandlerJob) (arena : List Nat) : Group :=
  Group.start ⟨s.nextUid, j.ctx, s.nextTeam, 0, 0, 0, true, .user, arena.head?, Freeze.none⟩ (Header.ofPacket j.packet)
    (kernelOf j.packet) (handlerScalars j) s.now

theorem State.group_startHandler (s : State) (core slot : Nat) (j : HandlerJob) (arena : List Nat) :
    (s.startHandler core slot j arena).group (groupKey core slot) = some (handlerGroup s j arena) :=
  (State.group_setGroup _ _ _ _).trans (if_pos rfl)

theorem State.team_startHandler (s : State) (core slot : Nat) (j : HandlerJob) (arena : List Nat) :
    (s.startHandler core slot j arena).team s.nextTeam = some (handlerTeam j core) :=
  (SMap.find_insert _ _ _ _).trans (if_pos rfl)

/-- The cluster of a core that is not fused keeps its mode when a handler starts there. -/
theorem State.clusterMode_of_not_fused {s : State} {core : Nat} (h : core / 4 ∉ s.fusedClusters) :
    s.clusterMode false core = s := by
  simp [State.clusterMode, h]

/-- In a cluster that is not fused, starting a handler changes no other group, no core and no byte of memory. -/
theorem State.startHandler_frame {s : State} {core : Nat} (h : core / 4 ∉ s.fusedClusters) (slot : Nat) (j : HandlerJob)
    (arena : List Nat) :
    (∀ k, k ≠ groupKey core slot → (s.startHandler core slot j arena).group k = s.group k)
      ∧ (s.startHandler core slot j arena).cores = s.cores ∧ (s.startHandler core slot j arena).mem = s.mem := by
  have hmode : (s.setContext j.ctx { s.context j.ctx with arena := (s.context j.ctx).arena ++ arena }).clusterMode false core
      = s.setContext j.ctx { s.context j.ctx with arena := (s.context j.ctx).arena ++ arena } :=
    State.clusterMode_of_not_fused h
  unfold State.startHandler
  dsimp only
  rw [hmode]
  exact ⟨fun k hk => (State.group_setGroup _ _ _ _).trans (if_neg hk), rfl, rfl⟩

/-- The words of the message stand behind the handler's ARG. -/
theorem sr_handlerGroup_words (s : State) (j : HandlerJob) (arena : List Nat) {r : Nat} (h2 : 2 ≤ r) (h8 : r < 8) :
    (handlerGroup s j arena).sr r = j.words.getD (r - 2) 0 := by
  rw [handlerGroup, Group.sr_start]
  obtain ⟨i, rfl⟩ := Nat.exists_eq_add_of_le' h2
  have hi : i < 6 := by omega
  interval_cases i <;> rfl

theorem handlerGroups : Claims.HandlerGroups := by
  intro core s j rest slot arena hq hf hslot harena taken
  have hexec := exec_handlerStart hq hf hslot harena
  refine ⟨hexec, _, handlerGroup taken j arena, hexec, taken.group_startHandler core slot j arena,
    taken.team_startHandler core slot j arena, rfl, rfl, rfl, rfl, rfl, rfl, rfl, rfl, Group.sr_start .., Group.sr_start ..,
    fun r h2 h8 => sr_handlerGroup_words taken j arena h2 h8, Group.sr_start .., Group.sr_start .., fun hcluster => ?_⟩
  obtain ⟨hgroups, hcores, hmem⟩ := taken.startHandler_frame hcluster slot j arena
  refine ⟨hgroups, ?_, hmem⟩
  have hcore : taken.core core = { s.core core with msgq := rest } := by
    simp [taken, State.core, State.setCore]
  exact (congrArg (fun m => (SMap.getD m core Core.empty).msgq) hcores).trans (congrArg Core.msgq hcore)

end Machine
end Sys2Proof

open Sys2Proof.Machine in
/-- Settles O43: the starting registers read back from their sparse maps, and HANDLER_START takes the first message of the queue. -/
theorem startRules : Obligations.StartRules := ⟨groupAndSegmentStart, handlerGroups⟩

/-! ## The common checks (01 R22 to R24, R40, R49; 10 R307) -/

namespace Sys2Proof.Machine

section Exec
variable {i : Instr} {s : State} {g : Group} {p : Path}

theorem exec_of_wait (hi : i.size ≠ 0) (hg : s.group s.cur.key = some g) (hp : g.path s.cur.pslot = some p)
    (hv : s.verdict s.cur.key g s.cur.pslot p i = .wait) :
    exec i s = .next (s.setGroup s.cur.key (g.setWait s.cur.pslot p.blocked)) := by
  obtain ⟨k, hk⟩ := exec_issue i s hi
  simp only [hk, issue, hg, hp, hv]

theorem exec_of_stop (hi : i.size ≠ 0) (hg : s.group s.cur.key = some g) (hp : g.path s.cur.pslot = some p)
    (hv : s.verdict s.cur.key g s.cur.pslot p i = .stop) :
    exec i s = .next (s.setGroup s.cur.key (g.stopAt s.cur.pslot p.blocked)) := by
  obtain ⟨k, hk⟩ := exec_issue i s hi
  simp only [hk, issue, hg, hp, hv]

theorem exec_of_trap {t : Trap} (hi : i.size ≠ 0) (hg : s.group s.cur.key = some g) (hp : g.path s.cur.pslot = some p)
    (hv : s.verdict s.cur.key g s.cur.pslot p i = .trap t) :
    exec i s = .next (s.trapIssue s.cur.key s.cur.pslot t) := by
  obtain ⟨k, hk⟩ := exec_issue i s hi
  simp only [hk, issue, hg, hp, hv]

end Exec

/-! ### The order of causes -/

theorem checkCause_illegal {g : Group} {guarded : Bool} {pos : Nat} {i : Instr}
    (h : WellFormed.wf i = false ∨ guarded = true ∧ laneFormat i = false) : checkCause g guarded pos i = some cIllegal := by
  unfold checkCause
  rcases h with h | ⟨h, hf⟩
  · simp [h]
  · cases hw : WellFormed.wf i <;> simp [h, hf]

section Legal
variable {g : Group} {guarded : Bool} {pos : Nat} {i : Instr}

theorem guard_covers (h : guarded = false ∨ laneFormat i = true) : (guarded && !laneFormat i) = false := by
  rcases h with h | h <;> simp [h]

theorem role_passes (h : producerOnly i = false ∨ g.producer = true) : (producerOnly i && !g.producer) = false := by
  rcases h with h | h <;> simp [h]

theorem privilege_passes (h : privileged i = false ∨ g.priv = .supervisor) : (privileged i && g.priv == .user) = false := by
  rcases h with h | h
  · simp [h]
  · rw [h, Bool.and_eq_false_iff]; exact .inr rfl

variable (hwf : WellFormed.wf i = true) (hguard : guarded = false ∨ laneFormat i = true)
include hwf hguard

theorem checkCause_ne_illegal : checkCause g guarded pos i ≠ some cIllegal := by
  unfold checkCause
  simp only [hwf, guard_covers hguard, Bool.not_true, Bool.false_eq_true, if_false]
  repeat' split
  all_goals simp [cIllegal, cLatch, cRole, cResource, cPrivilege]

theorem checkCause_latch (hl : latchReads i ≠ []) : checkCause g guarded 0 i = some cLatch := by
  obtain ⟨j, js, hj⟩ := List.exists_cons_of_ne_nil hl
  simp [checkCause, hwf, guard_covers hguard, hj]

variable (hl : latchReads i = [])
include hl

theorem checkCause_role (hp : producerOnly i = true) (hg : g.producer = false) :
    checkCause g guarded pos i = some cRole := by
  simp [checkCause, hwf, guard_covers hguard, hl, hp, hg]

variable (hrole : producerOnly i = false ∨ g.producer = true)
include hrole

theorem checkCause_resource (hf : (operands i).all (Opd.fits g.vregs g.sregs g.barriers g.tiles) = false) :
    checkCause g guarded pos i = some cResource := by
  simp only [checkCause, hwf, guard_covers hguard, hl, role_passes hrole, hf]
  rfl

variable (hfits : (operands i).all (Opd.fits g.vregs g.sregs g.barriers g.tiles) = true)
include hfits

theorem checkCause_privilege (hpr : privileged i = true) (hu : g.priv = .user) :
    checkCause g guarded pos i = some cPrivilege := by
  simp only [checkCause, hwf, guard_covers hguard, hl, role_passes hrole, hfits, hpr, hu]
  rfl

theorem checkCause_none (hpr : privileged i = false ∨ g.priv = .supervisor) : checkCause g guarded pos i = none := by
  simp only [checkCause, hwf, guard_covers hguard, hl, role_passes hrole, hfits, privilege_passes hpr]
  rfl

end Legal

/-- What registers' contents decide comes before every cause of the fields but illegal-instruction. -/
theorem firstCause_dyn {static : Option Nat} {c : Nat} (h : static ≠ some cIllegal) : firstCause static (some c) = some c := by
  unfold firstCause
  split
  · exact absurd rfl h
  · next he => exact he.symm
  · next he => cases he

/-- A code or register field the spec refuses comes before what registers' contents decide. -/
theorem firstCause_illegal (dyn : Option Nat) : firstCause (some cIllegal) dyn = some cIllegal := rfl

theorem firstCause_none (static : Option Nat) : firstCause static none = static := by
  unfold firstCause
  split
  · rfl
  · next he => cases he
  · rfl

/-- The operands of an instruction whose checks need them have not arrived. -/
def Late (g : Group) (i : Instr) : Prop := hasDyn i = true ∧ ∃ r ∈ sregsOf i, r ∈ g.busySregs

theorem late_iff (g : Group) (i : Instr) :
    (hasDyn i && (sregsOf i).any fun r => g.busySregs.contains r) = true ↔ Late g i := by
  simp [Late, List.any_eq_true]

theorem late_eq_false {g : Group} {i : Instr} (h : ¬ Late g i) :
    (hasDyn i && (sregsOf i).any fun r => g.busySregs.contains r) = false := by
  rwa [Bool.eq_false_iff, ne_eq, late_iff]

/-- With no answer outstanding, no operand is late. -/
theorem not_late_of_quiet {g : Group} (hl : g.loads = []) (ha : g.answers = []) (i : Instr) : ¬ Late g i := by
  rintro ⟨-, r, -, hr⟩
  simp [Group.busySregs, hl, ha] at hr

theorem State.answers_of_trapReady {s : State} {g : Group} (h : s.trapReady g = true) : g.answers = [] := by
  simp only [State.trapReady, Bool.and_eq_true, List.isEmpty_iff] at h
  obtain ⟨⟨ha, -⟩, -⟩ := h
  exact ha

/-- An instruction at the head of no chain traps with the first cause that holds. -/
theorem State.verdict_trap {s : State} {key : Nat} {g : Group} {ps : PSlot} {p : Path} {i : Instr} {c : Nat}
    (hc : g.chain = none) (hl : ¬ Late g i) (hr : s.trapReady g = true)
    (hf : firstCause (checkCause g (decide (p.gk ≠ 0)) 0 i) (s.dynOf key g i) = some c) :
    ∃ chained : Bool, s.verdict key g ps p i = .trap { Trap.of c with chain := chained } := by
  simp only [State.verdict, hc, late_eq_false hl, Bool.false_and, Bool.false_eq_true, if_false, hf, hr, if_true]
  exact ⟨_, rfl⟩

theorem issueCauses : Claims.IssueCauses := by
  intro i s g p hi hg hp
  refine ⟨exec_of_wait hi hg hp, exec_of_stop hi hg hp, fun hc hloads hready => ?_⟩
  intro traps fits
  have hlate := not_late_of_quiet hloads (State.answers_of_trapReady hready) i
  have raise : ∀ c, firstCause (checkCause g (decide (p.gk ≠ 0)) 0 i) (s.dynOf s.cur.key g i) = some c → traps c := by
    intro c hf
    obtain ⟨chained, hv⟩ := State.verdict_trap (ps := s.cur.pslot) hc hlate hready hf
    exact ⟨_, rfl, rfl, rfl, rfl, exec_of_trap hi hg hp hv⟩
  refine ⟨fun hill => raise _ ?_, fun hwf hguard => ?_⟩
  · rw [checkCause_illegal (by simpa using hill)]
    exact firstCause_illegal _
  have hguard' : decide (p.gk ≠ 0) = false ∨ laneFormat i = true := by simpa using hguard
  refine ⟨fun c hdyn => raise c ?_, fun hdyn => ?_⟩
  · rw [hdyn]
    exact firstCause_dyn (checkCause_ne_illegal hwf hguard')
  have raiseStatic : ∀ c, checkCause g (decide (p.gk ≠ 0)) 0 i = some c → traps c := fun c h =>
    raise c (by rw [hdyn, firstCause_none, h])
  refine ⟨fun hl => raiseStatic _ (checkCause_latch hwf hguard' hl), fun hl => ⟨fun hprod hg0 => ?_, fun hrole => ⟨fun hf => ?_, ?_⟩⟩⟩
  · exact raiseStatic _ (checkCause_role hwf hguard' hl hprod hg0)
  · exact raiseStatic _ (checkCause_resource hwf hguard' hl hrole hf)
  · exact fun hf hpr hu => raiseStatic _ (checkCause_privilege hwf hguard' hl hrole hf hpr hu)

/-! ### When an instruction goes -/

/-- A chain whose members all pass has no failing member. -/
theorem chainFail_members {g : Group} {gk : Nat} {js : List Instr} {pos : Nat}
    (h : ∀ n j, js[n]? = some j → checkCause g (decide (n + pos < gk)) (n + pos) j = none) :
    chainFail g gk pos (js.map Cand.member) = none := by
  induction js generalizing pos with
  | nil => rfl
  | cons j js ih =>
    have hj : checkCause g (decide (pos < gk)) pos j = none := by simpa using h 0 j rfl
    have hrest : chainFail g gk (pos + 1) (js.map Cand.member) = none :=
      ih fun n j hn => by rw [show n + (pos + 1) = n + 1 + pos by omega]; exact h (n + 1) j hn
    simp [chainFail, candCause, hj, hrest]

section Chain
variable {s : State} {key : Nat} {g : Group} {ps : PSlot} {p : Path} {i : Instr}

theorem State.verdict_inChain {c : Chain} (hc : g.chain = some c) :
    s.verdict key g ps p i = if c.slot = ps then
      .go (some c.pos) (if c.pos + 1 < c.len then some { c with pos := c.pos + 1, rest := c.rest.tail } else none)
    else .wait := by
  simp only [State.verdict, hc]

theorem State.verdict_late (hc : g.chain = none) (hwf : WellFormed.wf i = true) (hl : Late g i) :
    s.verdict key g ps p i = .wait := by
  simp only [State.verdict, hc, (late_iff g i).mpr hl, hwf, Bool.and_self, if_true]

/-- The followers of a leader whose whole chain is legal (01 R24). -/
theorem filterMap_members {f : Cand → Option Instr} (hf : ∀ j, f (.member j) = some j) (js : List Instr) :
    (js.map Cand.member).filterMap f = js := by
  rw [List.filterMap_map, (funext hf : f ∘ Cand.member = some), List.filterMap_some]

/-- Slot A may run ahead by no more instructions: one of another kind, or `n` more than 32 in all (01 R40). -/
def Group.runAheadFull (g : Group) (ps : PSlot) (i : Instr) (n : Nat) : Bool :=
  match g.split with
  | some m => decide (ps = .a) && (!runAhead i || decide (32 < m + n))
  | none => false

theorem Group.runAheadFull_iff {n : Nat} :
    g.runAheadFull ps i n = true ↔ ∃ m, g.split = some m ∧ ps = .a ∧ (runAhead i = false ∨ 32 < m + n) := by
  unfold Group.runAheadFull
  cases g.split <;> simp

/-- Something holds an instruction that has passed its checks, or one of its followers. -/
def State.holds (s : State) (key : Nat) (g : Group) (ps : PSlot) (p : Path) (i : Instr) (js : List Instr) : Bool :=
  g.runAheadFull ps i (js.length + 1) || (accesses i && !g.asked.isEmpty) || (!p.isHeld && s.ordersFirst key g ps i)
    || g.behind ps p i || (i :: js).any (s.registersBusy g p)

theorem State.holds_iff {js : List Instr} :
    s.holds key g ps p i js = true ↔
      (∃ n, g.split = some n ∧ ps = .a ∧ (runAhead i = false ∨ 32 < n + (js.length + 1)))
      ∨ (g.asked ≠ [] ∧ accesses i = true) ∨ (p.isHeld = false ∧ s.ordersFirst key g ps i = true) ∨ g.behind ps p i = true
      ∨ ∃ j ∈ i :: js, s.registersBusy g p j = true := by
  simp only [State.holds, Bool.or_eq_true, Group.runAheadFull_iff, Bool.and_eq_true, Bool.not_eq_true', List.any_eq_true,
    List.isEmpty_eq_false_iff, or_assoc, and_comm]

/-- An instruction that passes every check, its followers too, waits where something holds it and else goes. -/
theorem State.verdict_passed {js : List Instr} (hc : g.chain = none) (hl : ¬ Late g i)
    (hcands : (if latchEligible i && (latchReads i).isEmpty then
        s.chainScan (key / 128) (s.asidOf g) p.jp 3 (p.pc + BitVec.ofNat 64 i.size) else []) = js.map Cand.member)
    (hself : firstCause (checkCause g (decide (p.gk ≠ 0)) 0 i) (s.dynOf key g i) = none)
    (hmembers : chainFail g p.gk 1 (js.map Cand.member) = none) :
    s.verdict key g ps p i = if s.holds key g ps p i js then .wait
      else if js.isEmpty then .go (if latchEligible i && (latchReads i).isEmpty then some 0 else none) none
      else .go (some 0) (some ⟨ps, 1, js.length + 1, p.pc, js⟩) := by
  simp only [State.verdict, hc, late_eq_false hl, Bool.false_and, Bool.false_eq_true, if_false, hcands, hself, hmembers,
    List.isEmpty_map]
  rw [filterMap_members fun _ => rfl]
  rfl

end Chain

theorem issueGoes : Claims.IssueGoes := by
  intro i s g p js ps decides heads late ahead after first busy
  refine ⟨fun c hc => ?_, fun hc hwf hl => State.verdict_late hc hwf hl, ?_⟩
  · have hv : decides = _ := State.verdict_inChain hc
    exact ⟨fun h => hv.trans (if_pos h), fun h => hv.trans (if_neg h)⟩
  · intro hc hwf hguard hlate hdyn hl hrole hfits hpr hscan halone hmembers
    have hcands : (if latchEligible i && (latchReads i).isEmpty then
        s.chainScan (s.cur.key / 128) (s.asidOf g) p.jp 3 (p.pc + BitVec.ofNat 64 i.size) else []) = js.map Cand.member := by
      by_cases h : heads
      · rw [if_pos (by simp [h.1, h.2]), hscan h]
      · rw [if_neg (by simpa [heads] using h), halone h, List.map_nil]
    have hself : firstCause (checkCause g (decide (p.gk ≠ 0)) 0 i) (s.dynOf s.cur.key g i) = none := by
      rw [hdyn, firstCause_none, checkCause_none hwf (by simpa using hguard) hl hrole hfits hpr]
    have hv : decides = _ := State.verdict_passed (ps := ps) hc hlate hcands hself (chainFail_members hmembers)
    rw [hv]
    refine ⟨fun h => if_pos (State.holds_iff.mpr h), fun h => ?_⟩
    rw [if_neg (fun hb => h (State.holds_iff.mp hb))]
    cases js with
    | nil => simp [hl]
    | cons j js =>
      have hhead : latchEligible i = true := by
        by_contra hno
        exact List.cons_ne_nil j js (halone fun hh => hno hh.1)
      simp [hhead]

end Sys2Proof.Machine

open Sys2Proof.Machine in
/-- Settles O28: each cause is the first that `checkCause` and the registers decide, and an instruction that passes waits exactly where
`State.holds` says. -/
theorem issueChecks : Obligations.IssueChecks := ⟨issueCauses, issueGoes⟩

/-! ## Control instructions (01 R30 to R38; 04 R141 to R143) -/

namespace Sys2Proof.Machine

/-! ### Targets -/

theorem badTarget_iff (t : Int) : badTarget t = true ↔ t < 0 ∨ 2 ^ 56 ≤ t := by
  simp [badTarget]

theorem badTarget_eq_false {t : Int} (h0 : 0 ≤ t) (h1 : t < 2 ^ 56) : badTarget t = false := by
  rw [Bool.eq_false_iff, ne_eq, badTarget_iff]; omega

theorem badPair_eq_false {x : Nat} (h0 : x % 2 = 0) (h1 : x < 2 ^ 56) : badPair x = false := by
  simp [badPair, h0]; omega

/-! ### Completing elsewhere than at the next instruction -/

theorem Ctx.retireAt_of_path {c : Ctx} {k : Group} {q : Path} (hq : k.path c.ps = some q) (pc : DWord) :
    c.retireAt k pc = c.s.setGroup c.key (c.s.atBoundary (k.setPath c.ps (some (q.advance pc)))) := by
  simp only [Ctx.retireAt, hq]

@[simp] theorem Group.chain_setPath (g : Group) (ps : PSlot) (x : Option Path) : (g.setPath ps x).chain = g.chain := by
  cases ps <;> rfl
@[simp] theorem Group.dsp_setPath (g : Group) (ps : PSlot) (x : Option Path) : (g.setPath ps x).dsp = g.dsp := by
  cases ps <;> rfl
@[simp] theorem Group.nextB_setPath (g : Group) (ps : PSlot) (x : Option Path) : (g.setPath ps x).nextB = g.nextB := by
  cases ps <;> rfl
@[simp] theorem Group.fuse_setPath (g : Group) (ps : PSlot) (x : Option Path) : (g.setPath ps x).fuse = g.fuse := by
  cases ps <;> rfl

theorem SameGroup.setPath {g k : Group} (h : SameGroup g k) (ps : PSlot) (x : Option Path) : SameGroup g (k.setPath ps x) := by
  cases ps <;> exact h

section RegsOnly
variable {k0 k : Group} (h : RegsOnly k0 k)
include h

theorem RegsOnly.same {g : Group} (hs : SameGroup g k0) : SameGroup g k := by
  unfold SameGroup RegsOnly at *
  rw [← h] at hs
  exact hs

theorem RegsOnly.path (ps : PSlot) : k.path ps = k0.path ps := by
  rw [← h]; cases ps <;> rfl

theorem RegsOnly.chain : k.chain = k0.chain := by rw [← h]
theorem RegsOnly.dsp : k.dsp = k0.dsp := by rw [← h]
theorem RegsOnly.nextB : k.nextB = k0.nextB := by rw [← h]
theorem RegsOnly.fuse : k.fuse = k0.fuse := by rw [← h]

theorem RegsOnly.setSr64 (r x : Nat) : RegsOnly k0 (k.setSr64 r x) := h

end RegsOnly

section Completing
variable {i : Instr} {s : State} {g : Group} {p : Path} {latch : Option Nat} {chain : Option Chain}

theorem Started.same (i : Instr) (s : State) (g : Group) (p : Path) (chain : Option Chain) : SameGroup g (Started i s g p chain) := rfl

/-- An instruction that moves its path and nothing else completes at its target. -/
theorem completesAt_goto (h : Goes i s g p latch chain) {pc : DWord}
    (he : exec i s = .next ((Issuing i s g p latch chain).retireAt (Started i s g p chain) pc)) :
    CompletesAt i s s g p chain g.regs pc :=
  completesAt_retire (k := Started i s g p chain) p.act latch _ p _ rfl ((Started.path ..).trans h.path) rfl (Started.path ..)
    rfl rfl rfl rfl he

/-- An instruction that also changes its group's registers, and its path in what fusing does not look at. -/
theorem completesAt_repath {k : Group} {p1 : Path} {pc : DWord} (hk : RegsOnly (Started i s g p chain) k)
    (hf : s.fuseNext s.cur.key g s.cur.pslot p1 i chain = s.fuseNext s.cur.key g s.cur.pslot p i chain)
    (he : exec i s = .next ((Issuing i s g p latch chain).retireAt (k.setPath s.cur.pslot (some p1)) pc)) :
    CompletesAt i s s g p1 chain k.regs pc := by
  rw [← Group.regs_setPath k s.cur.pslot (some p1)]
  exact completesAt_retire p.act latch _ p _ ((hk.same (Started.same ..)).setPath _ _) (Group.path_setPath ..) rfl
    ((Group.path_other_setPath ..).trans ((hk.path _).trans (Started.path ..))) ((Group.chain_setPath ..).trans hk.chain)
    ((Group.dsp_setPath ..).trans hk.dsp) ((Group.nextB_setPath ..).trans hk.nextB)
    ((Group.fuse_setPath ..).trans (hk.fuse.trans hf.symm)) he

end Completing

/-! ### Jumps -/

/-- The depth of a path decides nothing of what fuses with its instruction. -/
theorem State.fuseNext_depth (s : State) (key : Nat) (g : Group) (ps : PSlot) (p : Path) (d : BitVec 8) (i : Instr)
    (chain : Option Chain) : s.fuseNext key g ps { p with depth := d } i chain = s.fuseNext key g ps p i chain := rfl

theorem ofNat_low_word (x : DWord) : BitVec.ofNat 32 x.toNat = x.extractLsb' 0 32 := by
  apply BitVec.eq_of_toNat_eq
  simp

theorem ofNat_high_word (x : DWord) : BitVec.ofNat 32 (x.toNat / 2 ^ 32) = x.extractLsb' 32 32 := by
  apply BitVec.eq_of_toNat_eq
  simp [Nat.shiftRight_eq_div_pow]

/-- Writing an address to a scalar pair writes its two words. -/
theorem Group.regs_setSr64 (g : Group) (r : Nat) (x : DWord) :
    (g.setSr64 r x.toNat).regs = (g.regs.scalar r (x.extractLsb' 0 32)).scalar (r + 1) (x.extractLsb' 32 32) := by
  rw [Group.setSr64, Group.regs_setSr, Group.regs_setSr, ofNat_low_word, ofNat_high_word]

section Jumps
variable {s : State} {g : Group} {p : Path} {latch : Option Nat} {chain : Option Chain}

theorem exec_jmp {o : BitVec 18} (h : Goes (.jmp o) s g p latch chain) :
    exec (.jmp o) s = if badTarget ((p.pc.toNat : Int) + 2 * o.toInt)
      then (Issuing (.jmp o) s g p latch chain).trap (addrTrap ((p.pc.toNat : Int) + 2 * o.toInt))
      else (Issuing (.jmp o) s g p latch chain).goto (Started (.jmp o) s g p chain) ((p.pc.toNat : Int) + 2 * o.toInt) := by
  unfold exec execJmp
  exact issue_go h _

theorem exec_call {o : BitVec 18} {l : BitVec 5} (h : Goes (.call o l) s g p latch chain) :
    exec (.call o l) s = if p.depth = 255 then (Issuing (.call o l) s g p latch chain).trap (Trap.of cCallDepth)
      else if badTarget ((p.pc.toNat : Int) + 2 * o.toInt)
      then (Issuing (.call o l) s g p latch chain).trap (addrTrap ((p.pc.toNat : Int) + 2 * o.toInt))
      else (Issuing (.call o l) s g p latch chain).goto
        (((Started (.call o l) s g p chain).setSr64 (2 * l.toNat) (p.pc + 4).toNat).setPath s.cur.pslot
          (some { p with depth := p.depth + 1 })) ((p.pc.toNat : Int) + 2 * o.toInt) := by
  rw [show p.pc + 4 = p.pc + BitVec.ofNat 64 (Instr.call o l).size by rw [Instr.size_call]; rfl]
  unfold exec execCall
  exact issue_go h _

theorem exec_ret {a : BitVec 8} (h : Goes (.ret a) s g p latch chain) :
    exec (.ret a) s = if p.depth = 0 then (Issuing (.ret a) s g p latch chain).trap (Trap.of cReturn)
      else if badPair (g.sr64 a.toNat) then (Issuing (.ret a) s g p latch chain).trap (addrTrap (g.sr64 a.toNat))
      else (Issuing (.ret a) s g p latch chain).goto ((Started (.ret a) s g p chain).setPath s.cur.pslot
        (some { p with depth := p.depth - 1 })) (g.sr64 a.toNat) := by
  unfold exec execRet
  exact issue_go h _

theorem exec_brx {a : BitVec 8} (h : Goes (.brx a) s g p latch chain) :
    exec (.brx a) s = if badPair (g.sr64 a.toNat) then (Issuing (.brx a) s g p latch chain).trap (addrTrap (g.sr64 a.toNat))
      else (Issuing (.brx a) s g p latch chain).goto (Started (.brx a) s g p chain) (g.sr64 a.toNat) := by
  unfold exec execBrx
  exact issue_go h _

theorem jmp_completes {o : BitVec 18} (h : Goes (.jmp o) s g p latch chain) (h0 : 0 ≤ (p.pc.toNat : Int) + 2 * o.toInt)
    (h1 : (p.pc.toNat : Int) + 2 * o.toInt < 2 ^ 56) :
    CompletesAt (.jmp o) s s g p chain g.regs (BitVec.ofInt 64 ((p.pc.toNat : Int) + 2 * o.toInt)) :=
  completesAt_goto h ((exec_jmp h).trans (if_neg (by simp [badTarget_eq_false h0 h1])))

theorem call_completes {o : BitVec 18} {l : BitVec 5} (h : Goes (.call o l) s g p latch chain) (hd : p.depth ≠ 255)
    (h0 : 0 ≤ (p.pc.toNat : Int) + 2 * o.toInt) (h1 : (p.pc.toNat : Int) + 2 * o.toInt < 2 ^ 56) :
    CompletesAt (.call o l) s s g { p with depth := p.depth + 1 } chain
      ((g.regs.scalar (2 * l.toNat) ((p.pc + 4).extractLsb' 0 32)).scalar (2 * l.toNat + 1) ((p.pc + 4).extractLsb' 32 32))
      (BitVec.ofInt 64 ((p.pc.toNat : Int) + 2 * o.toInt)) := by
  have he := exec_call h
  rw [if_neg hd, if_neg (by simp [badTarget_eq_false h0 h1])] at he
  have hk : RegsOnly (Started (.call o l) s g p chain) (Started (.call o l) s g p chain) := rfl
  have hc := completesAt_repath (hk.setSr64 (2 * l.toNat) (p.pc + 4).toNat) (State.fuseNext_depth ..) he
  rwa [Group.regs_setSr64, Started.regs] at hc

theorem ret_completes {a : BitVec 8} (h : Goes (.ret a) s g p latch chain) (hd : p.depth ≠ 0) (h0 : g.sr64 a.toNat % 2 = 0)
    (h1 : g.sr64 a.toNat < 2 ^ 56) :
    CompletesAt (.ret a) s s g { p with depth := p.depth - 1 } chain g.regs (BitVec.ofNat 64 (g.sr64 a.toNat)) := by
  have he := exec_ret h
  rw [if_neg hd, if_neg (by simp [badPair_eq_false h0 h1]), Ctx.goto, BitVec.ofInt_natCast] at he
  exact completesAt_repath (k := Started (.ret a) s g p chain) rfl (State.fuseNext_depth ..) he

theorem brx_completes {a : BitVec 8} (h : Goes (.brx a) s g p latch chain) (h0 : g.sr64 a.toNat % 2 = 0)
    (h1 : g.sr64 a.toNat < 2 ^ 56) :
    CompletesAt (.brx a) s s g p chain g.regs (BitVec.ofNat 64 (g.sr64 a.toNat)) := by
  have he := exec_brx h
  rw [if_neg (by simp [badPair_eq_false h0 h1]), Ctx.goto, BitVec.ofInt_natCast] at he
  exact completesAt_goto h he

theorem nop_completes (h : Goes .nop s g p latch chain) : Completes .nop s g p chain 0 g.regs :=
  completes_done h 0 (Started .nop s g p chain) rfl (by unfold exec execNop; exact issue_go h _)

/-- YIELD only begins a later Ready interval. -/
theorem yield_completes (h : Goes .yield s g p latch chain) : Completes .yield s g p chain 0 g.regs :=
  completesAt_retire (k := { Started .yield s g p chain with since := s.now + 2 }) p.act latch (Started .yield s g p chain) p
    (p.pc + BitVec.ofNat 64 Instr.yield.size) rfl ((Started.path .yield s g p chain _).trans h.path) rfl
    (Started.path .yield s g p chain _) rfl rfl rfl rfl (by unfold exec execYield; exact issue_go h _)

end Jumps

theorem jumpResults : Claims.JumpResults := by
  intro o l a s g p latch chain t x
  exact ⟨jmp_completes, call_completes, ret_completes, brx_completes, nop_completes, yield_completes⟩

/-! ### Branches -/

/-- The path of the lanes that take a branch. -/
def branchPath (p : Path) (taken : Word) (t : Int) : Path :=
  { p with mask := taken, pc := BitVec.ofInt 64 t, replay := none, wait := .ready }

section Branches
variable {s : State} {g : Group} {p : Path} {latch : Option Nat} {chain : Option Chain} {o : BitVec 18} {q : BitVec 5}
  {n u : BitVec 1} (h : Goes (.bra o q n u) s g p latch chain) (hbad : badTarget ((p.pc.toNat : Int) + 2 * o.toInt) = false)
include h hbad

theorem exec_bra_none (htaken : p.act &&& psrc g n q = 0) :
    exec (.bra o q n u) s = (Issuing (.bra o q n u) s g p latch chain).done (Started (.bra o q n u) s g p chain) := by
  unfold exec execBra
  refine (issue_go h _).trans ?_
  exact (if_neg fun hu => hu.2.1 htaken).trans ((if_neg (Bool.eq_false_iff.mp hbad)).trans (if_pos htaken))

theorem exec_bra_all (htaken : p.act &&& psrc g n q ≠ 0) (hrest : p.act &&& ~~~psrc g n q = 0) :
    exec (.bra o q n u) s = (Issuing (.bra o q n u) s g p latch chain).goto (Started (.bra o q n u) s g p chain)
      ((p.pc.toNat : Int) + 2 * o.toInt) := by
  unfold exec execBra
  refine (issue_go h _).trans ?_
  exact (if_neg fun hu => hu.2.2 hrest).trans
    ((if_neg (Bool.eq_false_iff.mp hbad)).trans ((if_neg htaken).trans (if_pos hrest)))

theorem exec_bra_divides (htaken : p.act &&& psrc g n q ≠ 0) (hrest : p.act &&& ~~~psrc g n q ≠ 0) (hu : u = 0)
    (hother : g.path s.cur.pslot.other = none) :
    exec (.bra o q n u) s = (Issuing (.bra o q n u) s g p latch chain).done
      (((Started (.bra o q n u) s g p chain).setPath s.cur.pslot.other
        (some (branchPath p (p.act &&& psrc g n q) ((p.pc.toNat : Int) + 2 * o.toInt)))).setPath s.cur.pslot
          (some { p with mask := p.act &&& ~~~psrc g n q })) := by
  have hpath : (Issuing (.bra o q n u) s g p latch chain).g.path (Issuing (.bra o q n u) s g p latch chain).ps.other = none :=
    (Started.path ..).trans hother
  unfold exec execBra
  refine (issue_go h _).trans ?_
  refine (if_neg fun hc => by rw [hu] at hc; exact absurd hc.1 (by decide)).trans
    ((if_neg (Bool.eq_false_iff.mp hbad)).trans ((if_neg htaken).trans ((if_neg hrest).trans ?_)))
  simp only [hpath]
  rfl

end Branches

section Divides
variable {i : Instr} {s : State} {g : Group} {p : Path} {latch : Option Nat} {chain : Option Chain} {moved rest : Path}

/-- The group as issued with both of its slots set. -/
theorem Started.same_setPaths (x y : Option Path) :
    SameGroup g (((Started i s g p chain).setPath s.cur.pslot.other x).setPath s.cur.pslot y) :=
  ((Started.same ..).setPath _ x).setPath _ y

/-- An instruction that fills the other slot and goes on leaves the rest of its group as it was. -/
theorem divides_completes (he : exec i s = (Issuing i s g p latch chain).done
      (((Started i s g p chain).setPath s.cur.pslot.other (some moved)).setPath s.cur.pslot (some rest))) :
    ∃ k, exec i s = .next (s.setGroup s.cur.key k) ∧ k.regs = g.regs ∧ SameGroup g k
      ∧ ∃ k0 : Group, k = s.atBoundary k0 ∧ k0.dsp = g.dsp
        ∧ k0.path s.cur.pslot = some (rest.advance (p.pc + BitVec.ofNat 64 i.size)) ∧ k0.path s.cur.pslot.other = some moved := by
  rw [Ctx.done_eq, Ctx.retireAt_of_path (c := Issuing i s g p latch chain) (Group.path_setPath _ s.cur.pslot _)] at he
  refine ⟨_, he, ?_, (State.atBoundary_paths ..).same ((Started.same_setPaths _ _).setPath _ _), _, rfl, ?_,
    Group.path_setPath .., ?_⟩
  · rw [(State.atBoundary_paths ..).regs, Group.regs_setPath, Group.regs_setPath, Group.regs_setPath, Started.regs]
  · rw [Group.dsp_setPath, Group.dsp_setPath, Group.dsp_setPath]
    rfl
  · refine (Group.path_other_setPath ..).trans ((Group.path_other_setPath ..).trans ?_)
    exact Group.path_setPath ..

end Divides

theorem branchResults : Claims.BranchResults := by
  intro o q n u s g p latch chain h t taken rest h0 h1
  have hbad := badTarget_eq_false h0 h1
  refine ⟨fun ht => ?_, fun ht hr => ?_, fun ht hr hu hother => ?_⟩
  · exact completes_done h 0 (Started (.bra o q n u) s g p chain) rfl (exec_bra_none h hbad ht)
  · exact completesAt_goto h (exec_bra_all h hbad ht hr)
  · have hd := divides_completes (exec_bra_divides h hbad ht hr hu hother)
    rw [Instr.size_bra] at hd
    exact hd

end Sys2Proof.Machine

open Sys2Proof.Machine in
/-- Settles O13: each instruction is its own branch of the model where its target is an address, and completes there. -/
theorem jumpAndBranchResults : Obligations.JumpAndBranchResults := ⟨jumpResults, branchResults⟩

/-! ## GRD where the group has no issue boundary (02 R68; 10 R310) -/

namespace Sys2Proof.Machine

theorem State.setGroup_inj {s : State} {key : Nat} {g k : Group} (h : s.setGroup key g = s.setGroup key k) : g = k := by
  have hk := congrArg (fun t : State => t.group key) h
  simpa [State.group_setGroup] using hk

theorem PathsOnly.stop {g k : Group} (h : PathsOnly g k) : k.stop = g.stop := by rw [← h]

/-- While a trap of the group waits there is no issue boundary. -/
theorem State.atBoundary_of_stop {s : State} {g : Group} (h : g.stop.isSome = true) : s.atBoundary g = g := by
  simp [State.atBoundary, h]

/-- A group that is at its boundary with a trap of it waiting is as it was before. -/
theorem State.eq_of_atBoundary_of_stop {s : State} {g k : Group} (hk : k = s.atBoundary g) (h : k.stop.isSome = true) : k = g := by
  have hg : g.stop.isSome = true := by rw [← (s.atBoundary_paths g).stop, ← hk]; exact h
  rw [hk, State.atBoundary_of_stop hg]

/-- A path alone in slot B, with nothing on the stack, moves to slot A. -/
theorem State.settle_alone_in_b {s : State} {g : Group} {p : Path} (ha : g.slotA = none) (hb : g.slotB = some p) (hd : g.dsp = 0) :
    s.settle g = { g with slotA := some p, slotB := none, split := none } := by
  have hmove : s.boundary g = some { g with slotA := some p, slotB := none, split := none } := by
    simp only [State.boundary, ha, hb]
  have hdone : s.boundary { g with slotA := some p, slotB := none, split := none } = none := by
    simp [State.boundary, State.stackTop, hd]
  change s.settleFrom (258 + 2) g = _
  simp only [State.settleFrom, hmove, hdone]

/-- The path after GRD: its next instructions are guarded. -/
def guardedPath (g : Group) (p : Path) (c : BitVec 2) (n : BitVec 1) (q : BitVec 5) (nxt : DWord) : Path :=
  { p with pc := nxt, gk := c.toNat + 1, gg := psrc g n q &&& p.act, replay := none, wait := .ready }

/-- GRD settles the paths of its group, whether or not the group is at an issue boundary. -/
theorem exec_grd {c : BitVec 2} {n : BitVec 1} {q : BitVec 5} {s : State} {g : Group} {p : Path} {latch : Option Nat}
    {chain : Option Chain} (h : Goes (.grd c n q) s g p latch chain) :
    exec (.grd c n q) s = .next (s.setGroup s.cur.key (s.settle ((Started (.grd c n q) s g p chain).setPath s.cur.pslot
      (some (guardedPath g p c n q (p.pc + BitVec.ofNat 64 (Instr.grd c n q).size)))))) := by
  unfold exec execGrd
  exact issue_go h _

/-- A group whose one path stands in slot B, while a trap of it waits for what the group has issued. -/
def waitingGroup : Group :=
  { Group.start ⟨0, 0, 0, 0, 0, 0, true, .user, none, Freeze.none⟩ ⟨1, 1, 0, 0, 0, 0, 0, false, 0⟩ 0 [] 0 with
    slotA := none, slotB := some (entryPath 0), stop := some .b }

/-- The machine with that group at its issue point. -/
def waitingState : State := { State.reset with groups := [(0, waitingGroup)], cur := ⟨0, 0, .b⟩ }

theorem waitingState_goes :
    Goes (.grd 0 0 0) waitingState (waitingState.veil waitingGroup (.grd 0 0 0)) (entryPath 0) none none where
  group := ⟨waitingGroup, rfl, rfl, by decide⟩
  path := rfl

end Sys2Proof.Machine

open Sys2Proof.Machine in
/-- Refutes O14, in its clause on GRD: `Goes` asks for no issue boundary, and `execGrd` settles the paths without one, where the
statement has `State.atBoundary` do it, which holds them while a trap of the group waits. In `waitingState` GRD moves the path from
slot B to slot A; the statement keeps it in slot B. -/
theorem not_divergenceResults : ¬ Obligations.DivergenceResults := by
  rintro ⟨hdiverging, -⟩
  obtain ⟨-, -, -, -, hgrd⟩ := hdiverging 0 0 0 0 0 _ _ _ _ _
  obtain ⟨k, hexec, -, -, k0, hk, -, hpath⟩ := hgrd waitingState_goes
  rw [exec_grd waitingState_goes] at hexec
  have hsettled := State.setGroup_inj (Host.Outcome.next.inj hexec)
  rw [State.settle_alone_in_b rfl rfl rfl] at hsettled
  have hk0 : k = k0 := State.eq_of_atBoundary_of_stop hk (hsettled ▸ rfl)
  have hempty : k.slotB = none := hsettled ▸ rfl
  have hfull : k.slotB = some _ := hk0 ▸ hpath
  rw [hempty] at hfull
  cases hfull

/-! ## The fields of a float pattern (03 R82) -/

namespace Sys2Proof.Machine

/-- The pattern with a sign, an exponent field and a fraction field. -/
def FFmt.pack (f : FFmt) (neg : Bool) (ex fr : Nat) : Nat := (neg.toNat * 2 ^ f.ebits + ex) * 2 ^ f.mbits + fr

theorem FFmt.sign_eq (f : FFmt) : f.sign = 2 ^ f.ebits * 2 ^ f.mbits := Nat.pow_add ..

theorem FFmt.two_pow_width (f : FFmt) : 2 ^ f.width = 2 * f.sign := by rw [f.sign_eq, FFmt.width]; ring

theorem FFmt.zero_eq (f : FFmt) (neg : Bool) : f.zero neg = neg.toNat * f.sign := by cases neg <;> simp [FFmt.zero]

theorem FFmt.zero_add_eq_pack (f : FFmt) (neg : Bool) (ex fr : Nat) :
    f.zero neg + (ex * 2 ^ f.mbits + fr) = f.pack neg ex fr := by
  rw [f.zero_eq, f.sign_eq, FFmt.pack]; ring

theorem FFmt.zero_eq_pack (f : FFmt) (neg : Bool) : f.zero neg = f.pack neg 0 0 := by simp [← f.zero_add_eq_pack]

theorem FFmt.infinity_eq_pack (f : FFmt) (neg : Bool) : f.infinity neg = f.pack neg (2 ^ f.ebits - 1) 0 := by
  rw [← f.zero_add_eq_pack, add_zero]; rfl

theorem FFmt.eq_pack (f : FFmt) {x : Nat} (hx : x < 2 ^ f.width) :
    ∃ neg ex fr, ex < 2 ^ f.ebits ∧ fr < 2 ^ f.mbits ∧ x = f.pack neg ex fr := by
  refine ⟨decide (x / 2 ^ f.mbits / 2 ^ f.ebits = 1), x / 2 ^ f.mbits % 2 ^ f.ebits, x % 2 ^ f.mbits,
    Nat.mod_lt _ (by positivity), Nat.mod_lt _ (by positivity), ?_⟩
  have hsign : x / 2 ^ f.mbits / 2 ^ f.ebits < 2 := by
    rw [Nat.div_div_eq_div_mul]
    exact Nat.div_lt_of_lt_mul (by rwa [f.two_pow_width, f.sign_eq, mul_comm, mul_comm (2 ^ f.ebits)] at hx)
  have hbit : (decide (x / 2 ^ f.mbits / 2 ^ f.ebits = 1)).toNat = x / 2 ^ f.mbits / 2 ^ f.ebits := by
    generalize x / 2 ^ f.mbits / 2 ^ f.ebits = b at hsign
    interval_cases b <;> rfl
  rw [FFmt.pack, hbit, Nat.div_add_mod', Nat.div_add_mod']

section
variable {f : FFmt} {neg : Bool} {ex fr : Nat}

theorem FFmt.bits_fraction_pack (hfr : fr < 2 ^ f.mbits) : bits (f.pack neg ex fr) 0 f.mbits = fr := by
  rw [bits, pow_zero, Nat.div_one, FFmt.pack, Nat.mul_add_mod_of_lt hfr]

theorem FFmt.pack_div (hfr : fr < 2 ^ f.mbits) : f.pack neg ex fr / 2 ^ f.mbits = neg.toNat * 2 ^ f.ebits + ex := by
  rw [FFmt.pack, mul_comm, Nat.mul_add_div (by positivity), Nat.div_eq_of_lt hfr, add_zero]

theorem FFmt.bits_exponent_pack (hex : ex < 2 ^ f.ebits) (hfr : fr < 2 ^ f.mbits) :
    bits (f.pack neg ex fr) f.mbits f.ebits = ex := by
  rw [bits, pack_div hfr, Nat.mul_add_mod_of_lt hex]

theorem FFmt.bit_sign_pack (hex : ex < 2 ^ f.ebits) (hfr : fr < 2 ^ f.mbits) :
    bit (f.pack neg ex fr) (f.ebits + f.mbits) = neg := by
  rw [bit, add_comm, pow_add, ← Nat.div_div_eq_div_mul, pack_div hfr, mul_comm, Nat.mul_add_div (by positivity),
    Nat.div_eq_of_lt hex]
  cases neg <;> rfl

theorem FFmt.pack_true : f.pack true ex fr = f.pack false ex fr + f.sign := by
  simp [← f.zero_add_eq_pack, FFmt.zero, add_comm]

theorem FFmt.pack_false_lt (hex : ex < 2 ^ f.ebits) (hfr : fr < 2 ^ f.mbits) : f.pack false ex fr < f.sign := by
  rw [f.sign_eq, FFmt.pack, Bool.toNat_false, zero_mul, zero_add]
  calc ex * 2 ^ f.mbits + fr < (ex + 1) * 2 ^ f.mbits := by rw [add_mul, one_mul]; omega
    _ ≤ 2 ^ f.ebits * 2 ^ f.mbits := Nat.mul_le_mul_right _ hex

/-- Adding the sign bit, and dropping the carry, turns the sign. -/
theorem FFmt.pack_add_sign_mod (hex : ex < 2 ^ f.ebits) (hfr : fr < 2 ^ f.mbits) :
    (f.pack neg ex fr + f.sign) % 2 ^ f.width = f.pack (!neg) ex fr := by
  have hlt := pack_false_lt hex hfr
  rw [f.two_pow_width]
  cases neg
  · rw [Bool.not_false, FFmt.pack_true]; exact Nat.mod_eq_of_lt (by omega)
  · rw [Bool.not_true, FFmt.pack_true, add_assoc, ← two_mul, Nat.add_mod_right]; exact Nat.mod_eq_of_lt (by omega)

/-! ## The value of a pattern, and its delivery (03 R82 to R84) -/

theorem FFmt.decode_pack (hex : ex < 2 ^ f.ebits) (hfr : fr < 2 ^ f.mbits) :
    f.decode (f.pack neg ex fr) =
      if ex = 2 ^ f.ebits - 1 then if fr = 0 then .inf neg else .nan (!bit (f.pack neg ex fr) (f.mbits - 1))
      else if ex = 0 then .fin neg fr f.qmin
      else .fin neg (2 ^ f.mbits + fr) (f.qmin + (ex : Int) - 1) := by
  rw [FFmt.decode, bit_sign_pack hex hfr, bits_exponent_pack hex hfr, bits_fraction_pack hfr]

theorem FFmt.decode_infinity : f.decode (f.infinity neg) = .inf neg := by
  rw [f.infinity_eq_pack, decode_pack (Nat.sub_lt (by positivity) one_pos) (by positivity), if_pos rfl, if_pos rfl]

theorem FFmt.decode_zero (he : 0 < f.ebits) : f.decode (f.zero neg) = .fin neg 0 f.qmin := by
  have hone : 2 ^ 1 ≤ 2 ^ f.ebits := Nat.pow_le_pow_right two_pos he
  rw [f.zero_eq_pack, decode_pack (by positivity) (by positivity), if_neg (by omega), if_pos rfl]

/-- Turning the sign bit of a finite pattern negates its value. -/
theorem FFmt.decode_add_sign {x m : Nat} {e : Int} (hx : x < 2 ^ f.width) (hfin : f.decode x = .fin neg m e) :
    f.decode ((x + f.sign) % 2 ^ f.width) = .fin (!neg) m e := by
  obtain ⟨n, ex, fr, hex, hfr, rfl⟩ := f.eq_pack hx
  rw [pack_add_sign_mod hex hfr]
  rw [decode_pack hex hfr] at hfin ⊢
  split_ifs at hfin ⊢ <;> cases hfin <;> rfl

variable (mode : RMode)

theorem FFmt.deliver_zero (e : Int) : f.deliver mode (.fin neg 0 e) = (f.zero neg, 0) := rfl

/-- A value whose exponent is the one its rounding keeps is delivered exactly. -/
theorem FFmt.round_of_exact {m : Nat} {e : Int} (hexp : max (msb m e - (f.mbits : Int)) f.qmin = e)
    (hmag : (e - f.qmin).toNat * 2 ^ f.mbits + m < f.inf) :
    f.round mode neg m e = (f.zero neg + ((e - f.qmin).toNat * 2 ^ f.mbits + m), 0) := by
  have hshift : roundShift mode neg m (e - e) = (m, false) := by simp [roundShift]
  simp only [FFmt.round, hexp, hshift, if_neg (Nat.not_le.mpr hmag)]
  simp [FFmt.zero, flagIf]

/-- The leading bit of a subnormal lies below the fraction's width, so rounding keeps the least exponent. -/
theorem FFmt.round_subnormal (he : 1 < f.ebits) (hm : fr ≠ 0) (hfr : fr < 2 ^ f.mbits) :
    f.round mode neg fr f.qmin = (f.pack neg 0 fr, 0) := by
  have hlog := (Nat.log2_lt hm).2 hfr
  have hinf : 2 ^ f.mbits ≤ f.inf := Nat.le_mul_of_pos_left _ (by have := Nat.pow_le_pow_right two_pos he; omega)
  rw [round_of_exact mode (by rw [msb]; omega) (by simp; omega), sub_self, Int.toNat_zero, f.zero_add_eq_pack]

/-- The leading bit of a normal is the hidden one, so rounding keeps the exponent of its field. -/
theorem FFmt.round_normal (hex0 : ex ≠ 0) (hex : ex < 2 ^ f.ebits - 1) (hfr : fr < 2 ^ f.mbits) :
    f.round mode neg (2 ^ f.mbits + fr) (f.qmin + (ex : Int) - 1) = (f.pack neg ex fr, 0) := by
  have hlog : Nat.log2 (2 ^ f.mbits + fr) = f.mbits :=
    (Nat.log2_eq_iff (by positivity)).2 ⟨Nat.le_add_right .., by rw [pow_succ]; omega⟩
  have hfield : (f.qmin + (ex : Int) - 1 - f.qmin).toNat = ex - 1 := by omega
  have hmag : (ex - 1) * 2 ^ f.mbits + (2 ^ f.mbits + fr) = ex * 2 ^ f.mbits + fr := by
    rw [← add_assoc, ← Nat.succ_mul, Nat.succ_eq_add_one, Nat.sub_add_cancel (Nat.one_le_iff_ne_zero.2 hex0)]
  have hinf : ex * 2 ^ f.mbits + fr < f.inf :=
    calc ex * 2 ^ f.mbits + fr < (ex + 1) * 2 ^ f.mbits := by rw [add_mul, one_mul]; omega
      _ ≤ f.inf := Nat.mul_le_mul_right _ hex
  rw [round_of_exact mode (by rw [msb, hlog]; omega) (by rwa [hfield, hmag]), hfield, hmag, f.zero_add_eq_pack]

theorem FFmt.deliver_decode (he : 1 < f.ebits) {x : Nat} (hx : x < 2 ^ f.width) (hnan : (f.decode x).isNan = false) :
    f.deliver mode (f.decode x) = (x, 0) := by
  obtain ⟨neg, ex, fr, hex, hfr, rfl⟩ := f.eq_pack hx
  rw [decode_pack hex hfr] at hnan ⊢
  split_ifs at hnan ⊢ with htop hfr0 hex0
  · rw [htop, hfr0, ← f.infinity_eq_pack]; rfl
  · cases hnan
  · rw [hex0]
    by_cases hm : fr = 0
    · rw [hm, deliver_zero, f.zero_eq_pack]
    · rw [FFmt.deliver, if_neg hm, round_subnormal mode he hm hfr]
  · rw [FFmt.deliver, if_neg (by positivity), round_normal mode hex0 (by omega) hfr]

end

/-! ## Sums and products: the order of the operands, and exact zeros (03 R87) -/

theorem addFin_comm (mode : RMode) (n1 n2 : Bool) (m1 m2 : Nat) (e1 e2 : Int) :
    addFin mode n1 m1 e1 n2 m2 e2 = addFin mode n2 m2 e2 n1 m1 e1 := by
  have hsign : (if m1 = 0 ∧ m2 = 0 ∧ n1 = n2 then n1 else decide (mode = .rm))
      = if m2 = 0 ∧ m1 = 0 ∧ n2 = n1 then n2 else decide (mode = .rm) :=
    ite_congr (propext ⟨fun ⟨h1, h2, h⟩ => ⟨h2, h1, h.symm⟩, fun ⟨h2, h1, h⟩ => ⟨h1, h2, h.symm⟩⟩)
      (fun h => h.2.2.symm) fun _ => rfl
  simp only [addFin, min_comm e2 e1, add_comm (align n2 m2 e2 _), hsign]

theorem fpAdd_comm (mode : RMode) (a b : Fp) : fpAdd mode a b = fpAdd mode b a := by
  rcases a with s | n | ⟨n1, m1, e1⟩ <;> rcases b with t | k | ⟨n2, m2, e2⟩
  case nan.nan => rw [fpAdd, fpAdd, Bool.or_comm]
  case inf.inf => exact ite_congr (propext eq_comm) (fun h => by rw [h]) fun _ => rfl
  case fin.fin => rw [fpAdd, fpAdd, addFin_comm]
  all_goals rfl

theorem fpMul_comm (a b : Fp) : fpMul a b = fpMul b a := by
  rcases a with s | n | ⟨n1, m1, e1⟩ <;> rcases b with t | k | ⟨n2, m2, e2⟩
  case nan.nan => rw [fpMul, fpMul, Bool.or_comm]
  case inf.inf => rw [fpMul, fpMul, bne_comm]
  case inf.fin => rw [fpMul, fpMul, bne_comm]
  case fin.inf => rw [fpMul, fpMul, bne_comm]
  case fin.fin => rw [fpMul, fpMul, bne_comm, Nat.mul_comm, Int.add_comm]
  all_goals rfl

theorem FFmt.add_comm (f : FFmt) (mode : RMode) (x y : Nat) : f.add mode x y = f.add mode y x := by
  rw [FFmt.add, fpAdd_comm, FFmt.add]

theorem FFmt.mul_comm (f : FFmt) (mode : RMode) (x y : Nat) : f.mul mode x y = f.mul mode y x := by
  rw [FFmt.mul, fpMul_comm, FFmt.mul]

theorem align_not (neg : Bool) (m : Nat) (e e0 : Int) : align (!neg) m e e0 = -align neg m e e0 := by
  cases neg <;> simp [align]

/-- Two values that are not both zeros and cancel: of opposite signs and equal magnitudes. -/
theorem addFin_cancel (mode : RMode) {n1 n2 : Bool} {m1 m2 : Nat} {e1 e2 : Int} (hm : m2 ≠ 0) (hn : n2 ≠ n1)
    (hmag : m1 * 2 ^ (e1 - min e1 e2).toNat = m2 * 2 ^ (e2 - min e1 e2).toNat) :
    addFin mode n1 m1 e1 n2 m2 e2 = .fin (decide (mode = .rm)) 0 0 := by
  have hsum : align n1 m1 e1 (min e1 e2) + align n2 m2 e2 (min e1 e2) = 0 := by
    rw [Bool.eq_not.2 hn, align_not, align, align, hmag, add_neg_cancel]
  rw [addFin, if_pos hsum, if_neg fun h => hm h.2.1]

theorem addFin_zeros (mode : RMode) (n1 n2 : Bool) (e1 e2 : Int) :
    addFin mode n1 0 e1 n2 0 e2 = .fin (if n1 = n2 then n1 else decide (mode = .rm)) 0 0 := by
  simp [addFin, align]

section
variable {f : FFmt} {mode : RMode} {x y z : Nat} {n n1 n2 n3 : Bool} {m1 m2 m3 : Nat} {e e1 e2 e3 : Int}

theorem FFmt.add_of_sum_zero (hx : f.decode x = .fin n1 m1 e1) (hy : f.decode y = .fin n2 m2 e2)
    (hsum : addFin mode n1 m1 e1 n2 m2 e2 = .fin n 0 e) : f.add mode x y = (f.zero n, 0) := by
  simp only [FFmt.add, hx, hy, fpAdd, hsum, deliver_zero]
  rfl

theorem FFmt.sub_of_sum_zero (hx : f.decode x = .fin n1 m1 e1) (hy : f.decode y = .fin n2 m2 e2)
    (hsum : addFin mode n1 m1 e1 (!n2) m2 e2 = .fin n 0 e) : f.sub mode x y = (f.zero n, 0) := by
  simp only [FFmt.sub, hx, hy, Fp.negate, fpAdd, hsum, deliver_zero]
  rfl

theorem FFmt.fma_of_sum_zero (hx : f.decode x = .fin n1 m1 e1) (hy : f.decode y = .fin n2 m2 e2)
    (hz : f.decode z = .fin n3 m3 e3) (hsum : addFin mode (n1 != n2) (m1 * m2) (e1 + e2) n3 m3 e3 = .fin n 0 e) :
    f.fma mode x y z = (f.zero n, 0) := by
  simp only [FFmt.fma, hx, hy, hz, fpMul, fpAdd, hsum, deliver_zero]
  rfl

theorem FFmt.mul_of_product_zero (hx : f.decode x = .fin n1 m1 e1) (hy : f.decode y = .fin n2 m2 e2) (hprod : m1 * m2 = 0) :
    f.mul mode x y = (f.zero (n1 != n2), 0) := by
  simp only [FFmt.mul, hx, hy, fpMul, hprod, deliver_zero]
  rfl

theorem FFmt.div_infinity (hx : f.decode x = .fin n1 m1 e1) (k : Bool) : f.div x (f.infinity k) = (f.zero (n1 != k), 0) := by
  simp only [FFmt.div, hx, decode_infinity, fpDiv, deliver_zero]
  rfl

theorem FFmt.div_of_dividend_zero (hx : f.decode x = .fin n1 0 e1) (hy : f.decode y = .fin n2 m2 e2) (hm : m2 ≠ 0) :
    f.div x y = (f.zero (n1 != n2), 0) := by
  simp only [FFmt.div, hx, hy, fpDiv, if_neg hm, if_true, deliver_zero]
  rfl

theorem FFmt.add_zeros (he : 0 < f.ebits) (n k : Bool) :
    f.add mode (f.zero n) (f.zero k) = (if n = k then f.zero n else f.zero (decide (mode = .rm)), 0) := by
  rw [add_of_sum_zero (decode_zero he) (decode_zero he) (addFin_zeros ..), apply_ite f.zero]

theorem FFmt.sub_zeros (he : 0 < f.ebits) (n k : Bool) :
    f.sub mode (f.zero n) (f.zero k) = (if n = !k then f.zero n else f.zero (decide (mode = .rm)), 0) := by
  rw [sub_of_sum_zero (decode_zero he) (decode_zero he) (addFin_zeros ..), apply_ite f.zero]

theorem FFmt.add_negated (hx : x < 2 ^ f.width) (hfin : f.decode x = .fin n m1 e) (hm : m1 ≠ 0) :
    f.add mode x ((x + f.sign) % 2 ^ f.width) = (f.zero (decide (mode = .rm)), 0) :=
  add_of_sum_zero hfin (decode_add_sign hx hfin) (addFin_cancel mode hm (Bool.not_ne_self n) rfl)

theorem FFmt.sub_same (hfin : f.decode x = .fin n m1 e) (hm : m1 ≠ 0) :
    f.sub mode x x = (f.zero (decide (mode = .rm)), 0) :=
  sub_of_sum_zero hfin hfin (addFin_cancel mode hm (Bool.not_ne_self n) rfl)

theorem FFmt.fma_zeros (hx : f.decode x = .fin n1 m1 e1) (hy : f.decode y = .fin n2 m2 e2) (hz : f.decode z = .fin n3 m3 e3)
    (hprod : m1 * m2 = 0) (hm : m3 = 0) :
    f.fma mode x y z = (if (n1 != n2) = n3 then f.zero n3 else f.zero (decide (mode = .rm)), 0) := by
  rw [fma_of_sum_zero hx hy hz (by rw [hprod, hm, addFin_zeros]), apply_ite f.zero]
  exact congrArg (·, 0) (ite_congr rfl (fun h => by rw [h]) fun _ => rfl)

end

theorem one_lt_ebits {f : FFmt} (hf : f = F32 ∨ f = F16 ∨ f = BF16) : 1 < f.ebits := by
  rcases hf with rfl | rfl | rfl <;> decide

end Sys2Proof.Machine

open Sys2Proof.Machine in
/-- Settles O5: the operands' exact sum, product or quotient is a zero, which every format delivers with its sign and no flag. -/
theorem zeroSignRule : Obligations.ZeroSignRule := by
  intro f hf mode x y z m1 m2 m3 n k n1 n2 n3 e1 e2 e3 hx hy hz
  have he : 0 < f.ebits := Nat.zero_lt_of_lt (one_lt_ebits hf)
  refine ⟨fun hdx hm => ⟨FFmt.add_negated hx hdx hm, FFmt.sub_same hdx hm⟩, FFmt.add_zeros he n k, FFmt.sub_zeros he n k,
    fun hdy => ⟨?_, ?_, FFmt.div_infinity hdy k, FFmt.div_of_dividend_zero (FFmt.decode_zero he) hdy⟩,
    fun hdx hdy hdz => ⟨fun hm hn hmag => ?_, FFmt.fma_zeros hdx hdy hdz⟩⟩
  · exact FFmt.mul_of_product_zero (FFmt.decode_zero he) hdy (Nat.zero_mul m2)
  · exact FFmt.mul_of_product_zero hdy (FFmt.decode_zero he) (Nat.mul_zero m2)
  · exact FFmt.fma_of_sum_zero hdx hdy hdz (addFin_cancel mode hm hn hmag)

open Sys2Proof.Machine in
/-- Settles O6: a pattern is its sign, exponent and fraction fields, and rounding its value puts the same fields back; the exact
sum and product do not depend on the order of the operands. -/
theorem floatLaws : Obligations.FloatLaws := fun f hf mode x y hx _ =>
  ⟨FFmt.deliver_decode mode (one_lt_ebits hf) hx, f.add_comm mode x y, f.mul_comm mode x y⟩

/-! ## Masks of lanes -/

namespace Sys2Proof

theorem run_eq_range' (lo n : Nat) : run lo n = List.range' lo n := by
  induction n generalizing lo with
  | zero => rfl
  | succ n ih => rw [run, ih, List.range'_succ]

theorem run_zero (n : Nat) : run 0 n = List.range n := (run_eq_range' 0 n).trans List.range_eq_range'.symm

/-- The number whose bits from `lo` to `lo + n - 1` a predicate gives: what `maskOf` sums. -/
def bitSum (f : Nat → Bool) (lo n : Nat) : Nat := (run lo n).foldr (fun l acc => (if f l then 2 ^ l else 0) + acc) 0

theorem maskOf_eq_bitSum (f : Nat → Bool) : maskOf f = BitVec.ofNat 32 (bitSum f 0 32) := rfl

theorem bitSum_succ (f : Nat → Bool) (lo n : Nat) :
    bitSum f lo (n + 1) = (if f lo then 2 ^ lo else 0) + bitSum f (lo + 1) n := rfl

theorem bitSum_shift (f : Nat → Bool) (lo n : Nat) : bitSum f (lo + 1) n = 2 * bitSum (fun l => f (l + 1)) lo n := by
  induction n generalizing lo with
  | zero => rfl
  | succ n ih =>
    rw [bitSum_succ, bitSum_succ, ih, mul_add]
    split
    · rw [pow_succ']
    · rfl

theorem testBit_bitSum (f : Nat → Bool) (n i : Nat) : (bitSum f 0 n).testBit i = (decide (i < n) && f i) := by
  induction n generalizing f i with
  | zero => simp [bitSum, run]
  | succ n ih =>
    have hbit : bitSum f 0 (n + 1) = Nat.bit (f 0) (bitSum (fun l => f (l + 1)) 0 n) := by
      rw [bitSum_succ, bitSum_shift]
      cases f 0 <;> simp [Nat.bit, add_comm]
    rw [hbit]
    cases i with
    | zero => simp
    | succ i => simp only [Nat.testBit_bit_succ, ih, Nat.add_lt_add_iff_right]

@[simp] theorem lane_maskOf (f : Nat → Bool) (l : Nat) : lane (maskOf f) l = (decide (l < 32) && f l) := by
  rw [lane, maskOf_eq_bitSum, BitVec.getLsbD_ofNat, testBit_bitSum]
  cases decide (l < 32) <;> rfl

@[simp] theorem lane_zero (l : Nat) : lane 0 l = false := BitVec.getLsbD_zero

@[simp] theorem lane_and (m k : Word) (l : Nat) : lane (m &&& k) l = (lane m l && lane k l) := BitVec.getLsbD_and

/-- Two masks with the same lanes are equal. -/
theorem mask_ext {m k : Word} (h : ∀ l < 32, lane m l = lane k l) : m = k := BitVec.eq_of_getLsbD_eq h

theorem maskOf_congr {f k : Nat → Bool} (h : ∀ l < 32, f l = k l) : maskOf f = maskOf k :=
  mask_ext fun l hl => by rw [lane_maskOf, lane_maskOf, h l hl]

namespace Machine

theorem maskOfList_filter_lanesOf (act : Word) (f : Nat → Bool) :
    maskOfList ((lanesOf act).filter f) = maskOf fun l => lane act l && f l :=
  maskOf_congr fun l _ => by
    rw [Bool.eq_iff_iff, List.contains_iff_mem, List.mem_filter, mem_lanesOf, Bool.and_eq_true]

theorem maskOf_eq_zero_iff (f : Nat → Bool) : maskOf f = 0 ↔ ∀ l < 32, f l = false := by
  refine ⟨fun h l hl => ?_, fun h => mask_ext fun l hl => ?_⟩
  · have hz : lane (maskOf f) l = false := by rw [h, lane_zero]
    simpa [hl] using hz
  · rw [lane_maskOf, h l hl, Bool.and_false, lane_zero]

end Machine
end Sys2Proof

/-! ## The integer and bit functions (04 R116, R117, Table 4-1) -/

namespace Sys2Proof

theorem signed_eq_toInt (n x : Nat) : signed n x = (BitVec.ofNat n x).toInt := by
  rw [signed, BitVec.toInt_eq_toNat_cond, BitVec.toNat_ofNat]
  have hhalf : x % 2 ^ n < 2 ^ (n - 1) ↔ 2 * (x % 2 ^ n) < 2 ^ n := by
    cases n with
    | zero => simp [Nat.mod_one]
    | succ n => rw [pow_succ, Nat.add_sub_cancel]; omega
  simp only [hhalf]

theorem signed_toNat {n : Nat} (x : BitVec n) : signed n x.toNat = x.toInt := by
  rw [signed_eq_toInt, BitVec.ofNat_toNat, BitVec.setWidth_eq]

theorem wrap_eq_toNat (n : Nat) (x : Int) : wrap n x = (BitVec.ofInt n x).toNat := (BitVec.toNat_ofInt ..).symm

theorem ofNat_wrap (n : Nat) (x : Int) : BitVec.ofNat n (wrap n x) = BitVec.ofInt n x := by
  rw [wrap_eq_toNat, BitVec.ofNat_toNat, BitVec.setWidth_eq]

namespace Machine

/-! ### Arithmetic -/

theorem mul_eq_ofNat (x y : Word) : x * y = BitVec.ofNat 32 (x.toNat * y.toNat) := by
  rw [BitVec.ofNat_mul]; simp

theorem mulAdd_eq_ofNat (x y z : Word) : x * y + z = BitVec.ofNat 32 (x.toNat * y.toNat + z.toNat) := by
  rw [BitVec.ofNat_add, ← mul_eq_ofNat]; simp

theorem highWord_eq (x : Int) : highWord x = BitVec.ofInt 32 (x / 2 ^ 32) := by
  rw [highWord, wrap]
  apply BitVec.eq_of_toNat_eq
  rw [BitVec.toNat_ofNat, BitVec.toNat_ofInt]
  omega

theorem highWord_natCast (x y : Word) :
    highWord ((x.toNat : Int) * (y.toNat : Int)) = BitVec.ofNat 32 (x.toNat * y.toNat / 2 ^ 32) := by
  rw [highWord_eq, ← BitVec.ofInt_natCast]
  norm_cast

theorem minSigned_eq (x y : Word) : (if x.toInt ≤ y.toInt then x else y) = BitVec.ofInt 32 (min x.toInt y.toInt) := by
  rw [min_def, apply_ite (BitVec.ofInt 32), BitVec.ofInt_toInt, BitVec.ofInt_toInt]

theorem maxSigned_eq (x y : Word) : (if x.toInt ≤ y.toInt then y else x) = BitVec.ofInt 32 (max x.toInt y.toInt) := by
  rw [max_def, apply_ite (BitVec.ofInt 32), BitVec.ofInt_toInt, BitVec.ofInt_toInt]

theorem minUnsigned_eq (x y : Word) : (if x.toNat ≤ y.toNat then x else y) = BitVec.ofNat 32 (min x.toNat y.toNat) := by
  rw [min_def, apply_ite (BitVec.ofNat 32), BitVec.ofNat_toNat, BitVec.ofNat_toNat, BitVec.setWidth_eq,
    BitVec.setWidth_eq]

theorem maxUnsigned_eq (x y : Word) : (if x.toNat ≤ y.toNat then y else x) = BitVec.ofNat 32 (max x.toNat y.toNat) := by
  rw [max_def, apply_ite (BitVec.ofNat 32), BitVec.ofNat_toNat, BitVec.ofNat_toNat, BitVec.setWidth_eq,
    BitVec.setWidth_eq]

theorem negate_eq (x : Word) : 0 - x = BitVec.ofInt 32 (-x.toInt) := by
  rw [BitVec.ofInt_neg, BitVec.ofInt_toInt]; exact BitVec.zero_sub x

theorem abs_eq (x : Word) : (if x.toInt < 0 then 0 - x else x) = BitVec.ofInt 32 |x.toInt| := by
  split
  case isTrue h => rw [abs_of_neg h, negate_eq]
  case isFalse h => rw [abs_of_nonneg (not_lt.mp h), BitVec.ofInt_toInt]

/-! ### Counts and shifts -/

theorem popcount_eq (x : Word) : popcount x = BitVec.ofNat 32 ((List.range 32).countP fun i => x.getLsbD i) := by
  rw [popcount, run_zero, List.countP_eq_length_filter]

theorem size_eq_log2_add_one {n : Nat} (hn : n ≠ 0) : n.size = n.log2 + 1 :=
  le_antisymm (Nat.size_le.2 Nat.lt_log2_self) (Nat.lt_size.2 (Nat.log2_self_le hn))

theorem leadingZeros_eq (x : Word) : leadingZeros x = BitVec.ofNat 32 (32 - x.toNat.size) := by
  rw [leadingZeros]
  by_cases hx : x = 0
  · rw [if_pos hx, hx]; rfl
  · have hn : x.toNat ≠ 0 := fun h => hx (BitVec.eq_of_toNat_eq h)
    rw [if_neg hx, size_eq_log2_add_one hn, Nat.add_comm, Nat.sub_add_eq]

theorem shiftLeft_eq (x n : Word) : shiftLeft x n = BitVec.ofNat 32 (x.toNat * 2 ^ n.toNat) := by
  rw [shiftLeft]
  apply BitVec.eq_of_toNat_eq
  split
  case isTrue h =>
    rw [BitVec.toNat_ofNat, Nat.mod_eq_zero_of_dvd ((pow_dvd_pow 2 h).mul_left _)]
    rfl
  case isFalse => rw [BitVec.toNat_shiftLeft, Nat.shiftLeft_eq, BitVec.toNat_ofNat]

theorem shiftRight_eq (x n : Word) : shiftRight x n = BitVec.ofNat 32 (x.toNat / 2 ^ n.toNat) := by
  rw [shiftRight]
  split
  case isTrue h => rw [Nat.div_eq_of_lt (x.isLt.trans_le (Nat.pow_le_pow_right two_pos h))]; rfl
  case isFalse => rw [← Nat.shiftRight_eq_div_pow, ← BitVec.toNat_ushiftRight, BitVec.ofNat_toNat,
    BitVec.setWidth_eq]

/-- From 31 places on, an arithmetic shift leaves copies of the sign. -/
theorem toInt_div_two_pow (x : Word) {n : Nat} (h : 31 ≤ n) : x.toInt / 2 ^ n = if x.toInt < 0 then -1 else 0 := by
  have hlo := x.le_toInt
  have hhi := x.toInt_lt
  have hpow : (2 : Int) ^ 31 ≤ 2 ^ n := pow_le_pow_right₀ (by norm_num) h
  split
  case isTrue hneg => exact Int.ediv_eq_neg_one_of_neg_of_le hneg (by omega)
  case isFalse hpos => exact Int.ediv_eq_zero_of_lt (by omega) (by omega)

theorem shiftArith_eq (x n : Word) : shiftArith x n = BitVec.ofInt 32 (x.toInt / 2 ^ n.toNat) := by
  have hmin : x.toInt / 2 ^ min n.toNat 31 = x.toInt / 2 ^ n.toNat := by
    rcases le_total n.toNat 31 with h | h
    · rw [min_eq_left h]
    · rw [min_eq_right h, toInt_div_two_pow x le_rfl, toInt_div_two_pow x h]
  rw [shiftArith, ← hmin, ← BitVec.ofInt_toInt (x := x.sshiftRight _), BitVec.toInt_sshiftRight, Int.shiftRight_eq_div_pow]
  norm_cast

theorem reverseBits_eq (x : Word) : reverseBits x = x.reverse :=
  mask_ext fun l hl => by
    rw [reverseBits, lane_maskOf, lane, BitVec.getLsbD_reverse, BitVec.getMsbD]

/-! ### Bit fields -/

theorem fieldPos_eq (f : Word) : fieldPos f = (f.extractLsb' 0 5).toNat := by
  rw [fieldPos, BitVec.extractLsb'_toNat, Nat.shiftRight_zero]

theorem fieldLen_eq (f : Word) : fieldLen f = min (f.extractLsb' 8 6).toNat (32 - (f.extractLsb' 0 5).toNat) := by
  rw [fieldLen, bits, fieldPos_eq, min_eq_right (Nat.sub_le 32 _), BitVec.extractLsb'_toNat (s := 8),
    Nat.shiftRight_eq_div_pow]

theorem extractW_eq (x f : Word) : extractW x f = BitVec.ofNat 32 (x.toNat / 2 ^ fieldPos f % 2 ^ fieldLen f) := rfl

theorem extractS_eq (x f : Word) :
    extractS x f = (BitVec.ofNat (fieldLen f) (x.toNat / 2 ^ fieldPos f)).signExtend 32 := by
  rw [extractS, signed_eq_toInt]
  change _ = BitVec.ofInt 32 _
  split
  case isTrue h => rw [h, BitVec.eq_nil (BitVec.ofNat 0 _)]; rfl
  case isFalse => rfl

/-- The bits of a field's mask are the positions of the field. -/
theorem getLsbD_fieldMask (pos len i : Nat) :
    (BitVec.ofNat 32 ((2 ^ len - 1) * 2 ^ pos)).getLsbD i = (decide (i < 32) && decide (pos ≤ i ∧ i < pos + len)) := by
  rw [BitVec.getLsbD_ofNat, Nat.testBit_mul_two_pow, Nat.testBit_two_pow_sub_one, ← Bool.decide_and]
  congr 2
  exact propext (and_congr_right fun h => Nat.sub_lt_iff_lt_add' h)

theorem insertField_eq (x f old : Word) :
    insertField x f old = BitVec.ofFnLE fun i : Fin 32 =>
      if fieldPos f ≤ i.val ∧ i.val < fieldPos f + fieldLen f then x.getLsbD (i.val - fieldPos f) else old.getLsbD i.val := by
  refine mask_ext fun l hl => ?_
  rw [lane, lane, insertField, BitVec.getLsbD_or, BitVec.getLsbD_and, BitVec.getLsbD_and, BitVec.getLsbD_not,
    getLsbD_fieldMask, BitVec.getLsbD_shiftLeft, BitVec.getLsbD_ofFnLE, dif_pos hl]
  by_cases hin : fieldPos f ≤ l ∧ l < fieldPos f + fieldLen f
  · simp [hl, hin, Nat.not_lt.mpr hin.1]
  · simp [hl, hin]

end Machine
end Sys2Proof

namespace Sys2Proof.Machine

theorem laneArithmeticResults : Claims.LaneArithmeticResults := fun _ _ _ _ =>
  ⟨lane2_of (fun _ => rfl) fun _ _ => rfl, lane2_of (fun _ => rfl) fun _ _ => rfl, lane2_of (fun _ => rfl) mul_eq_ofNat,
    lane3_of (fun _ => rfl) mulAdd_eq_ofNat, lane2_of (fun _ => rfl) fun _ _ => highWord_eq _,
    lane2_of (fun _ => rfl) highWord_natCast,
    lane2_of (fun _ => rfl) minSigned_eq, lane2_of (fun _ => rfl) minUnsigned_eq, lane2_of (fun _ => rfl) maxSigned_eq,
    lane2_of (fun _ => rfl) maxUnsigned_eq, lane1_of (fun _ => rfl) abs_eq, lane1_of (fun _ => rfl) negate_eq⟩

theorem laneBitResults : Claims.LaneBitResults := fun _ _ _ _ =>
  ⟨lane1_of (fun _ => rfl) popcount_eq, lane1_of (fun _ => rfl) leadingZeros_eq, lane2_of (fun _ => rfl) fun _ _ => rfl,
    lane2_of (fun _ => rfl) fun _ _ => rfl, lane2_of (fun _ => rfl) fun _ _ => rfl, lane1_of (fun _ => rfl) fun _ => rfl,
    lane2_of (fun _ => rfl) shiftLeft_eq, lane2_of (fun _ => rfl) shiftRight_eq, lane2_of (fun _ => rfl) shiftArith_eq,
    lane1_of (fun _ => rfl) reverseBits_eq, 
    lane2_of (fun _ => rfl) fun _ f => by rw [extractW_eq, fieldLen_eq f, fieldPos_eq f],
    lane2_of (fun _ => rfl) fun _ f => by rw [extractS_eq, fieldLen_eq f, fieldPos_eq f],
    lane3_of (fun _ => rfl) fun _ f _ => by rw [insertField_eq, fieldLen_eq f, fieldPos_eq f], lane1_of (fun _ => rfl) fun _ => rfl⟩

end Sys2Proof.Machine

open Sys2Proof.Machine in
/-- Settles O1: each instruction is a lane instruction of the model whose function has the value of Table 4-1. -/
theorem integerResults : Obligations.IntegerResults := ⟨laneArithmeticResults, laneBitResults⟩

/-! ## Float lane instructions (03 R85, R86; 04 R129, R130, R133, R134) -/

namespace Sys2Proof.Machine

/-! ### Widening a BF16 pattern (02 Table 2-9) -/

/-- Where rounding keeps every bit, a value is delivered alike from any of its significands. -/
theorem FFmt.round_scale {f : FFmt} (mode : RMode) {neg : Bool} {m : Nat} {e : Int} (hm : m ≠ 0) {k : Nat}
    (hexact : max (msb m e - (f.mbits : Int)) f.qmin ≤ e - k) :
    f.round mode neg (m * 2 ^ k) (e - k) = f.round mode neg m e := by
  have hlog : Nat.log2 (m * 2 ^ k) = m.log2 + k := by
    obtain ⟨hlo, hhi⟩ := (Nat.log2_eq_iff hm).1 rfl
    refine (Nat.log2_eq_iff (by positivity)).2 ⟨?_, ?_⟩
    · rw [pow_add]; exact Nat.mul_le_mul_right _ hlo
    · rw [Nat.add_right_comm, pow_add]; exact Nat.mul_lt_mul_of_pos_right hhi (by positivity)
  have hmsb : msb (m * 2 ^ k) (e - k) = msb m e := by
    rw [msb, msb, hlog]; push_cast; ring
  simp only [FFmt.round, hmsb]
  generalize max (msb m e - (f.mbits : Int)) f.qmin = q at hexact ⊢
  have hshift : m * 2 ^ k * 2 ^ (-(q - (e - k))).toNat = m * 2 ^ (-(q - e)).toNat := by
    rw [mul_assoc, ← pow_add]; congr 2; omega
  simp only [roundShift, if_pos (show q - (e - k) ≤ 0 by omega), if_pos (show q - e ≤ 0 by omega), hshift, Bool.false_and]

/-- An F32 value of at most eight significant bits may be written with 16 more zero bits. -/
theorem round_f32_scale {neg : Bool} {m : Nat} {e : Int} (hm : m ≠ 0) (hlt : m < 2 ^ 8) (he : -133 ≤ e) :
    F32.round .rn neg (m * 2 ^ 16) (e - 16) = F32.round .rn neg m e := by
  have hlog := (Nat.log2_lt hm).2 hlt
  have hq : F32.qmin = -149 := rfl
  have hbits : F32.mbits = 23 := rfl
  exact FFmt.round_scale .rn hm (k := 16) (by rw [msb, hq, hbits]; omega)

theorem bf16_pack_mul (neg : Bool) (ex fr : Nat) : BF16.pack neg ex fr * 2 ^ 16 = F32.pack neg ex (fr * 2 ^ 16) := by
  simp only [FFmt.pack, BF16, F32]; ring

/-- A BF16 pattern that is no NaN, and the F32 pattern with 16 zero bits below it, have one value. -/
theorem deliver_decode_bf16 {x : Nat} (hx : x < 2 ^ 16) (hnan : (BF16.decode x).isNan = false) :
    F32.deliver .rn (BF16.decode x) = (x * 2 ^ 16, 0) := by
  obtain ⟨neg, ex, fr, hex, hfr, rfl⟩ := BF16.eq_pack hx
  have hfr32 : fr * 2 ^ 16 < 2 ^ F32.mbits := Nat.mul_lt_mul_of_pos_right hfr (by norm_num)
  have hlt : F32.pack neg ex (fr * 2 ^ 16) < 2 ^ F32.width := by
    rw [← bf16_pack_mul]; exact Nat.mul_lt_mul_of_pos_right hx (by norm_num)
  have hsame : F32.deliver .rn (BF16.decode (BF16.pack neg ex fr)) = F32.deliver .rn (F32.decode (F32.pack neg ex (fr * 2 ^ 16)))
      ∧ (F32.decode (F32.pack neg ex (fr * 2 ^ 16))).isNan = false := by
    rw [FFmt.decode_pack hex hfr] at hnan ⊢
    rw [FFmt.decode_pack (f := F32) hex hfr32]
    simp only [show F32.ebits = BF16.ebits from rfl, Nat.mul_eq_zero, show ¬2 ^ 16 = 0 by norm_num, or_false]
    split_ifs at hnan ⊢ with htop hfr0 hex0
    · exact ⟨rfl, rfl⟩
    · cases hnan
    · refine ⟨?_, rfl⟩
      by_cases hm : fr = 0
      · rw [hm]; rfl
      · exact (if_neg hm).trans ((round_f32_scale hm (hfr.trans (by decide)) (by decide)).symm.trans (if_neg (by positivity)).symm)
    · refine ⟨?_, rfl⟩
      have hm : 2 ^ F32.mbits + fr * 2 ^ 16 = (2 ^ BF16.mbits + fr) * 2 ^ 16 := by rw [add_mul]; rfl
      have hlt8 : 2 ^ BF16.mbits + fr < 2 ^ 8 := by have : fr < 2 ^ 7 := hfr; rw [show BF16.mbits = 7 from rfl]; omega
      have hq : F32.qmin = -149 := rfl
      have hq16 : BF16.qmin = -133 := rfl
      rw [hm, FFmt.deliver, FFmt.deliver, if_neg (by positivity), if_neg (by positivity),
        show F32.qmin + (ex : Int) - 1 = BF16.qmin + ex - 1 - 16 by omega, round_f32_scale (by positivity) hlt8 (by omega)]
  rw [hsame.1, bf16_pack_mul, FFmt.deliver_decode .rn (by decide) hlt hsame.2]

theorem isNan_decode_bf16 {x : Nat} (hx : x < 2 ^ 16) : (BF16.decode x).isNan = decide (0x7F80 < x % 2 ^ 15) := by
  obtain ⟨neg, ex, fr, hex, hfr, rfl⟩ := BF16.eq_pack hx
  rw [FFmt.decode_pack hex hfr]
  have hlow : BF16.pack neg ex fr % 2 ^ 15 = ex * 2 ^ 7 + fr := by
    rw [← FFmt.zero_add_eq_pack]
    have hex' : ex < 2 ^ 8 := hex
    have hfr' : fr < 2 ^ 7 := hfr
    cases neg <;> simp [FFmt.zero, FFmt.sign, BF16] <;> omega
  have hex' : ex < 2 ^ 8 := hex
  have hfr' : fr < 2 ^ 7 := hfr
  rw [hlow, show BF16.ebits = 8 from rfl]
  split_ifs with htop hfr0 hex0
  · simp [Fp.isNan, htop, hfr0]
  · simp [Fp.isNan, htop]; omega
  · simp [Fp.isNan]; omega
  · simp [Fp.isNan]; omega

theorem bf16Imm_eq_wide (k : BitVec 16) : bf16Imm k.toNat = bf16Wide k := by
  have hisNan := isNan_decode_bf16 k.isLt
  rw [bf16Imm, FFmt.widen, bf16Wide]
  by_cases h : 0x7F80 < k.toNat % 2 ^ 15
  · rw [if_pos h]
    rw [decide_eq_true h] at hisNan
    cases hv : BF16.decode k.toNat with
    | nan s => rfl
    | inf n => rw [hv] at hisNan; cases hisNan
    | fin n m e => rw [hv] at hisNan; cases hisNan
  · rw [if_neg h, deliver_decode_bf16 k.isLt (by rw [hisNan, decide_eq_false h])]

end Sys2Proof.Machine

namespace Sys2Proof.Machine

/-! ### Pairs of BF16 values (04 R134) -/

theorem half_zero (x : Word) : half x 0 = x.toNat % 2 ^ 16 := by
  rw [half, BitVec.extractLsb'_toNat, Nat.mul_zero, Nat.shiftRight_zero]

theorem half_one (x : Word) : half x 1 = x.toNat / 2 ^ 16 := by
  rw [half, BitVec.extractLsb'_toNat, Nat.shiftRight_eq_div_pow]
  exact Nat.mod_eq_of_lt (Nat.div_lt_of_lt_mul x.isLt)

theorem pairs_eq_bf16Pair (f : Nat → Nat → Nat → Nat × Word) (x y z : Word) :
    pairs f x.toNat y.toNat z.toNat = bf16Pair fun i => f (half x i) (half y i) (half z i) := by
  simp only [pairs, bf16Pair, half_zero, half_one]

/-- The same of a function of two values, for which the model passes 0 as the third. -/
theorem pairs_eq_bf16Pair_of_two (f : Nat → Nat → Nat × Word) (x y : Word) :
    pairs (fun x y _ => f x y) x.toNat y.toNat 0 = bf16Pair fun i => f (half x i) (half y i) :=
  pairs_eq_bf16Pair (fun x y _ => f x y) x y 0

/-! ### The instructions -/

/-- A float instruction whose function the model states as the claim does, of the group it finds. -/
theorem floatOp_of_group {i : Instr} {w : BitVec 1} {d : Nat} {f : Group → Nat → Nat × Word}
    (he : ∀ s, exec i s = issue i s fun c => c.floatLanes w d (f c.g))
    (hf : ∀ s g p chain l, f (Started i s g p chain) l = f g l := by intros; rfl) : FloatOp i w d f :=
  floatOp_of (fun c => f c.g) he fun s g p _ chain l => hf s g p chain l

end Sys2Proof.Machine

open Sys2Proof.Machine in
/-- Settles O3: each instruction is a float lane instruction of the model with the function stated; a BF16 immediate widens to the
F32 pattern with 16 zero bits below it, and the paired forms act on the halves of their words. -/
theorem floatResults : Obligations.FloatResults := fun _ _ _ _ _ _ =>
  ⟨floatOp_of_group fun _ => rfl, floatOp_of_group fun _ => rfl, floatOp_of_group fun _ => rfl, floatOp_of_group fun _ => rfl,
    floatOp_of_group fun _ => rfl, floatOp_of_group fun _ => rfl, floatOp_of_group fun _ => by rw [← bf16Imm_eq_wide]; rfl,
    floatOp_of_group fun _ => by rw [← bf16Imm_eq_wide]; rfl, floatOp_of_group fun _ => rfl, floatOp_of_group fun _ => rfl,
    floatOp_of_group fun _ => rfl, floatOp_of_group fun _ => rfl, floatOp_of_group fun _ => rfl, floatOp_of_group fun _ => rfl,
    floatOp_of_group fun _ => rfl, floatOp_of_group fun _ => by simp only [← pairs_eq_bf16Pair_of_two]; rfl,
    floatOp_of_group fun _ => by simp only [← pairs_eq_bf16Pair_of_two]; rfl,
    floatOp_of_group fun _ => by simp only [← pairs_eq_bf16Pair]; rfl⟩

/-! ## Instructions that write registers of their group -/

namespace Sys2Proof.Machine

theorem Regs.flag_zero (x : Regs) : x.flag 0 = x := by
  simp [Regs.flag]

theorem RegsOnly.refl (k : Group) : RegsOnly k k := rfl

section RegsOnly
variable {k0 k : Group} (h : RegsOnly k0 k)
include h

theorem RegsOnly.setLanes {d : Nat} {xs : List (Nat × Word)} : RegsOnly k0 (k.setLanes d xs) := h
theorem RegsOnly.setMany {xs : List ((Nat × Nat) × Word)} : RegsOnly k0 (k.setMany xs) := h
theorem RegsOnly.setPred {d : Nat} {act m : Word} : RegsOnly k0 (k.setPred d act m) := h
theorem RegsOnly.setSr {d : Nat} {x : Word} : RegsOnly k0 (k.setSr d x) := h
theorem RegsOnly.flag {w : Word} : RegsOnly k0 (k.flag w) := h

end RegsOnly

section Completing
variable {i : Instr} {s : State} {g : Group} {p : Path} {latch : Option Nat} {chain : Option Chain}
  (h : Goes i s g p latch chain)
include h

theorem exec_of_goes {k : Ctx → Out} (he : exec i s = issue i s k) : exec i s = k (Issuing i s g p latch chain) :=
  he.trans (issue_go h k)

theorem completes_write {d : Nat} {f : Nat → Word} {w : Word}
    (he : exec i s = (Issuing i s g p latch chain).write d ((lanesOf p.act).map fun l => (l, f l)) w) :
    Completes i s g p chain 0 ((g.regs.lanes p.act d f).flag w) := by
  have hc := completes_done h 0 (((Started i s g p chain).setLanes d ((lanesOf p.act).map fun l => (l, f l))).flag w)
    (RegsOnly.refl _).setLanes.flag he
  rwa [Group.regs_flag, Group.regs_setLanes, Started.regs] at hc

theorem completes_writeMany {d : Nat} {ws : Nat → List Word} {w : Word}
    (he : exec i s = (Issuing i s g p latch chain).writeMany ((lanesOf p.act).map fun l => wordWrites d l (ws l)).flatten w) :
    Completes i s g p chain 0 ((g.regs.span p.act d ws).flag w) := by
  have hc := completes_done h 0 (((Started i s g p chain).setMany ((lanesOf p.act).map fun l => wordWrites d l (ws l)).flatten).flag w)
    (RegsOnly.refl _).setMany.flag he
  rwa [Group.regs_flag, Group.regs_span, Started.regs] at hc

theorem completes_setPred {d : Nat} {m w : Word}
    (he : exec i s = (Issuing i s g p latch chain).done (((Started i s g p chain).setPred d p.act m).flag w)) :
    Completes i s g p chain 0 ((g.regs.pred p.act d m).flag w) := by
  have hc := completes_done h 0 (((Started i s g p chain).setPred d p.act m).flag w) (RegsOnly.refl _).setPred.flag he
  rwa [Group.regs_flag, Group.regs_setPred, Started.regs] at hc

end Completing

/-- An instruction that writes one register in each active lane, and sets no flag. -/
theorem regOp_write {i : Instr} {d : Nat} {f : State → Group → Path → Nat → Word} (F : Ctx → Nat → Word)
    (he : ∀ s, exec i s = issue i s fun c => c.write d (c.map (F c)) 0)
    (hF : ∀ s g p latch chain l, F (Issuing i s g p latch chain) l = f s g p l) :
    RegOp i fun s g p => g.regs.lanes p.act d (f s g p) := by
  intro s g p latch chain h
  have hx := exec_of_goes h (he s)
  rw [Ctx.map, funext (hF s g p latch chain)] at hx
  simpa only [Regs.flag_zero] using completes_write h hx

end Sys2Proof.Machine

/-! ## Cross-lane instructions (04 R137, R138) -/

namespace Sys2Proof.Machine

theorem regOp_shuffle {i : Instr} {b a d : Nat} {f : Int → Int → Int}
    (he : ∀ s, exec i s = issue i s fun c => c.shuffle b a d f) :
    RegOp i fun _ g p => g.regs.lanes p.act d fun l =>
      let j := f l (((g.src b l).toNat % 32 : Nat) : Int)
      if 0 ≤ j ∧ j < 32 ∧ lane p.act j.toNat = true then g.src a j.toNat else g.src a l :=
  regOp_write (fun c l =>
    let j := f l ((c.num b l % 32 : Nat) : Int)
    if 0 ≤ j ∧ j < 32 ∧ lane c.act j.toNat then c.g.src a j.toNat else c.g.src a l) he fun _ _ _ _ _ _ => rfl

theorem shuffleResults : Claims.ShuffleResults := fun _ _ _ =>
  ⟨regOp_shuffle (f := fun _ n => n) fun _ => rfl, regOp_shuffle (f := fun l n => l - n) fun _ => rfl,
    regOp_shuffle (f := fun l n => l + n) fun _ => rfl,
    regOp_shuffle (f := fun l n => ((l.toNat ^^^ n.toNat : Nat) : Int)) fun _ => rfl⟩

/-! ### Folds -/

/-- The left folds of the first 1, 2, … values of a list. -/
def leftFolds (o : Nat) (xs : List Nat) : List Nat := (List.range xs.length).map fun k => (leftFold o (xs.take (k + 1))).1

/-- The fold of one value more. -/
theorem leftFold_concat (o x v : Nat) (r : List Nat) :
    leftFold o (x :: (r ++ [v])) = ((crossOp o (leftFold o (x :: r)).1 v).1,
      (leftFold o (x :: r)).2 ||| (crossOp o (leftFold o (x :: r)).1 v).2) := by
  simp only [leftFold, List.foldl_append, List.foldl_cons, List.foldl_nil]

theorem leftFolds_concat (o v : Nat) (xs : List Nat) :
    leftFolds o (xs ++ [v]) = leftFolds o xs ++ [(leftFold o (xs ++ [v])).1] := by
  rw [leftFolds, List.length_append, List.length_singleton, List.range_succ, List.map_append, List.map_singleton,
    List.take_of_length_le (by simp)]
  congr 1
  exact List.map_congr_left fun k hk => by
    rw [List.take_append_of_le_length (Nat.succ_le_of_lt (List.mem_range.mp hk))]

theorem prefixFolds_eq (o : Nat) (xs : List Nat) : prefixFolds o xs = (leftFolds o xs, (leftFold o xs).2) := by
  cases xs with
  | nil => rfl
  | cons x r =>
    have hfold : r.foldl (fun (acc : List Nat × Nat × Word) v =>
        let t := crossOp o acc.2.1 v
        (acc.1 ++ [t.1], t.1, acc.2.2 ||| t.2)) ([x], x, 0) = (leftFolds o (x :: r), leftFold o (x :: r)) := by
      induction r using List.reverseRecOn with
      | nil => rfl
      | append_singleton r v ih =>
        rw [List.foldl_append, ih, ← List.cons_append, leftFolds_concat, List.cons_append, leftFold_concat]
        rfl
    rw [prefixFolds, hfold]

theorem getLastD_leftFolds (o : Nat) (xs : List Nat) : (leftFolds o xs).getLastD 0 = (leftFold o xs).1 := by
  cases xs using List.reverseRecOn with
  | nil => rfl
  | append_singleton xs v => rw [leftFolds_concat, List.getLastD_concat]

/-! ### The place of a lane among the active lanes -/

/-- In a rising list, each element's place is the number of elements below it. -/
theorem zip_range_map {α : Type} (F : Nat → α) {ls : List Nat} (h : ls.Pairwise (· < ·)) :
    ls.zip ((List.range ls.length).map F) = ls.map fun l => (l, F (ls.filter fun k => decide (k < l)).length) := by
  induction ls generalizing F with
  | nil => rfl
  | cons x r ih =>
    obtain ⟨hx, hr⟩ := List.pairwise_cons.mp h
    have hfirst : (x :: r).filter (fun k => decide (k < x)) = [] := by
      simpa using fun k hk => (hx k hk).le
    have hnext : ∀ l ∈ r, ((x :: r).filter fun k => decide (k < l)).length
        = (r.filter fun k => decide (k < l)).length + 1 := fun l hl => by
      rw [List.filter_cons_of_pos (by simpa using hx l hl), List.length_cons]
    rw [List.length_cons, List.range_succ_eq_map, List.map_cons, List.map_map, List.zip_cons_cons, ih _ hr, List.map_cons,
      hfirst]
    congr 1
    exact List.map_congr_left fun l hl => by rw [hnext l hl]; rfl

theorem lanesOf_pairwise (m : Word) : (lanesOf m).Pairwise (· < ·) := by
  rw [lanesOf, run_zero]
  exact List.pairwise_lt_range.filter _

theorem zip_lanes (p : Path) (F : Nat → Word) :
    (lanesOf p.act).zip ((List.range (lanesOf p.act).length).map F) = (lanesOf p.act).map fun l => (l, F (rank p l)) :=
  zip_range_map F (lanesOf_pairwise p.act)

theorem length_column (g : Group) (p : Path) (a : Nat) : (column g p a).length = (lanesOf p.act).length := List.length_map _

/-- The identity, and then the folds of all values but the last: of the first 0, 1, … values. -/
theorem cons_leftFolds_dropLast (o z : Nat) {xs : List Nat} (h : xs ≠ []) :
    z :: leftFolds o xs.dropLast
      = (List.range xs.length).map fun k => if k = 0 then z else (leftFold o (xs.take k)).1 := by
  have hlen : xs.length = xs.dropLast.length + 1 := by
    have := List.length_pos_iff.mpr h
    rw [List.length_dropLast]; omega
  rw [hlen, List.range_succ_eq_map, List.map_cons, List.map_map, leftFolds]
  congr 1
  refine List.map_congr_left fun k hk => ?_
  have hk := List.mem_range.mp hk
  rw [List.length_dropLast] at hk
  rw [List.dropLast_eq_take, List.take_take, min_eq_left (by omega)]
  rfl

/-! ### Reductions and scans -/

section
variable {s : State} {g : Group} {p : Path} {latch : Option Nat} {chain : Option Chain} {o : BitVec 4} {a d : BitVec 7}

theorem exec_redl (h : Goes (.redl o a d) s g p latch chain) :
    exec (.redl o a d) s = (Issuing (.redl o a d) s g p latch chain).write d.toNat
      ((lanesOf p.act).map fun l => (l, BitVec.ofNat 32 (leftFold o.toNat (column g p a.toNat)).1))
      (leftFold o.toNat (column g p a.toNat)).2 := by
  rw [← getLastD_leftFolds]
  unfold exec execRedl
  simp only [issue_go h, prefixFolds_eq]
  rfl

theorem exec_scanlInc (h : Goes (.scanlInc o a d) s g p latch chain) :
    exec (.scanlInc o a d) s = (Issuing (.scanlInc o a d) s g p latch chain).write d.toNat
      ((lanesOf p.act).map fun l => (l, BitVec.ofNat 32 (leftFold o.toNat ((column g p a.toNat).take (rank p l + 1))).1))
      (leftFold o.toNat (column g p a.toNat)).2 := by
  rw [← zip_lanes p fun k => BitVec.ofNat 32 (leftFold o.toNat ((column g p a.toNat).take (k + 1))).1,
    ← length_column g p a.toNat]
  unfold exec execScanlInc
  simp only [issue_go h, prefixFolds_eq, leftFolds, List.map_map]
  rfl

theorem exec_scanlExc (h : Goes (.scanlExc o a d) s g p latch chain) :
    exec (.scanlExc o a d) s = (Issuing (.scanlExc o a d) s g p latch chain).write d.toNat
      ((lanesOf p.act).map fun l => (l, BitVec.ofNat 32 (if rank p l = 0 then crossIdentity o.toNat
        else (leftFold o.toNat ((column g p a.toNat).take (rank p l))).1)))
      (leftFold o.toNat (column g p a.toNat).dropLast).2 := by
  have hzip : (lanesOf p.act).zip ((crossIdentity o.toNat :: leftFolds o.toNat (column g p a.toNat).dropLast).map fun x =>
        BitVec.ofNat 32 x)
      = (lanesOf p.act).map fun l => (l, BitVec.ofNat 32 (if rank p l = 0 then crossIdentity o.toNat
        else (leftFold o.toNat ((column g p a.toNat).take (rank p l))).1)) := by
    by_cases hnil : lanesOf p.act = []
    · rw [hnil]; rfl
    · have hcol : column g p a.toNat ≠ [] := fun hc => hnil (List.map_eq_nil_iff.mp hc)
      rw [cons_leftFolds_dropLast _ _ hcol, List.map_map, length_column]
      exact zip_lanes p _
  rw [← hzip]
  unfold exec execScanlExc
  simp only [issue_go h, prefixFolds_eq]
  rfl

end

theorem reductionResults : Claims.ReductionResults := fun _ _ _ =>
  ⟨fun _ _ _ _ _ h => completes_write h (exec_redl h), fun _ _ _ _ _ h => completes_write h (exec_scanlInc h),
    fun _ _ _ _ _ h => completes_write h (exec_scanlExc h)⟩

end Sys2Proof.Machine

open Sys2Proof.Machine in
/-- Settles O9: the model's running folds are the left folds of the first values, and the k-th fold goes to the lane with k active
lanes below it. -/
theorem crossLaneResults : Obligations.CrossLaneResults := ⟨shuffleResults, reductionResults⟩

/-! ## IADDC, LEA64 and SEL (02 Table 2-3; 04 R118 to R120) -/

namespace Sys2Proof

/-- An odd word is a 32-bit instruction of its own bits. -/
theorem decodeTableWord_odd {w : Nat} (hlt : w < 2 ^ 32) (hodd : w % 2 = 1) : decodeTableWord 32 w = decodeWord w := by
  have hbytes : ofBytes (toBytes 4 w) = w := (ofBytes_toBytes 4 w).trans (Nat.mod_eq_of_lt hlt)
  have hfirst : (BitVec.ofNat 8 w).toNat % 2 = 1 := by rw [BitVec.toNat_ofNat]; omega
  simp only [toBytes] at hbytes
  simp only [decodeTableWord, Nat.mod_eq_of_lt hlt, toBytes, decode, hfirst, hbytes, OfNat.ofNat_ne_zero, if_false, one_ne_zero]
  cases decodeWord w <;> rfl

/-- A word of format R: seven opcode bits, VD, W, SA, SB and MIN (02 Table 2-3). -/
def wordR (op : Nat) (d : BitVec 7) (w : BitVec 1) (a b : BitVec 7) (k : BitVec 3) : Nat :=
  op + d.toNat * 2 ^ 7 + w.toNat * 2 ^ 14 + a.toNat * 2 ^ 15 + b.toNat * 2 ^ 22 + k.toNat * 2 ^ 29

section WordR
variable {op : Nat} (hop : op < 2 ^ 7) (d : BitVec 7) (w : BitVec 1) (a b : BitVec 7) (k : BitVec 3)
include hop

theorem wordR_lt : wordR op d w a b k < 2 ^ 32 := by
  simp only [wordR]; omega

theorem bits_opcode_wordR : bits (wordR op d w a b k) 1 6 = op / 2 := by
  simp only [wordR, bits]; omega

theorem fld_wordR :
    fld (wordR op d w a b k) 7 7 = d ∧ fld (wordR op d w a b k) 14 1 = w ∧ fld (wordR op d w a b k) 15 7 = a
      ∧ fld (wordR op d w a b k) 22 7 = b ∧ fld (wordR op d w a b k) 29 3 = k := by
  refine ⟨?_, ?_, ?_, ?_, ?_⟩ <;> apply BitVec.eq_of_toNat_eq <;> rw [fld, BitVec.toNat_ofNat, wordR] <;> omega

theorem bits_w_wordR : bits (wordR op d w a b k) 14 1 = w.toNat := by
  simp only [wordR, bits]; omega

theorem decodeTableWord_wordR (hodd : op % 2 = 1) (hmajor : op / 2 < 0x1C) :
    decodeTableWord 32 (wordR op d w a b k) = decodeLane (wordR op d w a b k) := by
  rw [decodeTableWord_odd (wordR_lt hop ..) (by simp only [wordR]; omega), decodeWord,
    if_pos (by rw [bits_opcode_wordR hop]; exact hmajor)]

end WordR

theorem decode_iaddc (a b d : BitVec 7) (k : BitVec 3) : decodeTableWord 32 (wordR 0x0B d 0 a b k) = some (.iaddc k b a d) := by
  obtain ⟨hd, -, ha, hb, hk⟩ := fld_wordR (op := 0x0B) (by norm_num) d 0 a b k
  rw [decodeTableWord_wordR (by norm_num) _ _ _ _ _ (by norm_num) (by norm_num), decodeLane, bits_opcode_wordR (by norm_num)]
  simp only [hd, ha, hb, hk, bits_w_wordR (show 0x0B < 2 ^ 7 by norm_num)]
  rfl

theorem decode_lea64 (a b d : BitVec 7) (k : BitVec 3) : decodeTableWord 32 (wordR 0x0D d 0 a b k) = some (.lea64 k b a d) := by
  obtain ⟨hd, -, ha, hb, hk⟩ := fld_wordR (op := 0x0D) (by norm_num) d 0 a b k
  rw [decodeTableWord_wordR (by norm_num) _ _ _ _ _ (by norm_num) (by norm_num), decodeLane, bits_opcode_wordR (by norm_num)]
  simp only [hd, ha, hb, hk, bits_w_wordR (show 0x0D < 2 ^ 7 by norm_num)]
  rfl

theorem decode_sel (a b d : BitVec 7) (k : BitVec 3) (w : BitVec 1) :
    decodeTableWord 32 (wordR 0x09 d w a b k) = some (.sel k b a w d) := by
  obtain ⟨hd, hw, ha, hb, hk⟩ := fld_wordR (op := 0x09) (by norm_num) d w a b k
  rw [decodeTableWord_wordR (by norm_num) _ _ _ _ _ (by norm_num) (by norm_num), decodeLane, bits_opcode_wordR (by norm_num)]
  simp only [hd, hw, ha, hb, hk]

theorem wordR_of_w_zero (op : Nat) (d a b : BitVec 7) (k : BitVec 3) :
    op + d.toNat * 2 ^ 7 + a.toNat * 2 ^ 15 + b.toNat * 2 ^ 22 + k.toNat * 2 ^ 29 = wordR op d 0 a b k := by
  simp [wordR]

theorem pairs_even_of_wf_lea64 {k : BitVec 3} {a b d : BitVec 7} (h : WellFormed.wf (.lea64 k b a d) = true) :
    d.toNat % 2 = 0 ∧ a.toNat % 2 = 0 := by
  obtain ⟨-, hops⟩ := Bool.and_eq_true_iff.mp h
  obtain ⟨hregs, -⟩ := Bool.and_eq_true_iff.mp hops
  have hall : ([.vd d.toNat 2, .vs a.toNat 2, .vs b.toNat 1] : List Opd).all Opd.legal = true := hregs
  simp only [List.all_cons, Opd.legal, Bool.and_eq_true, beq_iff_eq] at hall
  obtain ⟨⟨hd, -⟩, ha, -⟩ := hall
  exact ⟨hd, ha⟩

namespace Machine

/-- The 33-bit sum of a lane (04 R118). -/
def carrySum (g : Group) (a b k l : Nat) : Nat :=
  (g.src a l).toNat + (g.src b l).toNat + (if lane (g.pred k) l then 1 else 0)

theorem iaddc_completes (k : BitVec 3) (a b d : BitVec 7) : RegOp (.iaddc k b a d) fun _ g p =>
    (g.regs.lanes p.act d.toNat fun l => BitVec.ofNat 32 (carrySum g a.toNat b.toNat k.toNat l)).pred p.act k.toNat
      (maskOf fun l => decide (2 ^ 32 ≤ carrySum g a.toNat b.toNat k.toNat l)) := by
  intro s g p latch chain h
  have hc := completes_done h 0 (((Started (.iaddc k b a d) s g p chain).setLanes d.toNat ((lanesOf p.act).map fun l =>
      (l, BitVec.ofNat 32 (carrySum g a.toNat b.toNat k.toNat l)))).setPred k.toNat p.act
        (maskOf fun l => decide (2 ^ 32 ≤ carrySum g a.toNat b.toNat k.toNat l)))
    ((RegsOnly.refl _).setLanes.setPred)
    (by unfold exec execIaddc; exact issue_go h _)
  rwa [Group.regs_setPred, Group.regs_setLanes, Started.regs] at hc

theorem lea64_completes (k : BitVec 3) (a b d : BitVec 7) : RegOp (.lea64 k b a d) fun _ g p =>
    g.regs.span p.act d.toNat fun l =>
      words64 (BitVec.ofInt 64 ((g.src64 a.toNat l : Int) + (g.src b.toNat l).toInt * 2 ^ k.toNat)).toNat := by
  intro s g p latch chain h
  simp only [← wrap_eq_toNat]
  have hc := completes_writeMany (d := d.toNat) (w := 0) h
    (ws := fun l => words64 (wrap 64 ((g.src64 a.toNat l : Int) + (g.src b.toNat l).toInt * 2 ^ k.toNat)))
    (by unfold exec execLea64; exact issue_go h _)
  rwa [Regs.flag_zero] at hc

theorem sel_completes (k : BitVec 3) (a b d : BitVec 7) (w : BitVec 1) : LaneOp (.sel k b a w d) w d.toNat
    (fun _ g _ l => if lane (g.pred k.toNat) l then g.src a.toNat l else g.src b.toNat l) (fun _ _ _ => 0) :=
  laneOp_of (fun c => c.map fun l => if c.g.pr k.toNat l then c.g.src a.toNat l else c.g.src b.toNat l) (fun _ => 0)
    (fun _ => rfl) (fun _ _ _ _ _ => rfl) fun _ _ _ _ _ => rfl

end Machine
end Sys2Proof

open Sys2Proof Sys2Proof.Machine in
/-- Settles O4: the fields of a word of format R read back, and each instruction completes with the registers stated. -/
theorem carryScaleSelectRules : Obligations.CarryScaleSelectRules := by
  intro a b d k w
  rw [wordR_of_w_zero, wordR_of_w_zero]
  exact ⟨decode_iaddc a b d k, decode_lea64 a b d k, decode_sel a b d k w, rfl, rfl, rfl, pairs_even_of_wf_lea64,
    iaddc_completes k a b d, lea64_completes k a b d, sel_completes k a b d w⟩

/-! ## Predicates, votes and transfers (04 R128, R139, R140, Table 4-4) -/

namespace Sys2Proof.Machine

theorem Group.flag_zero (g : Group) : g.flag 0 = g := by
  simp [Group.flag]

theorem completes_scalar {i : Instr} {s : State} {g : Group} {p : Path} {latch : Option Nat} {chain : Option Chain}
    (h : Goes i s g p latch chain) {d : Nat} {x : Word} (he : exec i s = (Issuing i s g p latch chain).scalar d x) :
    Completes i s g p chain 0 (g.regs.scalar d x) := by
  have hc := completes_done h 0 ((Started i s g p chain).setSr d x) (RegsOnly.refl _).setSr he
  rwa [Group.regs_setSr, Started.regs] at hc

/-- An instruction that is done with the group as it is. -/
theorem completes_unchanged {i : Instr} {s : State} {g : Group} {p : Path} {latch : Option Nat} {chain : Option Chain}
    (h : Goes i s g p latch chain) (he : exec i s = (Issuing i s g p latch chain).done (Started i s g p chain)) :
    Completes i s g p chain 0 g.regs :=
  completes_done h 0 (Started i s g p chain) (RegsOnly.refl _) he

/-- An instruction that writes a predicate in the active lanes. -/
theorem regOp_setP {i : Instr} {d : BitVec 5} {m : Group → Path → Word} (M : Ctx → Word)
    (he : ∀ s, exec i s = issue i s fun c => c.setP d (M c))
    (hM : ∀ s g p latch chain, M (Issuing i s g p latch chain) = m g p) :
    RegOp i fun _ g p => g.regs.pred p.act d.toNat (m g p) := by
  intro s g p latch chain h
  have hx := exec_of_goes h (he s)
  rw [Ctx.setP, hM, ← Group.flag_zero (Group.setPred ..)] at hx
  simpa only [Regs.flag_zero] using completes_setPred h hx

/-! ### Votes -/

theorem and_eq_right_iff_lanes (x act : Word) : x &&& act = act ↔ ∀ l ∈ lanesOf act, lane x l = true := by
  refine ⟨fun h l hl => ?_, fun h => mask_ext fun l _ => ?_⟩
  · rw [mem_lanesOf, ← h, lane_and, Bool.and_eq_true] at hl
    exact hl.1
  · rw [lane_and]
    cases hact : lane act l
    · rw [Bool.and_false]
    · rw [h l ((mem_lanesOf act l).mpr hact), Bool.and_true]

theorem and_eq_zero_iff_lanes (x act : Word) : x &&& act = 0 ↔ ∀ l ∈ lanesOf act, lane x l = false := by
  refine ⟨fun h l hl => ?_, fun h => mask_ext fun l _ => ?_⟩
  · have hz : lane (x &&& act) l = false := by rw [h, lane_zero]
    rwa [lane_and, (mem_lanesOf act l).mp hl, Bool.and_true] at hz
  · rw [lane_and, lane_zero]
    cases hact : lane act l
    · rw [Bool.and_false]
    · rw [h l ((mem_lanesOf act l).mpr hact), Bool.false_and]

theorem vote_all_eq (x act : Word) :
    (if x &&& act = act then 0xFFFFFFFF else 0 : Word)
      = if (lanesOf act).all fun l => lane x l then 0xFFFFFFFF else 0 :=
  if_congr ((and_eq_right_iff_lanes x act).trans List.all_eq_true.symm) rfl rfl

theorem vote_any_eq (x act : Word) :
    (if x &&& act = 0 then 0 else 0xFFFFFFFF : Word)
      = if (lanesOf act).any fun l => lane x l then 0xFFFFFFFF else 0 := by
  rw [← ite_not]
  refine if_congr ?_ rfl rfl
  rw [and_eq_zero_iff_lanes, List.any_eq_true]
  simp

theorem vote_uni_eq (x act : Word) :
    (if x &&& act = act ∨ x &&& act = 0 then 0xFFFFFFFF else 0 : Word)
      = if ((lanesOf act).all fun l => lane x l) || (lanesOf act).all fun l => !lane x l then 0xFFFFFFFF else 0 := by
  refine if_congr ?_ rfl rfl
  rw [and_eq_right_iff_lanes, and_eq_zero_iff_lanes, Bool.or_eq_true, List.all_eq_true, List.all_eq_true]
  simp only [Bool.not_eq_true']

theorem predicateResults : Claims.PredicateResults := fun x y a b _ =>
  ⟨regOp_setP (fun c => c.psrc x a &&& c.psrc y b) (fun _ => rfl) fun _ _ _ _ _ => rfl,
    regOp_setP (fun c => c.psrc x a ||| c.psrc y b) (fun _ => rfl) fun _ _ _ _ _ => rfl,
    regOp_setP (fun c => c.psrc x a ^^^ c.psrc y b) (fun _ => rfl) fun _ _ _ _ _ => rfl,
    regOp_setP (fun c => ~~~(c.psrc x a)) (fun _ => rfl) fun _ _ _ _ _ => rfl,
    regOp_setP (fun c => c.psrc x a) (fun _ => rfl) fun _ _ _ _ _ => rfl,
    regOp_setP (fun c => if c.psrc x a &&& c.act = c.act then 0xFFFFFFFF else 0) (fun _ => rfl)
      fun _ g p _ _ => vote_all_eq (psrc g x a) p.act,
    regOp_setP (fun c => if c.psrc x a &&& c.act = 0 then 0 else 0xFFFFFFFF) (fun _ => rfl)
      fun _ g p _ _ => vote_any_eq (psrc g x a) p.act,
    regOp_setP (fun c => if c.psrc x a &&& c.act = c.act ∨ c.psrc x a &&& c.act = 0 then 0xFFFFFFFF else 0) (fun _ => rfl)
      fun _ g p _ _ => vote_uni_eq (psrc g x a) p.act⟩

/-! ### Transfers -/

section
variable {k a d n : BitVec 7} {r : BitVec 8} {s : State} {g : Group} {p : Path} {latch : Option Nat} {chain : Option Chain}

theorem rdlane_completes (h : Goes (.rdlane k r a) s g p latch chain) :
    Completes (.rdlane k r a) s g p chain 0 (match (lanesOf p.act).head? with
      | none => g.regs
      | some l => g.regs.scalar r.toNat (g.src a.toNat ((g.src k.toNat l).toNat % 32))) := by
  have he : exec (.rdlane k r a) s = match lanesOf p.act with
      | [] => (Issuing (.rdlane k r a) s g p latch chain).done (Started (.rdlane k r a) s g p chain)
      | l :: _ => (Issuing (.rdlane k r a) s g p latch chain).scalar r.toNat (g.src a.toNat ((g.src k.toNat l).toNat % 32)) := by
    unfold exec execRdlane
    exact issue_go h _
  cases hl : lanesOf p.act with
  | nil => exact completes_unchanged h (by rw [he, hl])
  | cons l ls => exact completes_scalar h (by rw [he, hl])

theorem voteBallot_completes (h : Goes (.voteBallot r n) s g p latch chain) :
    Completes (.voteBallot r n) s g p chain 0
      (if p.act = 0 then g.regs else g.regs.scalar r.toNat (g.pred n.toNat &&& p.act)) := by
  have he : exec (.voteBallot r n) s = if p.act = 0
      then (Issuing (.voteBallot r n) s g p latch chain).done (Started (.voteBallot r n) s g p chain)
      else (Issuing (.voteBallot r n) s g p latch chain).scalar r.toNat (g.pred n.toNat &&& p.act) := by
    unfold exec execVoteBallot
    exact issue_go h _
  split <;> rename_i hact
  · exact completes_unchanged h (he.trans (if_pos hact))
  · exact completes_scalar h (he.trans (if_neg hact))

theorem actmask_completes (h : Goes (.actmask r) s g p latch chain) :
    Completes (.actmask r) s g p chain 0 (if p.act = 0 then g.regs else g.regs.scalar r.toNat p.act) := by
  have he : exec (.actmask r) s = if p.act = 0
      then (Issuing (.actmask r) s g p latch chain).done (Started (.actmask r) s g p chain)
      else (Issuing (.actmask r) s g p latch chain).scalar r.toNat p.act := by
    unfold exec execActmask
    exact issue_go h _
  split <;> rename_i hact
  · exact completes_unchanged h (he.trans (if_pos hact))
  · exact completes_scalar h (he.trans (if_neg hact))

end

theorem transferResults : Claims.TransferResults := fun _ a _ _ _ =>
  ⟨fun _ _ _ _ _ => rdlane_completes, fun _ _ _ _ _ => voteBallot_completes, fun _ _ _ _ _ => actmask_completes,
    regOp_write (fun c l => maskOf fun j => lane c.act j && (c.g.src a.toNat j == c.g.src a.toNat l)) (fun _ => rfl)
      fun _ _ _ _ _ _ => rfl⟩

end Sys2Proof.Machine

open Sys2Proof.Machine in
/-- Settles O10: each instruction writes its scalar or its predicate through the model's one writer of each. -/
theorem predicateAndTransferResults : Obligations.PredicateAndTransferResults := ⟨transferResults, predicateResults⟩

/-! ## Comparisons and conversions (04 R121, R122, R131, R132) -/

namespace Sys2Proof.Machine

/-! ### Comparisons -/

theorem compareInt_toNat {n : Nat} (c : Nat) (isSigned : Bool) (x y : BitVec n) :
    compareInt c n isSigned x.toNat y.toNat
      = intCond c (if isSigned then decide (x.toInt < y.toInt) else decide (x.toNat < y.toNat)) (x == y) ((x &&& y) != 0) := by
  have heq : (x.toNat == y.toNat) = (x == y) := by
    rw [Bool.eq_iff_iff, beq_iff_eq, beq_iff_eq, BitVec.toNat_inj]
  simp only [compareInt, signed_toNat, BitVec.ofNat_toNat, BitVec.setWidth_eq, heq]

theorem src64_lt (g : Group) (r l : Nat) : g.src64 r l < 2 ^ 64 := by
  have h0 := (g.src r l).isLt
  have h1 := (g.src (r + 1) l).isLt
  rw [Group.src64]; omega

/-- A register pair is the value of its 64 bits. -/
theorem toNat_src64 (g : Group) (r l : Nat) : (BitVec.ofNat 64 (g.src64 r l)).toNat = g.src64 r l :=
  (BitVec.toNat_ofNat ..).trans (Nat.mod_eq_of_lt (src64_lt g r l))

theorem compareInt_src64 (g : Group) (c : Nat) (isSigned : Bool) (a b l : Nat) :
    compareInt c 64 isSigned (g.src64 a l) (g.src64 b l)
      = let x : DWord := BitVec.ofNat 64 (g.src64 a l)
        let y : DWord := BitVec.ofNat 64 (g.src64 b l)
        intCond c (if isSigned then decide (x.toInt < y.toInt) else decide (x.toNat < y.toNat)) (x == y) ((x &&& y) != 0) := by
  rw [← compareInt_toNat, toNat_src64, toNat_src64]

theorem compareResults : Claims.CompareResults := by
  intro a b c t q
  refine regOp_setP (fun k => maskOf fun l =>
    compareInt c.toNat (if decide (2 ≤ t.toNat) then 64 else 32) (t.toNat % 2 == 0)
      (if decide (2 ≤ t.toNat) then k.g.src64 a.toNat l else k.num a.toNat l)
      (if decide (2 ≤ t.toNat) then k.g.src64 b.toNat l else k.num b.toNat l)) (fun s => by unfold exec execIcmp; rfl) ?_
  intro s g p latch chain
  refine congrArg maskOf (funext fun l => ?_)
  have ht : t = 0 ∨ t = 1 ∨ t = 2 ∨ t = 3 := by decide +revert
  rcases ht with rfl | rfl | rfl | rfl
  · exact compareInt_toNat c.toNat true (g.src a.toNat l) (g.src b.toNat l)
  · exact compareInt_toNat c.toNat false (g.src a.toNat l) (g.src b.toNat l)
  · exact compareInt_src64 g c.toNat true a.toNat b.toNat l
  · exact compareInt_src64 g c.toNat false a.toNat b.toNat l

/-- The flags of a function of the lanes. -/
theorem allFlags_lanes (act : Word) (f : Nat → Nat × Word) :
    allFlags ((lanesOf act).map fun l => (l, f l)) = laneFlags act fun l => (f l).2 := allFlags_map _ f

theorem fcmp_completes (a b : BitVec 7) (c : BitVec 3) (f : BitVec 2) (q : BitVec 5) : RegOp (.fcmp c b a f q) fun _ g p =>
    let m := floatFmt (8 + f.toNat)
    let x := fun r l => m.decode ((g.src r l).toNat % 2 ^ m.width)
    (g.regs.pred p.act q.toNat (maskOf fun l => (floatCond c.toNat (x a.toNat l) (x b.toNat l)).1)).flag
      (laneFlags p.act fun l => (floatCond c.toNat (x a.toNat l) (x b.toNat l)).2) := by
  intro s g p latch chain h
  refine completes_setPred h ?_
  rw [← allFlags_lanes p.act fun l => (0, (floatCond c.toNat _ _).2)]
  unfold exec execFcmp
  exact issue_go h _

/-! ### Conversions -/

section
variable {i : Instr} {t d : Nat} {w : BitVec 1} {f : Group → Nat → Nat × Word} (F : Ctx → Nat → Nat × Word)
  (he : ∀ s, exec i s = issue i s fun c => c.convert t w d (F c))
  (hF : ∀ s g p latch chain l, F (Issuing i s g p latch chain) l = f g l)
include he hF

/-- A conversion to a type of one register delivers as a float instruction does. -/
theorem floatOp_convert (ht : tyRegs t ≠ 2) : FloatOp i w d f := by
  refine floatOp_of F (fun s => ?_) hF
  simp only [he, Ctx.convert, if_neg ht]
  rfl

theorem regOp_convert (ht : tyRegs t = 2) : RegOp i fun _ g p =>
    (g.regs.span p.act d fun l => words64 (f g l).1).flag (laneFlags p.act fun l => (f g l).2) := by
  intro s g p latch chain h
  have hx := exec_of_goes h (he s)
  simp only [Ctx.convert, if_pos ht, hF, List.map_map, Ctx.lanes] at hx
  rw [show (Issuing i s g p latch chain).act = p.act from rfl, allFlags_lanes] at hx
  exact completes_writeMany h hx

end

theorem intMin_le_intMax (t : Nat) : intMin t ≤ intMax t := by
  have h1 : 0 < 2 ^ (intBits t - 1) := by positivity
  have h2 : 0 < 2 ^ intBits t := by positivity
  rw [intMin, intMax]
  split <;> omega

theorem intClamp_eq (t : Nat) (x : Int) :
    intClamp t x = (max (intMin t) (min (intMax t) x), if x < intMin t ∨ intMax t < x then fSat else 0) := by
  have hle := intMin_le_intMax t
  rw [intClamp]
  by_cases hlo : x < intMin t
  · rw [if_pos hlo, if_pos (.inl hlo), max_eq_left (by omega)]
  · by_cases hhi : intMax t < x
    · rw [if_neg hlo, if_pos hhi, if_pos (.inr hhi), min_eq_left hhi.le, max_eq_right hle]
    · rw [if_neg hlo, if_neg hhi, if_neg (by omega), min_eq_right (not_lt.mp hhi), max_eq_right (not_lt.mp hlo)]

theorem cvt_one {t : BitVec 4} (ht : tyRegs t.toNat ≠ 2) (a d : BitVec 7) (w : BitVec 1) (y : BitVec 4) :
    FloatOp (.cvt t y a w d) w d.toNat (fun g l =>
      let v := intValue y.toNat (typedSrc g y.toNat a.toNat l)
      (wrap 32 (max (intMin t.toNat) (min (intMax t.toNat) v)), if v < intMin t.toNat ∨ intMax t.toNat < v then fSat else 0)) := by
  refine floatOp_convert (fun c l =>
      let r := intClamp t.toNat (intValue y.toNat (c.typed y.toNat a.toNat l))
      (intResult t.toNat r.1, r.2)) (fun s => by unfold exec execCvt; rfl) (fun s g p latch chain l => ?_) ht
  simp only [intClamp_eq, intResult, if_neg ht]
  rfl

theorem cvt_pair {t : BitVec 4} (ht : tyRegs t.toNat = 2) (a d : BitVec 7) (w : BitVec 1) (y : BitVec 4) :
    RegOp (.cvt t y a w d) (fun _ g p =>
      let v := fun l => intValue y.toNat (typedSrc g y.toNat a.toNat l)
      (g.regs.span p.act d.toNat fun l => words64 (wrap 64 (max (intMin t.toNat) (min (intMax t.toNat) (v l))))).flag
        (laneFlags p.act fun l => if v l < intMin t.toNat ∨ intMax t.toNat < v l then fSat else 0)) := by
  refine regOp_convert (f := fun g l =>
      let v := intValue y.toNat (typedSrc g y.toNat a.toNat l)
      (wrap 64 (max (intMin t.toNat) (min (intMax t.toNat) v)), if v < intMin t.toNat ∨ intMax t.toNat < v then fSat else 0))
    (fun c l =>
      let r := intClamp t.toNat (intValue y.toNat (c.typed y.toNat a.toNat l))
      (intResult t.toNat r.1, r.2)) (fun s => by unfold exec execCvt; rfl) (fun s g p latch chain l => ?_) ht
  simp only [intClamp_eq, intResult, if_pos ht]
  rfl

theorem conversionResults : Claims.ConversionResults := fun a b d w t y r c f q =>
  ⟨fun ht => ⟨cvt_one ht a d w y,
      floatOp_convert (fun c l => floatConvert t.toNat y.toNat (.ofCode r.toNat) (c.typed y.toNat a.toNat l))
        (fun s => by unfold exec execFcvt; rfl) (fun _ _ _ _ _ _ => rfl) ht⟩,
    fun ht => ⟨cvt_pair ht a d w y,
      regOp_convert (fun c l => floatConvert t.toNat y.toNat (.ofCode r.toNat) (c.typed y.toNat a.toNat l))
        (fun s => by unfold exec execFcvt; rfl) (fun _ _ _ _ _ _ => rfl) ht⟩,
    fcmp_completes a b c f q⟩

end Sys2Proof.Machine

open Sys2Proof.Machine in
/-- Settles O7: a comparison writes its predicate, and a conversion delivers one register or writes a pair; clamping keeps a value
in the range and changes any other to the bound on its side. -/
theorem conversionAndCompareResults : Obligations.ConversionAndCompareResults := ⟨compareResults, conversionResults⟩

/-! ## Narrow and ternary conversions (03 R90, R94, R105; 04 R135, R136) -/

namespace Sys2Proof.Machine

/-! ### Traps of an instruction that may issue -/

theorem State.trapReady_veil (s t : State) (g : Group) (i : Instr) : t.trapReady (s.veil g i) = t.trapReady g := rfl

/-- A trap of an instruction that may issue is taken at once where the group may trap. -/
theorem trap_of_goes {i : Instr} {s : State} {g : Group} {p : Path} {latch : Option Nat} {chain : Option Chain}
    (h : Goes i s g p latch chain) (hr : s.trapReady g = true) (t : Trap) :
    (Issuing i s g p latch chain).trap t = .next (s.trapIssue s.cur.key s.cur.pslot t) := by
  obtain ⟨g0, hg, rfl, -⟩ := h.group
  rw [State.trapReady_veil] at hr
  rw [Ctx.trap_eq (c := Issuing i s _ p latch chain) hg]
  exact if_pos hr

/-! ### Format words -/

theorem badFormats_issuing (i : Instr) (s : State) (g : Group) (p : Path) (latch : Option Nat) (chain : Option Chain) (f : Nat) :
    (Issuing i s g p latch chain).badFormats f = maskOf fun l => lane p.act l && !validFormat (g.src f l) :=
  maskOfList_filter_lanesOf p.act _

section Formats
variable {i : Instr} {s : State} {g : Group} {p : Path} {latch : Option Nat} {chain : Option Chain} {f : Nat} {k : Ctx → Out}
  (h : Goes i s g p latch chain) (he : ∀ s, exec i s = issue i s fun c => c.formats f (k c))
include h he

theorem exec_of_formatsValid (hv : FormatsValid f s g p) : exec i s = k (Issuing i s g p latch chain) := by
  have hbad : (Issuing i s g p latch chain).badFormats f = 0 := by
    rw [badFormats_issuing, maskOf_eq_zero_iff]
    intro l _
    cases hl : lane p.act l with
    | false => rfl
    | true => rw [hv l hl]; rfl
  exact (exec_of_goes h (he s)).trans (if_neg fun hne => hne hbad)

theorem exec_of_badFormat (hr : s.trapReady g = true)
    (hbad : maskOf (fun l => lane p.act l && !validFormat (g.src f l)) ≠ 0) :
    exec i s = .next (s.trapIssue s.cur.key s.cur.pslot
      { Trap.of 0x10 with lanes := maskOf fun l => lane p.act l && !validFormat (g.src f l) }) := by
  rw [← badFormats_issuing i s g p latch chain] at hbad ⊢
  exact (exec_of_goes h (he s)).trans ((if_pos hbad).trans (trap_of_goes h hr _))

end Formats

theorem wordsOf_lanes (act : Word) (f : Nat → Nat × Word) :
    wordsOf ((lanesOf act).map fun l => (l, f l)) = (lanesOf act).map fun l => (l, BitVec.ofNat 32 (f l).1) := by
  rw [wordsOf, List.map_map]; rfl

/-- The flags of four values. -/
theorem allFlags_four (a b c d : Nat × Nat × Word) : allFlags [a, b, c, d] = a.2.2 ||| b.2.2 ||| c.2.2 ||| d.2.2 := by
  simp [allFlags, BitVec.or_assoc]

/-! ### Ternary bytes -/

theorem tunpk_eq : ∀ x : Fin 256, BitVec.ofNat 32 (tunpk x) = if 242 < x.val then 0
    else ([0, 1, 2, 3, 4].map fun i => BitVec.ofNat 32 (wrap 4 ((x.val / 3 ^ i % 3 : Nat) - 1) * 2 ^ (4 * i))).foldr
      (fun u v => u ||| v) (0 : Word) := by decide +kernel

theorem foldr_or_ite (P : Nat → Bool) (w : Word) (ls : List Nat) :
    (ls.map fun l => if P l then w else 0).foldr (fun a b => a ||| b) 0 = flagIf (ls.any P) w := by
  induction ls with
  | nil => rfl
  | cons x r ih =>
    rw [List.map_cons, List.foldr_cons, ih, List.any_cons]
    cases P x <;> cases r.any P <;> simp [flagIf]

/-- One flag that some lanes raise. -/
theorem laneFlags_ite (act : Word) (P : Nat → Bool) (w : Word) :
    laneFlags act (fun l => if P l then w else 0) = flagIf (maskOf (fun l => lane act l && P l) != 0) w := by
  rw [laneFlags, foldr_or_ite]
  refine congrArg (flagIf · w) ?_
  rw [Bool.eq_iff_iff, List.any_eq_true, bne_iff_ne, ne_eq, maskOf_eq_zero_iff]
  push Not
  refine ⟨fun ⟨l, hl, hP⟩ => ?_, fun ⟨l, _, hne⟩ => ?_⟩
  · have hact := (mem_lanesOf act l).mp hl
    exact ⟨l, lane_lt hact, by rw [hact, hP]; decide⟩
  · obtain ⟨hact, hP⟩ := Bool.and_eq_true_iff.mp (Bool.eq_true_of_not_eq_false hne)
    exact ⟨l, (mem_lanesOf act l).mpr hact, hP⟩

/-! ### The instructions -/

section
variable {f a d : BitVec 7} {s : State} {g : Group} {p : Path} {latch : Option Nat} {chain : Option Chain}

theorem qcvtQ_completes (h : Goes (.qcvtQ f a d) s g p latch chain) (hv : FormatsValid f.toNat s g p) :
    Completes (.qcvtQ f a d) s g p chain 0
      (let v := fun l => (laneFmt g f.toNat l).encode .rn (g.src a.toNat l).toNat
      (g.regs.lanes p.act d.toNat fun l => BitVec.ofNat 32 (v l).1).flag (laneFlags p.act fun l => (v l).2)) := by
  refine completes_write h ?_
  rw [← allFlags_lanes, ← wordsOf_lanes]
  exact exec_of_formatsValid h (fun s => by unfold exec execQcvtQ; rfl) hv

theorem qcvtF32_completes (h : Goes (.qcvtF32 f a d) s g p latch chain) (hv : FormatsValid f.toNat s g p) :
    Completes (.qcvtF32 f a d) s g p chain 0 (g.regs.lanes p.act d.toNat fun l =>
      let m := laneFmt g f.toNat l
      BitVec.ofNat 32 (m.toF32 ((g.src a.toNat l).toNat % 2 ^ m.width))) := by
  rw [← Regs.flag_zero (Regs.lanes ..)]
  exact completes_write h (exec_of_formatsValid h (fun s => by unfold exec execQcvtF32; rfl) hv)

theorem qunpk_completes (h : Goes (.qunpk f a d) s g p latch chain) (hv : FormatsValid f.toNat s g p) :
    Completes (.qunpk f a d) s g p chain 0 (g.regs.span p.act d.toNat fun l =>
      let m := laneFmt g f.toNat l
      [0, 1, 2, 3].map fun i =>
        BitVec.ofNat 32 (m.toF32 (bits (g.src a.toNat l).toNat (m.container * i) m.container % 2 ^ m.width))) := by
  rw [← Regs.flag_zero (Regs.span ..)]
  exact completes_writeMany h (exec_of_formatsValid h (fun s => by unfold exec execQunpk; rfl) hv)

/-- The four codes of a lane's QPACK, packed (03 R94). -/
def packed (m : NFmt) (v : Nat → Nat) : Nat × Word :=
  let c := fun i => m.encode .rn (v i)
  ((c 0).1 + (c 1).1 * 2 ^ m.container + (c 2).1 * 2 ^ (2 * m.container) + (c 3).1 * 2 ^ (3 * m.container),
    (c 0).2 ||| (c 1).2 ||| (c 2).2 ||| (c 3).2)

theorem packed_eq (m : NFmt) (v : Nat → Nat) :
    packed m v = (((run 0 4).map fun i => (i, m.encode .rn (v i))).foldl
        (fun acc e => acc + e.2.1 * 2 ^ (m.container * e.1)) 0,
      allFlags ((run 0 4).map fun i => (i, m.encode .rn (v i)))) := by
  simp only [packed, run, List.map_cons, List.map_nil, List.foldl_cons, List.foldl_nil, allFlags_four, Nat.mul_comm m.container,
    Nat.zero_add, Nat.zero_mul, Nat.one_mul, pow_zero, Nat.mul_one, Nat.reduceAdd]

theorem qpack_completes (h : Goes (.qpack f a d) s g p latch chain) (hv : FormatsValid f.toNat s g p) :
    Completes (.qpack f a d) s g p chain 0
      (let v := fun l => packed (laneFmt g f.toNat l) fun i => (g.src (a.toNat + i) l).toNat
      (g.regs.lanes p.act d.toNat fun l => BitVec.ofNat 32 (v l).1).flag (laneFlags p.act fun l => (v l).2)) := by
  refine completes_write h ?_
  rw [← allFlags_lanes, ← wordsOf_lanes]
  simp only [packed_eq]
  exact exec_of_formatsValid h (fun s => by unfold exec execQpack; rfl) hv

/-- The lanes whose byte is no ternary byte (03 R105). -/
def illegalBytes (g : Group) (p : Path) (a : Nat) : Word := maskOf fun l => lane p.act l && decide (242 < (g.src a l).toNat % 256)

theorem exec_tunpk (h : Goes (.tunpk a d) s g p latch chain) :
    exec (.tunpk a d) s = if illegalBytes g p a.toNat ≠ 0 ∧ g.gstat.getLsbD 22 = true
      then (Issuing (.tunpk a d) s g p latch chain).trap { Trap.of 0x0F with lanes := illegalBytes g p a.toNat }
      else (Issuing (.tunpk a d) s g p latch chain).write d.toNat
        ((lanesOf p.act).map fun l => (l, BitVec.ofNat 32 (tunpk ((g.src a.toNat l).toNat % 256))))
        (flagIf (illegalBytes g p a.toNat != 0) fInvalid) := by
  rw [illegalBytes, ← maskOfList_filter_lanesOf]
  unfold exec execTunpk
  exact issue_go h _

theorem tunpk_completes (h : Goes (.tunpk a d) s g p latch chain)
    (hlegal : g.gstat.getLsbD 22 = false ∨ ∀ l, lane p.act l = true → (g.src a.toNat l).toNat % 256 ≤ 242) :
    Completes (.tunpk a d) s g p chain 0
      ((g.regs.lanes p.act d.toNat fun l => BitVec.ofNat 32 (tunpk ((g.src a.toNat l).toNat % 256))).flag
        (laneFlags p.act fun l => if 242 < (g.src a.toNat l).toNat % 256 then fInvalid else 0)) := by
  refine completes_write h ((exec_tunpk h).trans ((if_neg ?_).trans ?_))
  · rintro ⟨hill, hstat⟩
    rcases hlegal with hoff | hall
    · rw [hoff] at hstat; cases hstat
    · refine hill ((maskOf_eq_zero_iff _).mpr fun l _ => ?_)
      cases hl : lane p.act l with
      | false => rfl
      | true => exact (Bool.true_and _).trans (decide_eq_false (Nat.not_lt.mpr (hall l hl)))
  · have hf := laneFlags_ite p.act (fun l => decide (242 < (g.src a.toNat l).toNat % 256)) fInvalid
    simp only [decide_eq_true_eq] at hf
    rw [hf, illegalBytes]

end

theorem narrowConversions : Claims.NarrowConversions := fun f a d =>
  ⟨fun _ _ _ _ _ => qcvtQ_completes, fun _ _ _ _ _ => qcvtF32_completes, fun _ _ _ _ _ => qpack_completes,
    fun _ _ _ _ _ => qunpk_completes, fun s g p latch chain h hlegal => by
      have hc := tunpk_completes h hlegal
      have hv : ∀ l, BitVec.ofNat 32 (tunpk ((g.src a.toNat l).toNat % 256)) = _ := fun l =>
        tunpk_eq ⟨(g.src a.toNat l).toNat % 256, Nat.mod_lt _ (by norm_num)⟩
      simpa only [hv] using hc⟩

theorem formatTraps : Claims.FormatTraps := fun f a d s g p latch chain hr =>
  ⟨fun hbad => ⟨fun h => exec_of_badFormat h (fun s => by unfold exec execQcvtQ; rfl) hr hbad,
      fun h => exec_of_badFormat h (fun s => by unfold exec execQcvtF32; rfl) hr hbad,
      fun h => exec_of_badFormat h (fun s => by unfold exec execQpack; rfl) hr hbad,
      fun h => exec_of_badFormat h (fun s => by unfold exec execQunpk; rfl) hr hbad⟩,
    fun hill hstat h => (exec_tunpk h).trans ((if_pos ⟨hill, hstat⟩).trans (trap_of_goes h hr _))⟩

end Sys2Proof.Machine

open Sys2Proof.Machine in
/-- Settles O8: the model's mask of bad lanes is empty where every active lane's format word or byte is valid, and else is the trap's. -/
theorem narrowResults : Obligations.NarrowResults := ⟨narrowConversions, formatTraps⟩

/-! ## Memory accesses at issue (04 R126; 05 R148, R149, R172, R178; 06 R219; 07 R233; 10 R307) -/

namespace Sys2Proof.Machine

/-! ### Lane accesses with no active lane, or with a misaligned one -/

theorem bne_eq_decide_ne (x y : Nat) : (x != y) = decide (x ≠ y) := by
  rw [Bool.eq_iff_iff, bne_iff_ne, decide_eq_true_iff]

theorem misaligned_lanes (act : Word) (n : Nat) (at_ : Nat → Nat) :
    misaligned n ((lanesOf act).map fun l => (l, at_ l)) = maskOf fun l => lane act l && decide (at_ l % n ≠ 0) := by
  rw [misaligned, List.filter_map, List.map_map]
  refine Eq.trans ?_ ((maskOfList_filter_lanesOf act fun l => at_ l % n != 0).trans
    (maskOf_congr fun l _ => congrArg (lane act l && ·) (bne_eq_decide_ne _ _)))
  exact congrArg maskOfList (List.map_id _)

theorem misaligned_nil (n : Nat) : misaligned n [] = 0 := by
  rw [misaligned, List.filter_nil, List.map_nil]; decide

theorem lanesOf_zero : lanesOf 0 = [] := by decide

/-- How every lane access begins: a trap that names the misaligned lanes, and nothing more when there is no lane. -/
def BeginsAsAccess (c : Ctx) (n : Nat) (ls : List (Nat × Nat)) (out : Out) : Prop :=
  (misaligned n ls ≠ 0 → out = c.trap { Trap.of cAlign with lanes := misaligned n ls }) ∧ (ls = [] → out = c.done c.g)

theorem Ctx.access_begins (c : Ctx) (n : Nat) (ls : List (Nat × Nat)) (op : MemOp) : BeginsAsAccess c n ls (c.access n ls op) := by
  rcases c.access_cases n ls op with ⟨hbad, he⟩ | ⟨hok, -, he⟩ | ⟨hok, hne, -⟩
  · exact ⟨fun _ => he, fun hnil => absurd (hnil ▸ misaligned_nil n) hbad⟩
  · exact ⟨fun hbad => absurd hok hbad, fun _ => he⟩
  · exact ⟨fun hbad => absurd hok hbad, fun hnil => absurd hnil hne⟩

theorem Ctx.queued_begins (c : Ctx) (n : Nat) (ls : List (Nat × Nat)) (op : MemOp) : BeginsAsAccess c n ls (c.queued n ls op) := by
  rcases c.queued_cases n ls op with ⟨hbad, he⟩ | ⟨hok, -, he⟩ | ⟨hok, hne, -⟩ | ⟨hok, hne, -⟩
  · exact ⟨fun _ => he, fun hnil => absurd (hnil ▸ misaligned_nil n) hbad⟩
  · exact ⟨fun hbad => absurd hok hbad, fun _ => he⟩
  · exact ⟨fun hbad => absurd hok hbad, fun hnil => absurd hnil hne⟩
  · exact ⟨fun hbad => absurd hok hbad, fun hnil => absurd hnil hne⟩

theorem Ctx.update_begins (c : Ctx) (op : Nat) (ls : List (Nat × Nat)) (vd : Nat) :
    BeginsAsAccess c (UOp.ofCode op).size ls (c.update op ls vd) := by
  unfold Ctx.update
  refine ⟨fun hbad => if_pos hbad, ?_⟩
  rintro rfl
  simp only [misaligned_nil, ne_eq, not_true_eq_false, if_false, List.isEmpty_nil, if_true]

section Corners
variable {i : Instr} {s : State} {g : Group} {p : Path} {latch : Option Nat} {chain : Option Chain} {n : Nat} {at_ : Nat → Nat}

theorem corners_of_begins (h : Goes i s g p latch chain)
    (hb : BeginsAsAccess (Issuing i s g p latch chain) n ((lanesOf p.act).map fun l => (l, at_ l)) (exec i s)) :
    let bad := maskOf fun l => lane p.act l && decide (at_ l % n ≠ 0)
    (p.act = 0 → Completes i s g p chain 0 g.regs)
    ∧ (bad ≠ 0 → s.trapReady g = true →
      exec i s = .next (s.trapIssue s.cur.key s.cur.pslot { Trap.of 0x07 with lanes := bad })) := by
  obtain ⟨htrap, hdone⟩ := hb
  rw [misaligned_lanes] at htrap
  exact ⟨fun hact => completes_unchanged h (hdone (by rw [hact, lanesOf_zero]; rfl)),
    fun hbad hr => (htrap hbad).trans (trap_of_goes h hr _)⟩

end Corners

/-- The immediate form's address, as the model writes it. -/
theorem wrap_signed_offset (base n : Nat) (x : BitVec 7) :
    wrap 64 ((base : Int) + signed 7 x.toNat * (n : Int)) = (BitVec.ofInt 64 ((base : Int) + x.toInt * (n : Int))).toNat := by
  rw [wrap_eq_toNat, signed_toNat]

/-- STLD and STST take the address of the vector pair, or of the scalar pair with its index (06 R215). -/
theorem slotAddr_eq (c : Ctx) (x b : BitVec 7) (k : BitVec 1) :
    c.slotAddr x b k = c.lanes.map fun l => (l, (if k = 1 then fun l => c.base k b l
      else fun l => (c.base k b l + c.num x.toNat l) % 2 ^ 64) l) := by
  unfold Ctx.slotAddr
  split <;> rfl

theorem laneAccessCorners : Claims.LaneAccessCorners := by
  intro x b d k e z o sc od q s g p latch chain base reg n imm sbase slot u corners
  have himm : imm = fun l => wrap 64 ((base l : Int) + signed 7 x.toNat * (n : Int)) :=
    funext fun l => (wrap_signed_offset ..).symm
  exact ⟨fun h => corners_of_begins h (by
      rw [show exec _ s = _ by unfold exec execLdReg; exact issue_go h _]; exact Ctx.access_begins ..),
    fun h => corners_of_begins h (by
      rw [himm]; rw [show exec _ s = _ by unfold exec execLdImm; exact issue_go h _]; exact Ctx.access_begins ..),
    fun h => corners_of_begins h (by
      rw [show exec _ s = _ by unfold exec execLdStrong; exact issue_go h _]; exact Ctx.access_begins ..),
    fun h => corners_of_begins h (by
      rw [show exec _ s = _ by unfold exec execStReg; exact issue_go h _]; exact Ctx.queued_begins ..),
    fun h => corners_of_begins h (by
      rw [himm]; rw [show exec _ s = _ by unfold exec execStImm; exact issue_go h _]; exact Ctx.queued_begins ..),
    fun h => corners_of_begins h (by
      rw [show exec _ s = _ by unfold exec execStStrong; exact issue_go h _]; exact Ctx.queued_begins ..),
    fun h => corners_of_begins h (by
      rw [show exec _ s = _ by unfold exec execAtom; exact issue_go h _]; exact Ctx.queued_begins ..),
    fun h => corners_of_begins h (by
      rw [show exec _ s = _ by unfold exec execUpdScalarBase; exact issue_go h _]; exact Ctx.update_begins ..),
    fun h => corners_of_begins h (by
      rw [show exec _ s = _ by unfold exec execUpdVectorBase; exact issue_go h _]; exact Ctx.update_begins ..),
    fun h => corners_of_begins h (by
      rw [show exec _ s = _ by unfold exec execStld; exact issue_go h _, slotAddr_eq]; exact Ctx.access_begins ..),
    fun h => corners_of_begins h (by
      rw [show exec _ s = _ by unfold exec execStst; exact issue_go h _, slotAddr_eq]; exact Ctx.queued_begins ..),
    fun h => corners_of_begins h (by
      rw [show exec _ s = _ by unfold exec execCollapse; exact issue_go h _]; exact Ctx.access_begins ..),
    fun h => corners_of_begins h (by
      rw [show exec _ s = _ by unfold exec execCctlClean; exact issue_go h _]; exact Ctx.access_begins ..),
    fun h => corners_of_begins h (by
      rw [show exec _ s = _ by unfold exec execCctlInv; exact issue_go h _]; exact Ctx.access_begins ..),
    fun h => corners_of_begins h (by
      rw [show exec _ s = _ by unfold exec execCctlClinv; exact issue_go h _]; exact Ctx.access_begins ..)⟩

/-! ### Instructions with one address for the group -/

theorem State.now_clearRestart (s : State) (team : Nat) : (s.clearRestart team).now = s.now := by
  unfold State.clearRestart
  split
  · split <;> rfl
  · rfl

section OneAddress
variable {i : Instr} {s : State} {g : Group} {p : Path} {latch : Option Nat} {chain : Option Chain} {n addr : Nat}
  {ls : List (Nat × Nat)} {op : MemOp}

theorem pends_of_pend (he : exec i s = (Issuing i s g p latch chain).pend ls op) : Pends i s s g p chain ls op := he

theorem pends_of_publish (he : exec i s = (Issuing i s g p latch chain).publish.pend ls op) :
    Pends i s (s.clearRestart g.team) g p chain ls op := by
  rw [Ctx.pend, show (Issuing i s g p latch chain).publish.s.now = s.now from State.now_clearRestart ..] at he
  exact he

theorem pends_of_accessOne (he : exec i s = (Issuing i s g p latch chain).accessOne n addr op) (ha : addr % n = 0) :
    Pends i s s g p chain [(0, addr)] op := by
  rcases (Issuing i s g p latch chain).accessOne_cases n addr op with ⟨hne, -⟩ | ⟨-, hp⟩
  · exact absurd ha hne
  · exact he.trans hp

theorem trap_of_accessOne (h : Goes i s g p latch chain) (hr : s.trapReady g = true)
    (he : exec i s = (Issuing i s g p latch chain).accessOne n addr op) (ha : addr % n ≠ 0) :
    exec i s = .next (s.trapIssue s.cur.key s.cur.pslot (Trap.of 0x07)) := by
  rcases (Issuing i s g p latch chain).accessOne_cases n addr op with ⟨-, ht⟩ | ⟨h0, -⟩
  · exact he.trans (ht.trans (trap_of_goes h hr _))
  · exact absurd h0 ha

end OneAddress

section Instructions
variable {a b d : BitVec 8} {s : State} {g : Group} {p : Path} {latch : Option Nat} {chain : Option Chain}

theorem exec_sld {o : BitVec 9} (h : Goes (.sld o a d) s g p latch chain) :
    exec (.sld o a d) s = (Issuing (.sld o a d) s g p latch chain).accessOne 4
      (BitVec.ofInt 64 ((g.sr64 a.toNat : Int) + o.toInt * 4)).toNat (.sld d.toNat) := by
  rw [← wrap_eq_toNat, ← signed_toNat]
  unfold exec execSld
  exact issue_go h _

theorem exec_waita (h : Goes (.waita b a d) s g p latch chain) :
    exec (.waita b a d) s = (Issuing (.waita b a d) s g p latch chain).accessOne 4 (g.sr64 a.toNat)
      (.waita d.toNat (s.sv s.cur.key g b.toNat) (g.sr d.toNat)) := by
  unfold exec execWaita
  exact issue_go h _

/-! LAUNCH begins as an access, and goes on from the packet it has read (07 R233). -/

theorem Ctx.taken_eq_some {c : Ctx} {held : HeldOp} : c.taken = some held ↔ c.p.wait = .held held := by
  unfold Ctx.taken
  cases c.p.wait <;> simp

theorem exec_launch (h : Goes (.launch a d) s g p latch chain) (hw : ∀ k, p.wait ≠ .held (.launch k)) :
    exec (.launch a d) s = (Issuing (.launch a d) s g p latch chain).accessOne 128 (g.sr64 a.toNat) (.launch d.toNat) := by
  unfold exec execLaunch
  refine (issue_go h _).trans ?_
  split
  · rename_i k hk
    exact absurd (Ctx.taken_eq_some.mp hk) (hw k)
  · rfl

/-- An instruction that starts no sequence of Table 4-7 fuses with nothing. -/
theorem State.fuseMore_of_no_part {i : Instr} (hi : fusePart i = none) (key : Nat) (ps : PSlot) : s.fuseMore key g ps p i = [] := by
  have hcount : ∀ j k, fuseCount i j k = 0 := fun j k => by simp only [fuseCount, hi]
  simp only [State.fuseMore, hcount, List.take_zero, ite_self]

/-- Outstanding answers decide nothing of such an instruction's sequence. -/
theorem State.fuseNext_answers {i : Instr} (hi : fusePart i = none) (key : Nat) (ps : PSlot) (xs : List Nat) :
    s.fuseNext key { g with answers := xs } ps p i chain = s.fuseNext key g ps p i chain := by
  simp only [State.fuseNext, State.fuseMore_of_no_part hi]

/-- An instruction that names no vector register finds its group as it is. -/
theorem State.veil_of_no_vregs {i : Instr} (hv : vregsOf i = []) (hf : formatRegs g i = []) : s.veil g i = g := by
  have hveiled : g.veiled i = [] := by
    simp only [Group.veiled, hv, hf, List.append_nil, List.filter_nil, List.map_nil, List.flatten_nil, List.flatten_eq_nil_iff,
      List.mem_map]
    rintro _ ⟨r, -, rfl⟩
    rfl
  rw [State.veil, hveiled]
  rfl

section Held
variable {k : BitVec 1024} (h : Goes (.launch a d) s g p latch chain) (hk : p.wait = .held (.launch k))
include h hk

theorem exec_launch_held :
    exec (.launch a d) s = ((s.submit (Started (.launch a d) s g p chain) d.toNat k).elim
      ((Issuing (.launch a d) s g p latch chain).hold (.launch k))
      fun e => { Issuing (.launch a d) s g p latch chain with s := e.1 }.done e.2) := by
  have htaken : (Issuing (.launch a d) s g p latch chain).taken = some (.launch k) := Ctx.taken_eq_some.mpr hk
  unfold exec execLaunch
  refine (issue_go h _).trans ?_
  simp only [htaken]
  change (match s.submit (Started (.launch a d) s g p chain) d.toNat k with | some (s1, g) => _ | none => _) = _
  cases s.submit (Started (.launch a d) s g p chain) d.toNat k <;> rfl

theorem launch_queues (hroom : (s.context g.ctx).devq.length < 64) :
    CompletesAt (.launch a d) s
      (s.setContext g.ctx { s.context g.ctx with devq := (s.context g.ctx).devq ++ [⟨k, g.uid, d.toNat, s.now⟩] })
      { g with answers := g.answers ++ [d.toNat] } p chain g.regs (p.pc + 4) := by
  have hsubmit : s.submit (Started (.launch a d) s g p chain) d.toNat k = some
      (s.setContext g.ctx { s.context g.ctx with devq := (s.context g.ctx).devq ++ [⟨k, g.uid, d.toNat, s.now⟩] },
        { Started (.launch a d) s g p chain with answers := g.answers ++ [d.toNat] }) := if_neg (Nat.not_le.mpr hroom)
  have he := exec_launch_held h hk
  rw [hsubmit] at he
  rw [show p.pc + 4 = p.pc + BitVec.ofNat 64 (Instr.launch a d).size by rw [Instr.size_launch]; rfl]
  exact completesAt_retire (g := { g with answers := g.answers ++ [d.toNat] })
    (k := { Started (.launch a d) s g p chain with answers := g.answers ++ [d.toNat] })
    p.act latch (Started (.launch a d) s g p chain) p _ rfl ((Started.path (.launch a d) s g p chain _).trans h.path) rfl
    (Started.path (.launch a d) s g p chain _) rfl rfl rfl (State.fuseNext_answers (i := .launch a d) rfl ..).symm he

theorem launch_refused (hfull : 64 ≤ (s.context g.ctx).devq.length) (hclosed : s.intakeOpen g.ctx = false) :
    CompletesAt (.launch a d) s s g p chain (g.regs.scalar d.toNat 1) (p.pc + 4) := by
  have hsubmit : s.submit (Started (.launch a d) s g p chain) d.toNat k = some (s, (Started (.launch a d) s g p chain).setSr d.toNat 1) :=
    (if_pos hfull).trans (if_neg (by rw [show (Started (.launch a d) s g p chain).ctx = g.ctx from rfl, hclosed]; decide))
  have he := exec_launch_held h hk
  rw [hsubmit] at he
  have hc := completes_scalar h he
  rw [Completes, Instr.size_launch] at hc
  exact hc

theorem launch_holds (hfull : 64 ≤ (s.context g.ctx).devq.length) (hopen : s.intakeOpen g.ctx = true) :
    exec (.launch a d) s = .next (s.setGroup s.cur.key (g.setWait s.cur.pslot (.held (.launch k)))) := by
  have hsubmit : s.submit (Started (.launch a d) s g p chain) d.toNat k = none := (if_pos hfull).trans (if_pos hopen)
  obtain ⟨g0, hg, hveil, -⟩ := h.group
  rw [State.veil_of_no_vregs rfl rfl] at hveil
  subst hveil
  rw [exec_launch_held h hk, hsubmit]
  exact Ctx.stall_eq (c := Issuing (.launch a d) s g p latch chain) hg _

end Held

theorem exec_tcopyIn (h : Goes (.tcopyIn d a b) s g p latch chain) :
    exec (.tcopyIn d a b) s = (Issuing (.tcopyIn d a b) s g p latch chain).copy false d.toNat a.toNat b.toNat := by
  unfold exec execTcopyIn
  exact issue_go h _

theorem exec_tcopyOut (h : Goes (.tcopyOut d a b) s g p latch chain) :
    exec (.tcopyOut d a b) s = (Issuing (.tcopyOut d a b) s g p latch chain).copy true d.toNat a.toNat b.toNat := by
  unfold exec execTcopyOut
  exact issue_go h _

/-! A tile copy checks its record's alignment, then begins (06 R219). -/

theorem Ctx.copy_eq_pend {c : Ctx} {x r l : Nat} (ha : c.g.sr64 r % 128 = 0) :
    c.copy false x r l = c.pend [(0, c.g.sr64 r)] (.tcopy false l x) := if_neg (not_not_intro ha)

theorem Ctx.copy_eq_publish {c : Ctx} {x r l : Nat} (ha : c.g.sr64 r % 128 = 0) :
    c.copy true x r l = c.publish.pend [(0, c.g.sr64 r)] (.tcopy true l x) := if_neg (not_not_intro ha)

theorem Ctx.copy_eq_trap {c : Ctx} {out : Bool} {x r l : Nat} (ha : c.g.sr64 r % 128 ≠ 0) :
    c.copy out x r l = c.trap { Trap.of 0x07 with va := c.g.sr64 r } := if_pos ha

section Subscription
variable {v y : BitVec 7} {z : BitVec 2} {m : BitVec 1}

theorem exec_subscr (h : Goes (.subscr a v z m y) s g p latch chain) :
    exec (.subscr a v z m y) s =
      if (Issuing (.subscr a v z m y) s g p latch chain).spSize g.seg ≤ (g.sr a.toNat).toNat
      then (Issuing (.subscr a v z m y) s g p latch chain).trap (Trap.of 0x05)
      else if (g.sr a.toNat).toNat % 128 ≠ 0 then (Issuing (.subscr a v z m y) s g p latch chain).trap (Trap.of 0x07)
      else if g.sr64 (2 * v.toNat) % (8 * 2 ^ z.toNat) ≠ 0
      then (Issuing (.subscr a v z m y) s g p latch chain).trap (Trap.of 0x07)
      else (Issuing (.subscr a v z m y) s g p latch chain).publish.pend [(0, g.sr64 (2 * v.toNat))]
        (.subscr y.toNat ((g.sr a.toNat).toNat / 128) (8 * 2 ^ z.toNat) (decide (m = 1))) := by
  unfold exec execSubscr
  exact issue_go h _

variable {w : Team} (hteam : s.team g.team = some w) (hseg : SMap.has w.segs g.seg = true)
include hteam hseg

/-- The bytes that a group may name in its own segment are its team's declared ones. -/
theorem Issuing.spSize_own (i : Instr) : (Issuing i s g p latch chain).spSize g.seg = w.scratch := by
  have : (Issuing i s g p latch chain).spSize g.seg
      = match s.team g.team with | some t => if SMap.has t.segs g.seg then t.scratch else 0 | none => 0 := rfl
  rw [this, hteam]
  exact if_pos hseg

theorem subscr_pends (h : Goes (.subscr a v z m y) s g p latch chain) (hline : (g.sr a.toNat).toNat < w.scratch)
    (haligned : (g.sr a.toNat).toNat % 128 = 0) (hblock : g.sr64 (2 * v.toNat) % (8 * 2 ^ z.toNat) = 0) :
    Pends (.subscr a v z m y) s (s.clearRestart g.team) g p chain [(0, g.sr64 (2 * v.toNat))]
      (.subscr y.toNat ((g.sr a.toNat).toNat / 128) (8 * 2 ^ z.toNat) (decide (m = 1))) := by
  have he := exec_subscr h
  rw [Issuing.spSize_own hteam hseg, if_neg (Nat.not_le.mpr hline), if_neg (not_not_intro haligned),
    if_neg (not_not_intro hblock)] at he
  exact pends_of_publish he

theorem subscr_overruns (h : Goes (.subscr a v z m y) s g p latch chain) (hr : s.trapReady g = true)
    (hline : w.scratch ≤ (g.sr a.toNat).toNat) :
    exec (.subscr a v z m y) s = .next (s.trapIssue s.cur.key s.cur.pslot (Trap.of 0x05)) := by
  rw [exec_subscr h, Issuing.spSize_own hteam hseg, if_pos hline]
  exact trap_of_goes h hr _

theorem subscr_misaligned (h : Goes (.subscr a v z m y) s g p latch chain) (hr : s.trapReady g = true)
    (hline : (g.sr a.toNat).toNat < w.scratch)
    (hbad : (g.sr a.toNat).toNat % 128 ≠ 0 ∨ g.sr64 (2 * v.toNat) % (8 * 2 ^ z.toNat) ≠ 0) :
    exec (.subscr a v z m y) s = .next (s.trapIssue s.cur.key s.cur.pslot (Trap.of 0x07)) := by
  rw [exec_subscr h, Issuing.spSize_own hteam hseg, if_neg (Nat.not_le.mpr hline)]
  by_cases haligned : (g.sr a.toNat).toNat % 128 ≠ 0
  · rw [if_pos haligned]
    exact trap_of_goes h hr _
  · rw [if_neg haligned, if_pos (hbad.resolve_left haligned)]
    exact trap_of_goes h hr _

end Subscription

end Instructions

theorem groupAccessesEnterTranslation : Claims.GroupAccessesEnterTranslation := by
  intro o a b d v y z m s g p latch chain
  refine ⟨?_, ?_, ?_, ?_, ?_, ?_, ?_⟩
  · intro h ha
    exact pends_of_accessOne (exec_sld h) ha
  · intro h ha
    exact pends_of_accessOne (exec_waita h) ha
  · intro h hw ha
    exact pends_of_accessOne (exec_launch h hw) ha
  · intro h k hk
    exact ⟨launch_queues h hk, launch_refused h hk, launch_holds h hk⟩
  · intro h ha
    exact pends_of_pend ((exec_tcopyIn h).trans (Ctx.copy_eq_pend ha))
  · intro h ha
    exact pends_of_publish ((exec_tcopyOut h).trans (Ctx.copy_eq_publish ha))
  · intro h w hteam hseg
    exact subscr_pends hteam hseg h

theorem groupAccessTraps : Claims.GroupAccessTraps := by
  intro o a b d v y z m s g p latch chain hr
  refine ⟨?_, ?_, ?_, ?_, ?_⟩
  · intro ha h
    exact trap_of_accessOne h hr (exec_sld h) ha
  · intro ha h
    exact trap_of_accessOne h hr (exec_waita h) ha
  · intro ha hw h
    exact trap_of_accessOne h hr (exec_launch h hw) ha
  · intro ha
    constructor <;> intro h
    · exact (exec_tcopyIn h).trans ((Ctx.copy_eq_trap ha).trans (trap_of_goes h hr _))
    · exact (exec_tcopyOut h).trans ((Ctx.copy_eq_trap ha).trans (trap_of_goes h hr _))
  · intro w hteam hseg
    constructor
    · intro hline h
      exact subscr_overruns hteam hseg h hr hline
    · intro hline hbad h
      exact subscr_misaligned hteam hseg h hr hline hbad

end Sys2Proof.Machine

open Sys2Proof.Machine in
/-- Settles O16: a one-address instruction begins its access or traps on its alignment; a lane access with no lane begins nothing, and
one with a misaligned lane traps with exactly those lanes. -/
theorem accessCorners : Obligations.AccessCorners :=
  ⟨groupAccessesEnterTranslation, laneAccessCorners, groupAccessTraps⟩

/-! ## STS while a copy out of the segment is on its way (05 Table 5-3; 06 Table 6-3) -/

namespace Sys2Proof.Machine

/-- A TCOPY.OUT of the one byte at scratchpad address 0 of segment 0 of team 0. -/
def outwardCopy : CopyJob where
  pos := 0
  uid := 0
  team := 0
  seg := 0
  ctx := 0
  out := true
  shape := { base := 0, fmt := 0, etype := 1, rank := 1, circ := 0, grid := 0, ext := [1, 1, 1, 1, 1], str := [0, 0, 0, 0], repl := 0, red := 0 }
  perm := 0
  sbase := 0
  istride := 0
  mstride := 0
  ostride := 0
  org := [0, 0, 0, 0, 0]
  box := [1, 1, 1, 1, 1]
  lines := []
  next := 0
  failed := []
  touched := []

/-- The only group of its team, with one vector register, which holds the lane index. -/
def storingGroup : Group := Group.start ⟨0, 0, 0, 0, 0, 0, true, .user, none, Freeze.none⟩ ⟨1, 1, 0, 0, 0, 0, 0, false, 128⟩ 0 [] 0

/-- Its team, with a line of scratchpad. -/
def storingTeam : Team where
  ctx := 0
  launch := 0
  handler := false
  packet := 0
  x := 0
  y := 0
  z := 0
  grps := 1
  segs := [(0, Segment.start 0 1)]
  scratch := 128
  bars := []
  restartable := false
  fused := false
  saved := none
  held := []
  heldMat := []
  heldCopy := []
  restart := false
  since := 0

/-- The machine with that group at its issue point, while its core's copy streamer has the copy out of its segment. -/
def copyingState : State :=
  { State.reset with
    groups := [(0, storingGroup)], teams := [(0, storingTeam)], cores := [(0, { Core.empty with copies := [outwardCopy] })], cur := ⟨0, 0, .a⟩ }

/-- STS of each lane's index to the scratchpad byte of that address. -/
def storeLaneIndex : Instr := .sts 0 0 0 0 0

theorem copyingState_goes :
    Goes storeLaneIndex copyingState (copyingState.veil storingGroup storeLaneIndex) (entryPath 0) none none where
  group := ⟨storingGroup, rfl, rfl, by decide⟩
  path := rfl

/-- The copies of core 0 once an instruction has answered. -/
def copiesAfter (out : Out) : List CopyJob :=
  match out with
  | .next t => (t.core 0).copies
  | _ => []

theorem copiesAfter_storeLaneIndex : copiesAfter (exec storeLaneIndex copyingState) ≠ [outwardCopy] := by
  decide +kernel

end Sys2Proof.Machine

open Sys2Proof.Machine in
/-- Refutes O18, in its clause on STS: a TCOPY.OUT that is still to read a byte that STS writes computes an undefined value from it (06
Table 6-3), so `execSts` marks the byte in the copy, by `State.touch`, where the statement has nothing but the segment and the group
change. In `copyingState` the copy's only byte is one of those that STS writes. -/
theorem not_scratchpadResults : ¬ Obligations.ScratchpadResults := by
  rintro ⟨haccesses, -, -⟩
  have halone : ¬ OtherReads copyingState (copyingState.veil storingGroup storeLaneIndex) 0 :=
    fun ⟨_, _, _, _, _, hother, _⟩ => nomatch (show (none : Option Path) = some _ from hother)
  obtain ⟨-, -, hsts, -, -⟩ := haccesses 0 0 0 0 0 copyingState _ (entryPath 0) none none storingTeam (Segment.start 0 1) rfl rfl
    (.inr ⟨rfl, .inr halone⟩)
  obtain ⟨k, hexec, -⟩ := hsts copyingState_goes (by decide)
  refine copiesAfter_storeLaneIndex ?_
  rw [show exec storeLaneIndex copyingState = _ from hexec]
  rfl

/-! ## Lane accesses with aligned addresses enter Translation (05 R147 to R151, R154, R160, R165 to R170, R177; 06 R215) -/

namespace Sys2Proof.Machine

theorem lanesOf_ne_nil {act : Word} (h : act ≠ 0) : lanesOf act ≠ [] := by
  intro hnil
  refine h (mask_ext fun l _ => ?_)
  rw [lane_zero, Bool.eq_false_iff]
  intro hl
  have := (mem_lanesOf act l).mpr hl
  rw [hnil] at this
  cases this

/-- No lane is misaligned where every address is a multiple of the size. -/
theorem misaligned_of_aligned {n : Nat} {ls : List (Nat × Nat)} (h : ∀ y ∈ ls, y.2 % n = 0) : misaligned n ls = 0 := by
  have hnone : ls.filter (fun e => e.2 % n != 0) = [] := by
    rw [List.filter_eq_nil_iff]
    intro y hy
    simp [h y hy]
  rw [misaligned, hnone]
  decide

section LaneAccess
variable {i : Instr} {s : State} {g : Group} {p : Path} {latch : Option Nat} {chain : Option Chain} {n : Nat} {at_ : Nat → Nat} {op : MemOp}
  (hact : p.act ≠ 0)
include hact

theorem lane_addresses_ne_nil : (lanesOf p.act).map (fun l => (l, at_ l)) ≠ [] := by
  rw [ne_eq, List.map_eq_nil_iff]
  exact lanesOf_ne_nil hact

variable (haligned : ∀ y ∈ (lanesOf p.act).map (fun l => (l, at_ l)), y.2 % n = 0)
include haligned

theorem pends_of_access (he : exec i s = (Issuing i s g p latch chain).access n ((lanesOf p.act).map fun l => (l, at_ l)) op) :
    Pends i s s g p chain ((lanesOf p.act).map fun l => (l, at_ l)) op := by
  rcases Ctx.access_cases (Issuing i s g p latch chain) n ((lanesOf p.act).map fun l => (l, at_ l)) op with
    ⟨hbad, -⟩ | ⟨-, hnil, -⟩ | ⟨-, -, hpend⟩
  · exact absurd (misaligned_of_aligned haligned) hbad
  · exact absurd hnil (lane_addresses_ne_nil hact)
  · exact pends_of_pend (he.trans hpend)

theorem pends_of_queued (he : exec i s = (Issuing i s g p latch chain).queued n ((lanesOf p.act).map fun l => (l, at_ l)) op)
    (hroom : g.queue.length < 16) :
    Pends i s (s.clearRestart g.team) g p chain ((lanesOf p.act).map fun l => (l, at_ l)) op := by
  rcases Ctx.queued_cases (Issuing i s g p latch chain) n ((lanesOf p.act).map fun l => (l, at_ l)) op with
    ⟨hbad, -⟩ | ⟨-, hnil, -⟩ | ⟨-, -, hfull, -⟩ | ⟨-, -, -, hpend⟩
  · exact absurd (misaligned_of_aligned haligned) hbad
  · exact absurd hnil (lane_addresses_ne_nil hact)
  · exact absurd hroom (Nat.not_lt.mpr hfull)
  · exact pends_of_publish (he.trans hpend)

end LaneAccess

theorem pends_of_update {i : Instr} {s : State} {g : Group} {p : Path} {latch : Option Nat} {chain : Option Chain} {at_ : Nat → Nat}
    {op vd : Nat} (hact : p.act ≠ 0) (haligned : ∀ y ∈ (lanesOf p.act).map (fun l => (l, at_ l)), y.2 % (UOp.ofCode op).size = 0)
    (he : exec i s = (Issuing i s g p latch chain).update op ((lanesOf p.act).map fun l => (l, at_ l)) vd) :
    Pends i s (s.clearRestart g.team) g p chain ((lanesOf p.act).map fun l => (l, at_ l)) (.upd op vd) := by
  refine pends_of_publish (latch := latch) (he.trans ?_)
  have hne := lane_addresses_ne_nil (at_ := at_) hact
  simp only [Ctx.update, misaligned_of_aligned haligned, ne_eq, not_true_eq_false, if_false, List.isEmpty_iff, hne]

end Sys2Proof.Machine

open Sys2Proof Sys2Proof.Machine in
/-- Settles O15: each instruction is one of three forms of lane access, and its address form gives the addresses. -/
theorem globalAccessesEnterTranslation : Obligations.GlobalAccessesEnterTranslation := by
  intro x b d k e z o sc od q s g p latch chain hact base reg imm bare sbase vbase aligned n pub loads stores
  have himm : imm n = (lanesOf p.act).map fun l => (l, wrap 64 ((base l : Int) + signed 7 x.toNat * (n : Int))) :=
    List.map_congr_left fun l _ => congrArg (Prod.mk l) (wrap_signed_offset ..).symm
  have hslot : (if k = 1 then bare else reg) = (lanesOf p.act).map fun l => (l, (if k = 1 then fun l => base l
      else fun l => (base l + (g.src x.toNat l).toNat) % 2 ^ 64) l) := by split <;> rfl
  refine ⟨?ldReg, ?ldImm, ?ldStrong, ?stReg, ?stImm, ?stStrong, ?atom, ?updScalar, ?updVector, ?collapse, ?clean, ?inv, ?clinv,
    ?stld, ?stst⟩
  case ldReg =>
    intro h ha
    exact pends_of_access hact ha (show exec _ s = _ by unfold exec execLdReg; exact issue_go h _)
  case ldImm =>
    rw [himm]
    intro h ha
    exact pends_of_access hact ha (show exec _ s = _ by unfold exec execLdImm; exact issue_go h _)
  case ldStrong =>
    intro h ha
    exact pends_of_access hact ha (show exec _ s = _ by unfold exec execLdStrong; exact issue_go h _)
  case stReg =>
    intro h ha hroom
    exact pends_of_queued hact ha (show exec _ s = _ by unfold exec execStReg; exact issue_go h _) hroom
  case stImm =>
    rw [himm]
    intro h ha hroom
    exact pends_of_queued hact ha (show exec _ s = _ by unfold exec execStImm; exact issue_go h _) hroom
  case stStrong =>
    intro h ha hroom
    exact pends_of_queued hact ha (show exec _ s = _ by unfold exec execStStrong; exact issue_go h _) hroom
  case atom =>
    intro h ha hroom
    exact pends_of_queued hact ha (show exec _ s = _ by unfold exec execAtom; exact issue_go h _) hroom
  case updScalar =>
    intro h ha
    exact pends_of_update hact ha (show exec _ s = _ by unfold exec execUpdScalarBase; exact issue_go h _)
  case updVector =>
    intro h ha
    exact pends_of_update hact ha (show exec _ s = _ by unfold exec execUpdVectorBase; exact issue_go h _)
  case collapse =>
    intro h ha
    exact pends_of_access hact ha (show exec _ s = _ by unfold exec execCollapse; exact issue_go h _)
  case clean =>
    intro h ha
    exact pends_of_access hact ha (show exec _ s = _ by unfold exec execCctlClean; exact issue_go h _)
  case inv =>
    intro h ha
    exact pends_of_access hact ha (show exec _ s = _ by unfold exec execCctlInv; exact issue_go h _)
  case clinv =>
    intro h ha
    exact pends_of_access hact ha (show exec _ s = _ by unfold exec execCctlClinv; exact issue_go h _)
  case stld =>
    intro h ha
    have he : exec (.stld x b k d) s
        = (Issuing (.stld x b k d) s g p latch chain).access 16 (if k = 1 then bare else reg) (.stld d.toNat) := by
      unfold exec execStld
      exact issue_go h _
    rw [hslot] at he ha ⊢
    exact pends_of_access hact ha he
  case stst =>
    intro h ha hroom
    have he : exec (.stst x b k d) s
        = (Issuing (.stst x b k d) s g p latch chain).queued 16 (if k = 1 then bare else reg) (.stst d.toNat) := by
      unfold exec execStst
      exact issue_go h _
    rw [hslot] at he ha ⊢
    exact pends_of_queued hact ha he hroom

/-! ## Prefetches and fences (05 R174 to R176; 06 R195; 08 R249, R254) -/

namespace Sys2Proof.Machine

/-- An instruction at work, in another state of the machine. -/
def Ctx.inState (c : Ctx) (t : State) : Ctx := { c with s := t }

section Completing
variable {i : Instr} {s : State} {g : Group} {p : Path} {latch : Option Nat} {chain : Option Chain}

/-- An instruction that changes the machine about its group, and nothing of the group, completes. -/
theorem completesAt_of_machine (h : Goes i s g p latch chain) (hsize : i.size = 4) {t : State}
    (he : exec i s = ((Issuing i s g p latch chain).inState t).done (Started i s g p chain)) :
    CompletesAt i s t g p chain g.regs (p.pc + 4) := by
  have hc : CompletesAt i s t g p chain g.regs (p.pc + BitVec.ofNat 64 i.size) :=
    completesAt_retire (k := Started i s g p chain) p.act latch _ p _ rfl ((Started.path ..).trans h.path) rfl (Started.path ..)
      rfl rfl rfl rfl he
  rw [hsize] at hc
  exact hc

theorem completes_of_completesAt (hsize : i.size = 4) {R : Regs} (hc : CompletesAt i s s g p chain R (p.pc + 4)) :
    Completes i s g p chain 0 R := by
  rw [Completes, hsize]
  exact hc

end Completing

/-! ### Prefetches -/

theorem State.prefetch_of_unmapped {s : State} {core n asid va : Nat} (h : ¬ ∃ t, s.translateBy (coreDie core) asid va needNone = .ok t) :
    s.prefetch core n asid va = s := by
  unfold State.prefetch
  split
  · rfl
  · rename_i t ht
    exact absurd ⟨t, ht⟩ h

theorem State.prefetchHome_of_unmapped {s : State} {core asid va : Nat} (h : ¬ ∃ t, s.translateBy (coreDie core) asid va needNone = .ok t) :
    s.prefetchHome core asid va = s := by
  unfold State.prefetchHome
  split
  · rfl
  · rename_i t ht
    exact absurd ⟨t, ht⟩ h

/-- A fold none of whose steps changes anything. -/
theorem foldl_eq_self {α β : Type} {f : α → β → α} {a : α} {l : List β} (h : ∀ b ∈ l, f a b = a) : l.foldl f a = a := by
  induction l with
  | nil => rfl
  | cons b l ih => rw [List.foldl_cons, h b (by simp), ih fun x hx => h x (List.mem_cons_of_mem _ hx)]

/-- The machine after a step for the address of each active lane (05 Table 5-1). -/
def State.eachLane (s : State) (g : Group) (p : Path) (k : BitVec 1) (b : BitVec 7) (one : State → Nat → State) : State :=
  ((lanesOf p.act).map fun l => if k = 1 then g.src64 (2 * b.toNat) l else g.sr64 (2 * b.toNat)).foldl one s

theorem State.eachLane_of_none {s : State} {g : Group} {p : Path} {k : BitVec 1} {b : BitVec 7} {one : State → Nat → State}
    (h : ∀ l, lane p.act l = true → one s (if k = 1 then g.src64 (2 * b.toNat) l else g.sr64 (2 * b.toNat)) = s) :
    s.eachLane g p k b one = s := by
  refine foldl_eq_self fun va hva => ?_
  obtain ⟨l, hl, rfl⟩ := List.mem_map.mp hva
  exact h l ((mem_lanesOf ..).mp hl)

section Prefetch
variable {b : BitVec 7} {k : BitVec 1} {s : State} {g : Group} {p : Path} {latch : Option Nat} {chain : Option Chain}

theorem exec_prefL1 (h : Goes (.prefL1 b k) s g p latch chain) : exec (.prefL1 b k) s
    = ((Issuing (.prefL1 b k) s g p latch chain).inState (s.eachLane g p k b fun st va =>
        st.prefetch (s.cur.key / 128) (s.cacheOf (s.cur.key / 128)) (s.asidOf g) va)).done (Started (.prefL1 b k) s g p chain) := by
  change execPrefL1 b k s = _
  rw [State.eachLane, List.foldl_map]
  exact (issue_go h _).trans (congrArg (fun t => ((Issuing (.prefL1 b k) s g p latch chain).inState t).done _) List.foldl_map)

theorem exec_prefL2 (h : Goes (.prefL2 b k) s g p latch chain) : exec (.prefL2 b k) s
    = ((Issuing (.prefL2 b k) s g p latch chain).inState (s.eachLane g p k b fun st va =>
        st.prefetchHome (s.cur.key / 128) (s.asidOf g) va)).done (Started (.prefL2 b k) s g p chain) := by
  change execPrefL2 b k s = _
  rw [State.eachLane, List.foldl_map]
  exact (issue_go h _).trans (congrArg (fun t => ((Issuing (.prefL2 b k) s g p latch chain).inState t).done _) List.foldl_map)

end Prefetch

/-! ### FENCE -/

section Fence
variable {o sc m : BitVec 3} {s : State} {g : Group} {p : Path} {latch : Option Nat} {chain : Option Chain}

/-- Has what a FENCE orders performed? -/
def fenceHolds (s : State) (g : Group) (o m : BitVec 3) : Bool := if m = 2 then true else if o = 1 then s.acquired g else s.released g

/-- The machine once a FENCE has its place among the .SC events (08 R249, R254). -/
def fencePlaced (s : State) (p : Path) (o : BitVec 3) : State :=
  let n := s.cur.key / 128
  if o = 4 ∧ p.isHeld = false then s.setCore n { s.core n with clock := max (s.core n).clock (s.core n).heard + 1 } else s

/-- An .SC fence reaches no sector, whose time it would take (log 95). -/
theorem fencePlaced_eq (s : State) (p : Path) (o : BitVec 3) :
    fencePlaced s p o = if p.isHeld then s else s.scEvent (s.cur.key / 128) o.toNat [] := by
  have ho : o.toNat = 4 ↔ o = 4 := by rw [← BitVec.toNat_inj]; rfl
  unfold fencePlaced State.scEvent
  by_cases hp : p.isHeld = true
  · rw [if_pos hp, if_neg (by simp [hp])]
  · rw [if_neg hp]
    by_cases h4 : o = 4
    · rw [if_pos ⟨h4, by simpa using hp⟩, if_pos (ho.mpr h4)]
      rfl
    · rw [if_neg fun hc => h4 hc.1, if_neg fun hc => h4 (ho.mp hc)]

theorem group_fencePlaced (s : State) (p : Path) (o : BitVec 3) (key : Nat) : (fencePlaced s p o).group key = s.group key := by
  simp only [fencePlaced]
  split <;> rfl

theorem exec_fence (h : Goes (.fence o sc m) s g p latch chain) : exec (.fence o sc m) s
    = if fenceHolds s g o m = true
      then ((Issuing (.fence o sc m) s g p latch chain).inState (fencePlaced s p o)).done (Started (.fence o sc m) s g p chain)
      else ((Issuing (.fence o sc m) s g p latch chain).inState (fencePlaced s p o)).hold .fence := by
  have hplaced : (if p.isHeld then Issuing (.fence o sc m) s g p latch chain
      else { Issuing (.fence o sc m) s g p latch chain with s := s.scEvent (s.cur.key / 128) o.toNat [] })
      = (Issuing (.fence o sc m) s g p latch chain).inState (fencePlaced s p o) := by
    rw [fencePlaced_eq]
    split <;> rfl
  have hholds : (decide (m = 2) || (if o = 1 then s.acquired g else s.released g)) = fenceHolds s g o m := by
    unfold fenceHolds
    by_cases hm : m = 2 <;> simp [hm]
  rw [← hplaced, ← hholds]
  change execFence o sc m s = _
  refine (issue_go h _).trans ?_
  change (if (!(decide (m = 2) || (if o = 1 then s.acquired g else s.released g))) = true then
    Ctx.hold (if p.isHeld then _ else _) _ else Ctx.done (if p.isHeld then _ else _) (Ctx.g (if p.isHeld then _ else _))) = _
  cases (decide (m = 2) || (if o = 1 then s.acquired g else s.released g))
  · rfl
  · cases p.isHeld <;> rfl

end Fence

/-! ### OPFENCE -/

section Opfence
variable {s : State} {g : Group} {p : Path} {latch : Option Nat} {chain : Option Chain}

/-- When an OPFENCE issued: now, unless its path is in its hold. -/
def opfenceSince (s : State) (p : Path) : Nat :=
  match p.wait with
  | .held (.opfence t) => t
  | _ => s.now

/-- Is a wait one for a full line that began by a time? -/
def Wait.onLineBy (now : Nat) (w : Wait) : Bool :=
  match w with
  | .emptyLine _ _ start _ _ => decide (start ≤ now)
  | _ => false

theorem Wait.onLineBy_iff (now : Nat) (w : Wait) :
    w.onLineBy now = true ↔ ∃ (k : Nat) (ls : List Nat) (start : Nat) (woken take : Bool), w = .emptyLine k ls start woken take ∧ start ≤ now := by
  cases w <;> simp [Wait.onLineBy]

theorem Group.spWaits_iff (g : Group) (now : Nat) : g.spWaits now = true ↔
    ∃ (y : Path) (k : Nat) (ls : List Nat) (start : Nat) (woken take : Bool),
      (g.slotA = some y ∨ g.slotB = some y) ∧ y.wait = .emptyLine k ls start woken take ∧ start ≤ now := by
  have hany : g.spWaits now = (g.slotA.any (fun y => y.wait.onLineBy now) || (g.slotB.any (fun y => y.wait.onLineBy now) || false)) := rfl
  rw [hany, Bool.or_false, Bool.or_eq_true, Option.any_eq_true, Option.any_eq_true]
  simp only [Wait.onLineBy_iff]
  constructor
  · rintro (⟨y, hy, k, ls, start, w, t, hw⟩ | ⟨y, hy, k, ls, start, w, t, hw⟩)
    · exact ⟨y, k, ls, start, w, t, .inl hy, hw⟩
    · exact ⟨y, k, ls, start, w, t, .inr hy, hw⟩
  · rintro ⟨y, k, ls, start, w, t, hy | hy, hw⟩
    · exact .inl ⟨y, hy, k, ls, start, w, t, hw⟩
    · exact .inr ⟨y, hy, k, ls, start, w, t, hw⟩

theorem exec_opfence (h : Goes .opfence s g p latch chain) : exec .opfence s
    = if g.spWaits (opfenceSince s p) = true then (Issuing .opfence s g p latch chain).hold (.opfence (opfenceSince s p))
      else (Issuing .opfence s g p latch chain).done (Started .opfence s g p chain) := by
  have hsince : (match (Issuing .opfence s g p latch chain).taken with
      | some (.opfence t) => t
      | _ => (Issuing .opfence s g p latch chain).s.now) = opfenceSince s p := by
    change (match (match p.wait with | .held op => some op | _ => none) with | some (.opfence t) => t | _ => s.now) = _
    unfold opfenceSince
    cases p.wait with
    | held op => cases op <;> rfl
    | _ => rfl
  rw [← hsince]
  change execOpfence s = _
  exact issue_go h _

end Opfence

/-! ### Holding -/

/-- The group at the issue point is as an instruction that names no vector register finds it. -/
theorem group_of_goes {i : Instr} {s : State} {g : Group} {p : Path} {latch : Option Nat} {chain : Option Chain}
    (h : Goes i s g p latch chain) (hv : vregsOf i = []) (hf : ∀ g0, formatRegs g0 i = []) : s.group s.cur.key = some g := by
  obtain ⟨g0, hg, hveil, -⟩ := h.group
  rw [State.veil_of_no_vregs hv (hf g0)] at hveil
  rw [hg, hveil]

end Sys2Proof.Machine

open Sys2Proof Sys2Proof.Machine in
/-- Settles O17: a prefetch folds over its lanes' addresses, each of which changes nothing where it does not translate; a fence is done or
holds as what it orders has performed. -/
theorem orderingResults : Obligations.OrderingResults := by
  intro b k o sc m s g p latch chain base n mapped kept
  refine ⟨?prefL1, ?prefL2, ?fence, ?opfence⟩
  case prefL1 =>
    intro h
    have hc := completesAt_of_machine h (Instr.size_prefL1 ..) (exec_prefL1 h)
    refine ⟨hc, fun hnone => ?_⟩
    rw [State.eachLane_of_none fun l hl => State.prefetch_of_unmapped (hnone l hl)] at hc
    exact completes_of_completesAt (Instr.size_prefL1 ..) hc
  case prefL2 =>
    intro h
    have hc := completesAt_of_machine h (Instr.size_prefL2 ..) (exec_prefL2 h)
    refine ⟨hc, fun hnone => ?_⟩
    rw [State.eachLane_of_none fun l hl => State.prefetchHome_of_unmapped (hnone l hl)] at hc
    exact completes_of_completesAt (Instr.size_prefL2 ..) hc
  case fence =>
    intro h holds placed
    have he := exec_fence h
    constructor
    · intro hholds
      exact completesAt_of_machine h (Instr.size_fence ..) (he.trans (if_pos hholds))
    · intro hwaits
      refine (he.trans (if_neg (by rw [show fenceHolds s g o m = holds from rfl, hwaits]; decide))).trans ?_
      exact Ctx.stall_eq ((group_fencePlaced s p o _).trans (group_of_goes h rfl fun _ => rfl)) _
  case opfence =>
    intro h since waits
    have he := exec_opfence h
    constructor
    · intro hnone
      exact completes_unchanged h (he.trans (if_neg fun hw => hnone ((g.spWaits_iff since).mp hw)))
    · intro hwaits
      exact (he.trans (if_pos ((g.spWaits_iff since).mpr hwaits))).trans (Ctx.stall_eq (group_of_goes h rfl fun _ => rfl) _)

/-! ## Batches and subscriptions as a group issues them (05 R185, R186; 06 R190 to R194) -/

namespace Sys2Proof.Machine

section Completing
variable {i : Instr} {s : State} {g : Group} {p : Path} {latch : Option Nat} {chain : Option Chain}

/-- What follows an instruction that starts no sequence of Table 4-7 is what is left of the sequence in issue. -/
theorem State.fuseNext_of_no_part (hi : fusePart i = none) {g1 : Group} (hf : g1.fuse = g.fuse) (key : Nat) (ps : PSlot) :
    s.fuseNext key g1 ps p i chain = s.fuseNext key g ps p i chain := by
  simp only [State.fuseNext, State.fuseMore_of_no_part hi, hf]

/-- An instruction that changes the machine, and its group in what is no part of its paths, completes: `k` is the group it leaves,
and `g1` the group as it was but for that change. -/
theorem completesAt_of_change (h : Goes i s g p latch chain) (hsize : i.size = 4) (hi : fusePart i = none) {t : State} {g1 k : Group}
    (he : exec i s = ((Issuing i s g p latch chain).inState t).done k) (hsame : SameGroup g1 k)
    (hk : ∀ ps, k.path ps = g.path ps) (hg1 : ∀ ps, g1.path ps = g.path ps) (hfuse : g1.fuse = g.fuse)
    (hissued : k.chain = chain ∧ k.dsp = g1.dsp ∧ k.nextB = decide (s.cur.pslot = .a) ∧ k.fuse = (Started i s g p chain).fuse) :
    CompletesAt i s t g1 p chain k.regs (p.pc + 4) := by
  obtain ⟨hchain, hdsp, hnextB, hkfuse⟩ := hissued
  have hc : CompletesAt i s t g1 p chain k.regs (p.pc + BitVec.ofNat 64 i.size) :=
    completesAt_retire p.act latch _ p _ hsame ((hk _).trans h.path) rfl ((hk _).trans (hg1 _).symm) hchain hdsp hnextB
      (hkfuse.trans (State.fuseNext_of_no_part hi hfuse ..).symm) he
  rw [hsize] at hc
  exact hc

end Completing

/-! ### BCLOSE -/

section Batch
variable {c : BitVec 6} {a d : BitVec 8} {s : State} {g : Group} {p : Path} {latch : Option Nat} {chain : Option Chain}

/-- The group with the open batch of a class closed under a number. -/
def Group.closeBatch (g : Group) (cls : Nat) (n : Word) : Group :=
  { g with
    batch := SMap.put 0 g.batch cls n
    positions := g.positions.map fun y => if y.cls = cls ∧ y.batch = none then { y with batch := some n } else y }

/-- The group that BCLOSE of a class leaves, whose MXRDs are then `reads`. -/
def Group.batchClosed (g : Group) (cls : Nat) (n : Word) (reads : List MatRead) (d : Nat) : Group :=
  ({ g.closeBatch cls n with mxrd := reads } : Group).setSr d n

theorem SameGroup.batchClosed {g h : Group} (e : SameGroup g h) (cls : Nat) (n : Word) (reads : List MatRead) (d : Nat) :
    SameGroup (g.closeBatch cls n) (h.batchClosed cls n reads d) := by
  unfold SameGroup at *
  rw [← e]
  rfl

theorem Group.path_batchClosed (g : Group) (cls : Nat) (n : Word) (reads : List MatRead) (d : Nat) (ps : PSlot) :
    (g.batchClosed cls n reads d).path ps = g.path ps := by
  cases ps <;> rfl

theorem Group.path_closeBatch (g : Group) (cls : Nat) (n : Word) (ps : PSlot) : (g.closeBatch cls n).path ps = g.path ps := by
  cases ps <;> rfl

theorem exec_bclose (h : Goes (.bclose c d) s g p latch chain) : ∃ reads, exec (.bclose c d) s
    = ((Issuing (.bclose c d) s g p latch chain).inState s).done
        ((Started (.bclose c d) s g p chain).batchClosed c.toNat (g.counter c.toNat + 1) reads d.toNat) := by
  change ∃ reads, execBclose c d s = _
  exact ⟨_, issue_go h _⟩

theorem bclose_completes (h : Goes (.bclose c d) s g p latch chain) :
    CompletesAt (.bclose c d) s s (g.closeBatch c.toNat (g.counter c.toNat + 1)) p chain
      (g.regs.scalar d.toNat (g.counter c.toNat + 1)) (p.pc + 4) := by
  obtain ⟨reads, he⟩ := exec_bclose h
  have hc := completesAt_of_change h (Instr.size_bclose ..) rfl he ((Started.same ..).batchClosed ..)
    (fun ps => (Group.path_batchClosed ..).trans (Started.path ..)) (fun ps => Group.path_closeBatch ..) rfl ⟨rfl, rfl, rfl, rfl⟩
  rwa [Group.batchClosed, Group.regs_setSr] at hc

/-! ### BWAIT -/

/-- The operand and the counter of a BWAIT, as they were at its issue. -/
def bwaitTook (s : State) (g : Group) (p : Path) (cls a : Nat) : Word × Word :=
  match p.wait with
  | .held (.bwait n k) => (n, k)
  | _ => (s.sv s.cur.key g a, g.counter cls)

theorem bwaitOf_issuing (i : Instr) (cls x : Nat) : (Issuing i s g p latch chain).bwaitOf cls x = bwaitTook s g p cls x := by
  change (match (match p.wait with | .held op => some op | _ => none) with
    | some (.bwait n k) => (n, k) | _ => (s.sv s.cur.key g x, g.counter cls)) = _
  unfold bwaitTook
  cases p.wait with
  | held op => cases op <;> rfl
  | _ => rfl

/-- Does a position that a BWAIT covers wait? -/
def Group.waitsFor (g : Group) (cls : Nat) (cover : Option Word → Bool) : Bool := g.positions.any fun y => y.cls == cls && cover y.batch

theorem Group.waitsFor_iff (g : Group) (cls : Nat) (cover : Option Word → Bool) :
    g.waitsFor cls cover = true ↔ ∃ y ∈ g.positions, y.cls = cls ∧ cover y.batch = true := by
  simp [Group.waitsFor]

theorem exec_bwait (h : Goes (.bwait c a) s g p latch chain) :
    let took := bwaitTook s g p c.toNat a.toNat
    let cover := coversOpt took.2 took.1
    exec (.bwait c a) s = if g.waitsFor c.toNat cover = true then (Issuing (.bwait c a) s g p latch chain).hold (.bwait took.1 took.2)
      else if c = 0 then
        ((Issuing (.bwait c a) s g p latch chain).inState
          { s with free := s.free + 128 * (Started (.bwait c a) s g p chain).mxrd.length }).done
          ((Started (.bwait c a) s g p chain).fillReads s.free cover)
      else (Issuing (.bwait c a) s g p latch chain).done (Started (.bwait c a) s g p chain) := by
  intro took cover
  have hof := bwaitOf_issuing (s := s) (g := g) (p := p) (latch := latch) (chain := chain) (.bwait c a) c.toNat a.toNat
  change execBwait c a s = _
  unfold execBwait
  rw [issue_go h]
  simp only [hof]
  rfl

/-- Writing several registers of a group changes its vector registers alone. -/
theorem foldl_setMany {α : Type} (F : α → List ((Nat × Nat) × Word)) (l : List α) (g : Group) :
    l.foldl (fun k e => k.setMany (F e)) g
      = { g with v := l.foldl (fun v e => SMap.putAll 0 v ((F e).map fun x => (32 * x.1.1 + x.1.2, x.2))) g.v } := by
  induction l generalizing g with
  | nil => rfl
  | cons e l ih => rw [List.foldl_cons, ih]; rfl

/-- An instruction that writes no vector register spoils none that an MXRD is still to fill. -/
theorem Group.spoil_of_no_writes {i : Instr} (hw : writtenBy i = []) (g : Group) (act : Word) : g.spoil i act = g := by
  have hmap : g.mxrd.map (fun r => { r with spoiled := r.spoiled ++
      ((writtenBy i).filter fun v => decide (r.vd ≤ v) && decide (v < r.vd + r.cnt)).map fun v => (v, act) }) = g.mxrd := by
    rw [hw]
    simp
  unfold Group.spoil
  rw [hmap]

theorem mxrd_started {i : Instr} (hw : writtenBy i = []) : (Started i s g p chain).mxrd = g.mxrd :=
  (show (Started i s g p chain).mxrd = (g.spoil i p.act).mxrd from rfl).trans (congrArg Group.mxrd (Group.spoil_of_no_writes hw g p.act))

theorem bwait_fills (h : Goes (.bwait 0 a) s g p latch chain) (cover : Option Word → Bool)
    (he : exec (.bwait 0 a) s = ((Issuing (.bwait 0 a) s g p latch chain).inState
          { s with free := s.free + 128 * (Started (.bwait 0 a) s g p chain).mxrd.length }).done
          ((Started (.bwait 0 a) s g p chain).fillReads s.free cover)) :
    CompletesAt (.bwait 0 a) s { s with free := s.free + 128 * g.mxrd.length } g p chain (g.fillReads s.free cover).regs (p.pc + 4) := by
  have hmx : (Started (.bwait 0 a) s g p chain).mxrd = g.mxrd := mxrd_started rfl
  rw [Group.fillReads, foldl_setMany, hmx] at he
  have hc := completesAt_of_change h (Instr.size_bwait ..) rfl he (g1 := g) rfl
    (fun ps => by cases ps <;> rfl) (fun ps => by cases ps <;> rfl) rfl ⟨rfl, rfl, rfl, rfl⟩
  rw [Group.fillReads, foldl_setMany]
  exact hc

end Batch

/-! ### UNSUB and SUBST -/

/-- Clearing the restartable flag changes the teams alone. -/
theorem State.clearRestart_eq (s : State) (team : Nat) : ∃ teams, s.clearRestart team = { s with teams := teams } := by
  unfold State.clearRestart
  split
  · split
    · exact ⟨_, rfl⟩
    · exact ⟨s.teams, rfl⟩
  · exact ⟨s.teams, rfl⟩

section Subscription
variable {a d : BitVec 8} {s : State} {g : Group} {p : Path} {latch : Option Nat} {chain : Option Chain}

theorem exec_unsub (h : Goes (.unsub a) s g p latch chain) :
    let v := s.sv s.cur.key g a.toNat
    let tag := (s.context g.ctx).dctag.toNat
    exec (.unsub a) s = ((Issuing (.unsub a) s g p latch chain).inState
        (({ s.clearRestart g.team with nextPos := s.nextPos + 1 } : State).sendHome (s.cur.key / 128) tag v
          (.unsub s.dev tag g.uid g.team g.seg v s.nextPos))).done
      { Started (.unsub a) s g p chain with positions := g.positions ++ [⟨s.nextPos, 2, none⟩] } := by
  intro v tag
  obtain ⟨teams, hpub⟩ := s.clearRestart_eq g.team
  change execUnsub a s = _
  refine (issue_go h _).trans ?_
  have hpublish : (Issuing (.unsub a) s g p latch chain).publish = (Issuing (.unsub a) s g p latch chain).inState { s with teams := teams } :=
    congrArg (Issuing (.unsub a) s g p latch chain).inState hpub
  simp only [hpublish]
  rw [hpub]
  rfl

theorem exec_subst (h : Goes (.subst a d) s g p latch chain) :
    let v := s.sv s.cur.key g a.toNat
    let tag := (s.context g.ctx).dctag.toNat
    exec (.subst a d) s = ((Issuing (.subst a d) s g p latch chain).inState
        (s.sendHome (s.cur.key / 128) tag v (.query s.dev tag g.uid d.toNat g.team g.seg v))).done
      { Started (.subst a d) s g p chain with answers := g.answers ++ [d.toNat], asked := g.asked ++ [d.toNat] } := by
  intro v tag
  change execSubst a d s = _
  exact issue_go h _

end Subscription

end Sys2Proof.Machine

open Sys2Proof Sys2Proof.Machine in
/-- Settles O23: each instruction completes with what it changes, or, a BWAIT that covers a position outstanding, holds. -/
theorem batchAndSubscriptionResults : Obligations.BatchAndSubscriptionResults := by
  intro c a d s g p latch chain num v pub took cover tag
  refine ⟨bclose_completes, ?bwait, ?holds, ?unsub, ?subst⟩
  case bwait =>
    intro h hnone
    have hwaits : ¬ g.waitsFor c.toNat cover = true := by
      rw [Group.waitsFor_iff]
      rintro ⟨y, hy, hcls, hcover⟩
      rw [hnone y hy hcls] at hcover
      cases hcover
    have he := (exec_bwait h).trans (if_neg hwaits)
    constructor
    · intro hc
      exact completes_unchanged h (he.trans (if_neg hc))
    · rintro rfl
      exact bwait_fills h cover (he.trans (if_pos rfl))
  case holds =>
    intro h hsome
    exact ((exec_bwait h).trans (if_pos ((g.waitsFor_iff ..).mpr hsome))).trans (Ctx.stall_eq (group_of_goes h rfl fun _ => rfl) _)
  case unsub =>
    intro h
    have hc := completesAt_of_change h (Instr.size_unsub ..) rfl (exec_unsub h) (g1 := { g with positions := g.positions ++ [⟨s.nextPos, 2, none⟩] }) rfl
      (fun ps => by cases ps <;> rfl)
      (fun ps => by cases ps <;> rfl) rfl ⟨rfl, rfl, rfl, rfl⟩
    exact hc
  case subst =>
    intro h
    have hc := completesAt_of_change h (Instr.size_subst ..) rfl (exec_subst h)
      (g1 := { g with answers := g.answers ++ [d.toNat], asked := g.asked ++ [d.toNat] }) rfl (fun ps => by cases ps <;> rfl)
      (fun ps => by cases ps <;> rfl) rfl ⟨rfl, rfl, rfl, rfl⟩
    exact hc

/-! ## Checks and timeouts of WAITA (05 R172, R173; 01 R45) -/

namespace Sys2Proof.Machine

/-- A group that runs, is not frozen and issues nothing takes its events. -/
theorem Group.live_of_running {g : Group} (hrun : g.status = .running) (hfreeze : g.freeze = Freeze.none) : g.live = true := by
  simp [Group.live, Group.frozen, hrun, hfreeze, Freeze.none]

theorem Group.not_inIssue {g : Group} (hchain : g.chain = none) (hfuse : g.fuse = none) : g.inIssue = false := by
  simp [Group.inIssue, hchain, hfuse]

theorem Group.setWait_of_path {g : Group} {ps : PSlot} {p : Path} (hp : g.path ps = some p) (w : Wait) :
    g.setWait ps w = g.setPath ps (some { p with wait := w }) := by
  simp [Group.setWait, hp]

section Parked
variable {core slot : Nat} {s : State} {g : Group} {inB : Bool} {p : Path} {w : Watch}

/-- What makes a WAITA's events act: its group takes events, and its path is parked. -/
structure Parked (core slot : Nat) (s : State) (g : Group) (inB : Bool) (p : Path) (w : Watch) : Prop where
  group : s.group (groupKey core slot) = some g
  path : g.path (slotOf inB) = some p
  wait : p.wait = .parked w
  live : g.live = true
  idle : g.inIssue = false

theorem Parked.watch (h : Parked core slot s g inB p w) : g.watch (slotOf inB) = some w := by
  simp [Group.watch, h.path, h.wait]

theorem exec_waitaCheck (h : Parked core slot s g inB p w) :
    exec (.waitaCheck core slot inB) s = if s.checkDue core w = true then
      match s.checkWatch core (s.asidOf g) w with
      | .error k => .next (s.watchFault (groupKey core slot) g (slotOf inB) k w.va)
      | .ok (s1, changed) => .next (if changed then s1.wake (groupKey core slot) (slotOf inB) w.sd 1
          else (s1.checkedNow (groupKey core slot) (slotOf inB) w).watchSec w.addr)
      else .next s := by
  change execWaitaCheck core slot inB s = _
  simp only [execWaitaCheck, h.group, h.watch, h.live, h.idle]
  cases s.checkDue core w <;> rfl

theorem exec_waitaTimeout (h : Parked core slot s g inB p w) :
    exec (.waitaTimeout core slot inB) s = if w.expired s.now = true then
      match s.checkWatch core (s.asidOf g) w with
      | .error k => .next (s.watchFault (groupKey core slot) g (slotOf inB) k w.va)
      | .ok (s1, changed) => .next (s1.wake (groupKey core slot) (slotOf inB) w.sd (if changed then 1 else 2))
      else .next s := by
  change execWaitaTimeout core slot inB s = _
  simp only [execWaitaTimeout, h.group, h.watch, h.live, h.idle]
  cases w.expired s.now <;> rfl

theorem State.checkWatch_of_read {asid : Nat} {s1 : State} {bs : List Byte} (hread : s.loadVirt core asid w.va 4 = .ok (s1, bs)) :
    s.checkWatch core asid w = .ok (s1, BitVec.ofNat 32 (ofBytes bs) != w.away) := by
  simp [State.checkWatch, hread]

theorem State.checkWatch_of_fault {asid : Nat} {k : XKind} (hread : s.loadVirt core asid w.va 4 = .error k) :
    s.checkWatch core asid w = .error k := by
  simp [State.checkWatch, hread]

/-- A wake writes the code and lets the path go on. -/
theorem State.wake_of_path {ps : PSlot} {key sd : Nat} (hg : s.group key = some g) (hp : g.path ps = some p) (code : Word) :
    s.wake key ps sd code = s.setGroup key (s.settle ((g.setPath ps (some (p.advance (p.pc + 4)))).setSr sd code)) := by
  simp [State.wake, hg, hp]

end Parked

end Sys2Proof.Machine

open Sys2Proof Sys2Proof.Machine in
/-- Settles O34: a parked path's check and timeout read its word again, and the read decides. -/
theorem waitaChecks : Obligations.WaitaChecks := by
  intro core slot s g inB p w _ key ps hg hp hw hrun hfreeze hchain hfuse woken
  have h : Parked core slot s g inB p w := ⟨hg, hp, hw, Group.live_of_running hrun hfreeze, Group.not_inIssue hchain hfuse⟩
  have hwake : ∀ {s1 : State}, s1.group key = some g → ∀ code, s1.wake key (slotOf inB) w.sd code = woken s1 g code :=
    fun hg1 code => State.wake_of_path hg1 h.path code
  refine ⟨fun s1 bs hread hg1 => ⟨?changed, ?same, ?timeout⟩, ?fault, ?notDue, ?noTimeout⟩
  case changed =>
    intro hdue hne
    rw [exec_waitaCheck h, if_pos hdue, State.checkWatch_of_read hread]
    simp only [bne_iff_ne.mpr hne, if_true]
    rw [← hwake hg1]
  case same =>
    intro hdue heq
    have hchecked : s1.checkedNow key (slotOf inB) w
        = s1.setGroup key (g.setPath ps (some { p with wait := .parked { w with checked := s1.now } })) := by
      simp only [State.checkedNow, hg1, Group.setWait_of_path h.path]
      rfl
    rw [exec_waitaCheck h, if_pos hdue, State.checkWatch_of_read hread, heq, ← hchecked]
    simp [key]
  case timeout =>
    intro t ht hpast
    rw [exec_waitaTimeout h, if_pos (by simp [Watch.expired, ht, hpast]), State.checkWatch_of_read hread, ← hwake hg1]
    by_cases heq : BitVec.ofNat 32 (ofBytes bs) = w.away <;> simp [heq, key]
  case fault =>
    intro k hread hready hdue
    rw [exec_waitaCheck h, if_pos hdue, State.checkWatch_of_fault hread]
    simp only [State.watchFault, hready, if_true, Group.setWait_of_path h.path]
    rfl
  case notDue =>
    intro hdue
    rw [exec_waitaCheck h, if_neg (by simp [hdue])]
  case noTimeout =>
    intro ht
    rw [exec_waitaTimeout h, if_neg (by simp [Watch.expired, ht])]

/-! ## What an access does once its addresses are checked (05 R149, R152, R160; 06 R215; 08 R252, R254; 10 R307) -/

namespace Sys2Proof.Machine

/-! ### The checks and the end of an access -/

/-- The lanes of an access that reach their addresses. -/
def State.passing (s : State) (core asid : Nat) (op : MemOp) (ls : List (Nat × Nat)) : Passed :=
  ls.filterMap fun e => match s.reach core asid op e.2 with
    | .ok t => some (e.1, t)
    | .error _ => none

/-- The lanes of an access that do not, each with its reason and address. -/
def State.failing (s : State) (core asid : Nat) (op : MemOp) (ls : List (Nat × Nat)) : List (Nat × XKind × Nat) :=
  ls.filterMap fun e => match s.reach core asid op e.2 with
    | .ok _ => none
    | .error k => some (e.1, k, e.2)

/-- The checks of an access part its lanes into those that pass and those that fail, both in lane order. -/
theorem State.checkLanes_eq (s : State) (core asid : Nat) (op : MemOp) (ls : List (Nat × Nat)) :
    s.checkLanes core asid op ls = ⟨s.passing core asid op ls, s.failing core asid op ls⟩ := by
  have gen : ∀ (ls : List (Nat × Nat)) (acc : Checked), ls.foldl (fun acc e =>
        match s.reach core asid op e.2 with
        | .ok t => { acc with pass := acc.pass ++ [(e.1, t)] }
        | .error k => { acc with fail := acc.fail ++ [(e.1, k, e.2)] }) acc
      = ⟨acc.pass ++ s.passing core asid op ls, acc.fail ++ s.failing core asid op ls⟩ := by
    intro ls
    induction ls with
    | nil => intro acc; simp [State.passing, State.failing]
    | cons e ls ih =>
      intro acc
      rw [List.foldl_cons, ih]
      cases h : s.reach core asid op e.2 <;> simp [State.passing, State.failing, h]
  exact gen ls ⟨[], []⟩

/-- The machine that an access commits in: refusals of other homes taken, and what the checks leave in filters and translation caches
(09 R266, R274, R289, R292). -/
def State.noted (s : State) (g : Group) (core : Nat) (op : MemOp) (ls : List (Nat × Nat)) : State :=
  (s.takeRefusals (s.context g.ctx).dctag.toNat ls).noteAll core (s.asidOf g) op ls

theorem State.group_noted (s : State) (g : Group) (core : Nat) (op : MemOp) (ls : List (Nat × Nat)) (key : Nat) :
    (s.noted g core op ls).group key = s.group key :=
  State.group_noteAll ..

section Answered
variable {core slot : Nat} {s : State} {g : Group} {ps : PSlot} {pc : DWord} {ls : List (Nat × Nat)} {op : MemOp} {issued : Nat}

/-- What makes an access commit: it is in Translation, and its group may trap. -/
structure Answered (core slot : Nat) (s : State) (g : Group) (ps : PSlot) (pc : DWord) (ls : List (Nat × Nat)) (op : MemOp)
    (issued : Nat) : Prop where
  inCore : slot < 128
  group : s.group (groupKey core slot) = some g
  pending : g.pending = some ⟨ps, pc, ls, op, issued⟩
  ready : s.trapReady g = true

theorem Answered.key_div (h : Answered core slot s g ps pc ls op issued) : groupKey core slot / 128 = core :=
  groupKey_div h.inCore

theorem Answered.group_noted (h : Answered core slot s g ps pc ls op issued) :
    (s.noted g core op ls).group (groupKey core slot) = some g :=
  (State.group_noted ..).trans h.group

theorem exec_translationAck (h : Answered core slot s g ps pc ls op issued) :
    exec (.translationAck core slot) s = .next (s.answerAccess (groupKey core slot) g ⟨ps, pc, ls, op, issued⟩) := by
  change execTranslationAck core slot s = _
  simp [execTranslationAck, h.group, h.pending, h.ready]

/-- An access in Translation does what `run` does for its kind, in the machine after the checks. -/
theorem exec_translationAck_as (h : Answered core slot s g ps pc ls op issued) {run : State → Checked → State}
    (hop : s.answerAccess (groupKey core slot) g ⟨ps, pc, ls, op, issued⟩
      = run ((s.takeRefusals (s.context g.ctx).dctag.toNat ls).noteAll (groupKey core slot / 128) (s.asidOf g) op ls)
          (s.checkLanes (groupKey core slot / 128) (s.asidOf g) op ls)) :
    exec (.translationAck core slot) s
      = .next (run (s.noted g core op ls) ⟨s.passing core (s.asidOf g) op ls, s.failing core (s.asidOf g) op ls⟩) := by
  rw [exec_translationAck h, hop, h.key_div, State.checkLanes_eq]
  rfl

/-- An access whose effect lies in memory alone commits its lanes, as `run` does for its kind. -/
theorem exec_translationAck_commit (h : Answered core slot s g ps pc ls op issued) {run : State → Checked → State}
    (hop : s.answerAccess (groupKey core slot) g ⟨ps, pc, ls, op, issued⟩
      = ((s.takeRefusals (s.context g.ctx).dctag.toNat ls).noteAll (groupKey core slot / 128) (s.asidOf g) op ls).commit
          (groupKey core slot) ⟨ps, pc, ls, op, issued⟩ (s.checkLanes (groupKey core slot / 128) (s.asidOf g) op ls))
    (hrun : ∀ t ck, t.group (groupKey core slot) = some g → t.commit (groupKey core slot) ⟨ps, pc, ls, op, issued⟩ ck = run t ck) :
    exec (.translationAck core slot) s
      = .next (run (s.noted g core op ls) ⟨s.passing core (s.asidOf g) op ls, s.failing core (s.asidOf g) op ls⟩) := by
  rw [exec_translationAck_as (run := fun t ck => t.commit (groupKey core slot) ⟨ps, pc, ls, op, issued⟩ ck) h hop]
  exact congrArg _ (hrun _ _ h.group_noted)

end Answered

/-! ### Stores and atomics -/

section Commits
variable {t : State} {key : Nat} {g : Group} {pd : Pending} {ck : Checked}

theorem State.commitStore_eq (hg : t.group key = some g) (bytes : Group → Nat → List Byte) (ord scope : Nat) :
    t.commitStore key pd bytes ord scope ck = t.finishAccess key pd.slot
      { g with queue := g.queue
          ++ (if ck.pass = [] then [] else [.store (ck.pass.map fun e => (e.2.tag, bytes g e.1)) ord scope]) } false ck.fail := by
  simp only [State.commitStore, hg]
  cases ck.pass <;> simp

theorem State.commitAtom_eq (hg : t.group key = some g) (op : Nat) (wide : Bool) (vd ord scope : Nat) :
    t.commitAtom key pd op wide vd ord scope ck = t.finishAccess key pd.slot
      { g with queue := g.queue ++ (if ck.pass = [] then [] else
          [.atom op wide vd (ck.pass.map fun e => atomLane g pd.pc pd.slot op wide vd e.1 e.2.tag) ord scope]) } false ck.fail := by
  simp only [State.commitAtom, hg]
  cases ck.pass <;> simp

/-! ### Loads -/

/-- The lanes that a load reads. -/
def Checked.lanes (ck : Checked) : List LaneLoad := ck.pass.map fun e => ⟨e.1, e.2.tag, none⟩

/-- A load that performs at once for all its lanes. -/
def State.loadAtOnce (t : State) (key : Nat) (g : Group) (pd : Pending) (dst : LoadDst) (ck : Checked) : State :=
  let r := t.performLoad key g ⟨pd.pc, pd.slot, dst, ck.lanes⟩
  r.1.finishAccess key pd.slot { g with loads := g.loads ++ (if ck.pass = [] then [] else [r.2]) } pd.op.single ck.fail

theorem State.loadAtOnce_eq (dst : LoadDst) :
    (let r := t.performLoad key g ⟨pd.pc, pd.slot, dst, ck.lanes⟩
     r.1.finishAccess key pd.slot { g with loads := g.loads ++ (if ck.lanes.isEmpty then [] else [r.2]) } pd.op.single ck.fail)
      = t.loadAtOnce key g pd dst ck := by
  unfold State.loadAtOnce
  cases h : ck.pass <;> simp [Checked.lanes, h]

/-- The lanes of a load on whose sectors the core's cache does hit, and those on whose it does not (05 R39). -/
def State.hitting (t : State) (core : Nat) (l : LaneLoad) : Bool := t.hits (t.cacheOf core) (l.addr / 32)

/-- Does a load split its wave: a plain load of slot A, none of whose lanes fails, that hits in some and misses in others, slot B
free (05 R39)? -/
def splitsWave (t : State) (core : Nat) (g : Group) (pd : Pending) (plain : Bool) (ck : Checked) : Bool :=
  plain && ck.fail.isEmpty && !(ck.lanes.filter (t.hitting core)).isEmpty && !(ck.lanes.filter fun l => !t.hitting core l).isEmpty
    && pd.slot == .a && g.slotB.isNone && g.split.isNone

theorem splitsWave_iff {core : Nat} : splitsWave t core g pd true ck = true ↔
    ck.fail = [] ∧ ck.lanes.filter (t.hitting core) ≠ [] ∧ (ck.lanes.filter fun l => !t.hitting core l) ≠ [] ∧ pd.slot = .a
      ∧ g.slotB = none ∧ g.split = none := by
  simp only [splitsWave, Bool.true_and, Bool.and_eq_true, Bool.not_eq_true', List.isEmpty_iff, List.isEmpty_eq_false_iff, beq_iff_eq,
    Option.isNone_iff_eq_none, and_assoc]

theorem State.commitLoad_atOnce (hg : t.group key = some g) {core : Nat} (hcore : key / 128 = core) (dst : LoadDst) {plain : Bool}
    (h : splitsWave t core g pd plain ck = false) : t.commitLoad key pd dst plain ck = t.loadAtOnce key g pd dst ck := by
  subst hcore
  rw [← State.loadAtOnce_eq]
  simp only [State.commitLoad, hg]
  exact if_neg (ne_true_of_eq_false h)

/-- A wave that splits: slot A goes on with the lanes that hit, and slot B waits with all others for its data (log 97). -/
theorem State.commitLoad_split (hg : t.group key = some g) {core : Nat} (hcore : key / 128 = core) (dst : LoadDst) {p : Path}
    (h : splitsWave t core g pd true ck = true) (hp : g.slotA = some p) :
    let hit := ck.lanes.filter (t.hitting core)
    let mine := maskOf fun l => (hit.map LaneLoad.lane).contains l
    let x := t.performLoad key g ⟨pd.pc, .a, dst, hit⟩
    let y := x.1.performLoad key g ⟨pd.pc, .b, dst, ck.lanes.filter fun l => !t.hitting core l⟩
    t.commitLoad key pd dst true ck = y.1.resume key .a { g with
      slotA := some (p.onLanes mine), slotB := some { (p.advance (p.pc + 4)).onLanes (~~~mine) with wait := .missData },
      loads := g.loads ++ [x.2, y.2], split := some 0 } := by
  subst hcore
  simp only [State.commitLoad, hg]
  refine (if_pos h).trans ?_
  rw [hp]
  rfl

end Commits

end Sys2Proof.Machine

open Sys2Proof Sys2Proof.Machine in
/-- Settles O35: the checks part the lanes, and the commit of each access does what the statement gives for the lanes that pass. -/
theorem acceptedAccesses : Obligations.AcceptedAccesses := by
  intro core slot s g ps pc issued ls hslot key asid pass fail pends noted ack ends queues lanes before performs loads
  have answered : ∀ {op}, pends op → Answered core slot s g ps pc ls op issued := fun ⟨hg, hpd, hready⟩ => ⟨hslot, hg, hpd, hready⟩
  have hends : ∀ one op t h, ends one op t h = t.finishAccess key ps h one (fail op) := by
    intro one op t h
    simp only [ends]
    cases fail op <;> rfl
  have hperforms : ∀ op dst u h, performs op.single op dst u h
      = u.loadAtOnce key h ⟨ps, pc, ls, op, issued⟩ dst ⟨pass op, fail op⟩ := fun op dst u h => hends ..
  refine ⟨?store, ?storeStrong, ?stst, ?atom, ?stld, ?sld, ?loadStrong, ?load⟩
  case store =>
    intro z vd hop
    have h := answered hop
    rw [hends]
    refine (exec_translationAck_commit h rfl fun t ck hg => by rw [State.commit, hg]).trans ?_
    exact congrArg _ (State.commitStore_eq h.group_noted ..)
  case storeStrong =>
    intro z vd o scope hop
    have h := answered hop
    rw [hends]
    refine (exec_translationAck_commit h rfl fun t ck hg => by rw [State.commit, hg]).trans ?_
    exact congrArg _ (State.commitStore_eq h.group_noted ..)
  case stst =>
    intro vd hop
    have h := answered hop
    rw [hends]
    refine (exec_translationAck_commit h rfl fun t ck hg => by rw [State.commit, hg]).trans ?_
    exact congrArg _ (State.commitStore_eq h.group_noted ..)
  case atom =>
    intro aop wide vd o scope hop
    have h := answered hop
    rw [hends]
    refine (exec_translationAck_commit h rfl fun t ck hg => by rw [State.commit, hg]).trans ?_
    exact congrArg _ (State.commitAtom_eq h.group_noted ..)
  case stld | sld =>
    intro d h1 hop hg1
    have h := answered hop
    refine (exec_translationAck_commit h rfl fun t ck hg => by rw [State.commit, hg]).trans ?_
    exact congrArg _ ((State.commitLoad_atOnce hg1 h.key_div _ rfl).trans (hperforms ..).symm)
  case loadStrong =>
    intro z vd o scope h1 op hop hg1
    have h := answered hop
    refine (exec_translationAck_commit h rfl fun t ck hg => by rw [State.commit, hg]).trans ?_
    rw [h.key_div]
    have hload := (State.commitLoad_atOnce (plain := false) hg1 h.key_div _ rfl).trans (hperforms op (.vector vd z) ..).symm
    refine congrArg _ ((congrArg (fun t => State.scEvent t _ _ _) hload).trans ?_)
    exact congrArg (fun n => State.scEvent _ _ n _) (if_congr List.isEmpty_iff rfl rfl)
  case load =>
    intro z vd h1 op hop hg1 u hit miss
    have h := answered hop
    have hcommit : ack = .next (u.commitLoad key ⟨ps, pc, ls, op, issued⟩ (.vector vd z) true ⟨pass op, fail op⟩) := by
      exact exec_translationAck_commit h rfl fun t ck hg => by rw [State.commit, hg]
    constructor
    · intro hno
      rw [hcommit, State.commitLoad_atOnce hg1 h.key_div]
      · exact congrArg _ (hperforms ..).symm
      · rw [Bool.eq_false_iff, ne_eq, splitsWave_iff]
        rintro ⟨hfail, hhit, hmiss, hps, hb, hsplit⟩
        rcases hno with hno | hno | hno | hno | hno | hno
        · exact hno hfail
        · exact hhit hno
        · exact hmiss hno
        · rw [show ps = .a from hps] at hno; cases hno
        · exact hno hb
        · exact hno hsplit
    · rintro p hfail hhit hmiss rfl hp hb hsplit mine x y
      rw [hcommit]
      exact congrArg _ (State.commitLoad_split hg1 h.key_div _ (splitsWave_iff.mpr ⟨hfail, hhit, hmiss, rfl, hb, hsplit⟩) hp)

/-! ## Cache sectors (09 Table 9-3) -/

namespace Sys2Proof.Machine

theorem State.cache_setCache (s : State) (n m : Nat) (c : Cache) : (s.setCache n c).cache m = if m = n then c else s.cache m := by
  unfold State.cache State.setCache SMap.getD
  rw [SMap.find_insert]
  by_cases h : m = n
  · rw [if_pos h, if_pos h]
  · rw [if_neg h, if_neg h]

theorem Cache.line_put (c : Cache) (key tag : Nat) (st : SecState) (d : SectorData) :
    (c.put key st d).line tag = if tag = key / 4
      then some { (c.line (key / 4)).getD ⟨key / 4, [], false, false⟩ with
        secs := SMap.insert ((c.line (key / 4)).getD ⟨key / 4, [], false, false⟩).secs (key % 4) (st, d) }
      else c.line tag := by
  have htag : ((c.line (key / 4)).getD ⟨key / 4, [], false, false⟩).tag = key / 4 := by
    cases hl : c.line (key / 4) with
    | none => rfl
    | some l => exact eq_of_beq (List.find?_some (p := fun l : Line => l.tag == key / 4) hl)
  have hput : (c.put key st d).line tag = (({ (c.line (key / 4)).getD ⟨key / 4, [], false, false⟩ with
      secs := SMap.insert ((c.line (key / 4)).getD ⟨key / 4, [], false, false⟩).secs (key % 4) (st, d) } : Line)
        :: c.lines.filter fun l => l.tag != key / 4).find? fun l => l.tag == tag := by
    unfold Cache.put Cache.line
    cases c.lines.find? fun l => l.tag == key / 4 <;> rfl
  rw [hput, List.find?_cons]
  simp only [htag]
  by_cases h : tag = key / 4
  · simp [h]
  · rw [if_neg h, beq_eq_false_iff_ne.mpr (Ne.symm h), List.find?_filter]
    refine List.find?_congr fun l _ => ?_
    by_cases hl : l.tag = tag <;> simp [hl, h]

/-- A sector put into a cache is held there, and every other sector as before. -/
theorem Cache.sector_put (c : Cache) (key k : Nat) (st : SecState) (d : SectorData) :
    (c.put key st d).sector k = if k = key then some (st, d) else c.sector k := by
  unfold Cache.sector
  rw [Cache.line_put]
  by_cases hline : k / 4 = key / 4
  · rw [if_pos hline, hline]
    simp only [SMap.find_insert]
    by_cases hk : k = key
    · simp [hk]
    · have hmod : k % 4 ≠ key % 4 := by omega
      rw [if_neg hmod, if_neg hk]
      cases c.line (key / 4) <;> rfl
  · have hk : k ≠ key := fun h => hline (by rw [h])
    rw [if_neg hline, if_neg hk]

end Sys2Proof.Machine

/-! ## What the other may-fault instructions do once checked (05 R167 to R180; 06 R211; 07 R233) -/

namespace Sys2Proof.Machine

/-! ### The machine after the checks -/

theorem State.noteTranslation_eq (s : State) (ni asid va : Nat) :
    ∃ slices remap, s.noteTranslation ni asid va = { s with slices := slices, remap := remap } := by
  unfold State.noteTranslation
  dsimp only
  repeat' split
  all_goals exact ⟨_, _, rfl⟩

theorem State.useRemap_eq (s : State) (ni asid va : Nat) :
    ∃ slices remap, s.useRemap ni asid va = { s with slices := slices, remap := remap } := by
  unfold State.useRemap
  split
  · exact ⟨s.slices, _, rfl⟩
  · exact ⟨s.slices, s.remap, rfl⟩

/-- Checks change translation caches and remap filters alone. -/
theorem State.noteAll_eq (s : State) (core asid : Nat) (op : MemOp) (ls : List (Nat × Nat)) :
    ∃ slices remap, s.noteAll core asid op ls = { s with slices := slices, remap := remap } := by
  have gen : ∀ (f : State → Nat × Nat → State), (∀ st e, ∃ slices remap, f st e = { st with slices := slices, remap := remap }) →
      ∀ (ls : List (Nat × Nat)) (st : State), ∃ slices remap, ls.foldl f st = { st with slices := slices, remap := remap } := by
    intro f hf ls
    induction ls with
    | nil => exact fun st => ⟨st.slices, st.remap, rfl⟩
    | cons e ls ih =>
      intro st
      obtain ⟨slices, remap, he⟩ := hf st e
      obtain ⟨slices', remap', hls⟩ := ih (f st e)
      exact ⟨slices', remap', by rw [List.foldl_cons, hls, he]⟩
  refine gen _ (fun st e => ?_) ls s
  split
  · exact st.noteTranslation_eq ..
  · exact st.useRemap_eq ..

/-- An access's checks take refusals out of the fabric, and change translation caches and remap filters. -/
theorem State.noted_eq (s : State) (g : Group) (core : Nat) (op : MemOp) (ls : List (Nat × Nat)) :
    ∃ slices remap, s.noted g core op ls
      = { s with net := (s.takeRefusals (s.context g.ctx).dctag.toNat ls).net, slices := slices, remap := remap } := by
  obtain ⟨slices, remap, h⟩ := (s.takeRefusals (s.context g.ctx).dctag.toNat ls).noteAll_eq core (s.asidOf g) op ls
  exact ⟨slices, remap, h⟩

section Noted
variable (s : State) (g : Group) (core : Nat) (op : MemOp) (ls : List (Nat × Nat))

theorem State.asidOf_noted (k : Group) : (s.noted g core op ls).asidOf k = s.asidOf k := by
  obtain ⟨_, _, h⟩ := s.noted_eq g core op ls
  rw [h]
  rfl

theorem State.cacheOf_noted (n : Nat) : (s.noted g core op ls).cacheOf n = s.cacheOf n := by
  obtain ⟨_, _, h⟩ := s.noted_eq g core op ls
  rw [h]
  rfl

theorem State.context_noted (c : Nat) : (s.noted g core op ls).context c = s.context c := by
  obtain ⟨_, _, h⟩ := s.noted_eq g core op ls
  rw [h]
  rfl

/-- A refusal is no far access. -/
theorem State.farPending_noted (uid : Nat) : (s.noted g core op ls).farPending uid = s.farPending uid := by
  obtain ⟨_, _, h⟩ := s.noted_eq g core op ls
  rw [h]
  unfold State.farPending State.takeRefusals
  rw [List.any_filter]
  congr 1
  funext m
  cases m <;> simp

end Noted

/-! ### A group with nothing on its way -/

/-- Is a message a far access of a group? -/
def Msg.isFarOf (uid : Nat) : Msg → Bool
  | .far _ u _ => u == uid
  | _ => false

/-- The far access of a group that a message is. -/
def Msg.farOf (uid : Nat) : Msg → Option FarOp
  | .far _ u o => if u = uid then some o else none
  | _ => none

theorem Msg.farOf_of_not {uid : Nat} {m : Msg} (h : ¬ m.isFarOf uid = true) : m.farOf uid = none := by
  cases m
  case far => exact if_neg fun hu => h (beq_iff_eq.mpr hu)
  all_goals rfl

theorem State.farPending_eq (s : State) (uid : Nat) : s.farPending uid = s.net.any (Msg.isFarOf uid) := rfl

theorem State.landFar_eq (s : State) (uid : Nat) : s.landFar uid = (s.net.filterMap (Msg.farOf uid)).foldl (fun st o => st.performFor uid o)
    { s with net := s.net.filter fun m => !m.isFarOf uid } := by
  have hrest : (fun m : Msg => !m.isFarOf uid) = fun m => match m with
      | .far _ u _ => u != uid
      | _ => true := by
    funext m
    cases m <;> rfl
  rw [hrest]
  rfl

/-- Performing a group's far accesses changes nothing where none is on its way. -/
theorem State.landFar_of_none {s : State} {uid : Nat} (h : s.farPending uid = false) : s.landFar uid = s := by
  rw [State.farPending_eq, List.any_eq_false] at h
  rw [State.landFar_eq, List.filterMap_eq_nil_iff.mpr fun m hm => Msg.farOf_of_not (h m hm),
    List.filter_eq_self.mpr fun m hm => by simpa using h m hm]
  rfl

/-- So does performing its queue, where that is empty too. -/
theorem State.ordered_of_idle {s : State} {key : Nat} {g : Group} (hg : s.group key = some g) (hqueue : g.queue = [])
    (hfar : s.farPending g.uid = false) (must : Bool) : s.ordered key must = s := by
  simp only [State.ordered, hg, hqueue]
  split
  · exact State.landFar_of_none hfar
  · rfl

theorem overlay_nil (a : Nat) (bs : List Byte) : overlay [] a bs = bs := by
  unfold overlay
  induction bs generalizing a with
  | nil => rfl
  | cons b bs ih => exact congrArg (b :: ·) (ih (a + 1))

/-- A group with nothing on its way loads what the cache holds. -/
theorem State.loadOwn_of_idle {s : State} {key : Nat} {g : Group} (hg : s.group key = some g) (hqueue : g.queue = [])
    (hfar : s.farPending g.uid = false) (n a len : Nat) (hn : s.cacheOf (key / 128) = n) : s.loadOwn key g a len = s.loadRun n a len := by
  subst hn
  simp only [State.loadOwn, State.ordered_of_idle hg hqueue hfar, hg, hqueue, overlay_nil]

/-! ### Updates, collapses and cache control of any number of lanes -/

/-- The machine after UPD's lanes (05 R167). -/
def State.updateLanes (u : State) (n : Nat) (g : Group) (op : UOp) (vd : Nat) (pass : Passed) : State :=
  pass.foldl (fun st e =>
    if st.updatesAtHome e.2.tag then { st with net := st.net ++ [.far (st.asidOf g) g.uid (.upd op e.2.tag (updWords g op vd e.1))] }
    else (st.landFar g.uid).updateCopy n e.2.tag op (wordsNat (updWords g op vd e.1))) u

/-- Is there a store or atomic in a group's queue to a sector that passing lanes update? -/
def Group.stores (g : Group) (pass : Passed) : Bool :=
  pass.any fun e => g.queue.any fun q => match q with
    | .store ws _ _ => ws.any fun w => w.1 / 32 == e.2.tag / 32
    | .atom _ _ _ ks _ _ => ks.any fun k => k.addr / 32 == e.2.tag / 32

/-- The end of an access whose lanes have acted on the machine alone. -/
def State.endLanes (v : State) (key : Nat) (ps : PSlot) (fail : List (Nat × XKind × Nat)) : State :=
  match v.group key with
  | none => v
  | some g => v.finishAccess key ps g false fail

theorem State.endLanes_of_group {v : State} {key : Nat} {g : Group} (hg : v.group key = some g) (ps : PSlot)
    (fail : List (Nat × XKind × Nat)) : v.endLanes key ps fail = v.finishAccess key ps g false fail := by
  simp only [State.endLanes, hg]

/-- A group none of whose lanes failed goes on. -/
theorem State.endLanes_nil {v : State} {key : Nat} {g : Group} (hg : v.group key = some g) (ps : PSlot) :
    v.endLanes key ps [] = v.resume key ps g :=
  State.endLanes_of_group hg ps []

section Commits
variable {t : State} {key core : Nat} {g : Group} {pd : Pending} {ck : Checked}

theorem State.commitUpd_eq (hg : t.group key = some g) (hcore : key / 128 = core) (op : UOp) (vd : Nat) :
    let u := t.ordered key (g.stores ck.pass || !t.acquired g)
    t.commitUpd key pd op vd ck = (u.updateLanes (u.cacheOf core) g op vd ck.pass).endLanes key pd.slot ck.fail := by
  subst hcore
  simp only [State.commitUpd, hg]
  rfl

theorem State.commitCollapse_eq (hg : t.group key = some g) :
    t.commitCollapse key pd ck = ((ck.pass.map fun e => e.2.tag / 32).eraseDups.foldl (fun st k => st.startCollapse g.uid k) t).endLanes
      key pd.slot ck.fail := by
  simp only [State.commitCollapse, hg]
  rfl

/-- CCTL works through its lines (05 R177; log 32). -/
def State.cctlLines (u : State) (core fn scope : Nat) (lines : List Nat) : State :=
  lines.foldl (fun st l =>
    (run (4 * l) 4).foldl (fun st k => st.cctlSector fn (u.scopeCaches core scope) (decide (4 ≤ scope)) k) st) u

theorem State.cctlLines_one (u : State) (core fn scope l : Nat) : u.cctlLines core fn scope [l]
    = (run (4 * l) 4).foldl (fun st k => st.cctlSector fn (u.scopeCaches core scope) (decide (4 ≤ scope)) k) u := by
  rw [State.cctlLines, List.foldl_cons, List.foldl_nil]

theorem State.commitCctl_eq (hg : t.group key = some g) (hcore : key / 128 = core) (fn scope : Nat) :
    t.commitCctl key pd fn scope ck
      = ((t.ordered key true).cctlLines core fn scope (ck.pass.map fun e => e.2.tag / 128).eraseDups).endLanes key pd.slot ck.fail := by
  subst hcore
  simp only [State.commitCctl, hg]
  rfl

/-! Where the one address of an instruction that forms one for its group fails, the instruction takes its translation fault. -/

theorem State.commitWaita_of_fault (hpass : ck.pass = []) (hk : (t.ordered key true).group key = some g) (sd : Nat)
    (away timeout : Word) :
    t.commitWaita key pd sd away timeout ck = (t.ordered key true).finishAccess key pd.slot g true ck.fail := by
  simp only [State.commitWaita, hk, hpass]

theorem State.commitSubscr_of_fault (hpass : ck.pass = []) (hk : t.group key = some g) (sd line size : Nat) (strict : Bool) :
    t.commitSubscr key pd sd line size strict ck = t.finishAccess key pd.slot g true ck.fail := by
  simp only [State.commitSubscr, hk, hpass]

theorem State.commitCopy_of_fault (hpass : ck.pass = []) (hk : t.group key = some g) (out : Bool) (l x : Nat) :
    t.commitCopy key pd out l x ck = t.finishAccess key pd.slot g true ck.fail := by
  simp only [State.commitCopy, hk, hpass]

theorem State.commitLaunch_of_fault (hpass : ck.pass = []) (hk : t.group key = some g) (sd : Nat) :
    t.commitLaunch key pd sd ck = t.finishAccess key pd.slot g true ck.fail := by
  simp only [State.commitLaunch, hk, hpass]

end Commits

section Lanes
variable {core slot : Nat} {s : State} {g : Group} {ps : PSlot} {pc : DWord} {ls : List (Nat × Nat)} {issued : Nat}

theorem exec_upd {c vd : Nat} (h : Answered core slot s g ps pc ls (.upd c vd) issued) :
    let op := MemOp.upd c vd
    let pass := s.passing core (s.asidOf g) op ls
    let noted := s.noted g core op ls
    let u := noted.ordered (groupKey core slot) (g.stores pass || !noted.acquired g)
    exec (.translationAck core slot) s = .next ((u.updateLanes (u.cacheOf core) g (UOp.ofCode c) vd pass).endLanes
      (groupKey core slot) ps (s.failing core (s.asidOf g) op ls)) := by
  refine (exec_translationAck_commit h rfl fun t ck hg => by rw [State.commit, hg]).trans (congrArg _ ?_)
  exact State.commitUpd_eq h.group_noted h.key_div ..

theorem exec_collapse (h : Answered core slot s g ps pc ls .collapse issued) {k : Group} :
    let pass := s.passing core (s.asidOf g) .collapse ls
    let u := (s.noted g core .collapse ls).ordered (groupKey core slot) true
    u.group (groupKey core slot) = some k →
    exec (.translationAck core slot) s
      = .next (((pass.map fun e => e.2.tag / 32).eraseDups.foldl (fun st n => st.startCollapse k.uid n) u).endLanes
          (groupKey core slot) ps (s.failing core (s.asidOf g) .collapse ls)) := by
  intro pass u hk
  refine (exec_translationAck_commit h rfl fun t ck hg => by rw [State.commit, hg]).trans (congrArg _ ?_)
  exact State.commitCollapse_eq hk

theorem exec_cctl {fn scope : Nat} (h : Answered core slot s g ps pc ls (.cctl fn scope) issued) :
    let op := MemOp.cctl fn scope
    let pass := s.passing core (s.asidOf g) op ls
    let u := (s.noted g core op ls).ordered (groupKey core slot) true
    exec (.translationAck core slot) s
      = .next ((u.cctlLines core fn scope (pass.map fun e => e.2.tag / 128).eraseDups).endLanes
          (groupKey core slot) ps (s.failing core (s.asidOf g) op ls)) := by
  refine (exec_translationAck_commit h rfl fun t ck hg => by rw [State.commit, hg]).trans (congrArg _ ?_)
  exact State.commitCctl_eq h.group_noted h.key_div ..

end Lanes

open Sys2Proof.Claims in
theorem laneSystemAccesses : LaneSystemAccesses := by
  intro core slot s g ps pc issued ls op hslot key asid pass fail pends noted ends sectors lines
  have answered : ∀ {o}, pends o → Answered core slot s g ps pc ls o issued := by
    rintro _ ⟨rfl, hg, hpd, hready⟩
    exact ⟨hslot, hg, hpd, hready⟩
  have hends : ∀ one t, (∀ h, t.group key = some h → exec (.translationAck core slot) s = .next (t.finishAccess key ps h one fail))
      → ends one t := by
    intro one t hexec h hh
    rw [hexec h hh]
    cases fail <;> rfl
  refine ⟨?upd, ?collapse, ?cctl, ?fails⟩
  case upd =>
    intro c vd hop uop stored u
    obtain rfl := hop.1
    refine hends _ _ fun h hh => ?_
    exact (exec_upd (answered hop)).trans (congrArg _ (State.endLanes_of_group hh ..))
  case collapse =>
    intro hop h hh
    obtain rfl := hop.1
    refine hends _ _ fun h' hh' => ?_
    exact (exec_collapse (answered hop) hh).trans (congrArg _ (State.endLanes_of_group hh' ..))
  case cctl =>
    intro fn scope hop u
    obtain rfl := hop.1
    refine hends _ _ fun h hh => ?_
    exact (exec_cctl (answered hop)).trans (congrArg _ (State.endLanes_of_group hh ..))
  case fails =>
    intro hpass _
    refine ⟨?waita, ?subscr, ?tcopy, ?launch⟩
    case waita =>
      intro sd away timeout hop
      obtain rfl := hop.1
      refine hends _ _ fun h hh => ?_
      refine (exec_translationAck_commit (answered hop) rfl fun t ck hg => by rw [State.commit, hg]).trans (congrArg _ ?_)
      exact State.commitWaita_of_fault hpass hh ..
    case subscr =>
      intro sd line size strict hop
      obtain rfl := hop.1
      refine hends _ _ fun h hh => ?_
      refine (exec_translationAck_commit (answered hop) rfl fun t ck hg => by rw [State.commit, hg]).trans (congrArg _ ?_)
      exact State.commitSubscr_of_fault hpass hh ..
    case tcopy =>
      intro out sl sx hop
      obtain rfl := hop.1
      refine hends _ _ fun h hh => ?_
      refine (exec_translationAck_as (run := fun t ck => t.commitCopy key _ out sl sx ck) (answered hop) rfl).trans (congrArg _ ?_)
      exact State.commitCopy_of_fault hpass hh ..
    case launch =>
      intro sd hop
      obtain rfl := hop.1
      refine hends _ _ fun h hh => ?_
      refine (exec_translationAck_as (run := fun t ck => t.commitLaunch key _ sd ck) (answered hop) rfl).trans (congrArg _ ?_)
      exact State.commitLaunch_of_fault hpass hh ..

open Sys2Proof.Claims in
theorem updateFoldsIntoCopy : UpdateFoldsIntoCopy := by
  intro s n a x op d hheld hrec t
  have ht : t = s.setCache n ((s.cache n).put (a / 32) (.u op) (op.update d (a % 32) x)) := by
    simp [t, State.updateCopy, hheld, hrec]
  rw [ht]
  refine ⟨?_, fun m k hother => ?_, rfl, rfl, rfl⟩
  · rw [State.cache_setCache, if_pos rfl, Cache.sector_put, if_pos rfl]
  · rw [State.cache_setCache]
    by_cases hm : m = n
    · rw [if_pos hm, Cache.sector_put, if_neg (hother.resolve_left (not_not_intro hm)), hm]
    · rw [if_neg hm]

/-! ### One address, the group's earlier accesses performed -/

section One
variable {core slot : Nat} {s : State} {g : Group} {ps : PSlot} {pc : DWord} {va : Nat} {op : MemOp} {issued : Nat} {t : Xl}

/-- What makes an access of one address commit: nothing of its group is on its way, and the address passes its check. -/
structure Alone (core slot : Nat) (s : State) (g : Group) (ps : PSlot) (pc : DWord) (va : Nat) (op : MemOp) (issued : Nat) (t : Xl) :
    Prop where
  answered : Answered core slot s g ps pc [(0, va)] op issued
  queue : g.queue = []
  far : s.farPending g.uid = false
  reach : s.reach core (s.asidOf g) op va = .ok t

theorem Alone.passing (h : Alone core slot s g ps pc va op issued t) : s.passing core (s.asidOf g) op [(0, va)] = [(0, t)] := by
  simp [State.passing, h.reach]

theorem Alone.failing (h : Alone core slot s g ps pc va op issued t) : s.failing core (s.asidOf g) op [(0, va)] = [] := by
  simp [State.failing, h.reach]

theorem Alone.farPending (h : Alone core slot s g ps pc va op issued t) :
    (s.noted g core op [(0, va)]).farPending g.uid = false :=
  (State.farPending_noted ..).trans h.far

theorem Alone.ordered (h : Alone core slot s g ps pc va op issued t) (must : Bool) :
    (s.noted g core op [(0, va)]).ordered (groupKey core slot) must = s.noted g core op [(0, va)] :=
  State.ordered_of_idle h.answered.group_noted h.queue h.farPending must

theorem Alone.loadOwn (h : Alone core slot s g ps pc va op issued t) (a len : Nat) :
    (s.noted g core op [(0, va)]).loadOwn (groupKey core slot) g a len
      = (s.noted g core op [(0, va)]).loadRun (s.cacheOf core) a len :=
  State.loadOwn_of_idle h.answered.group_noted h.queue h.farPending _ a len
    ((State.cacheOf_noted ..).trans (congrArg _ h.answered.key_div))

/-- The access commits with its one address passed. -/
theorem exec_translationAck_alone (h : Alone core slot s g ps pc va op issued t) {run : State → Checked → State}
    (hop : s.answerAccess (groupKey core slot) g ⟨ps, pc, [(0, va)], op, issued⟩
      = run ((s.takeRefusals (s.context g.ctx).dctag.toNat [(0, va)]).noteAll (groupKey core slot / 128) (s.asidOf g) op [(0, va)])
          (s.checkLanes (groupKey core slot / 128) (s.asidOf g) op [(0, va)])) :
    exec (.translationAck core slot) s = .next (run (s.noted g core op [(0, va)]) ⟨[(0, t)], []⟩) := by
  rw [exec_translationAck_as h.answered hop, h.passing, h.failing]

/-- So does one whose effect lies in memory alone. -/
theorem exec_translationAck_alone_commit (h : Alone core slot s g ps pc va op issued t) {run : State → Checked → State}
    (hop : s.answerAccess (groupKey core slot) g ⟨ps, pc, [(0, va)], op, issued⟩
      = ((s.takeRefusals (s.context g.ctx).dctag.toNat [(0, va)]).noteAll (groupKey core slot / 128) (s.asidOf g) op [(0, va)]).commit
          (groupKey core slot) ⟨ps, pc, [(0, va)], op, issued⟩ (s.checkLanes (groupKey core slot / 128) (s.asidOf g) op [(0, va)]))
    (hrun : ∀ t ck, t.group (groupKey core slot) = some g → t.commit (groupKey core slot) ⟨ps, pc, [(0, va)], op, issued⟩ ck = run t ck) :
    exec (.translationAck core slot) s = .next (run (s.noted g core op [(0, va)]) ⟨[(0, t)], []⟩) := by
  rw [exec_translationAck_commit h.answered hop hrun, h.passing, h.failing]

theorem State.updateLanes_one (u : State) (n : Nat) (g : Group) (uop : UOp) (vd : Nat) (hfar : u.farPending g.uid = false) :
    u.updateLanes n g uop vd [(0, t)] = if u.updatesAtHome t.tag
      then { u with net := u.net ++ [.far (u.asidOf g) g.uid (.upd uop t.tag (updWords g uop vd 0))] }
      else u.updateCopy n t.tag uop (wordsNat (updWords g uop vd 0)) := by
  simp only [State.updateLanes, List.foldl_cons, List.foldl_nil, State.landFar_of_none hfar]

theorem exec_upd_alone {c vd : Nat} (h : Alone core slot s g ps pc va (.upd c vd) issued t) :
    let noted := s.noted g core (.upd c vd) [(0, va)]
    let ws := updWords g (UOp.ofCode c) vd 0
    exec (.translationAck core slot) s = .next ((if noted.updatesAtHome t.tag
      then { noted with net := noted.net ++ [.far (s.asidOf g) g.uid (.upd (UOp.ofCode c) t.tag ws)] }
      else noted.updateCopy (s.cacheOf core) t.tag (UOp.ofCode c) (wordsNat ws)).endLanes (groupKey core slot) ps []) := by
  have he := exec_upd h.answered
  simp only [h.passing, h.failing, h.ordered, State.cacheOf_noted, State.asidOf_noted,
    State.updateLanes_one _ _ _ _ _ h.farPending] at he
  exact he

theorem exec_collapse_alone (h : Alone core slot s g ps pc va .collapse issued t) :
    exec (.translationAck core slot) s
      = .next (((s.noted g core .collapse [(0, va)]).startCollapse g.uid (t.tag / 32)).endLanes (groupKey core slot) ps []) := by
  have he := exec_collapse (k := g) h.answered
  simp only [h.passing, h.failing, h.ordered] at he
  exact he h.answered.group_noted

theorem exec_cctl_alone {fn scope : Nat} (h : Alone core slot s g ps pc va (.cctl fn scope) issued t) :
    exec (.translationAck core slot) s
      = .next (((s.noted g core (.cctl fn scope) [(0, va)]).cctlLines core fn scope [t.tag / 128]).endLanes
          (groupKey core slot) ps []) := by
  have he := exec_cctl h.answered
  simp only [h.passing, h.failing, h.ordered] at he
  exact he

theorem exec_waita_alone {sd : Nat} {away timeout : Word} (h : Alone core slot s g ps pc va (.waita sd away timeout) issued t) :
    let noted := s.noted g core (.waita sd away timeout) [(0, va)]
    let r := noted.loadBytes (s.cacheOf core) t.tag 4
    exec (.translationAck core slot) s = .next (if BitVec.ofNat 32 (ofBytes r.2) ≠ away
      then r.1.resume (groupKey core slot) ps (g.setSr sd 0)
      else (r.1.watchSec t.tag).park (groupKey core slot) ps g
        (.parked ⟨sd, va, t.tag, away, if timeout = 0 then none else some timeout.toNat, issued, noted.now⟩)) := by
  intro noted r
  refine (exec_translationAck_alone_commit h rfl fun t ck hg => by rw [State.commit, hg]).trans (congrArg _ ?_)
  simp only [State.commitWaita, h.ordered, h.answered.group_noted, h.answered.key_div, State.cacheOf_noted]
  rfl

theorem State.setSegment_eq (u : State) (team k : Nat) (x : Segment) : ∃ teams, u.setSegment team k x = { u with teams := teams } := by
  unfold State.setSegment
  split
  · exact ⟨_, rfl⟩
  · exact ⟨u.teams, rfl⟩

/-- A line bound to a new subscription whose request is on its way (05 R179). -/
def Segment.bind (seg : Segment) (line pos uid tag size : Nat) (strict : Bool) : Segment :=
  { (seg.setFull line false) with bound := SMap.insert seg.bound line ⟨none, strict, uid, pos, none, false, false, tag, size⟩ }

theorem State.takePos_of_group {v : State} {key : Nat} {k : Group} (hk : v.group key = some k) (cls : Nat) :
    v.takePos key cls
      = ({ v.setGroup key { k with positions := k.positions ++ [⟨v.nextPos, cls, none⟩] } with nextPos := v.nextPos + 1 }, v.nextPos) := by
  simp only [State.takePos, hk]

/-- The request of a subscription goes out, its position taken and its line bound in `v` (05 R179). -/
def State.requested (v : State) (key : Nat) (ps : PSlot) (g : Group) (sd : Nat) (r : Nat → SubReq) : State :=
  let taken := { g with positions := g.positions ++ [⟨v.nextPos, 2, none⟩] }
  ({ v.setGroup key taken with nextPos := v.nextPos + 1, net := v.net ++ [.subReq (r v.nextPos)] } : State).resume key ps
    { taken with answers := g.answers ++ [sd] }

theorem State.requested_setSegment (u : State) (team k : Nat) (x : Segment) (key : Nat) (ps : PSlot) (sd : Nat) (r : Nat → SubReq) :
    (u.setSegment team k x).requested key ps g sd r
      = ({ (u.setSegment team k x).setGroup key { g with positions := g.positions ++ [⟨u.nextPos, 2, none⟩] } with
            nextPos := u.nextPos + 1, net := u.net ++ [.subReq (r u.nextPos)] } : State).resume key ps
          { g with positions := g.positions ++ [⟨u.nextPos, 2, none⟩], answers := g.answers ++ [sd] } := by
  obtain ⟨teams, h⟩ := u.setSegment_eq team k x
  rw [h]
  rfl

/-- LINEBUSY as SUBSCR answers it (05 R180). -/
theorem failHandle_lineBusy : failHandle 2 = 0x80000002 := by decide

/-- SUBSCR of a group whose segment exists: LINEBUSY, or its line bound and its request sent. -/
theorem State.commitSubscr_eq {u : State} {key : Nat} {pd : Pending} (hg : u.group key = some g)
    {seg : Segment} (hseg : u.segment g.team g.seg = some seg) (sd line size : Nat) (strict : Bool) :
    u.commitSubscr key pd sd line size strict ⟨[(0, t)], []⟩ = if SMap.has seg.bound line then u.resume key pd.slot (g.setSr sd 0x80000002)
      else (u.setSegment g.team g.seg (seg.bind line u.nextPos g.uid t.tag size strict)).requested key pd.slot g sd fun pos =>
        ⟨u.dev, key / 128, u.asidOf g, (u.context g.ctx).dctag.toNat, g.uid, sd, g.team, g.seg, line, t.asid, t.va, size, strict, pos⟩ := by
  have hbound : (u.setSegment g.team g.seg (seg.bind line u.nextPos g.uid t.tag size strict)).group key = some g := by
    obtain ⟨teams, h⟩ := u.setSegment_eq g.team g.seg (seg.bind line u.nextPos g.uid t.tag size strict)
    rw [h]
    exact hg
  simp only [State.commitSubscr, hg, hseg, failHandle_lineBusy]
  refine if_congr Iff.rfl rfl ?_
  rw [← Segment.bind]
  revert hbound
  generalize u.setSegment g.team g.seg (seg.bind line u.nextPos g.uid t.tag size strict) = v
  intro hv
  have htaken : ({ v.setGroup key { g with positions := g.positions ++ [⟨v.nextPos, 2, none⟩] } with
      nextPos := v.nextPos + 1 } : State).group key = some { g with positions := g.positions ++ [⟨v.nextPos, 2, none⟩] } :=
    (State.group_setGroup ..).trans (if_pos rfl)
  rw [State.takePos_of_group hv]
  dsimp only
  rw [htaken]
  rfl

/-! The two equations below name the load, and the release, by a variable: the kernel would else run them to compare the two sides. -/

/-- What TCOPY has when its record has been read: its group, segment and team in the machine after the read. -/
structure RecordRead (u : State) (key : Nat) (g : Group) (a : Nat) (r : State × List Byte) (seg : Segment) (tm : Team) : Prop where
  before : u.group key = some g
  load : u.loadOwn key g a 128 = r
  group : r.1.group key = some g
  segment : r.1.segment g.team g.seg = some seg
  team : r.1.team g.team = some tm

/-- The copy that a record captured by TCOPY describes. -/
def recordCopy (r : State × List Byte) (g : Group) (out : Bool) (sl sx : Nat) : CopyJob :=
  copyOf g out (Shape.ofBytes r.2) (g.block sl 3) (g.block sx 8) r.1.nextPos

/-- The trap of that record, if it has one. -/
def recordTrap (r : State × List Byte) (core : Nat) (g : Group) (seg : Segment) (tm : Team) (out : Bool) (sl sx : Nat) : Option Trap :=
  r.1.copyTrap core g seg tm.scratch r.2 (g.block sl 3) (g.block sx 8) (recordCopy r g out sl sx)

/-- The scratchpad lines that it empties. -/
def recordLines (r : State × List Byte) (g : Group) (out : Bool) (sl sx : Nat) : List Nat :=
  if out then [] else (recordCopy r g out sl sx).spadLines

/-- The machine with that copy queued. -/
def State.queueCopy (r : State × List Byte) (key : Nat) (g : Group) (seg : Segment) (ps : PSlot) (out : Bool) (sl sx : Nat) : State :=
  let lines := recordLines r g out sl sx
  let x := r.1.core (key / 128)
  let seg1 := lines.foldl (fun (k : Segment) n =>
    { (k.setFull n false) with pend := SMap.insert k.pend n (SMap.getD k.pend n 0 + 1) }) seg
  ((({ r.1 with nextPos := r.1.nextPos + 1 } : State).setSegment g.team g.seg seg1).setCore (key / 128)
      { x with copies := x.copies ++ [{ recordCopy r g out sl sx with lines := lines }] }).resume key ps
    { g with positions := g.positions ++ [⟨r.1.nextPos, 1, none⟩] }

theorem State.commitCopy_eq {u : State} {key : Nat} {pd : Pending} {r : State × List Byte} {seg : Segment} {tm : Team}
    (h : RecordRead u key g t.tag r seg tm) (out : Bool) (sl sx : Nat) :
    u.commitCopy key pd out sl sx ⟨[(0, t)], []⟩ = match recordTrap r (key / 128) g seg tm out sl sx with
      | some trap => (r.1.setGroup key { g with status := .running, pending := none }).raiseTrap key pd.slot trap
      | none => if (recordLines r g out sl sx).any fun k => decide (pendLimit ≤ SMap.getD seg.pend k 0) then r.1.blockAccess key pd g
        else State.queueCopy r key g seg pd.slot out sl sx := by
  obtain ⟨hbefore, hload, hgroup, hsegment, hteam⟩ := h
  obtain ⟨load, hl⟩ : ∃ f, f = State.loadOwn := ⟨_, rfl⟩
  rw [← hl] at hload
  rw [State.commitCopy, ← hl]
  simp only [hbefore, hload, hgroup, hsegment, hteam]
  rfl

/-- A field of a packet, by its bits (07 Table 7-3). -/
theorem pktField_eq (packet : BitVec 1024) (qw lo n : Nat) : pktField packet qw lo n = (packet.extractLsb' (64 * qw + lo) n).toNat := by
  rw [BitVec.extractLsb'_toNat, Nat.shiftRight_eq_div_pow]
  rfl

/-- LAUNCH with its packet read and its release done (07 R233). -/
theorem State.commitLaunch_eq {u : State} {key : Nat} {pd : Pending} {k : Group} {r : State × List Byte} (hbefore : u.group key = some g)
    (hload : u.loadOwn key g t.tag 128 = r) (hk : (r.1.releaseAll key).group key = some k) (sd : Nat) :
    let v := r.1.releaseAll key
    let packet : BitVec 1024 := BitVec.ofNat 1024 (ofBytes r.2)
    u.commitLaunch key pd sd ⟨[(0, t)], []⟩ = if (packet.extractLsb' 176 16).toNat ≠ (v.context k.ctx).asid.toNat
      then v.resume key pd.slot (k.setSr sd 2)
      else match v.submit k sd packet with
        | some (w, k') => w.resume key pd.slot k'
        | none => v.park key pd.slot k (.held (.launch packet)) := by
  obtain ⟨load, hl⟩ : ∃ f, f = State.loadOwn := ⟨_, rfl⟩
  obtain ⟨release, hr⟩ : ∃ f, f = State.releaseAll := ⟨_, rfl⟩
  rw [← hl] at hload
  rw [← hr] at hk
  rw [State.commitLaunch, ← hl, ← hr]
  simp only [hbefore, hload, hk, pktField_eq] <;> rfl

theorem exec_tcopy_alone {out : Bool} {sl sx : Nat} {r : State × List Byte} {seg : Segment} {tm : Team}
    (h : Alone core slot s g ps pc va (.tcopy out sl sx) issued t)
    (hr : (s.noted g core (.tcopy out sl sx) [(0, va)]).loadRun (s.cacheOf core) t.tag 128 = r)
    (hgroup : r.1.group (groupKey core slot) = some g) (hsegment : r.1.segment g.team g.seg = some seg)
    (hteam : r.1.team g.team = some tm) :
    exec (.translationAck core slot) s = .next (match recordTrap r core g seg tm out sl sx with
      | some trap => (r.1.setGroup (groupKey core slot) { g with status := .running, pending := none }).raiseTrap
          (groupKey core slot) ps trap
      | none => if (recordLines r g out sl sx).any fun k => decide (pendLimit ≤ SMap.getD seg.pend k 0)
        then r.1.blockAccess (groupKey core slot) ⟨ps, pc, [(0, va)], .tcopy out sl sx, issued⟩ g
        else State.queueCopy r (groupKey core slot) g seg ps out sl sx) := by
  have hread : RecordRead (s.noted g core (.tcopy out sl sx) [(0, va)]) (groupKey core slot) g t.tag r seg tm :=
    ⟨h.answered.group_noted, (h.loadOwn ..).trans hr, hgroup, hsegment, hteam⟩
  refine (exec_translationAck_alone (run := fun u ck => u.commitCopy (groupKey core slot) _ out sl sx ck) h rfl).trans
    (congrArg _ ?_)
  rw [State.commitCopy_eq hread, h.answered.key_div]

theorem exec_launch_alone {sd : Nat} {r : State × List Byte} {v : State} {k : Group}
    (h : Alone core slot s g ps pc va (.launch sd) issued t)
    (hr : (s.noted g core (.launch sd) [(0, va)]).loadRun (s.cacheOf core) t.tag 128 = r)
    (hv : r.1.releaseAll (groupKey core slot) = v) (hk : v.group (groupKey core slot) = some k) {packet : BitVec 1024}
    (hpacket : BitVec.ofNat 1024 (ofBytes r.2) = packet) :
    exec (.translationAck core slot) s = .next (if (packet.extractLsb' 176 16).toNat ≠ (v.context k.ctx).asid.toNat
      then v.resume (groupKey core slot) ps (k.setSr sd 2)
      else match v.submit k sd packet with
        | some (w, k') => w.resume (groupKey core slot) ps k'
        | none => v.park (groupKey core slot) ps k (.held (.launch packet))) := by
  subst hv hpacket
  exact (exec_translationAck_alone (run := fun u ck => u.commitLaunch (groupKey core slot) _ sd ck) h rfl).trans
    (congrArg _ (State.commitLaunch_eq h.answered.group_noted ((h.loadOwn ..).trans hr) hk sd))

theorem State.submit_of_room {u : State} {k : Group} (hroom : (u.context k.ctx).devq.length < 64) (sd : Nat) (packet : BitVec 1024) :
    u.submit k sd packet = some (u.setContext k.ctx { u.context k.ctx with
      devq := (u.context k.ctx).devq ++ [⟨packet, k.uid, sd, u.now⟩] }, { k with answers := k.answers ++ [sd] }) :=
  if_neg (Nat.not_le.mpr hroom)

theorem State.submit_of_full {u : State} {k : Group} (hfull : 64 ≤ (u.context k.ctx).devq.length) (sd : Nat) (packet : BitVec 1024) :
    u.submit k sd packet = if u.intakeOpen k.ctx then none else some (u, k.setSr sd 1) :=
  if_pos hfull

theorem State.firstFail_none {u : State} {n asid : Nat} {need : Need} {ps : List Nat}
    (h : ∀ p ∈ ps, ∃ y, u.translateBy (coreDie n) asid p need = .ok y) : u.firstFail n asid need ps = none := by
  induction ps with
  | nil => rfl
  | cons p ps ih =>
    obtain ⟨y, hy⟩ := h p (by simp)
    simp only [State.firstFail, hy]
    exact ih fun q hq => h q (List.mem_cons_of_mem _ hq)

theorem exec_mxepi_alone {tile : Nat} {ep : EpiCtl} (h : Alone core slot s g ps pc va (.mxepi tile ep) issued t) :
    let u := s.noted g core (.mxepi tile ep) [(0, va)]
    (∀ p ∈ pagesOf ep.base ep.extent, ∃ y, u.translateBy (coreDie core) (u.asidOf g) p needW = .ok y) →
    exec (.translationAck core slot) s = .next (if matCapacity ≤ (u.core core).matq.length
      then u.blockAccess (groupKey core slot) ⟨ps, pc, [(0, va)], .mxepi tile ep, issued⟩ g
      else ((({ u with nextPos := u.nextPos + 1 } : State).setCore core
          { u.core core with matq := (u.core core).matq ++ [⟨u.nextPos, g.uid, g.team, g.seg, tile, .epilogue ep, []⟩] }).resume
        (groupKey core slot) ps { g with positions := g.positions ++ [⟨u.nextPos, 0, none⟩] })) := by
  intro u hpages
  refine (exec_translationAck_alone (run := fun u _ => u.commitEpi (groupKey core slot) _ tile ep) h rfl).trans (congrArg _ ?_)
  simp only [State.commitEpi, h.answered.group_noted, h.answered.key_div]
  rw [State.firstFail_none hpages]

/-- LAUNCH of a packet of another context, of one that the queue refuses or holds, and of one that it takes (07 R233; log 43). -/
theorem exec_launch_cases {sd : Nat} {r : State × List Byte} {v : State} {k : Group}
    (h : Alone core slot s g ps pc va (.launch sd) issued t)
    (hr : (s.noted g core (.launch sd) [(0, va)]).loadRun (s.cacheOf core) t.tag 128 = r)
    (hv : r.1.releaseAll (groupKey core slot) = v) (hk : v.group (groupKey core slot) = some k) {packet : BitVec 1024}
    (hpacket : BitVec.ofNat 1024 (ofBytes r.2) = packet) {ctxid : Nat} (hid : (packet.extractLsb' 176 16).toNat = ctxid) :
    let x := v.context k.ctx
    (ctxid ≠ x.asid.toNat → exec (.translationAck core slot) s = .next (v.resume (groupKey core slot) ps (k.setSr sd 2)))
    ∧ (ctxid = x.asid.toNat → 64 ≤ x.devq.length → v.intakeOpen k.ctx = false →
      exec (.translationAck core slot) s = .next (v.resume (groupKey core slot) ps (k.setSr sd 1)))
    ∧ (ctxid = x.asid.toNat → 64 ≤ x.devq.length → v.intakeOpen k.ctx = true → exec (.translationAck core slot) s
        = .next (v.setGroup (groupKey core slot) ({ k with status := .running, pending := none }.setWait ps (.held (.launch packet)))))
    ∧ (ctxid = x.asid.toNat → x.devq.length < 64 → exec (.translationAck core slot) s
        = .next ((v.setContext k.ctx { x with devq := x.devq ++ [⟨packet, k.uid, sd, v.now⟩] }).resume (groupKey core slot) ps
            { k with answers := k.answers ++ [sd] })) := by
  intro x
  have hexec := exec_launch_alone h hr hv hk hpacket
  rw [hid] at hexec
  refine ⟨fun hforeign => ?_, fun hown hfull hclosed => ?_, fun hown hfull hopen => ?_, fun hown hroom => ?_⟩
  · rw [if_pos hforeign] at hexec
    exact hexec
  · rw [if_neg (not_not_intro hown), State.submit_of_full hfull, if_neg (ne_true_of_eq_false hclosed)] at hexec
    exact hexec
  · rw [if_neg (not_not_intro hown), State.submit_of_full hfull, if_pos hopen] at hexec
    exact hexec
  · rw [if_neg (not_not_intro hown), State.submit_of_room hroom] at hexec
    exact hexec

end One

open Sys2Proof.Claims in
theorem acceptedOtherAccesses : AcceptedOtherAccesses := by
  intro core slot s g ps pc issued va t op hslot key s1 tag pends goesOn waits
  have htag : tag = t.tag := rfl
  clear_value tag
  subst htag
  have alone : ∀ {o}, pends o → Alone core slot s g ps pc va o issued t := by
    rintro _ ⟨rfl, hg, hpd, hready, hqueue, hfar, hreach⟩
    exact ⟨⟨hslot, hg, hpd, hready⟩, hqueue, hfar, hreach⟩
  refine ⟨?upd, ?collapse, ?cctl, ?waita, ?subscr, ?tcopy, ?launch, ?mxepi⟩
  case upd =>
    intro c vd hop uop ws
    obtain rfl := hop.1
    refine ⟨fun hhome g' hg' => ?_, fun hhome g' hg' => ?_⟩
    · refine (exec_upd_alone (alone hop)).trans (congrArg _ (Eq.trans ?_ (State.endLanes_nil hg' ps)))
      exact congrArg (State.endLanes · key ps []) (if_pos hhome)
    · refine (exec_upd_alone (alone hop)).trans (congrArg _ (Eq.trans ?_ (State.endLanes_nil hg' ps)))
      exact congrArg (State.endLanes · key ps []) (if_neg (ne_true_of_eq_false hhome))
  case collapse =>
    intro hop g' hg'
    obtain rfl := hop.1
    exact (exec_collapse_alone (alone hop)).trans (congrArg _ (State.endLanes_nil hg' ps))
  case cctl =>
    intro fn scope hop g' hg'
    obtain rfl := hop.1
    rw [← State.cctlLines_one] at hg' ⊢
    exact (exec_cctl_alone (alone hop)).trans (congrArg _ (State.endLanes_nil hg' ps))
  case waita =>
    intro sd away timeout hop r
    obtain rfl := hop.1
    exact ⟨fun hne => (exec_waita_alone (alone hop)).trans (congrArg _ (if_pos hne)),
      fun heq => (exec_waita_alone (alone hop)).trans (congrArg _ (if_neg (not_not_intro heq)))⟩
  case subscr =>
    intro sd line size strict seg hop hseg taken bound req
    obtain rfl := hop.1
    have h := alone hop
    have hexec : exec (.translationAck core slot) s
        = .next (s1.commitSubscr key ⟨ps, pc, [(0, va)], .subscr sd line size strict, issued⟩ sd line size strict ⟨[(0, t)], []⟩) := by
      refine (exec_translationAck_alone_commit (run := fun u ck => (u.ordered key true).commitSubscr key _ sd line size strict ck)
        h rfl fun t ck hg => by rw [State.commit, hg]).trans (congrArg _ ?_)
      exact congrArg (State.commitSubscr · _ _ _ _ _ _ _) (h.ordered true)
    have hcommit := State.commitSubscr_eq (u := s1) (key := key) (pd := ⟨ps, pc, [(0, va)], .subscr sd line size strict, issued⟩)
      (t := t) h.answered.group_noted hseg sd line size strict
    refine ⟨fun hbusy => hexec.trans (congrArg _ (hcommit.trans (if_pos hbusy))),
      fun hfree => hexec.trans (congrArg _ ((hcommit.trans (if_neg (ne_true_of_eq_false hfree))).trans ?_))⟩
    have hasid : s1.asidOf g = s.asidOf g := State.asidOf_noted ..
    have hctx : s1.context g.ctx = s.context g.ctx := State.context_noted ..
    rw [State.requested_setSegment, hasid, hctx, h.answered.key_div]
    rfl
  case tcopy =>
    intro out sl sx seg tm hop
    obtain rfl := hop.1
    intro r
    have hr : s1.loadRun (s.cacheOf core) t.tag 128 = r := rfl
    clear_value r
    intro hgroup hsegment hteam ls xs j lines seg1 t1
    have hexec := exec_tcopy_alone (alone hop) hr hgroup hsegment hteam
    refine ⟨fun trap htrap => ?_, fun hno hroom => ?_, fun hno hfull => ?_⟩
    · rw [show recordTrap r core g seg tm out sl sx = some trap from htrap] at hexec
      exact hexec
    · rw [show recordTrap r core g seg tm out sl sx = none from hno] at hexec
      have hqueue : ¬ (recordLines r g out sl sx).any (fun k => decide (pendLimit ≤ SMap.getD seg.pend k 0)) = true := by
        simp only [List.any_eq_true, decide_eq_true_eq, not_exists, not_and, Nat.not_le]
        exact hroom
      refine hexec.trans (congrArg _ ((if_neg hqueue).trans ?_))
      rw [State.queueCopy, groupKey_div hslot]
      rfl
    · rw [show recordTrap r core g seg tm out sl sx = none from hno] at hexec
      have hwait : (recordLines r g out sl sx).any (fun k => decide (pendLimit ≤ SMap.getD seg.pend k 0)) = true := by
        simp only [List.any_eq_true, decide_eq_true_eq]
        exact hfull
      exact hexec.trans (congrArg _ (if_pos hwait))
  case launch =>
    intro sd hop
    obtain rfl := hop.1
    intro r
    have hr : s1.loadRun (s.cacheOf core) t.tag 128 = r := rfl
    clear_value r
    intro s2 packet ctxid g' hg'
    exact exec_launch_cases (alone hop) hr rfl hg' rfl rfl
  case mxepi =>
    intro tile ep hop hpages
    obtain rfl := hop.1
    have hexec := exec_mxepi_alone (alone hop) hpages
    exact ⟨fun hfull => hexec.trans (congrArg _ (if_pos hfull)),
      fun hroom => hexec.trans (congrArg _ (if_neg (Nat.not_le.mpr hroom)))⟩

end Sys2Proof.Machine

open Sys2Proof Sys2Proof.Machine in
/-- Settles O38: what each access does once its checks have answered, with one address, and with lanes that fail, and an update's fold. -/
theorem acceptedSystemAccesses : Obligations.AcceptedSystemAccesses :=
  ⟨acceptedOtherAccesses, laneSystemAccesses, updateFoldsIntoCopy⟩

/-! ## Loads return, and the store queue drains (05 R150 to R152, R162; 06 R215; 01 R31, R39) -/

namespace Sys2Proof.Machine

/-! ### Loads -/

/-- What a load writes into its group: its registers alone. -/
theorem Group.deliver_eq (g : Group) (x : Load) : g.deliver x = { g with v := (g.deliver x).v, s := (g.deliver x).s } := by
  unfold Group.deliver
  split
  · rfl
  · split <;> rfl
  · rfl

/-- The group that a returned load leaves: its registers written, its load gone, and slot B's data there if it is the last. -/
def Group.returned (g : Group) (x : Load) (rest : List Load) : Group := ({ g.deliver x with loads := rest } : Group).dataCame

section Returned
variable {g : Group} {x : Load} {rest : List Load}

theorem Group.dataCame_eq (g : Group) : g.dataCame = { g with slotB := g.dataCame.slotB } := by
  unfold Group.dataCame
  split
  · split <;> rfl
  · rfl

theorem Group.slotB_deliver (g : Group) (x : Load) : (g.deliver x).slotB = g.slotB := by
  rw [g.deliver_eq x]

theorem Group.returned_eq : g.returned x rest
    = { g with v := (g.returned x rest).v, s := (g.returned x rest).s, slotB := (g.returned x rest).slotB, loads := rest } := by
  unfold Group.returned
  rw [Group.dataCame_eq, g.deliver_eq x]

theorem Group.regs_returned : (g.returned x rest).regs = (g.deliver x).regs := by
  unfold Group.returned
  rw [Group.dataCame_eq]
  rfl

theorem Group.slotB_dataCame_of_waits (h : ∀ p, g.slotB = some p → p.wait = .missData → ∃ y ∈ g.loads, y.slot = .b) :
    g.dataCame.slotB = g.slotB := by
  unfold Group.dataCame
  split
  case h_1 p hp =>
    rw [if_neg]
    intro hc
    rw [Bool.and_eq_true, decide_eq_true_eq, Bool.not_eq_true', List.any_eq_false] at hc
    obtain ⟨y, hy, hslot⟩ := h p hp hc.1
    exact hc.2 y hy (beq_iff_eq.mpr hslot)
  case h_2 => rfl

theorem Group.slotB_dataCame_of_last {p : Path} (hp : g.slotB = some p) (hwait : p.wait = .missData) (hlast : ∀ y ∈ g.loads, y.slot ≠ .b) :
    g.dataCame.slotB = some { p with wait := .ready } := by
  have hnone : g.loads.any (fun y => y.slot == .b) = false := by
    rw [List.any_eq_false]
    exact fun y hy hc => hlast y hy (beq_iff_eq.mp hc)
  simp [Group.dataCame, hp, hwait, hnone]

theorem Group.status_returned : (g.returned x rest).status = g.status := by
  rw [Group.returned_eq]

theorem Group.frozen_returned : (g.returned x rest).frozen = g.frozen := by
  rw [Group.returned_eq]
  rfl

end Returned

/-- LOAD_DATA_RETURN of a group with a load on its way. -/
theorem exec_loadDataReturn {core slot : Nat} {s : State} {g : Group} {x : Load} {rest : List Load}
    (hg : s.group (groupKey core slot) = some g) (hloads : g.loads = x :: rest) :
    let key := groupKey core slot
    let h := g.returned (s.performLoad key g x).2 rest
    let r := (s.performLoad key g x).1.setGroup key h
    exec (.loadDataReturn core slot) s = .next ((if g.status = .running ∧ g.frozen = false
      then r.setGroup key (r.atBoundary h) else r).groupEnd key) := by
  intro key h r
  have hland : s.landLoad key = r := by
    simp only [State.landLoad, key, hg, hloads]
    rfl
  have hr : r.group key = some h := (State.group_setGroup ..).trans (if_pos rfl)
  have hreturn : s.returnLoad key = if g.status = .running ∧ g.frozen = false then r.setGroup key (r.atBoundary h) else r := by
    have hsome : ¬ ((s.group key).all fun g => g.loads.isEmpty) = true := by
      simp [key, hg, hloads]
    rw [State.returnLoad, if_neg hsome, hland]
    simp only [hr, h, Group.status_returned, Group.frozen_returned, Bool.not_eq_true']
  exact congrArg (fun t => Host.Outcome.next (State.groupEnd t key)) hreturn

/-! ### The store queue -/

section Drain
variable {core slot : Nat} {s : State} {g : Group} {e : QEntry} {rest : List QEntry}

theorem State.entryFar_setGroup (s : State) (key : Nat) (k : Group) (e : QEntry) : (s.setGroup key k).entryFar e = s.entryFar e := by
  cases e <;> rfl

/-- STORE_QUEUE_DRAIN of a group whose queue is not empty. -/
theorem exec_storeQueueDrain (hg : s.group (groupKey core slot) = some g) (hqueue : g.queue = e :: rest) :
    exec (.storeQueueDrain core slot) s = .next (if s.mayDrain g
      then ((s.setGroup (groupKey core slot) { g with queue := rest }).drainEntry (groupKey core slot) g e).groupEnd
        (groupKey core slot)
      else s) := by
  change execStoreQueueDrain core slot s = _
  simp only [execStoreQueueDrain, hg, hqueue, State.drainOne]
  cases s.mayDrain g <;> rfl

theorem State.mayDrain_iff (hqueue : g.queue = e :: rest) :
    s.mayDrain g = true ↔ s.farPending g.uid = false ∧ (e.isRelease = true → s.forcedBy g.uid = []) := by
  simp only [State.mayDrain, hqueue, Bool.and_eq_true, Bool.or_eq_true, Bool.not_eq_true', List.isEmpty_iff]
  refine and_congr Iff.rfl ?_
  cases e.isRelease <;> simp

theorem State.drainEntry_far {t : State} {key : Nat} (hfar : t.entryFar e = true) : t.drainEntry key g e
    = { t with net := t.net ++ (e.farOps g.uid).map fun o => .far (t.asidOf g) g.uid o } :=
  if_pos hfar

theorem State.drainEntry_store {t : State} {key : Nat} {ws : List (Nat × List Byte)} {ord sc : Nat}
    (hnear : t.entryFar (.store ws ord sc) = false) : t.drainEntry key g (.store ws ord sc)
      = (t.storeAll (t.cacheOf (key / 128)) ws).scEvent (key / 128) ord (ws.map fun w => w.1 / 32) :=
  if_neg (ne_true_of_eq_false hnear)

theorem State.drainEntry_atom {t : State} {key op vd ord sc : Nat} {wide : Bool} {ks : List AtomLane}
    (hnear : t.entryFar (.atom op wide vd ks ord sc) = false) : t.drainEntry key g (.atom op wide vd ks ord sc)
      = ks.foldl (fun st k => st.atomLaneNow (t.cacheOf (key / 128)) g.uid op wide vd ord k) t :=
  if_neg (ne_true_of_eq_false hnear)

end Drain

open Sys2Proof.Claims in
theorem loadsReturnAndStoresDrain : LoadsReturnAndStoresDrain := by
  intro core slot s g hslot hg key
  refine ⟨fun x rest hloads => ?_, fun pc ps m z vd a bs => ?_, fun pc ps m vd a bs => ?_, fun pc ps sd l a bs => ?_,
    fun e rest hqueue => ?_⟩
  · have hloaded : ({ g.deliver (s.performLoad key g x).2 with loads := rest } : Group).slotB = g.slotB := Group.slotB_deliver ..
    refine ⟨g.returned (s.performLoad key g x).2 rest, Group.regs_returned, Group.returned_eq, fun h => ?_, fun p hp hwait hlast => ?_, ?_⟩
    · exact (Group.slotB_dataCame_of_waits fun p hp => h p (hloaded ▸ hp)).trans hloaded
    · exact Group.slotB_dataCame_of_last (hloaded.trans hp) hwait hlast
    · exact exec_loadDataReturn hg hloads
  · rw [← Group.regs_span]
    simp [Group.deliver, Function.comp_def]
  · rw [← Group.regs_span]
    simp [Group.deliver, Function.comp_def, viewWrites_eq]
  · exact Group.regs_setSr ..
  · intro t
    have hexec := exec_storeQueueDrain hg hqueue
    refine ⟨fun hfar hrelease => ?_, fun hholds => ?_⟩
    · rw [if_pos ((State.mayDrain_iff hqueue).mpr ⟨hfar, hrelease⟩)] at hexec
      refine ⟨fun hf => ?_, fun ws ord sc he hf => ?_, fun op wide vd ks ord sc he hf => ?_⟩
      · rw [State.drainEntry_far (by rw [State.entryFar_setGroup, hf])] at hexec
        exact hexec
      · subst he
        rw [State.drainEntry_store (by rw [State.entryFar_setGroup, hf]), groupKey_div hslot] at hexec
        exact hexec
      · subst he
        rw [State.drainEntry_atom (by rw [State.entryFar_setGroup, hf]), groupKey_div hslot] at hexec
        exact hexec
    · rw [if_neg] at hexec
      · exact hexec
      · rw [State.mayDrain_iff hqueue]
        rintro ⟨hfar, hrelease⟩
        rcases hholds with hpending | ⟨hrel, hforced⟩
        · rw [hfar] at hpending
          cases hpending
        · exact hforced (hrelease hrel)

/-! ### Bytes of a sector -/

theorem ofBytes_lt (bs : List Byte) : ofBytes bs < 256 ^ bs.length := by
  induction bs with
  | nil => simp [ofBytes]
  | cons b bs ih =>
    have hb := b.isLt
    simp only [ofBytes, List.length_cons, Nat.pow_succ]
    omega

theorem toBytes_mod (n x : Nat) : toBytes n (x % 256 ^ n) = toBytes n x := by
  induction n generalizing x with
  | zero => rfl
  | succ n ih =>
    simp only [toBytes, List.cons.injEq]
    constructor
    · apply BitVec.eq_of_toNat_eq
      rw [BitVec.toNat_ofNat, BitVec.toNat_ofNat, Nat.mod_mod_of_dvd]
      exact Nat.dvd_trans (by norm_num) (dvd_pow_self 256 (Nat.succ_ne_zero n))
    · rw [← ih (x / 256), Nat.pow_succ', Nat.mod_mul_right_div_self]

theorem toBytes_ofBytes (bs : List Byte) : toBytes bs.length (ofBytes bs) = bs := by
  induction bs with
  | nil => rfl
  | cons b bs ih =>
    have hb := b.isLt
    have hdiv : (b.toNat + 256 * ofBytes bs) / 256 = ofBytes bs := by omega
    simp only [ofBytes, List.length_cons, toBytes, hdiv, ih, List.cons.injEq, and_true]
    apply BitVec.eq_of_toNat_eq
    rw [BitVec.toNat_ofNat]
    omega

/-- The bytes of a sector up to the end of those replaced. -/
theorem secPut_low_lt (x off : Nat) (bs : List Byte) : x % 256 ^ off + ofBytes bs * 256 ^ off < 256 ^ (off + bs.length) := by
  have h1 : x % 256 ^ off < 256 ^ off := Nat.mod_lt _ (by positivity)
  have h2 : (ofBytes bs + 1) * 256 ^ off ≤ 256 ^ bs.length * 256 ^ off := Nat.mul_le_mul_right _ (ofBytes_lt bs)
  rw [Nat.pow_add, Nat.mul_comm (256 ^ off)]
  linarith

/-- The number that a sector with bytes replaced is. -/
theorem toNat_secPut (d : SectorData) (off : Nat) (bs : List Byte) (h : off + bs.length ≤ 32) :
    (secPut d off bs).toNat = d.toNat % 256 ^ off + ofBytes bs * 256 ^ off
      + d.toNat / 256 ^ (off + bs.length) * 256 ^ (off + bs.length) := by
  have hlow := secPut_low_lt d.toNat off bs
  have hhigh : (d.toNat / 256 ^ (off + bs.length) + 1) * 256 ^ (off + bs.length) ≤ 2 ^ 256 := by
    have hpow : 256 ^ (32 - (off + bs.length)) * 256 ^ (off + bs.length) = 2 ^ 256 := by
      rw [← Nat.pow_add, Nat.sub_add_cancel h]
      norm_num
    rw [← hpow]
    refine Nat.mul_le_mul_right _ (Nat.succ_le_of_lt (Nat.div_lt_of_lt_mul ?_))
    rw [Nat.mul_comm, hpow]
    exact d.isLt
  simp only [secPut, BitVec.toNat_ofNat]
  exact Nat.mod_eq_of_lt (by linarith)

/-- Bytes put into a sector are read back. -/
theorem secBytes_secPut (d : SectorData) (off : Nat) (bs : List Byte) (h : off + bs.length ≤ 32) :
    secBytes (secPut d off bs) off bs.length = bs := by
  have hdiv : (secPut d off bs).toNat / 256 ^ off % 256 ^ bs.length = ofBytes bs := by
    have hnum : (secPut d off bs).toNat
        = d.toNat % 256 ^ off + 256 ^ off * (ofBytes bs + 256 ^ bs.length * (d.toNat / 256 ^ (off + bs.length))) := by
      rw [toNat_secPut d off bs h, Nat.pow_add]
      ring
    rw [hnum, Nat.add_mul_div_left _ _ (by positivity), Nat.div_eq_of_lt (Nat.mod_lt _ (by positivity)), Nat.zero_add,
      Nat.add_mul_mod_self_left, Nat.mod_eq_of_lt (ofBytes_lt bs)]
  rw [secBytes, ← toBytes_mod, hdiv, toBytes_ofBytes]

/-- Every other byte of the sector stays. -/
theorem secBytes_secPut_other (d : SectorData) (off : Nat) (bs : List Byte) (h : off + bs.length ≤ 32) {c : Nat}
    (hc : c < off ∨ off + bs.length ≤ c) : secBytes (secPut d off bs) c 1 = secBytes d c 1 := by
  have hbyte : (secPut d off bs).toNat / 256 ^ c % 256 ^ 1 = d.toNat / 256 ^ c % 256 ^ 1 := by
    rw [toNat_secPut d off bs h]
    rcases hc with hlow | hhigh
    · obtain ⟨k, rfl⟩ : ∃ k, off = c + 1 + k := ⟨off - (c + 1), by omega⟩
      have hmod : ∀ y, y / 256 ^ c % 256 ^ 1 = y % 256 ^ (c + 1) / 256 ^ c := fun y => by
        rw [Nat.pow_one, Nat.pow_succ, Nat.mod_mul_right_div_self]
      rw [hmod, hmod]
      congr 1
      have hdvd : 256 ^ (c + 1) ∣ 256 ^ (c + 1 + k) := pow_dvd_pow _ (by omega)
      have hdvd' : 256 ^ (c + 1) ∣ 256 ^ (c + 1 + k + bs.length) := pow_dvd_pow _ (by omega)
      rw [Nat.add_mod, Nat.mod_eq_zero_of_dvd (Nat.dvd_mul_left_of_dvd hdvd' _), Nat.add_zero, Nat.mod_mod, Nat.add_mod,
        Nat.mod_eq_zero_of_dvd (Nat.dvd_mul_left_of_dvd hdvd _), Nat.add_zero, Nat.mod_mod, Nat.mod_mod_of_dvd _ hdvd]
    · obtain ⟨k, rfl⟩ : ∃ k, c = off + bs.length + k := ⟨c - (off + bs.length), by omega⟩
      rw [Nat.pow_add _ _ k, ← Nat.div_div_eq_div_mul, ← Nat.div_div_eq_div_mul, Nat.add_mul_div_right _ _ (by positivity),
        Nat.div_eq_of_lt (secPut_low_lt ..), Nat.zero_add]
  rw [secBytes, ← toBytes_mod, hbyte, toBytes_mod, ← secBytes]

/-! ### Lines of a cache -/

/-- Making a line most recently used changes no line. -/
theorem Cache.line_touch (c : Cache) (tag t : Nat) : (c.touch tag).line t = c.line t := by
  unfold Cache.touch Cache.line
  rw [List.find?_append, List.find?_filter, List.find?_filter]
  by_cases h : t = tag
  · subst h
    have hnone : c.lines.find? (fun l => decide ((l.tag != t) = true ∧ (l.tag == t) = true)) = none := by
      rw [List.find?_eq_none]
      intro l _
      simp
    rw [hnone, Option.or_none]
    refine List.find?_congr fun l _ => ?_
    simp only [and_self, Bool.decide_eq_true]
  · have hnone : c.lines.find? (fun l => decide ((l.tag == tag) = true ∧ (l.tag == t) = true)) = none := by
      rw [List.find?_eq_none]
      intro l _ hl
      simp only [decide_eq_true_eq, beq_iff_eq] at hl
      exact h (hl.2.symm.trans hl.1)
    rw [hnone, Option.none_or]
    refine List.find?_congr fun l _ => ?_
    by_cases hl : l.tag = t <;> simp [hl, h]

theorem Cache.sector_touch (c : Cache) (tag k : Nat) : (c.touch tag).sector k = c.sector k := by
  unfold Cache.sector
  rw [Cache.line_touch]

/-- Rights change no sector. -/
theorem Cache.sector_grant (c : Cache) (tag k : Nat) (r w : Bool) : (c.grant tag r w).sector k = c.sector k := by
  have hline : (c.grant tag r w).line (k / 4)
      = (c.line (k / 4)).map fun l => if l.tag = tag then { l with r := r, w := w } else l := by
    unfold Cache.grant Cache.line
    rw [List.find?_map]
    refine congrArg _ (List.find?_congr fun l _ => ?_)
    by_cases h : l.tag = tag <;> simp [h]
  unfold Cache.sector
  rw [hline]
  cases c.line (k / 4) with
  | none => rfl
  | some l => by_cases h : l.tag = tag <;> simp [h]

/-- Removing a sector changes no other line, where every line holds a sector. -/
theorem Cache.sector_drop (c : Cache) (key k : Nat) (hother : k / 4 ≠ key / 4) (hfull : ∀ l ∈ c.lines, l.secs ≠ []) :
    (c.drop key).sector k = c.sector k := by
  have hline : (c.drop key).line (k / 4) = c.line (k / 4) := by
    unfold Cache.drop Cache.line
    rw [List.find?_filter, List.find?_map, List.find?_congr (p₂ := fun l => l.tag == k / 4)]
    · cases hl : c.lines.find? fun l => l.tag == k / 4 with
      | none => rfl
      | some l =>
        have htag : l.tag ≠ key / 4 := by
          rw [eq_of_beq (List.find?_some (p := fun l : Line => l.tag == k / 4) hl)]
          exact hother
        simp [htag]
    · intro l hl
      have hsecs := hfull l hl
      by_cases htag : l.tag = key / 4
      · simp [htag, Ne.symm hother]
      · simp only [Function.comp_apply, if_neg htag, List.isEmpty_eq_false_iff.mpr hsecs, Bool.not_false, true_and]
        exact Bool.decide_coe _
  unfold Cache.sector
  rw [hline]

/-! ### The die-level caches and the directory -/

/-- The die-level cache of one die brought up to date with the L1s it includes. -/
def State.mirrorDie (s : State) (key d : Nat) : State :=
  if !s.servedBy d key || (s.cache (256 + d)).sector key == s.dieSector key d then s
  else match s.dieSector key d with
    | some (x, v) => s.hold (256 + d) key x v
    | none => s.setCache (256 + d) ((s.cache (256 + d)).drop key)

theorem State.mirror_eq (s : State) (key : Nat) : s.mirror key = (s.mirrorDie key 1).mirrorDie key 0 := by
  rw [State.mirror, List.foldl_cons, List.foldl_cons, List.foldl_nil]
  rfl

/-- It changes that cache alone, by putting the sector into it or dropping it. -/
theorem State.mirrorDie_eq (s : State) (key d : Nat) : s.mirrorDie key d = s
    ∨ (∃ st v r w, s.mirrorDie key d = s.setCache (256 + d) (((s.cache (256 + d)).put key st v).grant (key / 4) r w))
    ∨ s.mirrorDie key d = s.setCache (256 + d) ((s.cache (256 + d)).drop key) := by
  unfold State.mirrorDie
  split
  · exact .inl rfl
  · split
    · exact .inr (.inl ⟨_, _, _, _, rfl⟩)
    · exact .inr (.inr rfl)

theorem State.cache_mirrorDie (s : State) (key d : Nat) {m : Nat} (hm : m ≠ 256 + d) : (s.mirrorDie key d).cache m = s.cache m := by
  obtain h | ⟨st, v, r, w, h⟩ | h := s.mirrorDie_eq key d
  · rw [h]
  · rw [h, State.cache_setCache, if_neg hm]
  · rw [h, State.cache_setCache, if_neg hm]

theorem State.mem_mirrorDie (s : State) (key d : Nat) : (s.mirrorDie key d).mem = s.mem := by
  obtain h | ⟨st, v, r, w, h⟩ | h := s.mirrorDie_eq key d
  · rw [h]
  · rw [h, State.setCache_mem]
  · rw [h, State.setCache_mem]

theorem State.sector_mirrorDie (s : State) (key d m k : Nat) (hother : k / 4 ≠ key / 4) (hfull : ∀ l ∈ (s.cache m).lines, l.secs ≠ []) :
    ((s.mirrorDie key d).cache m).sector k = (s.cache m).sector k := by
  by_cases hm : m = 256 + d
  · subst hm
    have hk : k ≠ key := fun h => hother (by rw [h])
    obtain h | ⟨st, v, r, w, h⟩ | h := s.mirrorDie_eq key d
    · rw [h]
    · rw [h, State.cache_setCache, if_pos rfl, Cache.sector_grant, Cache.sector_put, if_neg hk]
    · rw [h, State.cache_setCache, if_pos rfl, Cache.sector_drop _ _ _ hother hfull]
  · rw [State.cache_mirrorDie _ _ _ hm]

theorem State.cache_syncDir (s : State) (key : Nat) {m : Nat} (hm : m ≠ 256) (hm' : m ≠ 257) :
    (s.syncDir key).cache m = s.cache m := by
  have h : (s.syncDir key).cache m = (s.mirror key).cache m := rfl
  rw [h, State.mirror_eq, State.cache_mirrorDie _ _ _ hm, State.cache_mirrorDie _ _ _ hm']

theorem State.mem_syncDir (s : State) (key : Nat) : (s.syncDir key).mem = s.mem := by
  have h : (s.syncDir key).mem = (s.mirror key).mem := rfl
  rw [h, State.mirror_eq, State.mem_mirrorDie, State.mem_mirrorDie]

theorem State.sector_syncDir (s : State) (key m k : Nat) (hother : k / 4 ≠ key / 4) (hfull : ∀ l ∈ (s.cache m).lines, l.secs ≠ []) :
    ((s.syncDir key).cache m).sector k = (s.cache m).sector k := by
  have h : (s.syncDir key).cache m = (s.mirror key).cache m := rfl
  rw [h, State.mirror_eq]
  by_cases hm : m = 256
  · have hfirst : (s.mirrorDie key 1).cache m = s.cache m := State.cache_mirrorDie _ _ _ (by omega)
    rw [State.sector_mirrorDie _ _ _ _ _ hother (hfirst ▸ hfull), hfirst]
  · rw [State.cache_mirrorDie _ _ 0 hm, State.sector_mirrorDie _ _ _ _ _ hother hfull]

/-! ### Stored bytes load back (05 R150, R151, R153) -/

section Stored
variable {s : State} {n a : Nat} {st : SecState} {d : SectorData}

/-- What a load through a cache that holds the sector in M or E answers. -/
theorem State.loadBytes_of_owned (hheld : (s.cache n).sector (a / 32) = some (st, d)) (hst : st = .m ∨ st = .e) (len : Nat) :
    (s.loadBytes n a len).2 = secBytes d (a % 32) len := by
  rcases hst with rfl | rfl <;> simp only [State.loadBytes, State.readSec, hheld]

/-- A store through such a cache, on a line without subscription. -/
theorem State.storeBytes_of_owned (hheld : (s.cache n).sector (a / 32) = some (st, d)) (hst : st = .m ∨ st = .e)
    (hsub : s.subscribed (a / 32) = false) (bs : List Byte) : ∃ u : State, s.storeBytes n a bs = u.syncDir (a / 32) ∧ u.mem = s.mem
      ∧ (∀ m, m ≠ n → u.cache m = s.cache m)
      ∧ ∀ k, (u.cache n).sector k = if k = a / 32 then some (.m, secPut d (a % 32) bs) else (s.cache n).sector k := by
  have hown : s.ownSec n (a / 32) = (s.setCache n ((s.cache n).touch (a / 32 / 4)), d) := by
    rcases hst with rfl | rfl <;> simp only [State.ownSec, hheld]
  have hstore : s.storeBytes n a bs = ((s.setCache n ((s.cache n).touch (a / 32 / 4))).setCache n
      (((s.setCache n ((s.cache n).touch (a / 32 / 4))).cache n).put (a / 32) .m (secPut d (a % 32) bs))).syncDir (a / 32) := by
    simp only [State.storeBytes, hsub, hown]
    rfl
  refine ⟨_, hstore, rfl, fun m hm => ?_, fun k => ?_⟩
  · rw [State.cache_setCache, if_neg hm, State.cache_setCache, if_neg hm]
  · rw [State.cache_setCache, if_pos rfl, Cache.sector_put, State.cache_setCache, if_pos rfl, Cache.sector_touch]

end Stored

open Sys2Proof.Claims in
theorem storedBytesLoadBack : StoredBytesLoadBack := by
  intro s n a bs st d hn hheld hst hsub hlen hfit t
  obtain ⟨u, ht, hmem, hother, hsector⟩ := State.storeBytes_of_owned hheld hst hsub bs
  have hcache : ∀ m, m ≠ 256 → m ≠ 257 → t.cache m = u.cache m := fun m hm hm' => by
    rw [show t = u.syncDir (a / 32) from ht, State.cache_syncDir _ _ hm hm']
  have hnow : (t.cache n).sector (a / 32) = some (.m, secPut d (a % 32) bs) := by
    rw [hcache n (by omega) (by omega), hsector, if_pos rfl]
  refine ⟨?_, fun b hb hout => ?_, fun m k hm hm' hmk => ?_, fun m k hk hfull => ?_, ?_⟩
  · rw [State.loadBytes_of_owned hnow (.inl rfl), secBytes_secPut _ _ _ hfit]
  · rw [State.loadBytes_of_owned (hb ▸ hnow) (.inl rfl), State.loadBytes_of_owned (hb ▸ hheld) hst]
    exact secBytes_secPut_other _ _ _ hfit (by omega)
  · rw [hcache m hm hm']
    by_cases h : m = n
    · subst h
      rw [hsector, if_neg (hmk.resolve_left fun h => h rfl)]
    · rw [hother m h]
  · have hu : (u.cache m).sector k = (s.cache m).sector k := by
      by_cases h : m = n
      · subst h
        rw [hsector, if_neg fun h => hk (by rw [h])]
      · rw [hother m h]
    by_cases hm : m = 256 ∨ m = 257
    · have hsame : u.cache m = s.cache m := hother m (by omega)
      rw [show t = u.syncDir (a / 32) from ht, State.sector_syncDir _ _ _ _ hk (hsame ▸ hfull), hu]
    · rw [not_or] at hm
      rw [hcache m hm.1 hm.2, hu]
  · rw [show t = u.syncDir (a / 32) from ht, State.mem_syncDir, hmem]

end Sys2Proof.Machine

open Sys2Proof Sys2Proof.Machine in
/-- Settles O36: what LOAD_DATA_RETURN and STORE_QUEUE_DRAIN do, and that stored bytes load back. -/
theorem loadsAndStores : Obligations.LoadsAndStores := ⟨loadsReturnAndStoresDrain, storedBytesLoadBack⟩

/-! ## Coherence requests (05 R162, R164, R167; 09 R269 to R278, R292, Tables 9-3, 9-4; 11 R337) -/

namespace Sys2Proof.Machine

/-! ### Misses and update grants -/

section Requests
variable {cache asid va : Nat} {s : State} {t : Xl} {w : Bool}

theorem exec_missRequest_read (hn : s.localCache cache < 512) (ht : s.translateBy (some (s.localCache cache / 128)) asid va needR = .ok t) :
    exec (.missRequest cache asid va false) s = .next (if s.wantsRead (s.localCache cache) (t.tag / 32)
      then (s.readSec (s.localCache cache) (t.tag / 32)).1 else s) := by
  change execMissRequest cache asid va false s = _
  simp only [execMissRequest, if_neg (Nat.not_le.mpr hn), Bool.false_eq_true, if_false, ht]

theorem exec_missRequest_write (hn : s.localCache cache < 512) (ht : s.translateBy (some (s.localCache cache / 128)) asid va needW = .ok t) :
    exec (.missRequest cache asid va true) s = .next (if s.wantsStore (s.localCache cache) (t.tag / 32)
      then (s.ownSec (s.localCache cache) (t.tag / 32)).1 else s) := by
  change execMissRequest cache asid va true s = _
  simp only [execMissRequest, if_neg (Nat.not_le.mpr hn), if_true, ht]

theorem exec_missRequest_fault {k : XKind} (hn : s.localCache cache < 512)
    (ht : s.translateBy (some (s.localCache cache / 128)) asid va (if w then needW else needR) = .error k) :
    exec (.missRequest cache asid va w) s = .next s := by
  change execMissRequest cache asid va w s = _
  simp only [execMissRequest, if_neg (Nat.not_le.mpr hn), ht]

/-- The grant of U that an update in Translation asks for (09 R278). -/
def State.asksU (s : State) (n : Nat) (t : Xl) (o : UOp) : Bool :=
  ((s.groupsOf n).any fun g => s.pendingAt g (MemOp.updates o) (t.tag / 32)) && (!s.holdsU n (t.tag / 32) o && !s.updatesAtHome t.tag)

theorem State.asksU_iff (s : State) (n : Nat) (t : Xl) (o : UOp) : s.asksU n t o = true ↔
    (∃ g ∈ s.groupsOf n, s.pendingAt g (MemOp.updates o) (t.tag / 32) = true) ∧ s.updatesAtHome t.tag = false
      ∧ s.holdsU n (t.tag / 32) o = false := by
  simp only [State.asksU, Bool.and_eq_true, List.any_eq_true, Bool.not_eq_true']
  exact and_congr Iff.rfl And.comm

theorem exec_uGrantRequest (hn : s.localCache cache < 512) (ht : s.translateBy (some (s.localCache cache / 128)) asid va needW = .ok t)
    (op : BitVec 4) : exec (.uGrantRequest cache asid va op) s = .next (if s.asksU (s.localCache cache) t (UOp.ofCode op.toNat)
      then s.grantU (s.localCache cache) (t.tag / 32) (UOp.ofCode op.toNat) else s) := by
  change execUGrantRequest cache asid va op s = _
  simp only [execUGrantRequest, if_neg (Nat.not_le.mpr hn), ht]
  rfl

/-! ### Requests of other devices -/

/-- A request of another device's cache: it is refused, or served at the home. -/
theorem exec_missRequest_abroad (hn : 512 ≤ s.localCache cache) : exec (.missRequest cache asid va w) s
    = .next (s.serveAbroad (s.localCache cache) asid va (if w then needW else needR) fun st t =>
        if w then (if st.subscribed (t.tag / 32) then st
          else (st.ownSec (s.localCache cache) (t.tag / 32)).1.foreignBytes (s.localCache cache) (t.tag / 32) fun _ => .m)
        else (st.readSec (s.localCache cache) (t.tag / 32)).1) := by
  change execMissRequest cache asid va w s = _
  simp only [execMissRequest, if_pos hn]

theorem State.serveAbroad_refused {n : Nat} {need : Need} {f : State → Xl → State} {k : XKind} (ht : s.lookupAbroad asid va need = .error k) :
    s.serveAbroad n asid va need f = if (s.remote (cacheDev n)).reachable then s.refuseAbroad (cacheDev n) asid va k else s := by
  simp only [State.serveAbroad, ht]

theorem State.serveAbroad_ok {n : Nat} {need : Need} {f : State → Xl → State} (ht : s.lookupAbroad asid va need = .ok t) :
    s.serveAbroad n asid va need f = if s.sharesLine n t then (f s t).toHolder n 2 (t.tag / 32) else s := by
  simp only [State.serveAbroad, ht]

/-! ### Far accesses -/

theorem exec_farAccess_first {a uid : Nat} {op : FarOp} {rest : List Msg} (hnet : s.net = .far a uid op :: rest) :
    exec (.farAccess 0) s = .next (({ s with net := rest } : State).performFor uid op).endAll := by
  change execFarAccess 0 s = _
  have hfirst : takeNth Msg.isFar 0 s.net = some (.far a uid op, rest) := by
    rw [hnet]
    rfl
  simp only [execFarAccess, hfirst]
  rfl

end Requests

/-! ### Forwarded reads -/

section Owners
variable {cache asid va : Nat} {s : State}

/-- Does a cache that answers for another hold the sector in M or E? -/
def State.ownsFor (s : State) (n key : Nat) : Bool := (s.holders key).any fun h => s.answering n key h.1 && (h.2.1 == .m || h.2.1 == .e)

theorem State.ownsFor_iff (s : State) (n key : Nat) : s.ownsFor n key = true
    ↔ ∃ h ∈ s.holders key, s.answering n key h.1 = true ∧ (h.2.1 = .m ∨ h.2.1 = .e) := by
  simp [State.ownsFor]

/-- Does a cache that answers for another hold the sector? -/
def State.holdsFor (s : State) (n key : Nat) : Bool := (s.holders key).any fun h => s.answering n key h.1

theorem State.holdsFor_iff (s : State) (n key : Nat) : s.holdsFor n key = true
    ↔ ∃ h ∈ s.holders key, s.answering n key h.1 = true := by
  simp only [State.holdsFor, List.any_eq_true]

theorem exec_forwardedRead (n key : Nat) (hn : s.localCache cache = n) (hkey : s.tagFor asid va / 32 = key) :
    exec (.forwardedRead cache asid va) s = match s.reader n key with
      | some m => .next (if s.ownsFor n key then (s.shareAt key (s.answering n key)).syncDir key
          else if (s.owing n key).isSome then (s.missAtHome m key).1 else s)
      | none =>
        if !s.fromAbroad n key then .next s
        else if s.ownsFor n key then .next ((s.shareAt key (s.answering n key)).syncDir key)
        else match s.owing n key with
          | some (m, d) => .next (s.supply m key d)
          | none => .next s := by
  subst hn hkey
  rfl

/-- Does an agent other than a cache wait to write a sector? -/
def State.writeWanted (s : State) (n key : Nat) : Bool := s.wantedElsewhere n (fun st m => st.wantsWrite m key) || s.farWants key

theorem State.writeWanted_iff (s : State) (n key : Nat) : s.writeWanted n key = true
    ↔ (∃ e ∈ s.groups, s.cacheOf (e.1 / 128) ≠ n ∧ s.wantsWrite (s.cacheOf (e.1 / 128)) key = true) ∨ s.farWants key = true := by
  simp [State.writeWanted, State.wantedElsewhere]

theorem exec_invalidate (n key : Nat) (hn : s.localCache cache = n) (hkey : s.tagFor asid va / 32 = key) :
    exec (.invalidate cache asid va) s = if (s.uOp key).isSome then .next s
      else if s.fromAbroad n key then .next (s.writtenAbroad key)
      else if !s.writeWanted n key then .next s
      else if s.holdsFor n key then .next (s.takeBack key (s.answering n key))
      else match s.owing n key with
        | some (m, d) => .next (s.supply m key d)
        | none => .next s := by
  subst hn hkey
  rfl

end Owners

/-! ### Write-back buffers -/

/-- What a cache that answers for an agent has still to supply of a sector. -/
def State.owed (s : State) (n key : Nat) (e : Nat × Cache) : Option (Nat × SectorData) :=
  if s.answering n key e.1 then match SMap.find e.2.wbuf key with
    | some (d, false) => some (e.1, d)
    | _ => none
  else none

theorem State.owing_eq (s : State) (n key : Nat) : s.owing n key = s.caches.findSome? (s.owed n key) := rfl

theorem State.owed_of_owes {s : State} {n key : Nat} {e : Nat × Cache} {d : SectorData}
    (h : s.answering n key e.1 = true ∧ SMap.find e.2.wbuf key = some (d, false)) : s.owed n key e = some (e.1, d) := by
  simp only [State.owed, h.1, h.2, if_true]

theorem State.owed_of_none {s : State} {n key : Nat} {e : Nat × Cache}
    (h : ∀ d, ¬ (s.answering n key e.1 = true ∧ SMap.find e.2.wbuf key = some (d, false))) : s.owed n key e = none := by
  unfold State.owed
  split
  case isTrue hans =>
    split
    case h_1 d hd => exact absurd ⟨hans, hd⟩ (h d)
    case h_2 => rfl
  case isFalse => rfl

/-! ### The copies of one cache -/

section OneCache
variable {s : State} {n key : Nat}

/-- An L1 answers for itself alone. -/
theorem State.answering_l1 (hn : n < 256) (m : Nat) : s.answering n key m = (m == n) := by
  have hhalf : (n / 2 == 128) = false := by
    rw [beq_eq_false_iff_ne]
    omega
  simp [State.answering, hhalf]

/-- A packet to a cache of this device does not leave it. -/
theorem State.toHolder_here (hn : n < 512) (cls : Nat) : s.toHolder n cls key = s := if_pos hn

/-- A fold that acts on one element of a list alone. -/
theorem foldl_one {α β : Type} {f : α → β → α} {before after : List β} {b : β} (hother : ∀ x ∈ before ++ after, ∀ a, f a x = a) (a : α) :
    (before ++ b :: after).foldl f a = f a b := by
  have hskip : ∀ l : List β, (∀ x ∈ l, x ∈ before ++ after) → ∀ a, l.foldl f a = a := by
    intro l hl a
    exact foldl_eq_self fun x hx => hother x (hl x hx) a
  rw [List.foldl_append, List.foldl_cons, hskip before fun x hx => List.mem_append_left _ hx,
    hskip after fun x hx => List.mem_append_right _ hx]

variable {before after : List (Nat × SecState × SectorData)} {st : SecState} {d : SectorData}

/-- One cache's copy is shared: M data goes home, and M and E become S. -/
theorem State.shareAt_one (hn : n < 256) (hholders : s.holders key = before ++ (n, st, d) :: after)
    (hother : ∀ h ∈ before ++ after, h.1 ≠ n) :
    (st = .m → s.shareAt key (s.answering n key) = (s.homeWrite key d).setCache n (((s.homeWrite key d).cache n).put key .s d))
    ∧ (st = .e → s.shareAt key (s.answering n key) = s.setCache n ((s.cache n).put key .s d)) := by
  have hans : s.answering n key n = true := by rw [State.answering_l1 hn, beq_self_eq_true]
  have hno : ∀ h ∈ before ++ after, s.answering n key h.1 = false := fun h hh => by
    rw [State.answering_l1 hn, beq_eq_false_iff_ne]
    exact hother h hh
  constructor
  all_goals
    rintro rfl
    rw [State.shareAt, hholders, foldl_one]
    · simp only [hans, State.toHolder_here (show n < 512 by omega)]
    · intro h hh u
      rw [hno h hh]
      cases h.2.1 <;> rfl

/-- One cache's copy goes: M data goes home first. -/
theorem State.takeBack_one (hn : n < 256) (hholders : s.holders key = before ++ (n, st, d) :: after)
    (hother : ∀ h ∈ before ++ after, h.1 ≠ n) :
    s.takeBack key (s.answering n key) = (let u := if st = .m then s.homeWrite key d else s
      (u.setCache n ((u.cache n).drop key)).syncDir key) := by
  have hans : s.answering n key n = true := by rw [State.answering_l1 hn, beq_self_eq_true]
  rw [State.takeBack, hholders, foldl_one]
  · simp only [hans, if_true, State.toHolder_here (show n < 512 by omega)]
  · intro h hh u
    rw [State.answering_l1 hn, beq_eq_false_iff_ne.mpr (hother h hh)]
    rfl

end OneCache

end Sys2Proof.Machine

open Sys2Proof Sys2Proof.Machine in
/-- Settles O48: each request acts as its access waits for, and changes nothing where none does. -/
theorem coherenceRequests : Obligations.CoherenceRequests := by
  intro cache asid va s n
  refine ⟨?read, ?write, fun k w hn ht => exec_missRequest_fault hn ht, ?abroad,
    fun a uid op rest hnet => exec_farAccess_first hnet, ?owners⟩
  case read =>
    intro hn t ht key
    exact ⟨fun h => (exec_missRequest_read hn ht).trans (congrArg _ (if_pos h)),
      fun h => (exec_missRequest_read hn ht).trans (congrArg _ (if_neg (ne_true_of_eq_false h)))⟩
  case write =>
    intro hn t ht key
    refine ⟨fun h => (exec_missRequest_write hn ht).trans (congrArg _ (if_pos h)),
      fun h => (exec_missRequest_write hn ht).trans (congrArg _ (if_neg (ne_true_of_eq_false h))), ?_⟩
    intro op o asked
    exact ⟨fun h => (exec_uGrantRequest hn ht op).trans (congrArg _ (if_pos ((s.asksU_iff ..).mpr h))),
      fun h => (exec_uGrantRequest hn ht op).trans (congrArg _ (if_neg fun hc => h ((s.asksU_iff ..).mp hc)))⟩
  case abroad =>
    intro hn w dev
    constructor
    · intro k ht
      rw [exec_missRequest_abroad hn, State.serveAbroad_refused ht]
      exact ⟨fun hreach => congrArg _ (if_pos hreach), fun hreach => congrArg _ (if_neg (ne_true_of_eq_false hreach))⟩
    · intro t ht key served
      rw [exec_missRequest_abroad hn, State.serveAbroad_ok ht]
      refine ⟨fun h => congrArg _ (if_neg (ne_true_of_eq_false h)), fun h hw => ?_, fun h hw hsub => ?_, fun h hw hsub => ?_⟩
      all_goals subst hw
      · exact congrArg _ (if_pos h)
      · exact congrArg _ ((if_pos h).trans (congrArg (State.toHolder · n 2 key) (if_pos hsub)))
      · exact congrArg _ ((if_pos h).trans (congrArg (State.toHolder · n 2 key) (if_neg (ne_true_of_eq_false hsub))))
  case owners =>
    intro key owner holder owes written share shared gone supplied
    have hread := exec_forwardedRead (s := s) (cache := cache) (asid := asid) (va := va) n key rfl rfl
    have hinv := exec_invalidate (s := s) (cache := cache) (asid := asid) (va := va) n key rfl rfl
    have howner : s.ownsFor n key = true ↔ owner := s.ownsFor_iff n key
    have hholder : s.holdsFor n key = true ↔ holder := s.holdsFor_iff n key
    have hwritten : s.writeWanted n key = true ↔ written := s.writeWanted_iff n key
    clear_value key
    refine ⟨fun m hm => ?reader, fun hm => ?noReader, fun h => ?nothingOwed, fun before e d after hcaches hbefore howes => ?owed,
      fun hu => ?update, fun hu hfrom => ?writtenAbroad, fun hu hfrom => ?invalidate, fun hn before after st d hholders hother => ?one⟩
    case reader =>
      rw [hm] at hread
      refine ⟨fun h => ?_, fun h howing => ?_, fun h howing => ?_⟩
      · exact hread.trans (congrArg _ (if_pos (howner.mpr h)))
      · refine hread.trans (congrArg _ ((if_neg fun hc => h (howner.mp hc)).trans (if_pos ?_)))
        exact Option.isSome_iff_ne_none.mpr howing
      · refine hread.trans (congrArg _ ((if_neg fun hc => h (howner.mp hc)).trans (if_neg ?_)))
        rw [howing]
        exact Bool.false_ne_true
    case noReader =>
      rw [hm] at hread
      refine ⟨fun hfrom h => ?_, fun m d hfrom h howing => ?_, fun h => ?_⟩
      · exact hread.trans ((if_neg (by simp [hfrom])).trans (if_pos (howner.mpr h)))
      · refine hread.trans ((if_neg (by simp [hfrom])).trans ((if_neg fun hc => h (howner.mp hc)).trans ?_))
        rw [howing]
        rfl
      · by_cases hfrom : s.fromAbroad n key = true
        · obtain ⟨hno, howing⟩ := h.resolve_left (by simp [hfrom])
          refine hread.trans ((if_neg (by simp [hfrom])).trans ((if_neg fun hc => hno (howner.mp hc)).trans ?_))
          rw [howing]
        · exact hread.trans (if_pos (by simp [hfrom]))
    case nothingOwed =>
      rw [State.owing_eq, List.findSome?_eq_none_iff]
      exact fun e he => State.owed_of_none (h e he)
    case owed =>
      rw [State.owing_eq, hcaches, List.findSome?_append, List.findSome?_eq_none_iff.mpr fun x hx => State.owed_of_none (hbefore x hx)]
      rw [Option.none_or, List.findSome?_cons, State.owed_of_owes howes]
    case update => exact hinv.trans (if_pos hu)
    case writtenAbroad => exact hinv.trans ((if_neg (by simp [hu])).trans (if_pos hfrom))
    case invalidate =>
      rw [if_neg (by simp [hu]), if_neg (ne_true_of_eq_false hfrom)] at hinv
      refine ⟨fun h => ?_, fun h hh => ?_, fun m d h hh howing => ?_, fun h hh howing => ?_⟩
      · rw [← hwritten] at h
        exact hinv.trans (if_pos (by simp [h]))
      · exact hinv.trans ((if_neg (by simp [hwritten.mpr h])).trans (if_pos (hholder.mpr hh)))
      · refine hinv.trans ((if_neg (by simp [hwritten.mpr h])).trans ((if_neg fun hc => hh (hholder.mp hc)).trans ?_))
        rw [howing]
        rfl
      · refine hinv.trans ((if_neg (by simp [hwritten.mpr h])).trans ((if_neg fun hc => hh (hholder.mp hc)).trans ?_))
        rw [howing]
    case one =>
      obtain ⟨hm, he⟩ := State.shareAt_one hn hholders hother
      have hback := State.takeBack_one hn hholders hother
      exact ⟨fun hst => ⟨hm hst, by rw [hback, if_pos hst]⟩, he, fun hst => by rw [hback, if_neg hst]⟩

/-! ## The number of the device, which no coherence operation changes (00 Table 0-5) -/

namespace Sys2Proof.Machine

/-- A fold whose steps keep the device's number keeps it. -/
theorem foldl_dev {β : Type} {f : State → β → State} (h : ∀ s b, (f s b).dev = s.dev) (l : List β) (s : State) :
    (l.foldl f s).dev = s.dev := by
  induction l generalizing s with
  | nil => rfl
  | cons b l ih => rw [List.foldl_cons, ih, h]

@[simp] theorem State.dev_newPacket (s : State) (d e cls spread : Nat) : (s.newPacket d e cls spread).dev = s.dev := rfl

@[simp] theorem State.dev_linePacket (s : State) (die dev cls key : Nat) : (s.linePacket die dev cls key).dev = s.dev := rfl

@[simp] theorem State.dev_toHome (s : State) (cls key : Nat) : (s.toHome cls key).dev = s.dev := by
  unfold State.toHome
  split <;> simp

@[simp] theorem State.dev_toHolder (s : State) (n cls key : Nat) : (s.toHolder n cls key).dev = s.dev := by
  unfold State.toHolder
  split <;> simp

@[simp] theorem State.dev_writePlace (s : State) (asid : Nat) (p : Place) (bs : List Byte) : (s.writePlace asid p bs).dev = s.dev := by
  cases p <;> rfl

@[simp] theorem State.dev_anchor (s : State) (key : Nat) : (s.anchor key).dev = s.dev := by
  unfold State.anchor
  split <;> rfl

@[simp] theorem State.dev_homePut (s : State) (key : Nat) (d : SectorData) : (s.homePut key d).dev = s.dev := by
  unfold State.homePut
  split <;> simp

@[simp] theorem State.dev_flushHome (s : State) (key : Nat) : (s.flushHome key).dev = s.dev := by
  unfold State.flushHome
  dsimp only
  split
  · split <;> simp
  · rfl

@[simp] theorem State.dev_dropHome (s : State) (key : Nat) : (s.dropHome key).dev = s.dev := by
  simp [State.dropHome]

@[simp] theorem State.dev_mirrorDie (s : State) (key d : Nat) : (s.mirrorDie key d).dev = s.dev := by
  obtain h | ⟨st, v, r, w, h⟩ | h := s.mirrorDie_eq key d
  all_goals rw [h]
  all_goals rfl

@[simp] theorem State.dev_syncDir (s : State) (key : Nat) : (s.syncDir key).dev = s.dev := by
  have h : (s.syncDir key).dev = (s.mirror key).dev := rfl
  rw [h, State.mirror_eq, State.dev_mirrorDie, State.dev_mirrorDie]

@[simp] theorem State.dev_setCollapse (s : State) (key : Nat) (c : Option Collapse) : (s.setCollapse key c).dev = s.dev := by
  simp [State.setCollapse]

@[simp] theorem State.dev_clearU (s : State) (key : Nat) : (s.clearU key).dev = s.dev := by
  simp only [State.clearU, State.dev_setCollapse, State.setSlice_dev]
  refine foldl_dev (fun u e => ?_) _ s
  split <;> rfl

/-! ### Operations that take the operation which writes the home -/

section Write
variable {write : State → Nat → SectorData → State} (hwrite : ∀ s k d, (write s k d).dev = s.dev)
include hwrite

theorem State.dev_collapseBy (s : State) (key : Nat) : (s.collapseBy write key).dev = s.dev := by
  unfold State.collapseBy
  split
  · rfl
  · simp only [State.dev_syncDir, hwrite, State.dev_clearU]
    split
    · rfl
    · exact foldl_dev (fun u h => by simp) _ s

theorem State.dev_evictUBy (s : State) (n key : Nat) (op : UOp) (d : SectorData) : (s.evictUBy write n key op d).dev = s.dev := by
  unfold State.evictUBy
  dsimp only
  split
  · simp
  · split
    · simp
    · simp [State.dev_collapseBy hwrite]

theorem State.dev_flushBy (s : State) (n : Nat) (f : Nat → Bool) : (s.flushBy write n f).dev = s.dev := by
  simp only [State.flushBy, State.setCache_dev]
  refine foldl_dev (fun u e => ?_) _ s
  split
  · rfl
  · exact hwrite ..

theorem State.dev_roomBy (s : State) (n tag : Nat) : (s.roomBy write n tag).dev = s.dev := by
  unfold State.roomBy
  dsimp only
  split
  · rfl
  · split
    · exact State.dev_flushBy hwrite ..
    · rfl

theorem State.dev_evictBy (s : State) (n key : Nat) : (s.evictBy write n key).dev = s.dev := by
  unfold State.evictBy
  split
  · simp [State.dev_roomBy hwrite]
  · exact State.dev_evictUBy hwrite ..
  · simp
  · rfl

theorem State.dev_mergeDieBy (s : State) (h key : Nat) : (s.mergeDieBy write h key).dev = s.dev := by
  unfold State.mergeDieBy
  dsimp only
  split
  · simp [hwrite]
  · rfl

end Write

/-! ### The ways of a slice, and writes at the home -/

@[simp] theorem State.dev_homePass (s : State) (key : Nat) (d : SectorData) : (s.homePass key d).dev = s.dev := by
  unfold State.homePass
  split
  · split <;> simp
  · simp

@[simp] theorem State.dev_evictHome (s : State) (h tag : Nat) : (s.evictHome h tag).dev = s.dev := by
  unfold State.evictHome
  rw [foldl_dev fun u k => by rw [State.dev_dropHome, State.dev_mergeDieBy State.dev_homePass]]
  rfl

@[simp] theorem State.dev_evictDie (s : State) (h tag : Nat) : (s.evictDie h tag).dev = s.dev := by
  unfold State.evictDie
  dsimp only
  refine (foldl_dev (fun u k => ?_) _ _).trans rfl
  rw [State.dev_mergeDieBy State.dev_homePass, State.dev_syncDir]
  refine (foldl_dev (fun v n => ?_) _ _).trans (foldl_dev (fun v e => ?_) _ u)
  · rfl
  · exact State.dev_evictBy State.dev_homePass ..

@[simp] theorem State.dev_useLine (s : State) (h : Nat) (die : Bool) (tag : Nat) : (s.useLine h die tag).dev = s.dev := by
  have hway : (s.useWay h die tag).dev = s.dev := rfl
  unfold State.useLine
  dsimp only
  split <;> simp [hway]

@[simp] theorem State.dev_homeSet (s : State) (key : Nat) (d : SectorData) : (s.homeSet key d).dev = s.dev := by
  unfold State.homeSet
  dsimp only
  split <;> simp

@[simp] theorem State.dev_homeWrite (s : State) (key : Nat) (d : SectorData) : (s.homeWrite key d).dev = s.dev := by
  simp [State.homeWrite]

@[simp] theorem State.dev_collapseNow (s : State) (key : Nat) : (s.collapseNow key).dev = s.dev :=
  State.dev_collapseBy (fun u k d => by simp) s key

@[simp] theorem State.dev_drainWb (s : State) (key : Nat) : (s.drainWb key).dev = s.dev := by
  unfold State.drainWb
  refine foldl_dev (fun u e => ?_) _ s
  split <;> simp

@[simp] theorem State.dev_shareAt (s : State) (key : Nat) (f : Nat → Bool) : (s.shareAt key f).dev = s.dev := by
  unfold State.shareAt
  refine foldl_dev (fun u e => ?_) _ s
  split <;> simp

@[simp] theorem State.dev_shareOut (s : State) (key : Nat) : (s.shareOut key).dev = s.dev := by
  simp [State.shareOut]

/-! ### Subscriptions and pushes -/

@[simp] theorem State.dev_revokeHot (s : State) (tag : Nat) : (s.revokeHot tag).dev = s.dev := by
  unfold State.revokeHot
  dsimp only
  split
  · refine (foldl_dev (fun u k => ?_) _ _).trans ((foldl_dev (fun u k => ?_) _ _).trans rfl)
    · rw [State.dev_syncDir]
      refine foldl_dev (fun v e => ?_) _ u
      split <;> simp
    · rfl
  · rfl

@[simp] theorem State.dev_settleLine (s : State) (key : Nat) : (s.settleLine key).dev = s.dev := by
  unfold State.settleLine
  rw [foldl_dev fun u k => by simp, State.dev_revokeHot]

@[simp] theorem State.dev_settleAbroad (s : State) (b : Bound) : (s.settleAbroad b).dev = s.dev := by
  unfold State.settleAbroad
  split <;> simp

@[simp] theorem State.dev_reapTeam (s : State) (t : Nat) : (s.reapTeam t).dev = s.dev := by
  unfold State.reapTeam
  dsimp only
  split
  · rfl
  · split
    · rfl
    · split <;> rfl

@[simp] theorem State.dev_donePos (s : State) (uid pos : Nat) : (s.donePos uid pos).dev = s.dev := by
  unfold State.donePos
  dsimp only
  split <;> simp

@[simp] theorem State.dev_setSegment (s : State) (team k : Nat) (x : Segment) : (s.setSegment team k x).dev = s.dev := by
  obtain ⟨teams, h⟩ := s.setSegment_eq team k x
  rw [h]

theorem State.dev_deliverPush (s : State) (team seg line : Nat) (strict : Bool) (p : Push) (w : Word) :
    (s.deliverPush team seg line strict p w).dev = s.dev := by
  unfold State.deliverPush
  split
  · rfl
  · dsimp only
    split
    · split
      · rfl
      · split <;> simp
    · simp

end Sys2Proof.Machine

/-! ## Slot lines (05 R183, Table 5-10) -/

namespace Sys2Proof.Machine

/-! ### Bytes of a segment's scratchpad -/

theorem Segment.getD_write (g : Segment) (a : Nat) (bs : List Byte) (x : Nat) :
    SMap.getD (g.write a bs).spad x 0 = if a ≤ x ∧ x < a + bs.length then bs.getD (x - a) 0 else SMap.getD g.spad x 0 := by
  have hmem : x ∈ (number a bs).map Prod.fst ↔ a ≤ x ∧ x < a + bs.length := by
    constructor
    · intro hx
      obtain ⟨⟨y, b⟩, he, rfl⟩ := List.mem_map.mp hx
      obtain ⟨hle, hget⟩ := (number_mem a bs y b).mp he
      obtain ⟨hlt, _⟩ := List.getElem?_eq_some_iff.mp hget
      exact ⟨hle, by omega⟩
    · rintro ⟨hle, hlt⟩
      exact List.mem_map.mpr ⟨(x, bs[x - a]), (number_mem ..).mpr ⟨hle, List.getElem?_eq_getElem (by omega)⟩, rfl⟩
  have hval : ∀ e ∈ number a bs, e.2 = bs.getD (e.1 - a) 0 := fun e he => by
    obtain ⟨_, hget⟩ := (number_mem a bs e.1 e.2).mp he
    rw [List.getD_eq_getElem?_getD, hget, Option.getD_some]
  rw [Segment.write, SMap.getD_putAll 0 (fun y => bs.getD (y - a) 0) _ hval]
  exact if_congr hmem rfl rfl

/-- Bytes written to a scratchpad are read back. -/
theorem Segment.read_write (g : Segment) (a off n : Nat) (bs : List Byte) (h : off + n ≤ bs.length) :
    (g.write a bs).read (a + off) n = (bs.drop off).take n := by
  refine List.ext_getElem (by simp [Segment.read, run_eq_range']; omega) fun i hi _ => ?_
  have hin : i < n := by simpa [Segment.read, run_eq_range'] using hi
  simp only [Segment.read, run_eq_range', List.getElem_map, List.getElem_range', Nat.one_mul, Segment.getD_write, List.getElem_take,
    List.getElem_drop]
  rw [if_pos (by omega), show a + off + i - a = off + i by omega, List.getD_eq_getElem _ _ (by omega)]

theorem Segment.read_write_other (g : Segment) (a x : Nat) (bs : List Byte) (h : x < a ∨ a + bs.length ≤ x) :
    (g.write a bs).read x 1 = g.read x 1 := by
  simp only [Segment.read, run, List.map_cons, List.map_nil, Segment.getD_write]
  rw [if_neg (by omega)]

theorem Segment.isFull_setFull (g : Segment) (line l : Nat) (v : Bool) : (g.setFull line v).isFull l = if l = line then v else g.isFull l :=
  SMap.getD_put ..

/-! ### The bytes of a slot line -/

/-- A part of a list between two others. -/
theorem take_drop_between {α : Type} (A B C : List α) : ((A ++ (B ++ C)).drop A.length).take B.length = B := by
  rw [List.drop_left, List.take_left]

theorem slotLine_data (p : Push) (ovr : Nat) : ((slotLine p ovr).drop 0).take p.data.length = p.data := by
  simp [slotLine]

section SlotLine
variable {p : Push} (ovr : Nat) (hdata : p.data.length ≤ 64)
include hdata

theorem length_slotLine : (slotLine p ovr).length = 128 := by
  simp only [slotLine, List.length_append, List.length_replicate, length_toBytes]
  omega

theorem slotLine_zero {k : Nat} (hlow : p.data.length ≤ k) (hk : k < 112) : ((slotLine p ovr).drop k).take 1 = [0] := by
  have hsplit : List.replicate (112 - p.data.length) (0 : Byte)
      = List.replicate (k - p.data.length) 0 ++ ([0] ++ List.replicate (111 - k) 0) := by
    rw [List.singleton_append, ← List.replicate_succ, List.replicate_append_replicate]
    congr 1
    omega
  have h := take_drop_between (p.data ++ List.replicate (k - p.data.length) 0) [(0 : Byte)]
    (List.replicate (111 - k) 0 ++ (toBytes 4 p.seq.toNat ++ (toBytes 4 ovr ++ toBytes 8 p.time.toNat)))
  simp only [List.length_append, List.length_replicate, Nat.add_sub_cancel' hlow, List.length_singleton] at h
  rw [slotLine, hsplit]
  simpa using h

theorem slotLine_seq : ((slotLine p ovr).drop 112).take 4 = toBytes 4 p.seq.toNat := by
  have h := take_drop_between (p.data ++ List.replicate (112 - p.data.length) 0) (toBytes 4 p.seq.toNat)
    (toBytes 4 ovr ++ toBytes 8 p.time.toNat)
  simp only [List.length_append, List.length_replicate, length_toBytes, Nat.add_sub_cancel' (show p.data.length ≤ 112 by omega)] at h
  simpa [slotLine] using h

theorem slotLine_ovr : ((slotLine p ovr).drop 116).take 4 = toBytes 4 ovr := by
  have h := take_drop_between (p.data ++ List.replicate (112 - p.data.length) 0 ++ toBytes 4 p.seq.toNat) (toBytes 4 ovr)
    (toBytes 8 p.time.toNat)
  simp only [List.length_append, List.length_replicate, length_toBytes, Nat.add_sub_cancel' (show p.data.length ≤ 112 by omega)] at h
  simpa [slotLine] using h

theorem slotLine_time : ((slotLine p ovr).drop 120).take 8 = toBytes 8 p.time.toNat := by
  have h := take_drop_between (p.data ++ List.replicate (112 - p.data.length) 0 ++ toBytes 4 p.seq.toNat ++ toBytes 4 ovr)
    (toBytes 8 p.time.toNat) []
  simp only [List.length_append, List.length_replicate, length_toBytes, Nat.add_sub_cancel' (show p.data.length ≤ 112 by omega)] at h
  simpa [slotLine] using h

end SlotLine

/-! ### A push into its slot line -/

/-- Is a push the first that a line's subscription delivers (05 R187)? -/
def Segment.firstPush (g : Segment) (line : Nat) : Bool :=
  match SMap.find g.bound line with
  | some b => b.last.isNone
  | none => false

theorem Segment.firstPush_iff (g : Segment) (line : Nat) :
    g.firstPush line = true ↔ ∃ b, SMap.find g.bound line = some b ∧ b.last = none := by
  unfold Segment.firstPush
  cases SMap.find g.bound line <;> simp

/-- OVR as a push leaves it in its slot line. -/
def Segment.pushOvr (g : Segment) (line : Nat) (strict : Bool) (p : Push) : Nat :=
  newOvr strict (g.isFull line) (g.firstPush line) (ofBytes (g.read (128 * line + 116) 4)) p.ovr.toNat

/-- A push writes its slot line's bytes and full bit, and notes itself in the line's binding. -/
theorem Segment.takePush_eq (g : Segment) (line : Nat) (strict : Bool) (p : Push) (w : Word) :
    ∃ bound, g.takePush line strict p w
      = { (g.write (128 * line) (slotLine p (g.pushOvr line strict p))).setFull line true with bound := bound } :=
  ⟨_, rfl⟩

section Push
variable {g : Segment} {line : Nat} {strict : Bool} {p : Push} {w : Word}

theorem Segment.isFull_takePush (l : Nat) : (g.takePush line strict p w).isFull l = if l = line then true else g.isFull l := by
  obtain ⟨bound, h⟩ := g.takePush_eq line strict p w
  have hfull := Segment.isFull_setFull (g.write (128 * line) (slotLine p (g.pushOvr line strict p))) line l true
  rw [h]
  exact hfull

theorem Segment.read_takePush (hdata : p.data.length ≤ 64) {off n : Nat} (h : off + n ≤ 128) :
    (g.takePush line strict p w).read (128 * line + off) n = ((slotLine p (g.pushOvr line strict p)).drop off).take n := by
  obtain ⟨bound, hpush⟩ := g.takePush_eq line strict p w
  rw [hpush]
  exact Segment.read_write _ _ _ _ _ (by rw [length_slotLine _ hdata]; exact h)

theorem Segment.read_takePush_other (hdata : p.data.length ≤ 64) {a : Nat} (h : a < 128 * line ∨ 128 * line + 128 ≤ a) :
    (g.takePush line strict p w).read a 1 = g.read a 1 := by
  obtain ⟨bound, hpush⟩ := g.takePush_eq line strict p w
  rw [hpush]
  exact Segment.read_write_other _ _ _ _ (by rw [length_slotLine _ hdata]; exact h)

end Push

open Sys2Proof.Claims in
theorem pushWritesSlotLine : PushWritesSlotLine := by
  intro g line strict p w hdata first old h
  have hfirst : g.firstPush line = true ↔ first := g.firstPush_iff line
  have hovr : h.read (128 * line + 116) 4 = toBytes 4 (newOvr strict (g.isFull line) (g.firstPush line) old p.ovr.toNat) := by
    rw [Segment.read_takePush hdata (by omega), slotLine_ovr _ hdata]
    rfl
  refine ⟨?data, fun k hlow hk => ?zero, ?seq, ?strict, ?coalesce, ?overrun, ?first, ?time, fun a ha => Segment.read_takePush_other hdata ha,
    (Segment.isFull_takePush _).trans (if_pos rfl), fun l hl => (Segment.isFull_takePush _).trans (if_neg hl), rfl, rfl, rfl, rfl⟩
  case data =>
    have hread := Segment.read_takePush (g := g) (line := line) (strict := strict) (w := w) hdata (off := 0) (n := p.data.length) (by omega)
    rwa [slotLine_data] at hread
  case zero => rw [Segment.read_takePush hdata (by omega), slotLine_zero _ hdata hlow hk]
  case seq => rw [Segment.read_takePush hdata (by omega), slotLine_seq _ hdata]
  case strict =>
    rintro rfl
    exact hovr
  case coalesce =>
    intro hs hfull hno
    rw [hovr, hs, hfull, Bool.eq_false_iff.mpr fun hc => hno (hfirst.mp hc)]
    rfl
  case overrun =>
    intro hs hfull hno
    rw [hovr, hs, hfull, Bool.eq_false_iff.mpr fun hc => hno (hfirst.mp hc)]
    rfl
  case first =>
    intro hs hf
    have hzero : toBytes 4 0 = [0, 0, 0, 0] := by decide
    rw [hovr, hs, hfirst.mpr hf]
    exact hzero
  case time => rw [Segment.read_takePush hdata (by omega), slotLine_time _ hdata]

/-! ## Empty notices (05 R184) -/

section Notice
variable {s : State} {h idx : Nat} {gen : BitVec 6} {e : SubEntry}

/-- A stale notice, or one of a COALESCE entry, does nothing. -/
theorem State.takeNotice_stale (he : SMap.find (s.slice h).subs idx = some e) (hstale : e.strict = false ∨ e.gen ≠ gen) :
    s.takeNotice h idx gen = s := by
  simp only [State.takeNotice, he]
  exact if_pos (by simpa using hstale)

/-- One of a STRICT entry's use sends the oldest push held, if there is one. -/
theorem State.takeNotice_current (he : SMap.find (s.slice h).subs idx = some e) (hstrict : e.strict = true) (hgen : e.gen = gen) :
    s.takeNotice h idx gen = match e.held with
      | [] => s.setSlice h { s.slice h with subs := SMap.insert (s.slice h).subs idx { e with dlv := false } }
      | p :: rest => (run (secKey e.asid e.block / 4 * 4) 4).foldl State.syncDir
          ((s.setSlice h { s.slice h with subs := SMap.insert (s.slice h).subs idx { e with
              dlv := true, held := rest, state := if e.state == .lapsePending && rest.isEmpty then .lapsed else e.state } }).sendPush
            h idx e p) := by
  have hno : ¬ (!e.strict || e.gen != gen) = true := by simp [hstrict, hgen]
  simp only [State.takeNotice, he]
  exact if_neg hno

end Notice

open Sys2Proof.Claims in
theorem emptyNoticeRule : EmptyNoticeRule := by
  intro s h idx gen e he put sync
  refine ⟨State.takeNotice_stale he, fun hstrict hgen hheld => ?_, fun p rest hstrict hgen hheld => ⟨fun hstate hrest => ?_, fun hkeeps => ?_⟩⟩
  · rw [State.takeNotice_current he hstrict hgen, hheld]
  · have hlapse : (e.state == .lapsePending && rest.isEmpty) = true := by simp [hstate, hrest]
    rw [State.takeNotice_current he hstrict hgen, hheld]
    simp only [hlapse, if_true]
    subst hrest
    rfl
  · have hlapse : (e.state == .lapsePending && rest.isEmpty) = false := by
      rw [Bool.and_eq_false_iff]
      exact hkeeps.imp (fun h => beq_eq_false_iff_ne.mpr h) fun h => by simpa using h
    rw [State.takeNotice_current he hstrict hgen, hheld]
    simp only [hlapse, Bool.false_eq_true, if_false]
    rfl

end Sys2Proof.Machine

/-! ## Subscription messages (05 R179 to R188; 09 R287, R292; 11 R337) -/

namespace Sys2Proof.Machine

/-! ### The first message of a kind -/

section First
variable {s : State} {f : Msg → Bool} {m : Msg} {rest : List Msg}

theorem State.takeMsg_first (hnet : s.net = m :: rest) (hf : f m = true) : s.takeMsg f 0 = some (m, { s with net := rest }) := by
  simp [State.takeMsg, hnet, takeNth, hf]

/-- No earlier packet can hold back the first message of a kind (11 R329). -/
theorem State.takeOrdered_first (hnet : s.net = m :: rest) (hf : f m = true) : s.takeOrdered f 0 = some (m, { s with net := rest }) := by
  have hnone : msgsBefore f 0 s.net = [] := by simp [hnet, msgsBefore, hf]
  simp [State.takeOrdered, State.takeMsg_first hnet hf, hnone]

end First

/-! ### SUBSCRIBE_REQUEST -/

/-- The lowest free entry of a slice's table, and when there is none. -/
theorem Slice.freeEntry_of_full {x : Slice} (h : ∀ n, n < 1024 → SMap.has x.subs n = true) : x.freeEntry = none := by
  unfold Slice.freeEntry subCapacity
  rw [run_zero, List.find?_eq_none]
  intro n hn
  simp [h n (List.mem_range.mp hn)]

theorem Slice.freeEntry_of_lowest {x : Slice} {n : Nat} (hn : n < 1024) (hfree : SMap.has x.subs n = false)
    (hlow : ∀ k, k < n → SMap.has x.subs k = true) : x.freeEntry = some n := by
  unfold Slice.freeEntry subCapacity
  rw [run_zero, List.find?_range_eq_some]
  refine ⟨by simp [hfree], List.mem_range.mpr hn, fun k hk => by simp [hlow k hk]⟩

section Request
variable {s t : State} {r : SubReq} {rest : List Msg}

theorem exec_subscribeRequest (hnet : s.net = .subReq r :: rest) :
    exec (.subscribeRequest 0) s = .next (({ s with net := rest } : State).subscribe r) := by
  change execSubscribeRequest 0 s = _
  simp only [execSubscribeRequest]
  rw [State.takeMsg_first hnet rfl]

theorem State.subscribeIn_host {asid p a : Nat} (h : t.keyPlace (secKey asid r.block) = some (.host p a)) :
    t.subscribeIn r asid = t.refuse r 4 := by
  simp only [State.subscribeIn, h]

theorem State.subscribeIn_remote {asid d a : Nat} (h : t.keyPlace (secKey asid r.block) = some (.remote d a)) :
    t.subscribeIn r asid = if (t.remote d).reachable then t.sendTo 0 d r.dctag (.subReq r) else t.refuse r 3 := by
  simp only [State.subscribeIn, h]

/-! The home settles the line, then installs an entry or answers that its table is full. -/

theorem State.subscribeIn_full {asid a : Nat} (h : t.keyPlace (secKey asid r.block) = some (.vault a))
    (hfull : ((t.settleLine (secKey asid r.block)).slice
      ((t.settleLine (secKey asid r.block)).homeAt (secKey asid r.block))).freeEntry = none) :
    t.subscribeIn r asid = (t.settleLine (secKey asid r.block)).refuse r 1 := by
  simp only [State.subscribeIn, h, hfull]

theorem State.subscribeIn_free {asid a n : Nat} (h : t.keyPlace (secKey asid r.block) = some (.vault a))
    (hfree : ((t.settleLine (secKey asid r.block)).slice
      ((t.settleLine (secKey asid r.block)).homeAt (secKey asid r.block))).freeEntry = some n) :
    t.subscribeIn r asid = (t.settleLine (secKey asid r.block)).install r asid n := by
  simp only [State.subscribeIn, h, hfree]

theorem State.subscribe_here (h : r.dev = t.dev) : t.subscribe r = t.subscribeIn r r.asid := if_pos h

theorem State.subscribe_untagged (h : r.dev ≠ t.dev) (htag : t.ctxOfTag r.dctag = none) : t.subscribe r = t.refuse r 3 := by
  rw [State.subscribe, if_neg h, htag]
  rfl

theorem State.subscribe_refused {c : Nat} {k : XKind} (h : r.dev ≠ t.dev) (htag : t.ctxOfTag r.dctag = some c)
    (hlook : t.lookupAbroad r.dctag r.block needNone = .error k) : t.subscribe r = t.refuseAbroad r.dev r.dctag r.block k := by
  rw [State.subscribe, if_neg h, htag, hlook]
  rfl

theorem State.subscribe_abroad {c : Nat} {y : Xl} (h : r.dev ≠ t.dev) (htag : t.ctxOfTag r.dctag = some c)
    (hlook : t.lookupAbroad r.dctag r.block needNone = .ok y) : t.subscribe r = t.subscribeIn { r with block := y.va } y.asid := by
  rw [State.subscribe, if_neg h, htag, hlook]
  rfl

/-- What the home makes of another device's request: its page must be mapped, and one that devices share. -/
theorem State.lookupAbroad_fault {tag va c : Nat} {need : Need} {k : XKind} (htag : t.ctxOfTag tag = some c)
    (hpage : t.translate (t.context c).asid.toNat va need = .error k) : t.lookupAbroad tag va need = .error k := by
  simp only [State.lookupAbroad, htag, hpage]

theorem State.lookupAbroad_ok {tag va c : Nat} {need : Need} {y : Xl} (htag : t.ctxOfTag tag = some c)
    (hpage : t.translate (t.context c).asid.toNat va need = .ok y) :
    t.lookupAbroad tag va need = if y.leaf.xdev then .ok y else .error .permission := by
  simp only [State.lookupAbroad, htag, hpage]

end Request

/-! ### SUBSCRIBE_ANSWER -/

section Answer
variable {s : State} {rest : List Msg}

theorem exec_subscribeAnswer_sub {src uid sd pos : Nat} {w : Word} (hnet : s.net = .subAns src uid sd w pos :: rest) :
    let t : State := { s with net := rest }
    let heard := fun u : State => (u.answered (Msg.ofPosition uid pos)).answerScalar uid sd w
    exec (.subscribeAnswer 0) s = .next (if w.getLsbD 31 then ((heard t).mapBound uid pos fun _ => none).donePos uid pos
      else (((heard (t.disown uid pos w)).boundOf uid pos).foldl State.settleAbroad (heard (t.disown uid pos w))).mapBound uid pos
        fun b => some { b with handle := some w }) := by
  intro t heard
  change execSubscribeAnswer 0 s = _
  simp only [execSubscribeAnswer]
  rw [State.takeMsg_first hnet rfl]
  dsimp only
  cases w.getLsbD 31 <;> rfl

theorem exec_subscribeAnswer_unsub {uid team seg pos : Nat} {w : Word} (hnet : s.net = .unsubAns uid team seg w pos :: rest) :
    let t : State := { s with net := rest }
    exec (.subscribeAnswer 0) s = .next (if t.pushComes w then s
      else ((t.answered (Msg.ofPosition uid pos)).unbindHandle team seg w).donePos uid pos) := by
  intro t
  change execSubscribeAnswer 0 s = _
  simp only [execSubscribeAnswer]
  rw [State.takeMsg_first hnet rfl]

theorem exec_subscribeAnswer_query {src uid sd : Nat} {w : Word} (hnet : s.net = .queryAns src uid sd w :: rest) :
    exec (.subscribeAnswer 0) s
      = .next ((({ s with net := rest } : State).answered (Msg.askedBy uid sd)).answerScalar uid sd w) := by
  change execSubscribeAnswer 0 s = _
  simp only [execSubscribeAnswer]
  rw [State.takeMsg_first hnet rfl]

/-- A push comes when one of the handle's subscription is on its way. -/
theorem State.pushComes_iff (t : State) (w : Word) : t.pushComes w = true
    ↔ ∃ d h idx a b c e f gen, Msg.push d h idx a b c e f gen ∈ t.net ∧ handleOf d h idx gen = w := by
  unfold State.pushComes
  rw [List.any_eq_true]
  constructor
  · rintro ⟨m, hm, hw⟩
    cases m
    case push d h idx a b c e f gen => exact ⟨d, h, idx, a, b, c, e, f, gen, hm, eq_of_beq hw⟩
    all_goals cases hw
  · rintro ⟨d, h, idx, a, b, c, e, f, gen, hm, rfl⟩
    exact ⟨_, hm, beq_self_eq_true _⟩

/-- A request that a home on another device has answered for a team that is over, and the device it went to (12 Table 12-5). -/
def State.orphaned (t : State) (uid pos : Nat) (x : Nat × Parcel) : Option (Nat × SubReq) :=
  match x.2.msg with
  | .subReq r => if r.uid = uid ∧ r.pos = pos ∧ (t.team r.team).isNone then some (x.1, r) else none
  | _ => none

theorem State.disown_eq (t : State) (uid pos : Nat) (w : Word) : t.disown uid pos w = match t.outbox.findSome? (t.orphaned uid pos) with
    | some (d, r) => t.sendTo 0 d r.dctag (.unsub t.dev r.dctag uid r.team r.seg w pos)
    | none => t := rfl

theorem State.orphaned_of {t : State} {uid pos : Nat} {x : Nat × Parcel} {r : SubReq}
    (h : x.2.msg = .subReq r ∧ r.uid = uid ∧ r.pos = pos ∧ t.team r.team = none) : t.orphaned uid pos x = some (x.1, r) := by
  obtain ⟨hmsg, huid, hpos, hteam⟩ := h
  simp [State.orphaned, hmsg, huid, hpos, hteam]

theorem State.orphaned_of_none {t : State} {uid pos : Nat} {x : Nat × Parcel}
    (h : ∀ r, ¬ (x.2.msg = .subReq r ∧ r.uid = uid ∧ r.pos = pos ∧ t.team r.team = none)) : t.orphaned uid pos x = none := by
  unfold State.orphaned
  split
  case h_1 r hr =>
    refine if_neg fun hc => h r ⟨hr, hc.1, hc.2.1, ?_⟩
    simpa using hc.2.2
  case h_2 => rfl

end Answer

/-! ### Pushes, notices, UNSUB and SUBST -/

section Others
variable {s : State} {rest : List Msg}

theorem exec_pushArrival {d h idx team seg line : Nat} {strict : Bool} {p : Push} {gen : BitVec 6}
    (hnet : s.net = .push d h idx team seg line strict p gen :: rest) :
    exec (.pushArrival 0) s = .next (if s.away team then s
      else (({ s with net := rest } : State).deliverPush team seg line strict p (handleOf d h idx gen)).reportWritten d team
        (handleOf d h idx gen)) := by
  change execPushArrival 0 s = _
  simp only [execPushArrival]
  rw [State.takeOrdered_first hnet rfl]

theorem exec_emptyNoticeArrival {src h idx : Nat} {gen : BitVec 6} (hnet : s.net = .notice src h idx gen :: rest) :
    exec (.emptyNoticeArrival 0) s = .next (({ s with net := rest } : State).takeNotice h idx gen) := by
  change execEmptyNoticeArrival 0 s = _
  simp only [execEmptyNoticeArrival]
  rw [State.takeOrdered_first hnet rfl]

theorem exec_unsubscribeRequest {dev tag uid team seg pos : Nat} {w : Word} (hnet : s.net = .unsub dev tag uid team seg w pos :: rest) :
    exec (.unsubscribeRequest 0) s = .next (if dev = s.dev ∧ s.away team then s
      else if dev ≠ s.dev ∧ s.pushFlies w then s.unsubscribe dev team seg w
      else (({ s with net := rest } : State).unsubscribe dev team seg w).sendTo 0 dev tag (.unsubAns uid team seg w pos)) := by
  change execUnsubscribeRequest 0 s = _
  simp only [execUnsubscribeRequest]
  rw [State.takeMsg_first hnet rfl]

theorem State.pushFlies_iff (s : State) (w : Word) : s.pushFlies w = true ↔ ∃ e ∈ s.flying, e.1 = w := by
  simp [State.pushFlies]

/-- The status that the home answers a SUBST with: 0 where the handle names no entry of the subscriber. -/
def State.statusOf (s : State) (dev team seg : Nat) (w : Word) : Word :=
  match s.ownEntry dev team seg w with
  | some (_, _, e) => e.status
  | none => 0

theorem State.statusOf_eq {s : State} {dev team seg : Nat} {w v : Word} (hsome : ∀ h n e, s.ownEntry dev team seg w = some (h, n, e) → v = e.status)
    (hnone : s.ownEntry dev team seg w = none → v = 0) : s.statusOf dev team seg w = v := by
  unfold State.statusOf
  split
  case h_1 h n e he => exact (hsome h n e he).symm
  case h_2 he => exact (hnone he).symm

theorem exec_statusQuery {dev tag uid sd team seg : Nat} {w : Word} (hnet : s.net = .query dev tag uid sd team seg w :: rest) :
    exec (.statusQuery 0) s = .next (if dev = s.dev then ({ s with net := rest } : State).answerScalar uid sd (s.statusOf dev team seg w)
      else ({ s with net := rest } : State).sendTo 0 dev tag (.queryAns s.dev uid sd (s.statusOf dev team seg w))) := by
  change execStatusQuery 0 s = _
  simp only [execStatusQuery]
  rw [State.takeMsg_first hnet rfl]
  rfl

end Others

open Sys2Proof.Claims in
theorem subscriptionMessages : SubscriptionMessages := by
  refine ⟨?request, ?answer, ?disown, ?settle, ?unsubAnswer, ?queryAnswer, ?push, ?notice, ?unsub, ?query⟩
  case request =>
    intro s r rest hnet t fails faults inSpace
    have hexec : exec (.subscribeRequest 0) s = .next (t.subscribe r) := exec_subscribeRequest hnet
    have hspace : ∀ (q : SubReq) asid, q.dev = r.dev → q.dctag = r.dctag → q.uid = r.uid → q.sd = r.sd → q.pos = r.pos →
        t.subscribe r = t.subscribeIn q asid → inSpace q asid := by
      intro q asid hdev htag huid hsd hpos hin
      unfold inSpace
      intro key u subs
      have hrefuse : ∀ v : State, v.dev = s.dev → ∀ code, v.refuse q code = fails v code := by
        intro v hv code
        simp only [State.refuse, fails, hdev, htag, huid, hsd, hpos, hv]
        rfl
      rw [hin] at hexec
      refine ⟨fun p a hp => ?_, fun d a hp hreach => ?_, fun d a hp hreach => ?_, fun a hp => ⟨fun hfull => ?_, fun n hn hfree hlow => ?_⟩⟩
      · rw [hexec, State.subscribeIn_host hp]
        exact congrArg _ (hrefuse t rfl 4)
      · rw [hexec, State.subscribeIn_remote hp, if_neg (ne_true_of_eq_false hreach)]
        exact congrArg _ (hrefuse t rfl 3)
      · rw [hexec, State.subscribeIn_remote hp, if_pos hreach]
      · rw [hexec, State.subscribeIn_full hp (Slice.freeEntry_of_full hfull)]
        exact congrArg _ (hrefuse u (State.dev_settleLine ..) 1)
      · rw [hexec, State.subscribeIn_free hp (Slice.freeEntry_of_lowest hn hfree hlow)]
    refine ⟨fun hdev => ?_, fun hdev htag => ?_, fun c hdev htag => ⟨fun k hpage => ?_, fun y hpage => ⟨fun hx => ?_, fun hx => ?_⟩⟩⟩
    · exact hspace r r.asid rfl rfl rfl rfl rfl (State.subscribe_here (t := t) hdev)
    · rw [hexec, State.subscribe_untagged (t := t) hdev htag]
      rfl
    · rw [hexec, State.subscribe_refused (t := t) hdev htag (State.lookupAbroad_fault htag hpage)]
      rfl
    · rw [hexec, State.subscribe_refused (t := t) hdev htag ((State.lookupAbroad_ok htag hpage).trans (if_neg (ne_true_of_eq_false hx)))]
      rfl
    · exact hspace _ _ rfl rfl rfl rfl rfl
        (State.subscribe_abroad (t := t) hdev htag ((State.lookupAbroad_ok htag hpage).trans (if_pos hx)))
  case answer =>
    intro s src uid sd w pos rest hnet heard
    exact ⟨fun hw => (exec_subscribeAnswer_sub hnet).trans (congrArg _ (if_pos hw)),
      fun hw => (exec_subscribeAnswer_sub hnet).trans (congrArg _ (if_neg (ne_true_of_eq_false hw)))⟩
  case disown =>
    intro t uid pos w orphan
    refine ⟨fun hnone => ?_, fun before x after r houtbox hbefore hx => ?_⟩
    · rw [State.disown_eq, List.findSome?_eq_none_iff.mpr fun x hx => State.orphaned_of_none (hnone x hx)]
    · rw [State.disown_eq, houtbox, List.findSome?_append,
        List.findSome?_eq_none_iff.mpr fun y hy => State.orphaned_of_none (hbefore y hy), Option.none_or, List.findSome?_cons,
        State.orphaned_of hx]
  case settle =>
    intro t b
    rw [State.settleAbroad]
    exact if_congr (by simp) rfl rfl
  case unsubAnswer =>
    intro s uid team seg w pos rest hnet t comes
    have hcomes : State.pushComes { s with net := rest } w = true ↔ comes := State.pushComes_iff ..
    exact ⟨fun h => (exec_subscribeAnswer_unsub hnet).trans (congrArg _ (if_pos (hcomes.mpr h))),
      fun h => (exec_subscribeAnswer_unsub hnet).trans (congrArg _ (if_neg fun hc => h (hcomes.mp hc)))⟩
  case queryAnswer => exact fun s src uid sd w rest hnet => exec_subscribeAnswer_query hnet
  case push =>
    intro s d h idx team seg line strict p gen rest hnet t
    have hexec := exec_pushArrival hnet
    refine ⟨fun haway hdev => ?_, fun haway _ => ?_, fun haway => ?_⟩
    · rw [hexec, if_neg (ne_true_of_eq_false haway)]
      refine congrArg _ (if_pos ?_)
      rw [State.dev_deliverPush]
      exact hdev
    · rw [hexec, if_neg (ne_true_of_eq_false haway)]
    · rw [hexec, if_pos haway]
  case notice => exact fun s src h idx gen rest hnet => exec_emptyNoticeArrival hnet
  case unsub =>
    intro s dev tag uid team seg w pos rest hnet flies
    have hexec := exec_unsubscribeRequest hnet
    have hflies : s.pushFlies w = true ↔ flies := s.pushFlies_iff w
    refine ⟨fun hdev haway => ?_, fun hdev hf => ?_, fun hdev haway => ?_, fun hdev hf => ?_⟩
    · rw [hexec, if_pos ⟨hdev, haway⟩]
    · rw [hexec, if_neg fun hc => hdev hc.1, if_pos ⟨hdev, hflies.mpr hf⟩]
    · have hpresent : ¬ (dev = s.dev ∧ s.away team = true) := fun hc => ne_true_of_eq_false haway hc.2
      rw [hexec, if_neg hpresent, if_neg fun hc => hc.1 hdev]
    · rw [hexec, if_neg fun hc => hdev hc.1, if_neg fun hc => hf (hflies.mp hc.2)]
  case query =>
    intro s dev tag uid sd team seg w rest hnet t v hsome hnone
    have hstatus : s.statusOf dev team seg w = v := State.statusOf_eq hsome hnone
    have hexec := exec_statusQuery hnet
    rw [hstatus] at hexec
    exact ⟨fun hdev => hexec.trans (congrArg _ (if_pos hdev)), fun hdev => hexec.trans (congrArg _ (if_neg hdev))⟩

end Sys2Proof.Machine

open Sys2Proof Sys2Proof.Machine in
/-- Settles O47: the subscription messages, the bytes of a slot line, and the rule of the empty notices. -/
theorem subscriptionRules : Obligations.SubscriptionRules := ⟨subscriptionMessages, pushWritesSlotLine, emptyNoticeRule⟩

/-! ## Statistics instructions (06 R213, R214, Table 6-8) -/

namespace Sys2Proof.Machine

/-- An instruction that writes a triple to a view in each active lane, with the flags of every lane. -/
theorem regOp_views {i : Instr} {d : Nat} {f : State → Group → Path → Nat → Triple × Word} (F : Ctx → Nat → Triple × Word)
    (he : ∀ s, exec i s = issue i s fun c => c.views d (F c))
    (hF : ∀ s g p latch chain, F (Issuing i s g p latch chain) = f s g p := by intros; rfl) :
    RegOp i fun s g p =>
      (g.regs.span p.act d fun l => tripleWords (f s g p l).1).flag (laneFlags p.act fun l => (f s g p l).2) := by
  intro s g p latch chain h
  refine completes_writeMany h ?_
  rw [exec_of_goes h (he s), hF, laneFlags, ← List.foldl_eq_foldr]
  simp only [Ctx.views, List.map_map]
  rfl

/-- An instruction that drains a view into one register of each active lane. -/
theorem regOp_drain {i : Instr} {o : Drain} {src d : Nat} {eps : State → Group → Nat} (E : Ctx → Nat)
    (he : ∀ s, exec i s = issue i s fun c => c.drain o (E c) src d)
    (hE : ∀ s g p latch chain, E (Issuing i s g p latch chain) = eps s g := by intros; rfl) :
    RegOp i fun s g p =>
      (g.regs.lanes p.act d fun l => BitVec.ofNat 32 ((g.view src l).drain o (eps s g) (g.src d l).toNat).1).flag
        (laneFlags p.act fun l => ((g.view src l).drain o (eps s g) (g.src d l).toNat).2) := by
  intro s g p latch chain h
  refine completes_write h ?_
  rw [exec_of_goes h (he s), Ctx.drain, hE, allFlags_map, wordsOf, List.map_map]
  rfl

end Sys2Proof.Machine

open Sys2Proof.Machine in
/-- Settles O12: each instruction writes a view, or drains one, with the function stated. -/
theorem statisticsResults : Obligations.StatisticsResults := fun a b d e _ =>
  ⟨regOp_views (fun c l => Triple.empty.acc (c.num a.toNat l) 0x3F800000) fun _ => rfl,
    regOp_views (fun c l => (c.g.view d.toNat l).acc (c.num a.toNat l) 0x3F800000) fun _ => rfl,
    regOp_views (fun c l => (c.g.view d.toNat l).acc (c.num a.toNat l) (c.num b.toNat l)) fun _ => rfl,
    regOp_views (fun c l => (c.g.view a.toNat l).merge (c.g.view b.toNat l)) fun _ => rfl,
    regOp_views (fun c _ => Triple.fold (c.lanes.map fun l => c.g.view a.toNat l)) fun _ => rfl,
    regOp_drain (fun _ => 0) fun _ => rfl, regOp_drain (fun _ => 0) fun _ => rfl, regOp_drain (fun _ => 0) fun _ => rfl,
    regOp_drain (fun c => (c.sv e.toNat).toNat) fun _ => rfl, regOp_drain (fun c => (c.sv e.toNat).toNat) fun _ => rfl⟩

/-! ## Matrix instructions as a group issues them (06 R190, R195 to R203, R207 to R211, Table 6-3) -/

namespace Sys2Proof.Machine

/-- The machine with an operation of a group in the matrix queue of a core, under the next batch position (06 R190, R197). -/
def State.enqueueMat (s : State) (core : Nat) (g : Group) (tile : Nat) (op : MatOp) : State :=
  ({ s with nextPos := s.nextPos + 1 } : State).setCore core
    { s.core core with matq := (s.core core).matq ++ [⟨s.nextPos, g.uid, g.team, g.seg, tile, op, []⟩] }

/-- The group with one more batch position of class 0 (06 R190). -/
def Group.holdPosition (g : Group) (pos : Nat) : Group := { g with positions := g.positions ++ [⟨pos, 0, none⟩] }

theorem SameGroup.holdPosition {g h : Group} (e : SameGroup g h) (pos : Nat) : SameGroup (g.holdPosition pos) (h.holdPosition pos) := by
  unfold SameGroup at *
  rw [← e]
  rfl

theorem Group.path_holdPosition (g : Group) (pos : Nat) (ps : PSlot) : (g.holdPosition pos).path ps = g.path ps := by
  cases ps <;> rfl

theorem Ctx.queueMat_of_room {c : Ctx} (hroom : (c.s.core c.core).matq.length < 8) (tile : Nat) (g : Group) (op : MatOp)
    (k : Ctx → Group → Out) :
    c.queueMat tile g op k = k (c.inState (c.s.enqueueMat c.core g tile op)) (g.holdPosition c.s.nextPos) :=
  if_neg (Nat.not_le.mpr hroom)

/-- Clearing the restartable flag and queuing an operation touch different parts of the machine. -/
theorem State.clearRestart_enqueueMat (s : State) (core : Nat) (g : Group) (tile : Nat) (op : MatOp) (team : Nat) :
    (s.enqueueMat core g tile op).clearRestart team = (s.clearRestart team).enqueueMat core g tile op := by
  have hteam : (s.enqueueMat core g tile op).team team = s.team team := rfl
  unfold State.clearRestart
  rw [hteam]
  split
  · split <;> rfl
  · rfl

section Queued
variable {i : Instr} {s : State} {g : Group} {p : Path} {latch : Option Nat} {chain : Option Chain} (h : Goes i s g p latch chain)
  (hsize : i.size = 4) (hi : fusePart i = none)
include h hsize hi

/-- An instruction that changes the machine and takes a batch position completes. -/
theorem completesAt_of_position {t : State}
    (he : exec i s = ((Issuing i s g p latch chain).inState t).done ((Started i s g p chain).holdPosition s.nextPos)) :
    CompletesAt i s t (g.holdPosition s.nextPos) p chain g.regs (p.pc + 4) :=
  completesAt_of_change (k := (Started i s g p chain).holdPosition s.nextPos) h hsize hi he ((Started.same ..).holdPosition _)
    (fun _ => (Group.path_holdPosition ..).trans (Started.path ..)) (fun _ => Group.path_holdPosition ..) rfl ⟨rfl, rfl, rfl, rfl⟩

/-- An instruction that is done once its operation is queued completes where the queue has room. -/
theorem completesAt_of_queueMat (hroom : (s.core (s.cur.key / 128)).matq.length < 8) {tile : Nat} {op : MatOp}
    (he : exec i s = (Issuing i s g p latch chain).queueMat tile (Started i s g p chain) op fun c g => c.done g) :
    CompletesAt i s (s.enqueueMat (s.cur.key / 128) g tile op) (g.holdPosition s.nextPos) p chain g.regs (p.pc + 4) :=
  completesAt_of_position h hsize hi (he.trans (Ctx.queueMat_of_room hroom ..))

end Queued

/-! ### MXRD -/

/-- The registers an MXRD leaves undefined: free values by register and lane (06 Table 6-3; log 7). -/
theorem Group.regs_undefWrites (g : Group) (free vd cnt : Nat) (act : Word) :
    (g.setMany (undefWrites free vd cnt (lanesOf act))).regs
      = g.regs.span act vd fun l => (run 0 cnt).map fun k => Config.freeWord (free + 32 * k + l) := by
  have hval : ∀ e ∈ undefWrites free vd cnt (lanesOf act),
      e.1.2 < 32 ∧ e.2 = Config.freeWord (free + 32 * (e.1.1 - vd) + e.1.2) := by
    intro e he
    simp only [undefWrites, List.mem_flatten, List.mem_map] at he
    obtain ⟨_, ⟨k, -, rfl⟩, hx⟩ := he
    obtain ⟨l, hl, rfl⟩ := List.mem_map.mp hx
    exact ⟨lane_lt ((mem_lanesOf act l).mp hl), by rw [Nat.add_sub_cancel_left]⟩
  have hmem : ∀ r l, (r, l) ∈ (undefWrites free vd cnt (lanesOf act)).map Prod.fst ↔ lane act l = true ∧ vd ≤ r ∧ r - vd < cnt := by
    intro r l
    simp only [undefWrites, List.map_flatten, List.map_map, List.mem_flatten, List.mem_map, Function.comp, mem_run]
    constructor
    · rintro ⟨_, ⟨k, hk, rfl⟩, hx⟩
      obtain ⟨x, hact, he⟩ := List.mem_map.mp hx
      simp only [Function.comp, Prod.mk.injEq] at he
      obtain ⟨rfl, rfl⟩ := he
      exact ⟨(mem_lanesOf act x).mp hact, by omega⟩
    · rintro ⟨hl, hr⟩
      exact ⟨_, ⟨r - vd, by omega, rfl⟩, List.mem_map.mpr ⟨l, (mem_lanesOf act l).mpr hl, by simp; omega⟩⟩
  have hget : ∀ r l, r - vd < cnt →
      ((run 0 cnt).map fun k => Config.freeWord (free + 32 * k + l)).getD (r - vd) 0 = Config.freeWord (free + 32 * (r - vd) + l) :=
    fun r l hr => by simp [run_eq_range', hr]
  have hlen : (run 0 cnt).length = cnt := by simp [run_eq_range']
  simp only [Group.regs, Regs.span, Regs.mk.injEq, List.length_map, hlen]
  refine ⟨funext fun r => funext fun l => ?_, rfl, rfl, rfl, rfl⟩
  by_cases hl : l < 32
  · rw [if_pos hl, if_pos hl, Group.vr_setMany g (fun r l => Config.freeWord (free + 32 * (r - vd) + l)) _ hval r l hl]
    by_cases hin : lane act l = true ∧ vd ≤ r ∧ r - vd < cnt
    · rw [if_pos ((hmem r l).mpr hin), if_pos hin, hget r l hin.2.2]
    · rw [if_neg (mt (hmem r l).mp hin), if_neg hin]
  · rw [if_neg hl, if_neg hl, if_neg fun hin => hl (lane_lt hin.1)]

/-- The group that takes a position and finds registers written, its outstanding reads changed. -/
def Group.holdRead (g : Group) (pos : Nat) (xs : List ((Nat × Nat) × Word)) (reads : List MatRead) : Group :=
  { (g.holdPosition pos).setMany xs with mxrd := reads }

theorem SameGroup.holdRead {g h : Group} (e : SameGroup g h) (pos : Nat) (xs : List ((Nat × Nat) × Word)) (reads : List MatRead) :
    SameGroup (g.holdPosition pos) (h.holdRead pos xs reads) := by
  unfold SameGroup at *
  rw [← e]
  rfl

theorem Group.path_holdRead (g : Group) (pos : Nat) (xs : List ((Nat × Nat) × Word)) (reads : List MatRead) (ps : PSlot) :
    (g.holdRead pos xs reads).path ps = g.path ps := by
  cases ps <;> rfl

theorem bits_toNat_eq_extractLsb' (x : Word) (lo n : Nat) : bits x.toNat lo n = (x.extractLsb' lo n).toNat := by
  rw [bits, BitVec.extractLsb'_toNat, Nat.shiftRight_eq_div_pow]

/-! ### The instructions -/

section Instructions
variable {f : BitVec 7} {a : BitVec 8} {t : BitVec 2} {s : State} {g : Group} {p : Path} {latch : Option Nat} {chain : Option Chain}

theorem exec_mxcfg (h : Goes (.mxcfg a t) s g p latch chain) :
    exec (.mxcfg a t) s = if !goodUnfold (g.block a.toNat 5) then (Issuing (.mxcfg a t) s g p latch chain).trap (Trap.of cMatrix)
      else (Issuing (.mxcfg a t) s g p latch chain).queueMat t.toNat (Started (.mxcfg a t) s g p chain) (.config (g.block a.toNat 5))
        fun c g => c.done g := by
  change execMxcfg a t s = _
  exact issue_go h _

theorem exec_mxrd (h : Goes (.mxrd f a t) s g p latch chain) :
    let c := Issuing (.mxrd f a t) s g p latch chain
    let x := s.sv s.cur.key g a.toNat
    let cnt := readCount x
    exec (.mxrd f a t) s = if g.vregs < f.toNat + cnt then c.trap (Trap.of cResource)
      else if 127 < bits x.toNat 0 7 + cnt - 1 ∨ 2 ^ 11 ≤ x.toNat then c.trap (Trap.of cMatrix)
      else if c.vectorsBusy (run f.toNat cnt) then c.stall .operand
      else c.queueMat t.toNat (Started (.mxrd f a t) s g p chain)
        (.read f.toNat (bits x.toNat 0 7) (bits x.toNat 7 2) cnt p.act) fun c' k =>
          (c'.inState { c'.s with free := c'.s.free + 128 }).done
            { k.setMany (undefWrites c'.s.free f.toNat cnt (lanesOf p.act)) with
              mxrd := addRead k.mxrd ⟨s.nextPos, none, f.toNat, cnt, p.act, none, []⟩ } := by
  intro c x cnt
  change execMxrd f a t s = _
  exact issue_go h _

theorem Issuing.vectorsBusy_iff (i : Instr) (vs : List Nat) :
    (Issuing i s g p latch chain).vectorsBusy vs = true ↔ ∃ e ∈ s.busyRegs g, e.1 ∈ vs ∧ lane p.act e.2 = true := by
  have hbusy : (Issuing i s g p latch chain).vectorsBusy vs = (s.busyRegs g).any fun e => vs.contains e.1 && lane p.act e.2 := rfl
  simp [hbusy]

theorem mxrd_completes (h : Goes (.mxrd f a t) s g p latch chain) (hroom : (s.core (s.cur.key / 128)).matq.length < 8) {y : Word}
    {cnt : Nat} (hy : s.sv s.cur.key g a.toNat = y) (hcnt : readCount y = cnt) (hregs : f.toNat + cnt ≤ g.vregs)
    (hrows : (y.extractLsb' 0 7).toNat + cnt ≤ 128) (hword : y.toNat < 2 ^ 11)
    (hfree : ∀ e ∈ s.busyRegs g, ¬ (f.toNat ≤ e.1 ∧ e.1 < f.toNat + cnt ∧ lane p.act e.2 = true)) :
    CompletesAt (.mxrd f a t) s
      { s.enqueueMat (s.cur.key / 128) g t.toNat (.read f.toNat (y.extractLsb' 0 7).toNat (y.extractLsb' 7 2).toNat cnt p.act) with
        free := s.free + 128 } (g.holdPosition s.nextPos) p chain
      (g.regs.span p.act f.toNat fun l => (run 0 cnt).map fun k => Config.freeWord (s.free + 32 * k + l)) (p.pc + 4) := by
  have hbusy : ¬ (Issuing (.mxrd f a t) s g p latch chain).vectorsBusy (run f.toNat cnt) = true := fun hb => by
    obtain ⟨e, he, hrun, hlane⟩ := (Issuing.vectorsBusy_iff ..).mp hb
    obtain ⟨hlow, hhigh⟩ := (mem_run ..).mp hrun
    exact hfree e he ⟨hlow, hhigh, hlane⟩
  have he := exec_mxrd h
  simp only [hy, hcnt, bits_toNat_eq_extractLsb'] at he
  rw [if_neg (by omega), if_neg (by omega), if_neg hbusy, Ctx.queueMat_of_room hroom] at he
  have hc := completesAt_of_change (k := (Started (.mxrd f a t) s g p chain).holdRead s.nextPos
      (undefWrites s.free f.toNat cnt (lanesOf p.act)) _) h (Instr.size_mxrd ..) rfl he ((Started.same ..).holdRead ..)
    (fun _ => (Group.path_holdRead ..).trans (Started.path ..)) (fun _ => Group.path_holdPosition ..) rfl ⟨rfl, rfl, rfl, rfl⟩
  have hR := Group.regs_undefWrites ((Started (.mxrd f a t) s g p chain).holdPosition s.nextPos) s.free f.toNat cnt p.act
  rw [show ((Started (.mxrd f a t) s g p chain).holdPosition s.nextPos).regs = g.regs from rfl] at hR
  rw [← hR]
  exact hc

end Instructions

theorem matrixQueueResults : Claims.MatrixQueueResults := by
  intro f a t s g p latch chain hroom x queued g' y cnt
  refine ⟨fun h => ?mxzero, fun h hgood => ?mxcfg, fun h hregs hrows hword hfree =>
    mxrd_completes h hroom rfl rfl hregs hrows hword hfree⟩
  case mxzero =>
    refine completesAt_of_queueMat h (Instr.size_mxzero ..) rfl hroom (op := .zero) ?_
    change execMxzero t s = _
    exact issue_go h _
  case mxcfg =>
    exact completesAt_of_queueMat h (Instr.size_mxcfg ..) rfl hroom ((exec_mxcfg h).trans (if_neg (by simp [hgood])))

/-! ### MXLOOP and MXEPI -/

theorem formatRegs_mxloop (g : Group) (f : BitVec 7) (a : BitVec 8) (t : BitVec 2) :
    formatRegs g (.mxloop f a t) = if loopMode g a.toNat == 0 then [f.toNat, f.toNat + 1] else [] :=
  if_congr beq_iff_eq.symm rfl rfl

theorem formatRegs_mxepi (g : Group) (f : BitVec 7) (a : BitVec 8) (t : BitVec 2) :
    formatRegs g (.mxepi f a t) = if epiType g a.toNat == 3 then [f.toNat] else [] :=
  if_congr beq_iff_eq.symm rfl rfl

theorem any_outside_eq_false {size : Nat} {xs : List (Int × Nat)} (h : ∀ y ∈ xs, 0 ≤ y.1 ∧ y.1 + (y.2 : Int) ≤ (size : Int)) :
    xs.any (outside size) = false :=
  List.any_eq_false.mpr fun y hy => by
    obtain ⟨h0, h1⟩ := h y hy
    simp only [outside, Bool.or_eq_true, decide_eq_true_eq]
    omega

/-- How an MXEPI that has passed its checks goes on, as its destination says: a trap at an invalid peer, Translation for memory, or
the queue (06 R209 to R211). -/
def Ctx.startEpilogue (c : Ctx) (tile pn : Nat) (peer : BitVec 128) (ep : EpiCtl) : Out :=
  if ep.dest = 2 ∧ !peer.getLsbD 127 then c.trap { Trap.of cPeer with info := BitVec.ofNat 32 pn }
  else if ep.dest = 1 then
    (if matCapacity ≤ (c.s.core c.core).matq.length then c.stall .operand else c.publish.pend [(0, ep.base)] (.mxepi tile ep))
  else c.queueMat tile c.g (.epilogue ep) fun c' g => (if ep.dest = 2 then c'.publish else c').done g

section StartEpilogue
variable {c : Ctx} {tile pn : Nat} {peer : BitVec 128} {ep : EpiCtl}

theorem Ctx.startEpilogue_spad (hdest : ep.dest = 0) :
    c.startEpilogue tile pn peer ep = c.queueMat tile c.g (.epilogue ep) fun c' g => c'.done g := by
  simp [Ctx.startEpilogue, hdest]

variable (hroom : (c.s.core c.core).matq.length < 8)
include hroom

theorem Ctx.startEpilogue_memory (hdest : ep.dest = 1) :
    c.startEpilogue tile pn peer ep = c.publish.pend [(0, ep.base)] (.mxepi tile ep) := by
  simp [Ctx.startEpilogue, hdest, matCapacity, Nat.not_le.mpr hroom]

theorem Ctx.startEpilogue_peer (hdest : ep.dest = 2) (hpeer : peer.getLsbD 127 = true) :
    c.startEpilogue tile pn peer ep
      = (c.inState ((c.s.clearRestart c.g.team).enqueueMat c.core c.g tile (.epilogue ep))).done (c.g.holdPosition c.s.nextPos) := by
  have hqueued : c.startEpilogue tile pn peer ep = c.queueMat tile c.g (.epilogue ep) fun c' g => c'.publish.done g := by
    simp [Ctx.startEpilogue, hdest, hpeer]
  rw [hqueued, Ctx.queueMat_of_room hroom, ← State.clearRestart_enqueueMat]
  rfl

end StartEpilogue

section Blocks
variable {f : BitVec 7} {a : BitVec 8} {t : BitVec 2} {s : State} {g : Group} {p : Path} {latch : Option Nat} {chain : Option Chain}

/-- An MXLOOP that passes its checks queues its loop. -/
theorem exec_mxloop (h : Goes (.mxloop f a t) s g p latch chain) :
    let c := Issuing (.mxloop f a t) s g p latch chain
    let ws := g.block a.toNat 8
    let narrow := loopMode g a.toNat == 0
    let vs := if narrow then [f.toNat, f.toNat + 1] else []
    let lp := loopOf ws (if narrow then c.agreed f.toNat else 0) (if narrow then c.agreed (f.toNat + 1) else 0)
    let cfg := s.latestCfg (s.cur.key / 128) g.team g.seg t.toNat
    let wide := fun (v : Nat) => if narrow then c.widest v else modeBits lp.mode
    (narrow && decide (g.vregs ≤ f.toNat + 1)) = false → c.vectorsBusy vs = false → goodLoop ws = true →
    (lp.spans (wide f.toNat) (wide (f.toNat + 1)) cfg).any (outside (c.spSize g.seg)) = false → c.vote vs = none →
    lp.badPair cfg = false →
    exec (.mxloop f a t) s = c.queueMat t.toNat (Started (.mxloop f a t) s g p chain) (.loop lp) fun c g => c.done g := by
  intro c ws narrow vs lp cfg wide hfits hfree hgood hspans hvote hpair
  have hvs : formatRegs c.g (.mxloop f a t) = vs := formatRegs_mxloop ..
  change execMxloop f a t s = _
  refine (issue_go h _).trans ((if_neg (ne_true_of_eq_false hfits)).trans ?_)
  refine (if_neg (ne_true_of_eq_false (hvs.symm ▸ hfree))).trans ?_
  refine (if_neg (ne_true_of_eq_false ((congrArg (goodLoop ws && ·) hspans).trans (Bool.and_false _)))).trans ?_
  rw [show (Issuing (.mxloop f a t) s g p latch chain).vote (formatRegs c.g (.mxloop f a t)) = none from hvs.symm ▸ hvote]
  exact if_neg (ne_true_of_eq_false (Bool.or_eq_false_iff.mpr ⟨congrArg not hgood, hpair⟩))

/-- An MXEPI that passes its checks starts the epilogue of its control block. -/
theorem exec_mxepi (h : Goes (.mxepi f a t) s g p latch chain) {seg : Segment} (hseg : s.segment g.team g.seg = some seg) :
    let c := Issuing (.mxepi f a t) s g p latch chain
    let ws := g.block a.toNat 8
    let narrow := epiType g a.toNat == 3
    let vs := if narrow then [f.toNat] else []
    let pn := bits (ws.getD 0 (0 : Word)).toNat 4 2
    let peer := SMap.getD seg.peers pn 0
    let ep := epiOf ws peer (if narrow then c.agreed f.toNat else 0)
    let ebits := if narrow then c.widest f.toNat else ep.elemBits
    (narrow && decide (g.vregs ≤ f.toNat)) = false → (narrow && (NFmt.ofWord ep.fmt).blk != 0) = false →
    c.vectorsBusy vs = false → goodEpi ws ebits = true →
    (ep.dest = 0 → ep.dlo + (ep.m - 1) * ep.stride + rowBytes ep.n ebits ≤ c.spSize g.seg) → c.vote vs = none →
    exec (.mxepi f a t) s = c.startEpilogue t.toNat pn peer ep := by
  intro c ws narrow vs pn peer ep ebits hfits hblk hfree hgood hspad hvote
  have hvs : formatRegs c.g (.mxepi f a t) = vs := formatRegs_mxepi ..
  have hinside : (goodEpi ws ebits && ep.dest == 0
      && decide (c.spSize g.seg < ep.dlo + (ep.m - 1) * ep.stride + rowBytes ep.n ebits)) = false := by
    by_cases hd : ep.dest = 0
    · simp [Nat.not_lt.mpr (hspad hd)]
    · simp [hd]
  change execMxepi f a t s = _
  refine (issue_go h _).trans ((if_neg (ne_true_of_eq_false hfits)).trans ?_)
  refine (if_neg (ne_true_of_eq_false (hvs.symm ▸ hfree))).trans ?_
  rw [show (Issuing (.mxepi f a t) s g p latch chain).s.segment c.g.team c.g.seg = some seg from hseg]
  refine (if_neg (ne_true_of_eq_false hinside)).trans ?_
  rw [show (Issuing (.mxepi f a t) s g p latch chain).vote (formatRegs c.g (.mxepi f a t)) = none from hvs.symm ▸ hvote]
  exact if_neg (ne_true_of_eq_false (Bool.or_eq_false_iff.mpr ⟨congrArg not hgood, hblk⟩))

end Blocks

theorem matrixLoopAndEpilogueResults : Claims.MatrixLoopAndEpilogueResults := by
  intro f a t s g p latch chain seg hroom hseg x queued g' ws
  refine ⟨?mxloop, ?mxepi⟩
  case mxloop =>
    intro h c narrow vs lp cfg wide hfits hfree hgood hspans hvote hpair
    have hregs : (narrow && decide (g.vregs ≤ f.toNat + 1)) = false := by
      cases hn : narrow
      · rfl
      · simpa using hfits hn
    exact completesAt_of_queueMat h (Instr.size_mxloop ..) rfl hroom
      (exec_mxloop h hregs hfree hgood (any_outside_eq_false hspans) hvote hpair)
  case mxepi =>
    intro h c narrow vs peer ep ebits hfits hfree hgood hvote
    have hregs : (narrow && decide (g.vregs ≤ f.toNat)) = false := by
      cases hn : narrow
      · rfl
      · simpa using (hfits hn).1
    have hblk : (narrow && (NFmt.ofWord ep.fmt).blk != 0) = false := by
      cases hn : narrow
      · rfl
      · simpa using (hfits hn).2
    have he := fun hspad => exec_mxepi h hseg hregs hblk hfree hgood hspad hvote
    refine ⟨fun hdest hspad => ?spad, fun hdest => ?memory, fun hdest hpeer => ?peer⟩
    case spad =>
      exact completesAt_of_queueMat h (Instr.size_mxepi ..) rfl hroom ((he fun _ => hspad).trans (Ctx.startEpilogue_spad hdest))
    case memory =>
      exact pends_of_publish ((he fun h0 => absurd (hdest.symm.trans h0) (by decide)).trans (Ctx.startEpilogue_memory hroom hdest))
    case peer =>
      have hc := completesAt_of_position h (Instr.size_mxepi ..) rfl
        ((he fun h0 => absurd (hdest.symm.trans h0) (by decide)).trans (Ctx.startEpilogue_peer hroom hdest hpeer))
      have hqueued : queued (s.clearRestart g.team) (.epilogue ep)
          = (s.clearRestart g.team).enqueueMat (s.cur.key / 128) g t.toNat (.epilogue ep) := by
        obtain ⟨teams, hpub⟩ := s.clearRestart_eq g.team
        rw [hpub]
        rfl
      rw [hqueued]
      exact hc

end Sys2Proof.Machine

open Sys2Proof.Machine in
/-- Settles O22: each instruction that passes its checks is one queued operation with one position; an MXRD also leaves its registers
undefined, and an MXEPI goes the way of its destination. -/
theorem matrixInstructionResults : Obligations.MatrixInstructionResults := ⟨matrixQueueResults, matrixLoopAndEpilogueResults⟩

/-! ## Tiles and segments (01 R28; 06 R193, R207) -/

namespace Sys2Proof

theorem SMap.insert_insert {α : Type} (m : SMap α) (j : Nat) (x y : α) :
    SMap.insert (SMap.insert m j x) j y = SMap.insert m j y := by
  induction m with
  | nil => simp [SMap.insert]
  | cons e m ih =>
    obtain ⟨k, v⟩ := e
    by_cases hlt : j < k
    · simp [SMap.insert, hlt]
    · by_cases heq : j = k
      · simp [SMap.insert, heq]
      · simp [SMap.insert, hlt, heq, ih]

/-- A lookup among the entries whose keys satisfy a condition. -/
theorem SMap.find_filter {α : Type} (m : SMap α) (f : Nat → Bool) (j : Nat) :
    SMap.find (m.filter fun e => f e.1) j = if f j then SMap.find m j else none := by
  induction m with
  | nil => simp [SMap.find]
  | cons e m ih =>
    obtain ⟨k, v⟩ := e
    by_cases hj : j = k
    · subst hj
      by_cases hf : f j <;> simp [SMap.find, hf, ih]
    · by_cases hf : f k <;> simp [SMap.find, hf, hj, ih]

namespace Machine

theorem State.setSegment_of_team {s : State} {team : Nat} {w : Team} (hteam : s.team team = some w) (k : Nat) (x : Segment) :
    s.setSegment team k x = s.setTeam team { w with segs := SMap.insert w.segs k x } := by
  simp only [State.setSegment, hteam]

theorem State.team_setTeam (s : State) (team : Nat) (w : Team) : (s.setTeam team w).team team = some w :=
  (SMap.find_insert ..).trans (if_pos rfl)

theorem State.team_of_segment {s : State} {team k : Nat} {g : Segment} (h : s.segment team k = some g) :
    ∃ w, s.team team = some w := by
  unfold State.segment at h
  split at h
  · next w hw => exact ⟨w, hw⟩
  · cases h

theorem State.segment_setSegment {s : State} {team k : Nat} {g : Segment} (h : s.segment team k = some g) (x : Segment) :
    (s.setSegment team k x).segment team k = some x := by
  obtain ⟨w, hw⟩ := State.team_of_segment h
  simp only [State.segment, State.setSegment_of_team hw, State.team_setTeam, SMap.find_insert, if_true]

theorem State.setSegment_setSegment {s : State} {team k : Nat} {g : Segment} (h : s.segment team k = some g) (x y : Segment) :
    (s.setSegment team k x).setSegment team k y = s.setSegment team k y := by
  obtain ⟨w, hw⟩ := State.team_of_segment h
  rw [State.setSegment_of_team hw, State.setSegment_of_team (State.team_setTeam ..), State.setSegment_of_team hw]
  simp only [State.setTeam, SMap.insert_insert]

/-! ### Elements -/

/-- The tile, the row and the column of a key (01 R28). -/
theorem tileKey_fields {tile row col : Nat} (hrow : row < 128) (hcol : col < 128) :
    tileKey tile row col / 16384 = tile ∧ tileKey tile row col / 128 % 128 = row ∧ tileKey tile row col % 128 = col := by
  unfold tileKey
  omega

theorem tileKey_inj {t t' i i' j j' : Nat} (hi : i < 128) (hi' : i' < 128) (hj : j < 128) (hj' : j' < 128)
    (h : tileKey t i j = tileKey t' i' j') : t = t' ∧ i = i' ∧ j = j' := by
  unfold tileKey at h
  omega

theorem Segment.element_clearTile (g : Segment) (tile : Nat) {t i j : Nat} (hi : i < 128) (hj : j < 128) :
    (g.clearTile tile).element t i j = if t = tile then 0 else g.element t i j := by
  obtain ⟨ht, -, -⟩ := tileKey_fields (tile := t) hi hj
  simp only [Segment.element, Segment.clearTile, SMap.getD, SMap.find_filter g.tiles (fun k => k / 16384 != tile), ht]
  by_cases h : t = tile <;> simp [h]

theorem tileAndLoopProgress : Claims.TileAndLoopProgress := by
  intro g c tile t i j hi hj
  exact ⟨g.element_clearTile tile hi hj, rfl, rfl, rfl, fun h => if_pos h, fun h => if_neg (ne_true_of_eq_false h), rfl⟩

/-! ## One K-step (06 R204) -/

/-- The value a K-step gives an element of its tile. -/
def LoopCtl.folded (c : LoopCtl) (g : Segment) (u : Unfold) (tile i j : Nat) : Word :=
  chunkUpdate (g.element tile i j) (c.terms (c.rowA g u i) (c.colB g j) (c.scales g c.aBlk c.ascl i) (c.scales g c.bBlk c.bscl j))

/-- The elements that a K-step writes, by their keys. -/
def LoopCtl.updates (c : LoopCtl) (g : Segment) (u : Unfold) (tile : Nat) : List (Nat × Word) :=
  ((run 0 c.m).map fun i => (run 0 c.n).map fun j => (tileKey tile i j, c.folded g u tile i j)).flatten

theorem LoopCtl.fold_eq (c : LoopCtl) (g : Segment) (u : Unfold) (tile : Nat) :
    c.fold g u tile = { g with tiles := SMap.putAll 0 g.tiles (c.updates g u tile) } := by
  simp only [LoopCtl.fold, LoopCtl.updates, List.map_map]
  rfl

theorem LoopCtl.mem_updates {c : LoopCtl} {g : Segment} {u : Unfold} {tile : Nat} {e : Nat × Word} :
    e ∈ c.updates g u tile ↔ ∃ i j, i < c.m ∧ j < c.n ∧ e = (tileKey tile i j, c.folded g u tile i j) := by
  simp only [LoopCtl.updates, List.mem_flatten, List.mem_map, mem_run]
  constructor
  · rintro ⟨_, ⟨i, hi, rfl⟩, hx⟩
    obtain ⟨j, hj, rfl⟩ := List.mem_map.mp hx
    rw [mem_run] at hj
    exact ⟨i, j, by omega, by omega, rfl⟩
  · rintro ⟨i, j, hi, hj, rfl⟩
    exact ⟨_, ⟨i, by omega, rfl⟩, List.mem_map.mpr ⟨j, (mem_run ..).mpr (by omega), rfl⟩⟩

theorem LoopCtl.element_fold (c : LoopCtl) (g : Segment) (u : Unfold) (tile : Nat) {t i j : Nat} (hm : c.m ≤ 128) (hn : c.n ≤ 128)
    (hi : i < 128) (hj : j < 128) :
    (c.fold g u tile).element t i j = if t = tile ∧ i < c.m ∧ j < c.n then c.folded g u tile i j else g.element t i j := by
  have hval : ∀ e ∈ c.updates g u tile, e.2 = c.folded g u tile (e.1 / 128 % 128) (e.1 % 128) := by
    intro e he
    obtain ⟨i, j, hi, hj, rfl⟩ := LoopCtl.mem_updates.mp he
    obtain ⟨-, hrow, hcol⟩ := tileKey_fields (tile := tile) (show i < 128 by omega) (show j < 128 by omega)
    simp only [hrow, hcol]
  have hmem : tileKey t i j ∈ (c.updates g u tile).map Prod.fst ↔ t = tile ∧ i < c.m ∧ j < c.n := by
    constructor
    · intro hx
      obtain ⟨e, he, hkey⟩ := List.mem_map.mp hx
      obtain ⟨i', j', hi', hj', rfl⟩ := LoopCtl.mem_updates.mp he
      obtain ⟨rfl, rfl, rfl⟩ := tileKey_inj (by omega) hi (by omega) hj hkey
      exact ⟨rfl, hi', hj'⟩
    · rintro ⟨rfl, hi, hj⟩
      exact List.mem_map.mpr ⟨_, LoopCtl.mem_updates.mpr ⟨i, j, hi, hj, rfl⟩, rfl⟩
  obtain ⟨-, hrow, hcol⟩ := tileKey_fields (tile := t) hi hj
  rw [c.fold_eq, Segment.element, SMap.getD_putAll 0 (fun k => c.folded g u tile (k / 128 % 128) (k % 128)) _ hval, hrow, hcol]
  exact if_congr hmem rfl rfl

theorem kStepFoldsTile : Claims.KStepFoldsTile := by
  intro c g u tile t i j hm hn hi hj
  refine ⟨(c.element_fold g u tile hm hn hi hj).trans ?_, rfl⟩
  by_cases h : t = tile ∧ i < c.m ∧ j < c.n
  · rw [if_pos h, if_pos h, h.1]
    rfl
  · rw [if_neg h, if_neg h]

/-! ## The position a core's matrix unit takes a step of (06 R193, R197) -/

/-- The first position of its kind is first on its tile where no earlier one names the tile. -/
theorem firstOnTile_append {f : MatPos → Bool} {e : MatPos} (hf : f e = true) (after : List MatPos) :
    ∀ {earlier before : List MatPos}, (∀ x ∈ earlier, x.sameTile e = false) → (∀ x ∈ before, x.sameTile e = false) →
      (∀ x ∈ before, f x = false) → firstOnTile f earlier (before ++ e :: after) = some e := by
  intro earlier before
  induction before generalizing earlier with
  | nil =>
    intro htile _ _
    have hany : earlier.any (fun b => b.sameTile e) = false := List.any_eq_false.mpr fun x hx => by simp [htile x hx]
    simp [firstOnTile, hf, hany]
  | cons x before ih =>
    intro hearlier htile hfirst
    simp only [List.forall_mem_cons] at htile hfirst
    simp only [List.cons_append, firstOnTile, hfirst.1, Bool.false_and, Bool.false_eq_true, if_false]
    exact ih (List.forall_mem_cons.mpr ⟨htile.1, hearlier⟩) htile.2 hfirst.2

theorem firstOnTile_none {f : MatPos → Bool} {q : List MatPos} (h : ∀ x ∈ q, f x = false) (earlier : List MatPos) :
    firstOnTile f earlier q = none := by
  induction q generalizing earlier with
  | nil => rfl
  | cons x q ih =>
    simp only [List.forall_mem_cons] at h
    simp only [firstOnTile, h.1, Bool.false_and, Bool.false_eq_true, if_false]
    exact ih h.2 _

section Unit
variable {core : Nat} {s : State} {e : MatPos} {before after : List MatPos} {seg : Segment}
  (hq : (s.core core).matq = before ++ e :: after) (hseg : s.segment e.team e.seg = some seg)
  (htile : ∀ x ∈ before, x.sameTile e = false) (hruns : s.engineStopped e.team 1 = false)

section First
include hq htile hruns

theorem State.matNext_first {f : MatPos → Bool} (hf : f e = true) (hfirst : ∀ x ∈ before, f x = false) :
    s.matNext core f = some e := by
  rw [State.matNext, hq]
  refine firstOnTile_append ?_ after (by simp) htile fun x hx => ?_
  · rw [hf, show s.engineStopped e.team clsMatrix = false from hruns]
    rfl
  · rw [hfirst x hx, Bool.false_and]

end First

theorem State.matNext_none {f : MatPos → Bool} (h : ∀ x ∈ (s.core core).matq, f x = false) : s.matNext core f = none :=
  firstOnTile_none (fun x hx => by rw [h x hx, Bool.false_and]) []

include hq hseg htile hruns

theorem exec_tileConfigApply {ws : List Word} (hop : e.op = .config ws) (hfirst : ∀ x ∈ before, ¬ ∃ w, x.op = .config w) :
    exec (.tileConfigApply core) s
      = .next ((s.setSegment e.team e.seg { seg with cfg := SMap.insert seg.cfg e.tile ⟨true, ws⟩ }).completeMat core e) := by
  change execTileConfigApply core s = _
  unfold execTileConfigApply
  dsimp only
  rw [State.matNext_first hq htile hruns (by rw [hop]) fun x hx => ?other]
  case other =>
    cases hx' : x.op with
    | config w => exact absurd ⟨w, hx'⟩ (hfirst x hx)
    | _ => rfl
  simp only [hop, hseg]

theorem exec_tileZeroApply (hop : e.op = .zero) (hfirst : ∀ x ∈ before, ¬ x.op = .zero) :
    exec (.tileZeroApply core) s = .next ((s.setSegment e.team e.seg (seg.clearTile e.tile)).completeMat core e) := by
  change execTileZeroApply core s = _
  unfold execTileZeroApply
  rw [State.matNext_first hq htile hruns (by simp [hop]) fun x hx => by simp [hfirst x hx]]
  simp only [hseg]

theorem exec_tileReadDeliver {vd row q cnt : Nat} {m : Word} (hop : e.op = .read vd row q cnt m)
    (hfirst : ∀ x ∈ before, ¬ ∃ a b c d f, x.op = .read a b c d f) :
    exec (.tileReadDeliver core) s
      = .next ((s.handRead e.uid e.pos (tileReads seg e.tile vd row q cnt m)).completeMat core e) := by
  change execTileReadDeliver core s = _
  unfold execTileReadDeliver
  dsimp only
  rw [State.matNext_first hq htile hruns (by rw [hop]) fun x hx => ?other]
  case other =>
    cases hx' : x.op with
    | read a b c d f => exact absurd ⟨a, b, c, d, f, hx'⟩ (hfirst x hx)
    | _ => rfl
  simp only [hop, hseg]

/-! ### Epilogues (06 R210, R211) -/

theorem exec_epilogueRun {c : EpiCtl} (hop : e.op = .epilogue c) (hfirst : ∀ x ∈ before, ¬ ∃ k, x.op = .epilogue k)
    (hsends : c.dest = 2 → s.engineStopped e.team 3 = false) :
    exec (.epilogueRun core) s = .next (s.runEpilogue core e c seg) := by
  have hf : (!(c.dest == 2 && s.engineStopped e.team clsCollective)) = true := by
    by_cases hd : c.dest = 2
    · simp [hd, clsCollective, hsends hd]
    · simp [hd]
  change execEpilogueRun core s = _
  unfold execEpilogueRun
  dsimp only
  rw [State.matNext_first hq htile hruns (by simp only [hop, hf]) fun x hx => ?other]
  case other =>
    cases hx' : x.op with
    | epilogue k => exact absurd ⟨k, hx'⟩ (hfirst x hx)
    | _ => rfl
  simp only [hop, hseg]

/-! ### K-steps (06 R204) -/

theorem exec_matrixKStep {c : LoopCtl} (hop : e.op = .loop c) (hfirst : ∀ x ∈ before, (s.loopReady x).isSome = false)
    (hfetched : c.fetched seg (seg.unfold e.tile) = true) :
    let t := s.setSegment e.team e.seg (c.fold seg (seg.unfold e.tile) e.tile)
    exec (.matrixKStep core) s = if c.left ≤ 1 then .next ((if e.touched.isEmpty then t else t.spoilTile e).completeMat core e)
      else .next (t.setCore core { t.core core with
        matq := (t.core core).matq.map fun x => if x.pos = e.pos then { e with op := .loop c.advance } else x }) := by
  intro t
  have hready : s.loopReady e = some (c, seg) := by simp only [State.loopReady, hop, hseg, hfetched, if_true]
  change execMatrixKStep core s = _
  unfold execMatrixKStep
  rw [State.matNext_first hq htile hruns (by rw [hready]; rfl) hfirst]
  simp only [hready]
  rfl

end Unit

/-- With no loop in the queue whose operands' lines are full, the event changes nothing (log 86). -/
theorem exec_matrixKStep_none {core : Nat} {s : State} (h : ∀ x ∈ (s.core core).matq, (s.loopReady x).isSome = false) :
    exec (.matrixKStep core) s = .next s := by
  change execMatrixKStep core s = _
  unfold execMatrixKStep
  rw [State.matNext_none h]

theorem State.loopReady_of_not_fetched {s : State} {e : MatPos} {c : LoopCtl} {seg : Segment} (hop : e.op = .loop c)
    (hseg : s.segment e.team e.seg = some seg) (h : c.fetched seg (seg.unfold e.tile) = false) : s.loopReady e = none := by
  simp only [State.loopReady, hop, hseg, h, Bool.false_eq_true, if_false]

/-! ### Where an epilogue writes (06 R210, R211) -/

section Epilogue
variable {core : Nat} {s : State} {e : MatPos} {seg : Segment} {c : EpiCtl}

theorem State.runEpilogue_toSpad (hseg : s.segment e.team e.seg = some seg) (hdest : c.dest = 0) :
    s.runEpilogue core e c seg = (s.setSegment e.team e.seg
      (if c.clear then (c.toSpad seg e.tile).clearTile e.tile else c.toSpad seg e.tile)).completeMat core e := by
  simp only [State.runEpilogue, hdest, State.segment_setSegment hseg]
  cases c.clear
  · rfl
  · simp only [if_true, State.setSegment_setSegment hseg]
    rfl

theorem State.runEpilogue_toPeer (hseg : s.segment e.team e.seg = some seg) (hdest : c.dest = 2) :
    s.runEpilogue core e c seg
      = ((if c.clear then s.setSegment e.team e.seg (seg.clearTile e.tile) else s).unqueueMat core e.pos).sendContribution
          (c.contribution s e (s.teamCtx e.team) seg) := by
  simp only [State.runEpilogue, hdest, hseg, if_true]

theorem State.runEpilogue_toMemory (hdest : c.dest = 1) {k : Segment} :
    let w := c.toMemory s core (s.context (s.teamCtx e.team)).asid.toNat seg e.tile
    w.segment e.team e.seg = some k →
    s.runEpilogue core e c seg
      = (if c.clear then w.setSegment e.team e.seg (k.clearTile e.tile) else w).completeMat core e := by
  intro w hk
  have hwritten : (c.toMemory s core (s.context (s.teamCtx e.team)).asid.toNat seg e.tile).segment e.team e.seg = some k := hk
  simp only [State.runEpilogue, hdest, hwritten]
  rfl

end Epilogue

theorem matrixUnitSteps : Claims.MatrixUnitSteps := by
  intro core s e before after seg hq hseg htile hruns first complete
  refine ⟨fun ws hop hfirst => ?config, fun hop hfirst => ?zero, fun vd row q cnt m hop hfirst => ?read,
    fun c hop hfirst => ?epilogue, fun c hop hfirst hfetched => ?step, fun c hop hlast hfirst hwaits => ?waits⟩
  case config => exact exec_tileConfigApply hq hseg htile hruns hop hfirst
  case zero => exact exec_tileZeroApply hq hseg htile hruns hop hfirst
  case read => exact exec_tileReadDeliver hq hseg htile hruns hop hfirst
  case epilogue =>
    have he := exec_epilogueRun hq hseg htile hruns hop hfirst
    refine ⟨fun hdest => ?_, fun hdest hsends => ?_, ?_⟩
    · exact (he fun h2 => absurd (hdest.symm.trans h2) (by decide)).trans (congrArg _ (State.runEpilogue_toSpad hseg hdest))
    · exact (he fun _ => hsends).trans (congrArg _ (State.runEpilogue_toPeer hseg hdest))
    · intro hdest k w hk
      exact (he fun h2 => absurd (hdest.symm.trans h2) (by decide)).trans (congrArg _ (State.runEpilogue_toMemory hdest hk))
  case step =>
    have he := exec_matrixKStep hq hseg htile hruns hop hfirst hfetched
    simp only [List.isEmpty_iff] at he
    exact ⟨fun hlast => he.trans (if_pos hlast), fun hmore => he.trans (if_neg (Nat.not_le.mpr hmore))⟩
  case waits =>
    refine exec_matrixKStep_none fun x hx => ?_
    rw [hq, hlast, List.mem_append, List.mem_singleton] at hx
    rcases hx with hx | rfl
    · exact hfirst x hx
    · rw [State.loopReady_of_not_fetched hop hseg hwaits]
      rfl

end Machine
end Sys2Proof

open Sys2Proof.Machine in
/-- Settles O39: the position stated is the one the unit finds, so that each event is its definition there; a K-step writes the keys of
its own elements alone. -/
theorem matrixUnitRules : Obligations.MatrixUnitRules := ⟨matrixUnitSteps, kStepFoldsTile, tileAndLoopProgress⟩

/-! ## The copy streamer (06 R216 to R224) -/

namespace Sys2Proof.Machine

/-- The first copy of a core in a direction is the one that takes a step, where its team is not being saved. -/
theorem State.copyNext_first {core : Nat} {s : State} {j : CopyJob} {before after : List CopyJob}
    (hcopies : (s.core core).copies = before ++ j :: after) (hfirst : ∀ x ∈ before, x.out ≠ j.out)
    (hruns : s.engineStopped j.team 2 = false) : s.copyNext core j.out = some j := by
  have hbefore : before.find? (fun x => x.out == j.out && !s.engineStopped x.team clsCopy) = none :=
    List.find?_eq_none.mpr fun x hx => by simp [hfirst x hx]
  have hj : (j.out == j.out && !s.engineStopped j.team clsCopy) = true := by simp [clsCopy, hruns]
  rw [State.copyNext, hcopies, List.find?_append, hbefore, Option.none_or]
  exact List.find?_cons_of_pos hj

theorem exec_copyInLine {core : Nat} {s : State} {j : CopyJob} (hnext : s.copyNext core false = some j) :
    (∀ line rest seg, j.lines = line :: rest →
      let w := (s.copyLine core j line).touch j.team j.seg ((j.starting line).map j.spadBytes).flatten
      w.segment j.team j.seg = some seg →
      let t := w.setSegment j.team j.seg (seg.countDown line)
      exec (.copyInLine core) s = if rest.isEmpty then .next ((t.setCopy core j.pos none).donePos j.uid j.pos)
        else .next (t.setCopy core j.pos (some { j with lines := rest })))
    ∧ (j.lines = [] → exec (.copyInLine core) s = .next ((s.setCopy core j.pos none).donePos j.uid j.pos)) := by
  change (∀ line rest seg, _ → _ → execCopyInLine core s = _) ∧ (_ → execCopyInLine core s = _)
  unfold execCopyInLine
  rw [hnext]
  refine ⟨fun line rest seg hlines hseg => ?_, fun hlines => ?_⟩
  · simp only [hlines, hseg]
  · simp only [hlines]

theorem exec_copyOutElements {core : Nat} {s : State} {j : CopyJob} (hnext : s.copyNext core true = some j) :
    let bad := s.newFailures j
    let live := j.devices.filter fun d => !(j.failed ++ bad).contains d && !s.copyFaulted j.pos d
    let logged := bad.foldl (fun (st : State) d => st.logCheck j.ctx (Check.of 4 d 0)) s
    let t := live.foldl (fun st d => st.copyRun core j j.lineRun d) logged
    let n := j.next + j.lineRun.length
    exec (.copyOutElements core) s = if j.elements.length ≤ n
      then .next (((live.foldl (fun st d => st.spoilCopy j d) t).setCopy core j.pos none).donePos j.uid j.pos)
      else .next (t.setCopy core j.pos (some { j with next := n, failed := j.failed ++ bad })) := by
  intro bad live logged t n
  change execCopyOutElements core s = _
  unfold execCopyOutElements
  rw [hnext]

theorem State.copyReaches_iff (s : State) (ctx d : Nat) : s.copyReaches ctx d = true ↔
    d = s.dev ∨ ((s.remote d).reachable = true ∧ (s.context ctx).devset.getLsbD d = true) := by
  simp [State.copyReaches]

theorem not_contains_eq_decide (l : List Nat) (d : Nat) : (!l.contains d) = decide (d ∉ l) := by
  simp

theorem State.takeCopyFault_some {s : State} {pos dev : Nat} {r : Replica}
    (hr : s.replicas.find? (fun r => r.isOf pos dev) = some r) (va : Nat) :
    let marked : State := { s with replicas := s.replicas.map fun x => if x.isOf pos dev then { x with failed := true } else x }
    let dropped := (SMap.find r.wrote va).elim marked fun old =>
      marked.writePlace (marked.context r.ctx).asid.toNat (.remote dev va) old
    s.takeCopyFault pos dev va = if r.failed then dropped else dropped.logCheck r.ctx (Check.of 4 dev 0) := by
  intro marked dropped
  simp only [State.takeCopyFault, hr, dropped]
  cases SMap.find r.wrote va <;> rfl

theorem State.takeCopyFault_none {s : State} {pos dev : Nat} (hr : s.replicas.find? (fun r => r.isOf pos dev) = none) (va : Nat) :
    s.takeCopyFault pos dev va = s := by
  simp only [State.takeCopyFault, hr]

theorem copyStreamerSteps : Claims.CopyStreamerSteps := by
  intro core s j before after hcopies hfirst hruns complete
  have hnext := State.copyNext_first hcopies hfirst hruns
  refine ⟨?_, fun hout hlines => ?_, ?_, s.copyReaches_iff, fun dev va r hr => State.takeCopyFault_some hr va,
    fun dev va hr => State.takeCopyFault_none hr va⟩
  · intro line rest seg hout hlines w hseg t
    rw [hout] at hnext
    have he := (exec_copyInLine hnext).1 line rest seg hlines hseg
    exact ⟨fun hrest => he.trans (if_pos (List.isEmpty_iff.mpr hrest)),
      fun hrest => he.trans (if_neg (mt List.isEmpty_iff.mp hrest))⟩
  · rw [hout] at hnext
    exact (exec_copyInLine hnext).2 hlines
  · intro hout bad failed live logged t n
    rw [hout] at hnext
    have he := exec_copyOutElements hnext
    simp only [State.newFailures, not_contains_eq_decide] at he
    exact ⟨fun hlast => he.trans (if_pos hlast), fun hmore => he.trans (if_neg (Nat.not_le.mpr hmore))⟩

/-! ### Line counts (06 R220) -/

/-- A line whose last pending copy is counted down is full; every other keeps its bit. -/
theorem Segment.isFull_countDown (g : Segment) (line l : Nat) :
    (g.countDown line).isFull l = if l = line ∧ SMap.getD g.pend line 0 ≤ 1 then true else g.isFull l := by
  unfold Segment.countDown
  dsimp only
  split
  · next h0 =>
    exact (Segment.isFull_setFull g line l true).trans (if_congr (by omega) rfl rfl)
  · next h0 => exact (if_neg (by omega)).symm

theorem Segment.pend_countDown (g : Segment) (line l : Nat) :
    SMap.getD (g.countDown line).pend l 0 = if l = line then SMap.getD g.pend line 0 - 1 else SMap.getD g.pend l 0 := by
  unfold Segment.countDown
  dsimp only
  split
  · next h0 =>
    rw [h0]
    by_cases hl : l = line <;> simp [SMap.getD, SMap.find_erase, hl]
  · next h0 => exact SMap.getD_insert ..

theorem Segment.countDown_frame (g : Segment) (line : Nat) : { g.countDown line with pend := g.pend, full := g.full } = g := by
  unfold Segment.countDown
  dsimp only
  split <;> rfl

theorem copyLineCounts : Claims.CopyLineCounts := by
  intro g line l n h
  refine ⟨fun hl => ⟨?_, ?_⟩, ?_, fun hn => ?_, fun hn => ?_, g.countDown_frame line⟩
  · rw [g.isFull_countDown, if_neg fun hc => hl hc.1]
  · rw [g.pend_countDown, if_neg hl]
  · rw [g.pend_countDown, if_pos rfl]
  · rw [g.isFull_countDown, if_pos ⟨rfl, hn⟩]
  · rw [g.isFull_countDown, if_neg fun hc => Nat.not_le.mpr hn hc.2]

end Sys2Proof.Machine

open Sys2Proof.Machine in
/-- Settles O40: the streamer takes the core's first copy in the direction, whose step is the event's definition, and counting a line
down changes the count and the bit of that line alone. -/
theorem copyStreamerRules : Obligations.CopyStreamerRules := ⟨copyStreamerSteps, copyLineCounts⟩

/-! ## Team barriers (07 R226 to R229) -/

namespace Sys2Proof.Machine

/-! ### Phases -/

theorem countFull_eq_iff (grps : Nat) (m ex : SMap Word) :
    countFull grps m ex = grps ↔ ∀ j, j < grps → SMap.getD m j 0 ||| SMap.getD ex j 0 = 0xFFFFFFFF := by
  have hlen : (run 0 grps).length = grps := by rw [run_zero, List.length_range]
  calc countFull grps m ex = grps
      ↔ ((run 0 grps).filter fun g => (SMap.getD m g 0 ||| SMap.getD ex g 0) == 0xFFFFFFFF).length = (run 0 grps).length := by
        rw [hlen]; rfl
    _ ↔ _ := by rw [List.length_filter_eq_length_iff]; simp [mem_run]

section Phases
variable {b : Barrier} {grps : Nat} {ex : SMap Word}

theorem Barrier.complete_full (hac : b.ac ≠ []) (hfull : ∀ j, j < grps → SMap.getD b.ac j 0 ||| SMap.getD ex j 0 = 0xFFFFFFFF) :
    b.complete grps ex = some ⟨!b.ph, b.an, []⟩ := if_pos ⟨(countFull_eq_iff ..).mpr hfull, hac⟩

theorem Barrier.complete_none
    (h : b.ac = [] ∨ ∃ j, j < grps ∧ SMap.getD b.ac j 0 ||| SMap.getD ex j 0 ≠ 0xFFFFFFFF) : b.complete grps ex = none := by
  refine if_neg ?_
  rintro ⟨hcount, hac⟩
  rcases h with h | ⟨j, hj, hmiss⟩
  · exact hac h
  · exact hmiss ((countFull_eq_iff ..).mp hcount j hj)

theorem Barrier.check_of_incomplete (h : b.complete grps ex = none) : b.check grps ex = b := by
  simp only [Barrier.check, h]

theorem Barrier.check_of_one {b1 : Barrier} (h : b.complete grps ex = some b1) (h1 : b1.complete grps ex = none) :
    b.check grps ex = b1 := by
  simp only [Barrier.check, h, h1]

theorem Barrier.check_of_two {b1 b2 : Barrier} (h : b.complete grps ex = some b1) (h1 : b1.complete grps ex = some b2) :
    b.check grps ex = b2 := by
  simp only [Barrier.check, h, h1]

end Phases

theorem barrierPhases : Claims.BarrierPhases := by
  intro b grp grps m ex
  refine ⟨fun j => ?_, fun j => ?_, rfl, fun hmiss => ?_, fun hac hfull hnext => ?_, fun hac han hfull hnext => ?_, fun hac => ?_⟩
  · rw [Barrier.arrive, SMap.getD_put]
    split
    · next hj => rw [hj]
    · rfl
  · rw [Barrier.arrive, SMap.getD_put]
    split
    · next hj => rw [hj]
    · rfl
  · exact Barrier.check_of_incomplete (Barrier.complete_none (.inr hmiss))
  · exact Barrier.check_of_one (Barrier.complete_full hac hfull) (Barrier.complete_none hnext)
  · rw [Barrier.check_of_two (Barrier.complete_full hac hfull) (Barrier.complete_full han hnext), Bool.not_not]
  · exact Barrier.check_of_incomplete (Barrier.complete_none (.inl hac))

/-! ### What a barrier instruction does -/

section Instructions
variable {n : BitVec 4} {s : State} {g : Group} {p : Path} {latch : Option Nat} {chain : Option Chain}

/-- The team's barrier after the lanes of a path have arrived there. -/
def Team.arrived (tm : Team) (s : State) (g : Group) (p : Path) (n : Nat) : Barrier :=
  ((tm.barrier n).arrive g.grpid p.mask).check tm.grps (s.exMasks g.team)

/-- The machine after that arrival. -/
def State.withArrival (s : State) (tm : Team) (g : Group) (p : Path) (n : Nat) : State :=
  s.setTeam g.team { tm with bars := SMap.insert tm.bars n (tm.arrived s g p n) }

/-- The lanes of a path with an arrival at a barrier that has not passed. -/
def Barrier.awaited (b : Barrier) (g : Group) (p : Path) : Word := p.mask &&& (SMap.getD b.ac g.grpid 0 ||| SMap.getD b.an g.grpid 0)

/-- The lanes of a path that would arrive a third time. -/
def Barrier.third (b : Barrier) (g : Group) (p : Path) : Word := p.mask &&& SMap.getD b.ac g.grpid 0 &&& SMap.getD b.an g.grpid 0

/-- A path that waits at a barrier, its group at the issue boundary. -/
def State.parksAt (u : State) (s : State) (g : Group) (n : Nat) : State :=
  u.setGroup s.cur.key (u.atBoundary (g.setWait s.cur.pslot (.barrier n)))

theorem Barrier.passed_iff (b : Barrier) (g : Group) (p : Path) : b.passed g.grpid p.mask = true ↔ b.awaited g p = 0 := beq_iff_eq

theorem Barrier.overrun_iff (b : Barrier) (g : Group) (p : Path) : b.overrun g.grpid p.mask = true ↔ b.third g p ≠ 0 := bne_iff_ne

theorem State.arriveAt_eq {tm : Team} (htm : s.team g.team = some tm) (n : Nat) :
    s.arriveAt g n p.mask = s.withArrival tm g p n := by
  simp only [State.arriveAt, htm]
  rfl

theorem Ctx.barrier_issuing {i : Instr} {u : State} {tm : Team} (htm : u.team g.team = some tm) (n : Nat) :
    ((Issuing i s g p latch chain).inState u).barrier n = tm.barrier n := by
  have htm' : ((Issuing i s g p latch chain).inState u).s.team ((Issuing i s g p latch chain).inState u).g.team = some tm := htm
  simp only [Ctx.barrier, htm']

/-- The barrier reads back as the arrival left it. -/
theorem Team.barrier_arrived {tm : Team} (n : Nat) :
    ({ tm with bars := SMap.insert tm.bars n (tm.arrived s g p n) } : Team).barrier n = tm.arrived s g p n :=
  (SMap.getD_insert ..).trans (if_pos rfl)

/-- The wait of BAR.WAIT and of BAR.SYNC at a barrier, in a machine `u` that differs from `s` in its teams alone. -/
theorem barrierWait_issuing {i : Instr} {u : State} {tm : Team} (hg : u.group s.cur.key = some g) (htm : u.team g.team = some tm)
    (hacq : u.acquired g = s.acquired g) (n : Nat) :
    ((Issuing i s g p latch chain).inState u).barrierWait n
      = if (tm.barrier n).awaited g p = 0 ∧ s.acquired g = true
        then ((Issuing i s g p latch chain).inState u).done (Started i s g p chain) else .next (u.parksAt s g n) := by
  have hcond : ((((Issuing i s g p latch chain).inState u).barrier n).passed (Started i s g p chain).grpid p.mask
      && u.acquired (Started i s g p chain)) = true ↔ (tm.barrier n).awaited g p = 0 ∧ s.acquired g = true := by
    rw [Ctx.barrier_issuing htm, Bool.and_eq_true, show u.acquired (Started i s g p chain) = u.acquired g from rfl, hacq]
    exact and_congr_left' (Barrier.passed_iff ..)
  have hgroup : ((Issuing i s g p latch chain).inState u).s.group ((Issuing i s g p latch chain).inState u).key = some g := hg
  unfold Ctx.barrierWait
  simp only [hgroup]
  exact if_congr hcond rfl rfl

/-- An instruction that waits at a barrier completes once the arrivals of its lanes have passed and the acquire holds, and parks until then. -/
theorem cases_of_barrierWait {i : Instr} {u : State} {tm : Team} (h : Goes i s g p latch chain) (hsize : i.size = 4)
    (hg : u.group s.cur.key = some g) (htm : u.team g.team = some tm) (hacq : u.acquired g = s.acquired g) (n : Nat)
    (he : exec i s = ((Issuing i s g p latch chain).inState u).barrierWait n) :
    ((tm.barrier n).awaited g p = 0 → s.acquired g = true → CompletesAt i s u g p chain g.regs (p.pc + 4))
    ∧ ((tm.barrier n).awaited g p ≠ 0 ∨ s.acquired g = false → exec i s = .next (u.parksAt s g n)) := by
  rw [barrierWait_issuing hg htm hacq] at he
  refine ⟨fun h0 ha => completesAt_of_machine h hsize (he.trans (if_pos ⟨h0, ha⟩)), fun hwaits => he.trans (if_neg ?_)⟩
  rintro ⟨h0, ha⟩
  exact hwaits.elim (fun hn => hn h0) fun hn => Bool.false_ne_true (hn.symm.trans ha)

theorem exec_barArv (h : Goes (.barArv n) s g p latch chain) : exec (.barArv n) s
    = if ((Issuing (.barArv n) s g p latch chain).barrier n.toNat).overrun g.grpid p.mask
      then (Issuing (.barArv n) s g p latch chain).trap (overrunTrap n.toNat)
      else if !s.released g then (Issuing (.barArv n) s g p latch chain).hold .arrive
      else ((Issuing (.barArv n) s g p latch chain).inState (s.arriveAt g n.toNat p.mask)).done (Started (.barArv n) s g p chain) := by
  change execBarArv n s = _
  exact issue_go h _

theorem exec_barWait (h : Goes (.barWait n) s g p latch chain) : exec (.barWait n) s
    = ((Issuing (.barWait n) s g p latch chain).inState s).barrierWait n.toNat := by
  change execBarWait n s = _
  exact issue_go h _

theorem exec_barSync_inBarrier (h : Goes (.barSync n) s g p latch chain) (hin : p.inBarrier = true) : exec (.barSync n) s
    = ((Issuing (.barSync n) s g p latch chain).inState s).barrierWait n.toNat := by
  change execBarSync n s = _
  refine (issue_go h _).trans ?_
  exact if_pos hin

theorem exec_barSync_arriving (h : Goes (.barSync n) s g p latch chain) (hin : p.inBarrier = false) : exec (.barSync n) s
    = if ((Issuing (.barSync n) s g p latch chain).barrier n.toNat).overrun g.grpid p.mask
      then (Issuing (.barSync n) s g p latch chain).trap (overrunTrap n.toNat)
      else if !s.released g then (Issuing (.barSync n) s g p latch chain).hold .arrive
      else ((Issuing (.barSync n) s g p latch chain).inState (s.arriveAt g n.toNat p.mask)).barrierWait n.toNat := by
  change execBarSync n s = _
  refine (issue_go h _).trans ?_
  exact if_neg (by rw [show (Issuing (.barSync n) s g p latch chain).p.inBarrier = p.inBarrier from rfl, hin]; decide)

/-- So does one that waits at a barrier where its lanes have just arrived. -/
theorem cases_of_arrivalWait {i : Instr} {tm : Team} (h : Goes i s g p latch chain) (hsize : i.size = 4) (hg : s.group s.cur.key = some g)
    (n : Nat) (he : exec i s = ((Issuing i s g p latch chain).inState (s.withArrival tm g p n)).barrierWait n) :
    ((tm.arrived s g p n).awaited g p = 0 → s.acquired g = true → CompletesAt i s (s.withArrival tm g p n) g p chain g.regs (p.pc + 4))
    ∧ ((tm.arrived s g p n).awaited g p ≠ 0 ∨ s.acquired g = false → exec i s = .next ((s.withArrival tm g p n).parksAt s g n)) := by
  have hcases := cases_of_barrierWait h hsize (u := s.withArrival tm g p n) hg (State.team_setTeam ..) rfl n he
  rwa [Team.barrier_arrived] at hcases

variable {tm : Team} (htm : s.team g.team = some tm)
include htm

/-- An arrival: overrun, held until everything earlier has performed, or made, with `next` to follow. -/
theorem cases_of_arrival {i : Instr} {out : Out} (next : State → Out) (n : Nat)
    (he : out = if ((Issuing i s g p latch chain).barrier n).overrun g.grpid p.mask then (Issuing i s g p latch chain).trap (overrunTrap n)
      else if !s.released g then (Issuing i s g p latch chain).hold .arrive else next (s.arriveAt g n p.mask)) :
    ((tm.barrier n).third g p ≠ 0 → out = (Issuing i s g p latch chain).trap (overrunTrap n))
    ∧ ((tm.barrier n).third g p = 0 → s.released g = false → out = (Issuing i s g p latch chain).hold .arrive)
    ∧ ((tm.barrier n).third g p = 0 → s.released g = true → out = next (s.withArrival tm g p n)) := by
  have hbar : (Issuing i s g p latch chain).barrier n = tm.barrier n := Ctx.barrier_issuing (u := s) htm n
  rw [hbar, State.arriveAt_eq htm] at he
  refine ⟨fun h3 => ?_, fun h3 hrel => ?_, fun h3 hrel => ?_⟩
  · rw [he, if_pos ((Barrier.overrun_iff ..).mpr h3)]
  · rw [he, if_neg (fun hc => (Barrier.overrun_iff ..).mp hc h3), if_pos (by rw [hrel]; rfl)]
  · rw [he, if_neg (fun hc => (Barrier.overrun_iff ..).mp hc h3), if_neg (by rw [hrel]; decide)]

end Instructions

theorem barrierInstructions : Claims.BarrierInstructions := by
  intro n s g p latch chain tm htm bar after t third waits parks overrun held
  refine ⟨fun h => ?arv, fun h => ?wait, fun h hin => ?sync, fun h hin => ?again⟩
  case arv =>
    have hg := group_of_goes h rfl fun _ => rfl
    obtain ⟨hover, hheld, hmade⟩ := cases_of_arrival htm (fun u => ((Issuing (.barArv n) s g p latch chain).inState u).done _) _
      (exec_barArv h)
    refine ⟨fun h3 hrel => ?_, fun h3 hrel => ?_, fun h3 hr => ?_⟩
    · exact completesAt_of_machine h (Instr.size_barArv _) (hmade h3 hrel)
    · exact (hheld h3 hrel).trans (Ctx.stall_eq hg _)
    · exact (hover h3).trans (trap_of_goes h hr _)
  case wait =>
    obtain ⟨hdone, hparks⟩ :=
      cases_of_barrierWait h (Instr.size_barWait _) (group_of_goes h rfl fun _ => rfl) htm rfl _ (exec_barWait h)
    exact ⟨fun h0 ha => completes_of_completesAt (Instr.size_barWait _) (hdone h0 ha), hparks⟩
  case sync =>
    have hg := group_of_goes h rfl fun _ => rfl
    obtain ⟨hover, hheld, hmade⟩ := cases_of_arrival htm
      (fun u => ((Issuing (.barSync n) s g p latch chain).inState u).barrierWait _) _ (exec_barSync_arriving h hin)
    have hwait := fun h3 hrel => cases_of_arrivalWait h (Instr.size_barSync _) hg n.toNat (hmade h3 hrel)
    refine ⟨fun h3 hrel h0 ha => ?_, fun h3 hrel h0 => ?_, fun h3 hrel => ?_, fun h3 hr => ?_⟩
    · exact (hwait h3 hrel).1 h0 ha
    · exact (hwait h3 hrel).2 (.inl h0)
    · exact (hheld h3 hrel).trans (Ctx.stall_eq hg _)
    · exact (hover h3).trans (trap_of_goes h hr _)
  case again =>
    obtain ⟨hdone, hparks⟩ :=
      cases_of_barrierWait h (Instr.size_barSync _) (group_of_goes h rfl fun _ => rfl) htm rfl _ (exec_barSync_inBarrier h hin)
    exact ⟨fun h0 ha => completes_of_completesAt (Instr.size_barSync _) (hdone h0 ha), hparks⟩

end Sys2Proof.Machine

open Sys2Proof.Machine in
/-- Settles O19: an arrival is overrun, held or made, and a wait completes or parks; a phase completes where every mask is full. -/
theorem barrierResults : Obligations.BarrierResults := ⟨barrierInstructions, barrierPhases⟩

/-! ## Barriers, wakes and handlers that complete (01 R44; 05 R157; 07 R227 to R229, R237; 10 R307) -/

namespace Sys2Proof.Machine

/-- What completes leaves its group as it was but for what issuing moves. -/
theorem CompletesAt.exists_group {i : Instr} {s t : State} {g : Group} {p : Path} {chain : Option Chain} {R : Regs} {pc : DWord}
    (hc : CompletesAt i s t g p chain R pc) : ∃ h : Group, exec i s = .next (t.setGroup s.cur.key h) ∧ h.regs = R ∧ SameGroup g h
      ∧ Advanced t s.cur.pslot g p chain pc h := by
  obtain ⟨h, hexec, hregs, hsame, hadv, -⟩ := hc
  exact ⟨h, hexec, hregs, hsame, hadv⟩

theorem completesAt_of_completes {i : Instr} {s : State} {g : Group} {p : Path} {chain : Option Chain} {R : Regs} (hsize : i.size = 4)
    (hc : Completes i s g p chain 0 R) : CompletesAt i s s g p chain R (p.pc + 4) := by
  rw [Completes, hsize] at hc
  exact hc

theorem barriersComplete : Claims.BarriersComplete := by
  intro n s g p latch chain tm htm hrel hacq bar after arrived open_ completes
  obtain ⟨harv, hwait, hsync, hagain⟩ := barrierInstructions n s g p latch chain tm htm
  refine ⟨fun h3 => ⟨fun h => ?_, fun h hin h0 => ?_⟩, fun h0 => ⟨fun h => ?_, fun h hin => ?_⟩⟩
  · exact ((harv h).1 h3 hrel).exists_group
  · exact ((hsync h hin).1 h3 hrel h0 hacq).exists_group
  · exact (completesAt_of_completes (Instr.size_barWait _) ((hwait h).1 h0 hacq)).exists_group
  · exact (completesAt_of_completes (Instr.size_barSync _) ((hagain h hin).1 h0 hacq)).exists_group

theorem State.retryPath_ready {s : State} {core slot : Nat} {g : Group} {p : Path} {i : Instr} (hslot : slot < 128)
    (hw : p.wait = .operand) (hcode : s.codeAt core (s.asidOf g) p.pc.toNat = .ok (.ok i)) (hbusy : s.registersBusy g p i = false)
    (hroom : g.queue.length < 16) : s.retryPath (groupKey core slot) g (some p) = some { p with wait := .ready } := by
  refine if_pos ((s.mayRetry_iff ..).mpr ⟨hw, fun j hj => ?_⟩)
  rw [groupKey_div hslot, hcode] at hj
  cases hj
  exact ⟨hbusy, hroom⟩

theorem operandArrivalCompletes : Claims.OperandArrivalCompletes := by
  intro core slot s g p i hslot hg hw hcode hbusy hroom
  have hready := State.retryPath_ready hslot hw hcode hbusy hroom
  refine ⟨fun ha hb => ?_, fun ha hb => ?_⟩
  · rw [exec_operandArrival hg, ha, hready, show s.retryPath (groupKey core slot) g g.slotB = g.slotB by rw [hb]; rfl]
  · rw [exec_operandArrival hg, hb, hready, show s.retryPath (groupKey core slot) g g.slotA = g.slotA by rw [ha]; rfl]

theorem State.wakeLines_full {s : State} {team k start : Nat} {p : Path} {ls : List Nat} {t : Bool} {seg : Segment}
    (hw : p.wait = .emptyLine k ls start false t) (hseg : s.segment team k = some seg) (hfull : ∀ l ∈ ls, seg.isFull l = true) :
    s.wakeLines team (some p) = some { p with wait := .emptyLine k ls start true t } := by
  have hlines : s.linesFull team p.wait = true := (s.linesFull_iff ..).mpr ⟨k, ls, start, seg, t, hw, hseg, hfull⟩
  have hfilled : p.wait.filled = .emptyLine k ls start true t := by rw [hw]; rfl
  exact (if_pos hlines).trans (by rw [hfilled])

theorem lineFillWakeCompletes : Claims.LineFillWakeCompletes := by
  intro core slot s g p k ls start seg t hslot hg hw hseg hfull
  have hwoken := State.wakeLines_full hw hseg hfull
  refine ⟨fun ha hb => ?_, fun ha hb => ?_⟩
  · rw [exec_lineFillWake hg, ha, hwoken, show s.wakeLines g.team g.slotB = g.slotB by rw [hb]; rfl]
  · rw [exec_lineFillWake hg, hb, hwoken, show s.wakeLines g.team g.slotA = g.slotA by rw [ha]; rfl]

theorem handlerStartCompletes : Claims.HandlerStartCompletes := by
  intro core slot s j hq hstate hseg hmode hres hdiv hslot
  have harena : s.handlerArena j = some [] := if_pos hdiv
  have hfits : s.handlerFits core j = true := by
    simp [State.handlerFits, hstate, hseg, hmode, hres, harena, hslot]
  set taken := s.setCore core { s.core core with msgq := [] }
  refine ⟨_, handlerGroup taken j [], exec_handlerStart hq hfits hslot harena, taken.group_startHandler core slot j [], rfl, rfl, rfl,
    rfl, fun hcluster => ?_⟩
  obtain ⟨-, hcores, -⟩ := taken.startHandler_frame hcluster slot j []
  have hcore : taken.core core = { s.core core with msgq := [] } := (SMap.getD_insert ..).trans (if_pos rfl)
  exact (congrArg (fun m => (SMap.getD m core Core.empty).msgq) hcores).trans (congrArg Core.msgq hcore)

end Sys2Proof.Machine

open Sys2Proof.Machine in
/-- Settles O59: a barrier instruction completes as O19 says; a wake, or a start, acts where its condition on the state holds. -/
theorem barrierAndWakeCompletions : Obligations.BarrierAndWakeCompletions :=
  ⟨barriersComplete, operandArrivalCompletes, lineFillWakeCompletes, handlerStartCompletes⟩

/-! ## Events and active messages as a group issues them (07 R231, R232, R235; 01 R36) -/

namespace Sys2Proof.Machine

/-! ### The event unit -/

theorem and_not_eq_zero_iff {n : Nat} (x y : BitVec n) :
    x &&& ~~~y = 0 ↔ ∀ i, i < n → x.getLsbD i = true → y.getLsbD i = true := by
  constructor
  · intro h i hi hx
    have hbit := congrArg (·.getLsbD i) h
    simpa [hx, hi] using hbit
  · intro h
    refine BitVec.eq_of_getLsbD_eq fun i hi => ?_
    have hbit := h i hi
    rw [BitVec.getLsbD_and, BitVec.getLsbD_not]
    cases hx : x.getLsbD i
    · simp
    · simp [hi, hbit hx]

/-- The events a launch waits for (12 Table 12-6). -/
def Launch.waitMask (l : Launch) : BitVec 256 := l.packet.extractLsb' 512 256

theorem ofNat_bits_toNat {w : Nat} (x : BitVec w) (lo n : Nat) : BitVec.ofNat n (bits x.toNat lo n) = x.extractLsb' lo n := by
  apply BitVec.eq_of_toNat_eq
  simp [bits, BitVec.extractLsb'_toNat, Nat.shiftRight_eq_div_pow]

/-- A launch after the event unit has applied a request: eligible when the events it waits for are set. -/
def Launch.settled (l : Launch) (events : BitVec 256) : Launch :=
  if l.waitMask &&& ~~~events = 0 then { l with eligible := true } else l

theorem Context.launches_applyEvents (c : Context) (clear set : BitVec 256) :
    (c.applyEvents clear set).launches = c.launches.map fun l => l.settled (c.applyEvents clear set).events := by
  refine List.map_congr_left fun l _ => ?_
  dsimp only
  rw [ofNat_bits_toNat]
  rfl

theorem Launch.settled_eq (l : Launch) (events : BitVec 256) :
    l.settled events = { l with eligible := (l.settled events).eligible } := by
  unfold Launch.settled
  split <;> rfl

theorem Launch.eligible_settled (l : Launch) (events : BitVec 256) : (l.settled events).eligible = true ↔
    l.eligible = true ∨ ∀ i, i < 256 → l.waitMask.getLsbD i = true → events.getLsbD i = true := by
  unfold Launch.settled
  rw [← and_not_eq_zero_iff]
  split
  · next h => exact iff_of_true rfl (.inr h)
  · next h => exact (or_iff_left h).symm

theorem eventUnitRule : Claims.EventUnitRule := by
  intro c clear set
  refine ⟨fun i hi => ?_, ?_, fun k l hl => ?_⟩
  · change ((c.events &&& ~~~clear) ||| set).getLsbD i = _
    rw [BitVec.getLsbD_or, BitVec.getLsbD_and, BitVec.getLsbD_not, Bool.or_comm]
    simp [hi]
  · rw [Context.launches_applyEvents, List.length_map]
  · refine ⟨l.settled (c.applyEvents clear set).events, ?_, l.settled_eq _, l.eligible_settled _⟩
    rw [Context.launches_applyEvents, List.getElem?_map, hl]
    rfl

/-! ### The restartable flag and a group's operands -/

/-- No system value shows the restartable flag of a team. -/
theorem State.sysValue_setTeam_restartable {s : State} {t : Nat} {y : Team} (ht : s.team t = some y) (b : Bool) (key : Nat) (g : Group)
    (code : Nat) : (s.setTeam t { y with restartable := b }).sysValue key g code = s.sysValue key g code := by
  have hteam : (s.setTeam t { y with restartable := b }).team g.team
      = if g.team = t then some { y with restartable := b } else s.team g.team := SMap.find_insert ..
  unfold State.sysValue
  rw [hteam]
  by_cases hg : g.team = t
  · rw [if_pos hg, hg, ht]
    rfl
  · rw [if_neg hg]
    rfl

theorem State.sv_clearRestart (s : State) (t key : Nat) (g : Group) (r : Nat) : (s.clearRestart t).sv key g r = s.sv key g r := by
  refine if_congr Iff.rfl rfl ?_
  unfold State.clearRestart
  split
  · next y ht =>
    split
    · exact State.sysValue_setTeam_restartable ht false key g r
    · rfl
  · rfl

@[simp] theorem State.group_clearRestart (s : State) (t k : Nat) : (s.clearRestart t).group k = s.group k := by
  obtain ⟨teams, hpub⟩ := s.clearRestart_eq t
  rw [hpub]
  rfl

@[simp] theorem State.context_clearRestart (s : State) (t c : Nat) : (s.clearRestart t).context c = s.context c := by
  obtain ⟨teams, hpub⟩ := s.clearRestart_eq t
  rw [hpub]
  rfl

@[simp] theorem State.dev_clearRestart (s : State) (t : Nat) : (s.clearRestart t).dev = s.dev := by
  obtain ⟨teams, hpub⟩ := s.clearRestart_eq t
  rw [hpub]

@[simp] theorem State.remote_clearRestart (s : State) (t d : Nat) : (s.clearRestart t).remote d = s.remote d := by
  obtain ⟨teams, hpub⟩ := s.clearRestart_eq t
  rw [hpub]
  rfl

@[simp] theorem State.released_clearRestart (s : State) (t : Nat) (g : Group) : (s.clearRestart t).released g = s.released g := by
  obtain ⟨teams, hpub⟩ := s.clearRestart_eq t
  rw [hpub]
  rfl

/-- An instruction that changes the machine about its group, and of the group one scalar register, completes. -/
theorem completesAt_of_scalar {i : Instr} {s t : State} {g : Group} {p : Path} {latch : Option Nat} {chain : Option Chain}
    (h : Goes i s g p latch chain) (hsize : i.size = 4) {d : Nat} {x : Word}
    (he : exec i s = ((Issuing i s g p latch chain).inState t).done ((Started i s g p chain).setSr d x)) :
    CompletesAt i s t g p chain (g.regs.scalar d x) (p.pc + 4) := by
  have hk : RegsOnly (Started i s g p chain) ((Started i s g p chain).setSr d x) := (RegsOnly.refl _).setSr
  have hc : CompletesAt i s t g p chain ((Started i s g p chain).setSr d x).regs (p.pc + BitVec.ofNat 64 i.size) :=
    completesAt_retire p.act latch _ p _ (hk.same (Started.same ..)) ((hk.path _).trans ((Started.path ..).trans h.path)) rfl
      ((hk.path _).trans (Started.path ..)) rfl rfl rfl rfl he
  rw [hsize, Group.regs_setSr] at hc
  exact hc

section Events
variable {a d : BitVec 8} {n : BitVec 3} {s : State} {g : Group} {p : Path} {latch : Option Nat} {chain : Option Chain}

/-! ### EVSET and EVCLR -/

/-- The event an EVSET names, as it was at its issue. -/
def evsetTook (s : State) (g : Group) (p : Path) (a : Nat) : BitVec 256 :=
  match p.wait with
  | .held (.evset m) => m
  | _ => eventBit (s.sv s.cur.key g a)

theorem exec_evset (h : Goes (.evset a) s g p latch chain) :
    let pub := s.clearRestart g.team
    exec (.evset a) s = if s.released g = false then ((Issuing (.evset a) s g p latch chain).inState pub).hold (.evset (evsetTook s g p a.toNat))
      else ((Issuing (.evset a) s g p latch chain).inState
        (pub.setContext g.ctx ((pub.context g.ctx).applyEvents 0 (evsetTook s g p a.toNat)))).done (Started (.evset a) s g p chain) := by
  intro pub
  have htook : (match (Issuing (.evset a) s g p latch chain).publish.taken with
      | some (.evset m) => m
      | _ => eventBit ((Issuing (.evset a) s g p latch chain).publish.sv a.toNat)) = evsetTook s g p a.toNat := by
    have hsv : (Issuing (.evset a) s g p latch chain).publish.sv a.toNat = s.sv s.cur.key g a.toNat := State.sv_clearRestart ..
    rw [hsv]
    change (match (match p.wait with | .held op => some op | _ => none) with | some (.evset m) => m | _ => _) = _
    unfold evsetTook
    cases p.wait with
    | held op => cases op <;> rfl
    | _ => rfl
  have hrel : pub.released (Started (.evset a) s g p chain) = s.released g := State.released_clearRestart ..
  rw [← htook, ← hrel]
  change execEvset a s = _
  refine (issue_go h _).trans ?_
  exact if_congr (iff_of_eq (Bool.not_eq_true' _)) rfl rfl

theorem exec_evclr (h : Goes (.evclr a) s g p latch chain) :
    let pub := s.clearRestart g.team
    exec (.evclr a) s = if (g.path s.cur.pslot.other).any Path.inEvset = true then (Issuing (.evclr a) s g p latch chain).stall .operand
      else ((Issuing (.evclr a) s g p latch chain).inState
        (pub.setContext g.ctx ((pub.context g.ctx).applyEvents (eventBit (s.sv s.cur.key g a.toNat)) 0))).done
          (Started (.evclr a) s g p chain) := by
  intro pub
  have hsv : (Issuing (.evclr a) s g p latch chain).publish.sv a.toNat = s.sv s.cur.key g a.toNat := State.sv_clearRestart ..
  have hother : (Started (.evclr a) s g p chain).path s.cur.pslot.other = g.path s.cur.pslot.other := Started.path ..
  rw [← hsv, ← hother]
  change execEvclr a s = _
  exact issue_go h _

theorem Path.inEvset_iff (y : Path) : y.inEvset = true ↔ ∃ m, y.wait = .held (.evset m) := by
  unfold Path.inEvset
  cases y.wait with
  | held op => cases op <;> simp
  | _ => simp

theorem any_inEvset_iff (x : Option Path) :
    x.any Path.inEvset = true ↔ ∃ (y : Path) (m : BitVec 256), x = some y ∧ y.wait = .held (.evset m) := by
  simp [Option.any_eq_true, Path.inEvset_iff]

/-! ### SENDAM -/

/-- The block of a SENDAM, as it was at its issue. -/
def sendamTook (g : Group) (p : Path) (a n : Nat) : List Word :=
  match p.wait with
  | .held (.sendam ws) => ws
  | _ => g.block a n

/-- What SENDAM does with its block once everything the path issued earlier has performed. -/
def Ctx.sendBlock (c : Ctx) (block : List Word) (d : Nat) : Out :=
  let w0 := block.getD 0 0
  let w1 := block.getD 1 0
  let dev := bits w0.toNat 8 8
  if !goodBlock w0 w1 then c.done (c.g.setSr d 4)
  else if dev ≠ c.s.dev && !(c.s.remote dev).reachable then c.done (c.g.setSr d 2)
  else (c.inState (c.s.sendTo (c.core / 128) dev (c.s.context c.g.ctx).dctag.toNat (.active ⟨c.g.ctx, bits w0.toNat 0 8, bits w1.toNat 0 12,
    block.drop 2, c.core, c.s.dev, c.g.uid, d, (c.s.context c.g.ctx).dctag.toNat⟩))).done { c.g with answers := c.g.answers ++ [d] }

theorem exec_sendam (h : Goes (.sendam n a d) s g p latch chain) :
    let block := sendamTook g p a.toNat (n.toNat + 2)
    exec (.sendam n a d) s = if s.released g = false
      then ((Issuing (.sendam n a d) s g p latch chain).inState (s.clearRestart g.team)).hold (.sendam block)
      else ((Issuing (.sendam n a d) s g p latch chain).inState (s.clearRestart g.team)).sendBlock block d.toNat := by
  intro block
  have htook : (match (Issuing (.sendam n a d) s g p latch chain).publish.taken with
      | some (.sendam ws) => ws
      | _ => (Issuing (.sendam n a d) s g p latch chain).publish.g.block a.toNat (n.toNat + 2)) = block := by
    change (match (match p.wait with | .held op => some op | _ => none) with | some (.sendam ws) => ws | _ => _) = sendamTook ..
    unfold sendamTook
    cases p.wait with
    | held op => cases op <;> rfl
    | _ => rfl
  have hrel : (s.clearRestart g.team).released (Started (.sendam n a d) s g p chain) = s.released g := State.released_clearRestart ..
  rw [← htook, ← hrel]
  change execSendam n a d s = _
  refine (issue_go h _).trans ?_
  exact if_congr (iff_of_eq (Bool.not_eq_true' _)) rfl rfl

theorem goodBlock_iff (w0 w1 : Word) : goodBlock w0 w1 = true ↔ w0.extractLsb' 16 16 = 0 ∧ w1.extractLsb' 12 20 = 0 := by
  rw [goodBlock, Bool.and_eq_true, beq_iff_eq, beq_iff_eq, bits_toNat_eq_extractLsb', bits_toNat_eq_extractLsb', ← BitVec.toNat_inj,
    ← BitVec.toNat_inj]
  rfl

section SendBlock
variable {c : Ctx} {block : List Word} {dst : Nat}

theorem Ctx.sendBlock_bad (hbad : ¬ ((block.getD 0 0).extractLsb' 16 16 = 0 ∧ (block.getD 1 0).extractLsb' 12 20 = 0)) :
    c.sendBlock block dst = c.done (c.g.setSr dst 4) :=
  if_pos (by rw [Bool.not_eq_true', Bool.eq_false_iff, ne_eq, goodBlock_iff]; exact hbad)

variable (hgood : (block.getD 0 0).extractLsb' 16 16 = 0 ∧ (block.getD 1 0).extractLsb' 12 20 = 0)
include hgood

theorem Ctx.sendBlock_unreachable (hdev : ((block.getD 0 0).extractLsb' 8 8).toNat ≠ c.s.dev)
    (hfar : (c.s.remote ((block.getD 0 0).extractLsb' 8 8).toNat).reachable = false) :
    c.sendBlock block dst = c.done (c.g.setSr dst 2) := by
  refine (if_neg (by rw [(goodBlock_iff ..).mpr hgood]; decide)).trans (if_pos ?_)
  rw [bits_toNat_eq_extractLsb', hfar, Bool.and_eq_true]
  exact ⟨decide_eq_true hdev, rfl⟩

theorem Ctx.sendBlock_sends (hnear : ((block.getD 0 0).extractLsb' 8 8).toNat = c.s.dev
      ∨ (c.s.remote ((block.getD 0 0).extractLsb' 8 8).toNat).reachable = true) :
    c.sendBlock block dst = (c.inState (c.s.sendTo (c.core / 128) ((block.getD 0 0).extractLsb' 8 8).toNat
      (c.s.context c.g.ctx).dctag.toNat (.active ⟨c.g.ctx, ((block.getD 0 0).extractLsb' 0 8).toNat,
        ((block.getD 1 0).extractLsb' 0 12).toNat, block.drop 2, c.core, c.s.dev, c.g.uid, dst,
        (c.s.context c.g.ctx).dctag.toNat⟩))).done { c.g with answers := c.g.answers ++ [dst] } := by
  simp only [← bits_toNat_eq_extractLsb'] at hnear ⊢
  refine (if_neg (by rw [(goodBlock_iff ..).mpr hgood]; decide)).trans (if_neg ?_)
  rw [Bool.and_eq_true, decide_eq_true_eq, Bool.not_eq_true']
  rintro ⟨hother, hfar⟩
  exact hnear.elim hother fun h => Bool.false_ne_true (hfar.symm.trans h)

end SendBlock

end Events

theorem eventAndMessageInstructions : Claims.EventAndMessageInstructions := by
  intro a d n s g p latch chain pub ev set block w0 w1 holds dev good
  refine ⟨fun h => ?evset, fun h => ?evclr, fun h hrel => ?sendamHeld, fun h hrel => ?sendam⟩
  case evset =>
    have he := exec_evset h
    refine ⟨fun hrel => ?_, fun hrel => ?_⟩
    · rw [hrel] at he
      exact completesAt_of_machine h (Instr.size_evset _) he
    · refine (he.trans (if_pos hrel)).trans (Ctx.stall_eq ?_ _)
      exact (State.group_clearRestart ..).trans (group_of_goes h rfl fun _ => rfl)
  case evclr =>
    have he := exec_evclr h
    refine ⟨fun hheld => ?_, fun hfree => ?_⟩
    · exact (he.trans (if_pos ((any_inEvset_iff _).mpr hheld))).trans (Ctx.stall_eq (group_of_goes h rfl fun _ => rfl) _)
    · refine completesAt_of_machine h (Instr.size_evclr _) (he.trans (if_neg fun hany => ?_))
      obtain ⟨y, m, hy, hw⟩ := (any_inEvset_iff _).mp hany
      exact hfree y m hy hw
  case sendamHeld =>
    refine ((exec_sendam h).trans (if_pos hrel)).trans (Ctx.stall_eq ?_ _)
    exact (State.group_clearRestart ..).trans (group_of_goes h rfl fun _ => rfl)
  case sendam =>
    have he := exec_sendam h
    rw [hrel] at he
    have hdev : pub.dev = s.dev := State.dev_clearRestart ..
    refine ⟨fun hbad => ?_, fun hgood hother hfar => ?_, fun hgood hnear => ?_⟩
    · exact completesAt_of_scalar h (Instr.size_sendam ..) (he.trans (Ctx.sendBlock_bad hbad))
    · exact completesAt_of_scalar h (Instr.size_sendam ..) (he.trans (Ctx.sendBlock_unreachable hgood
        (fun hd => hother (hd.trans hdev)) ((congrArg Remote.reachable (State.remote_clearRestart ..)).trans hfar)))
    · have hsent := he.trans (Ctx.sendBlock_sends hgood (hnear.imp (fun hd => hd.trans hdev.symm) fun hr =>
        (congrArg Remote.reachable (State.remote_clearRestart ..)).trans hr))
      have hc := completesAt_of_change h (Instr.size_sendam ..) rfl hsent (g1 := { g with answers := g.answers ++ [d.toNat] }) rfl
        (fun ps => by cases ps <;> rfl) (fun ps => by cases ps <;> rfl) rfl ⟨rfl, rfl, rfl, rfl⟩
      rw [← hdev, ← show pub.context g.ctx = s.context g.ctx from State.context_clearRestart ..]
      exact hc

end Sys2Proof.Machine

open Sys2Proof.Machine in
/-- Settles O20: each instruction is its branch of the model, with the machine after the restartable flag is cleared; the event unit
settles each launch by the events it waits for. -/
theorem eventAndMessageResults : Obligations.EventAndMessageResults := ⟨eventAndMessageInstructions, eventUnitRule⟩

/-! ## System instructions (07 R238 to R246, Table 7-5; 10 R309, R313) -/

namespace Sys2Proof.Machine

section System
variable {i : Instr} {n : BitVec 6} {a d : BitVec 8} {z q : BitVec 2} {r : BitVec 12} {s : State} {g : Group} {p : Path}
  {latch : Option Nat} {chain : Option Chain}

/-! ### TRAP and BKPT -/

/-- A trap that resumes at the next instruction moves the path of an instruction that may issue on first. -/
theorem trapNext_issuing (hsize : i.size = 4) (hg : s.group s.cur.key = some g)
    (hr : s.trapReady g = true) (t : Trap) : (Issuing i s g p latch chain).trapNext t
      = .next ((s.setGroup s.cur.key (g.setPath s.cur.pslot (some (p.advance (p.pc + 4))))).trapIssue s.cur.key s.cur.pslot
        { t with pc := some p.pc }) := by
  have hnxt : (Issuing i s g p latch chain).nxt = p.pc + 4 := by
    rw [Issuing, hsize]
    rfl
  have he := Ctx.trapNext_eq (c := Issuing i s g p latch chain) hg hr t
  rw [hnxt] at he
  exact he

theorem exec_trap (h : Goes (.trap n) s g p latch chain) : exec (.trap n) s
    = (Issuing (.trap n) s g p latch chain).trapNext { Trap.of cSoftware with info := BitVec.ofNat 32 n.toNat } := by
  change execTrap n s = _
  exact issue_go h _

theorem exec_bkpt (h : Goes (.bkpt n) s g p latch chain) : exec (.bkpt n) s
    = (Issuing (.bkpt n) s g p latch chain).trapNext { Trap.of cBreak with info := BitVec.ofNat 32 n.toNat } := by
  change execBkpt n s = _
  exact issue_go h _

/-! ### ERET -/

theorem Ctx.trapped_none {slot : Nat}
    (hno : ∀ k, s.group (groupKey (s.cur.key / 128) slot) = some k → k.status ≠ .trapped ∨ k.ctx ≠ g.ctx) :
    (Issuing i s g p latch chain).trapped slot = none := by
  unfold Ctx.trapped
  split
  · next k hk => exact if_neg fun ⟨hstatus, hctx⟩ => (hno k hk).elim (· hstatus) (· hctx)
  · rfl

theorem Ctx.trapped_some {slot : Nat} {k : Group} (hk : s.group (groupKey (s.cur.key / 128) slot) = some k) (hstatus : k.status = .trapped)
    (hctx : k.ctx = g.ctx) : (Issuing i s g p latch chain).trapped slot = some (groupKey (s.cur.key / 128) slot, k) := by
  have hk' : (Issuing i s g p latch chain).s.group (groupKey (Issuing i s g p latch chain).core slot) = some k := hk
  unfold Ctx.trapped
  simp only [hk']
  exact if_pos ⟨hstatus, hctx⟩

theorem exec_eret_none (h : Goes (.eret a) s g p latch chain)
    (hno : ∀ k, s.group (groupKey (s.cur.key / 128) (s.sv s.cur.key g a.toNat).toNat) = some k → k.status ≠ .trapped ∨ k.ctx ≠ g.ctx) :
    exec (.eret a) s = (Issuing (.eret a) s g p latch chain).done (Started (.eret a) s g p chain) := by
  have hsv : (Issuing (.eret a) s g p latch chain).sv a.toNat = s.sv s.cur.key g a.toNat := rfl
  change execEret a s = _
  unfold execEret
  rw [issue_go h]
  simp only [hsv, Ctx.trapped_none hno]
  rfl

theorem exec_eret_reloads (h : Goes (.eret a) s g p latch chain) {k : Group} {s1 : State} {bs : List Byte}
    (hk : s.group (groupKey (s.cur.key / 128) (s.sv s.cur.key g a.toNat).toNat) = some k) (hstatus : k.status = .trapped)
    (hctx : k.ctx = g.ctx) (hrel : s.released g = true)
    (hload : s.loadVirt (s.cur.key / 128) (s.asidOf g) (s.recordAddr g.ctx (s.cur.key / 128) (s.sv s.cur.key g a.toNat).toNat) 256
      = .ok (s1, bs)) :
    exec (.eret a) s = ((Issuing (.eret a) s g p latch chain).inState
      (s1.putReloaded (groupKey (s.cur.key / 128) (s.sv s.cur.key g a.toNat).toNat) k bs)).done (Started (.eret a) s g p chain) := by
  have hsv : (Issuing (.eret a) s g p latch chain).sv a.toNat = s.sv s.cur.key g a.toNat := rfl
  have hrel' : (Issuing (.eret a) s g p latch chain).s.released (Issuing (.eret a) s g p latch chain).g = true := hrel
  have hload' : (Issuing (.eret a) s g p latch chain).s.loadVirt (Issuing (.eret a) s g p latch chain).core
      (Issuing (.eret a) s g p latch chain).asid ((Issuing (.eret a) s g p latch chain).s.recordAddr
        (Issuing (.eret a) s g p latch chain).g.ctx (Issuing (.eret a) s g p latch chain).core (s.sv s.cur.key g a.toNat).toNat) 256
      = .ok (s1, bs) := hload
  change execEret a s = _
  unfold execEret
  rw [issue_go h]
  simp only [hsv, Ctx.trapped_some hk hstatus hctx, hrel', hload']
  rfl

/-! ### TLBSD -/

theorem tlbPage_eq (z : BitVec 2) : tlbPage z.toNat = if z = 0 then 2 ^ 16 else if z = 1 then 2 ^ 21 else 2 ^ 30 := by
  revert z
  decide

/-- The shootdown a path holds in. -/
def State.ownShootdown (s : State) (g : Group) (p : Path) : Option Shootdown :=
  if p.isHeld then s.shootdowns.find? fun d => d.madeBy g.uid s.cur.pslot else none

theorem State.ownShootdown_none (h : p.isHeld = false ∨ s.shootdowns.find? (fun d => d.madeBy g.uid s.cur.pslot) = none) :
    s.ownShootdown g p = none := by
  unfold State.ownShootdown
  split
  · next hheld => exact h.resolve_left fun hno => Bool.false_ne_true (hno.symm.trans hheld)
  · rfl

theorem State.ownShootdown_some {x : Shootdown} (hheld : p.isHeld = true)
    (hx : s.shootdowns.find? (fun d => d.madeBy g.uid s.cur.pslot) = some x) : s.ownShootdown g p = some x := (if_pos hheld).trans hx

/-- The shootdowns but that of the path at the issue point. -/
def State.otherShootdowns (s : State) (g : Group) : List Shootdown := s.shootdowns.filter fun d => !d.madeBy g.uid s.cur.pslot

theorem exec_tlbsd_started (h : Goes (.tlbsd z a) s g p latch chain) {x : Shootdown} (hx : s.ownShootdown g p = some x) :
    exec (.tlbsd z a) s = if (x.todo.isEmpty && x.acks.isEmpty) = true
      then ((Issuing (.tlbsd z a) s g p latch chain).inState { s with shootdowns := s.otherShootdowns g }).done
        (Started (.tlbsd z a) s g p chain)
      else (Issuing (.tlbsd z a) s g p latch chain).hold .plain := by
  have hx' : (if (Issuing (.tlbsd z a) s g p latch chain).p.isHeld then (Issuing (.tlbsd z a) s g p latch chain).s.shootdowns.find?
      (fun d => d.madeBy (Issuing (.tlbsd z a) s g p latch chain).g.uid (Issuing (.tlbsd z a) s g p latch chain).ps) else none) = some x := hx
  change execTlbsd z a s = _
  unfold execTlbsd
  rw [issue_go h]
  simp only [hx']
  rfl

theorem exec_tlbsd_start (h : Goes (.tlbsd z a) s g p latch chain) (hx : s.ownShootdown g p = none) :
    exec (.tlbsd z a) s = if g.sr64 a.toNat % tlbPage z.toNat ≠ 0 then (Issuing (.tlbsd z a) s g p latch chain).trap (Trap.of cAlign)
      else ((Issuing (.tlbsd z a) s g p latch chain).inState { s with shootdowns := s.otherShootdowns g ++ [⟨g.uid, s.cur.pslot,
        (g.sr (a.toNat + 2)).toNat, g.sr64 a.toNat, (g.sr (a.toNat + 3)).toNat * tlbPage z.toNat, run 0 128, []⟩] }).hold .plain := by
  have hx' : (if (Issuing (.tlbsd z a) s g p latch chain).p.isHeld then (Issuing (.tlbsd z a) s g p latch chain).s.shootdowns.find?
      (fun d => d.madeBy (Issuing (.tlbsd z a) s g p latch chain).g.uid (Issuing (.tlbsd z a) s g p latch chain).ps) else none) = none := hx
  change execTlbsd z a s = _
  unfold execTlbsd
  rw [issue_go h]
  simp only [hx']
  rfl

/-! ### HALT -/

theorem SameGroup.ex {g k : Group} (h : SameGroup g k) : k.ex = g.ex := by
  unfold SameGroup at h
  rw [← h]

/-- A path that moves on to the next instruction leaves its group as it was but for what issuing moves. -/
theorem exists_retired (h : Goes i s g p latch chain) (hsize : i.size = 4) : ∃ k : Group, k.regs = g.regs ∧ SameGroup g k
    ∧ Advanced s s.cur.pslot g p chain (p.pc + 4) k
    ∧ (Issuing i s g p latch chain).retireAt (Started i s g p chain) (p.pc + BitVec.ofNat 64 i.size) = s.setGroup s.cur.key k := by
  have hpath : (Started i s g p chain).path s.cur.pslot = some p := (Started.path ..).trans h.path
  have hsame : SameGroup g ((Started i s g p chain).setPath s.cur.pslot (some (p.advance (p.pc + 4)))) := (Started.same ..).setPath ..
  refine ⟨s.atBoundary ((Started i s g p chain).setPath s.cur.pslot (some (p.advance (p.pc + 4)))), ?_, (State.atBoundary_paths ..).same hsame,
    ⟨_, rfl, Group.path_setPath .., (Group.path_other_setPath ..).trans (Started.path ..), Group.chain_setPath .., Group.dsp_setPath .., ?_,
      Group.nextB_setPath ..⟩, ?_⟩
  · rw [(State.atBoundary_paths ..).regs, Group.regs_setPath, Started.regs]
  · exact hsame.ex
  · rw [Ctx.retireAt_of_path (c := Issuing i s g p latch chain) hpath, hsize]
    rfl

theorem exec_halt (h : Goes .halt s g p latch chain) : exec .halt s
    = .next (let t := (Issuing .halt s g p latch chain).retireAt (Started .halt s g p chain) (p.pc + BitVec.ofNat 64 Instr.halt.size)
        if t.ctxstat.getLsbD 31 then { t with halts := t.halts ++ [(g.ctx, s.cur.key / 128)] }
        else t.haltContext g.ctx (s.cur.key / 128) 0) := by
  change execHalt s = _
  exact issue_go h _

/-! ### WRPEER, RDSYS and WRSYS -/

theorem exec_wrpeer (h : Goes (.wrpeer q a) s g p latch chain) {seg : Segment} (hseg : s.segment g.team g.seg = some seg) :
    exec (.wrpeer q a) s = ((Issuing (.wrpeer q a) s g p latch chain).inState (s.setSegment g.team g.seg
      { seg with peers := SMap.put 0 seg.peers q.toNat (peerOf g a.toNat) })).done (Started (.wrpeer q a) s g p chain) := by
  have hseg' : (Issuing (.wrpeer q a) s g p latch chain).s.segment (Issuing (.wrpeer q a) s g p latch chain).g.team
      (Issuing (.wrpeer q a) s g p latch chain).g.seg = some seg := hseg
  change execWrpeer q a s = _
  unfold execWrpeer
  rw [issue_go h]
  simp only [hseg']
  rfl

theorem exec_rdsys (h : Goes (.rdsys r d) s g p latch chain) : exec (.rdsys r d) s
    = (Issuing (.rdsys r d) s g p latch chain).scalar d.toNat ((Issuing (.rdsys r d) s g p latch chain).readSys r.toNat) := by
  change execRdsys r d s = _
  exact issue_go h _

theorem exec_wrsys (h : Goes (.wrsys r d) s g p latch chain) : exec (.wrsys r d) s
    = if r.toNat = 0 then (Issuing (.wrsys r d) s g p latch chain).done
        { Started (.wrsys r d) s g p chain with gstat := s.sv s.cur.key g d.toNat &&& gstatMask }
      else ((Issuing (.wrsys r d) s g p latch chain).inState
        (s.setContext g.ctx ((s.context g.ctx).writeSys r.toNat (s.sv s.cur.key g d.toNat)))).done (Started (.wrsys r d) s g p chain) := by
  change execWrsys r d s = _
  exact issue_go h _

end System

end Sys2Proof.Machine

open Sys2Proof Sys2Proof.Machine in
/-- Settles O21: each instruction is its branch of the model: it traps and resumes, completes, or holds as the state decides. -/
theorem systemResults : Obligations.SystemResults := by
  intro n a d z q r s g p latch chain resumed
  refine ⟨fun h hr => ?trap, fun h hr => ?bkpt, fun h => ?eret, fun h => ?tlbsd, fun h => ?halt, fun h seg hseg => ?wrpeer, fun h => ?rdsys,
    fun h => ?wrsys⟩
  case trap => exact (exec_trap h).trans (trapNext_issuing (Instr.size_trap n) (group_of_goes h rfl fun _ => rfl) hr _)
  case bkpt => exact (exec_bkpt h).trans (trapNext_issuing (Instr.size_bkpt n) (group_of_goes h rfl fun _ => rfl) hr _)
  case eret =>
    intro slot key
    refine ⟨fun hno => completes_unchanged h (exec_eret_none h hno), fun k hk hstatus hctx hrel s1 bs hload => ?_⟩
    exact completesAt_of_machine h (Instr.size_eret a) (exec_eret_reloads h hk hstatus hctx hrel hload)
  case tlbsd =>
    intro page mine others
    refine ⟨fun x hheld hx htodo hacks => ?_, fun hnone haligned => ?_, fun x hheld hx hwaits => ?_⟩
    · refine completesAt_of_machine h (Instr.size_tlbsd z a) ((exec_tlbsd_started h (State.ownShootdown_some hheld hx)).trans (if_pos ?_))
      rw [htodo, hacks]
      rfl
    · have he := exec_tlbsd_start h (State.ownShootdown_none hnone)
      rw [tlbPage_eq] at he
      exact (he.trans (if_neg (not_not_intro haligned))).trans (Ctx.stall_eq (group_of_goes h rfl fun _ => rfl) _)
    · refine ((exec_tlbsd_started h (State.ownShootdown_some hheld hx)).trans (if_neg ?_)).trans
        (Ctx.stall_eq (group_of_goes h rfl fun _ => rfl) _)
      rw [Bool.and_eq_true, List.isEmpty_iff, List.isEmpty_iff]
      exact fun ⟨htodo, hacks⟩ => hwaits.elim (· htodo) (· hacks)
  case halt =>
    obtain ⟨k, hregs, hsame, hadv, hretired⟩ := exists_retired h Instr.size_halt
    refine ⟨k, hregs, hsame, hadv, ?_⟩
    rw [exec_halt h, hretired]
    rfl
  case wrpeer => exact completesAt_of_machine h (Instr.size_wrpeer q a) (exec_wrpeer h hseg)
  case rdsys => exact completes_scalar h (exec_rdsys h)
  case wrsys =>
    have hzero : r.toNat = 0 ↔ r = 0 := by rw [← BitVec.toNat_inj]; rfl
    refine ⟨fun hr => ?_, fun hr => ?_⟩
    · exact completes_done h 0 { Started (.wrsys r d) s g p chain with gstat := s.sv s.cur.key g d.toNat &&& gstatMask } rfl
        ((exec_wrsys h).trans (if_pos (hzero.mpr hr)))
    · exact completesAt_of_machine h (Instr.size_wrsys r d) ((exec_wrsys h).trans (if_neg fun h0 => hr (hzero.mp h0)))

/-! ## Active messages at their target and their answers (07 R232, R235 to R237; 11 R329, R337) -/

namespace Sys2Proof.Machine

/-! ### Taking a message off a list -/

section Taking
variable {α : Type} {f : α → Bool} {before after : List α} {x : α}

theorem takeFirst_none {l : List α} (h : ∀ y ∈ l, f y = false) : takeFirst f l = none := by
  induction l with
  | nil => rfl
  | cons y l ih =>
    have hrest := ih fun z hz => h z (List.mem_cons_of_mem _ hz)
    simp [takeFirst, h y List.mem_cons_self, hrest]

theorem takeFirst_append (h : ∀ y ∈ before, f y = false) (hx : f x = true) :
    takeFirst f (before ++ x :: after) = some (x, before ++ after) := by
  induction before with
  | nil => simp [takeFirst, hx]
  | cons y before ih =>
    have hrest := ih fun z hz => h z (List.mem_cons_of_mem _ hz)
    simp [takeFirst, h y List.mem_cons_self, hrest]

theorem takeNth_zero_append (h : ∀ y ∈ before, f y = false) (hx : f x = true) :
    takeNth f 0 (before ++ x :: after) = some (x, before ++ after) := by
  induction before with
  | nil => simp [takeNth, hx]
  | cons y before ih =>
    have hrest := ih fun z hz => h z (List.mem_cons_of_mem _ hz)
    simp [takeNth, h y List.mem_cons_self, hrest]

end Taking

/-- A message is not taken while an earlier one of its kind and of its route is on its way (11 R329). -/
theorem State.takeOrdered_second {s : State} {f : Msg → Bool} {k m : Msg} {between after : List Msg}
    (hnet : s.net = k :: between ++ m :: after) (hk : f k = true)
    (hbetween : ∀ x ∈ between, f x = false) (hm : f m = true) (hroute : s.route k = s.route m)
    (hsome : (s.route m).isSome = true) : s.takeOrdered f 1 = none := by
  have htake : s.takeMsg f 1 = some (m, { s with net := k :: between ++ after }) := by
    simp [State.takeMsg, hnet, takeNth, hk, takeNth_zero_append hbetween hm]
  have hearlier : (msgsBefore f 1 s.net).any (fun x => s.route x == s.route m) = true := by
    simp [hnet, msgsBefore, hroute]
  simp only [State.takeOrdered, htake, hsome, hearlier, Bool.and_self, if_true]

/-! ### The events -/

section Arrival
variable {s : State} {m : ActiveMsg} {rest : List Msg}

/-- The answer of a message's target to its sender. -/
def State.sendStatus (u : State) (s : State) (m : ActiveMsg) (w : Word) : State :=
  u.sendTo (m.core / 128) m.srcDev m.dctag (.activeAns m.uid m.sd w (1024 * s.dev + m.core))

theorem exec_activeMessageArrival (hnet : s.net = .active m :: rest) : exec (.activeMessageArrival 0) s
    = .next ((({ s with net := rest } : State).receive m).1.sendStatus s m (({ s with net := rest } : State).receive m).2) := by
  change execActiveMessageArrival 0 s = _
  simp only [execActiveMessageArrival]
  rw [State.takeOrdered_first hnet rfl]
  rfl

theorem State.receive_untagged (h : s.messageCtx m = none) : s.receive m = (s, 1) := by
  simp only [State.receive, h]
  rfl

variable {c : Nat} (hctx : s.messageCtx m = some c)
include hctx

theorem State.receive_noHandler (h : (s.handlerOf c m.core m.handler).2 = none) :
    s.receive m = ((s.handlerOf c m.core m.handler).1, 1) := by
  have hpair : s.handlerOf c m.core m.handler = ((s.handlerOf c m.core m.handler).1, none) := Prod.ext rfl h
  unfold State.receive
  simp only [hctx]
  rw [hpair]
  rfl

theorem State.receive_handler {p : BitVec 1024} (h : (s.handlerOf c m.core m.handler).2 = some p) :
    s.receive m = if 16 ≤ ((s.handlerOf c m.core m.handler).1.core m.core).msgq.length then ((s.handlerOf c m.core m.handler).1, 3)
      else ((s.handlerOf c m.core m.handler).1.setCore m.core { (s.handlerOf c m.core m.handler).1.core m.core with
        msgq := ((s.handlerOf c m.core m.handler).1.core m.core).msgq ++ [⟨c, p, m.words, m.srcCore, m.srcDev⟩] }, 0) := by
  have hpair : s.handlerOf c m.core m.handler = ((s.handlerOf c m.core m.handler).1, some p) := Prod.ext rfl h
  unfold State.receive
  simp only [hctx]
  rw [hpair]
  rfl

end Arrival

theorem State.answered_none {t : State} {f : Msg → Bool} (h : ∀ e ∈ t.outbox, f e.2.msg = false) : t.answered f = t := by
  simp only [State.answered, takeFirst_none h]

theorem State.answered_first {t : State} {f : Msg → Bool} {before after : List (Nat × Parcel)} {e : Nat × Parcel}
    (hout : t.outbox = before ++ e :: after) (hbefore : ∀ x ∈ before, f x.2.msg = false) (he : f e.2.msg = true) :
    t.answered f = { t with outbox := before ++ after } := by
  have htake : takeFirst (fun x => f x.2.msg) t.outbox = some (e, before ++ after) := by
    rw [hout]
    exact takeFirst_append hbefore he
  simp only [State.answered, htake]

theorem exec_activeMessageAnswer {s : State} {uid sd : Nat} {w : Word} {src : Nat} {rest : List Msg}
    (hnet : s.net = .activeAns uid sd w src :: rest) : exec (.activeMessageAnswer 0) s
      = .next ((({ s with net := rest } : State).answered (Msg.askedBy uid sd)).answerScalar uid sd w) := by
  change execActiveMessageAnswer 0 s = _
  simp only [execActiveMessageAnswer]
  rw [State.takeOrdered_first hnet rfl]

end Sys2Proof.Machine

open Sys2Proof Sys2Proof.Machine in
/-- Settles O46: a message at its target is received, whatever its fate, and answered; an earlier one of its route holds it back. -/
theorem activeMessages : Obligations.ActiveMessages := by
  refine ⟨fun ctx clear set s => rfl, fun s m rest hnet => ?arrival, fun s m k between after hnet hbetween hcore hdev htarget => ?held,
    fun s uid sd w src rest hnet => exec_activeMessageAnswer hnet, fun t uid sd w => rfl,
    fun t f => ⟨State.answered_none, fun before e after hout hbefore he => State.answered_first hout hbefore he⟩⟩
  case arrival =>
    intro t answer
    have he : exec (.activeMessageArrival 0) s = .next (answer (t.receive m).1 (t.receive m).2) := exec_activeMessageArrival hnet
    refine ⟨fun hnone => ?_, fun c hctx => ⟨fun hno => ?_, fun p hp hfull => ?_, fun p hp hroom => ?_⟩⟩
    · rw [he, State.receive_untagged hnone]
    · rw [he, State.receive_noHandler hctx hno]
    · rw [he, State.receive_handler hctx hp, if_pos hfull]
    · rw [he, State.receive_handler hctx hp, if_neg (Nat.not_le.mpr hroom)]
  case held =>
    have hroute : s.route (.active k) = s.route (.active m) := by simp only [State.route, hcore, hdev, htarget]
    change execActiveMessageArrival 1 s = _
    simp only [execActiveMessageArrival]
    rw [State.takeOrdered_second hnet rfl hbetween rfl hroute rfl]

/-! ## Trap service, machine checks and fetch traps (02 R72; 07 R240; 10 R308, R310, R312) -/

namespace Sys2Proof.Machine

/-! ### Trap service -/

section Service
variable {core slot : Nat} {s t t1 : State} {g : Group} {rest : List Nat} {bs : List Byte}

/-- The oldest trap that waits on a core with a free service slot is served, or halts its context. -/
theorem exec_trapServiceStart (hq : (s.core core).trapq = slot :: rest) (hfree : s.group (groupKey core 64) = none)
    (hg : s.group (groupKey core slot) = some g) (hstatus : g.status = .trapped) (hpend : g.svcPend = true) :
    exec (.trapServiceStart core) s = .next ((s.setCore core { s.core core with trapq := rest }).startService core slot g) := by
  have hfree' : s.group (groupKey core serviceSlot) = none := hfree
  have hg' : (s.setCore core { s.core core with trapq := rest }).group (groupKey core slot) = some g := hg
  change execTrapServiceStart core s = _
  simp only [execTrapServiceStart, hq, hfree', hg']
  rw [if_pos ⟨hstatus, hpend⟩]

theorem State.startService_disabled (h0 : (t.context g.ctx).tsvc.toNat = 0) : t.startService core slot g = t.haltContext g.ctx core g.cause :=
  if_pos h0

variable (h0 : (t.context g.ctx).tsvc.toNat ≠ 0)
include h0

theorem State.startService_unreadable {k : XKind} (hload : t.loadVirt core (t.asidOf g) (t.context g.ctx).tsvc.toNat 64 = .error k) :
    t.startService core slot g = t.haltContext g.ctx core g.cause := by
  have hload' : t.loadVirt core (t.asidOf g) (t.context g.ctx).tsvc.toNat headerBytes = .error k := hload
  refine (if_neg h0).trans ?_
  simp only [hload']

theorem State.startService_unsound (hload : t.loadVirt core (t.asidOf g) (t.context g.ctx).tsvc.toNat 64 = .ok (t1, bs))
    (hbad : goodService bs = false) : t.startService core slot g = t1.haltContext g.ctx core g.cause := by
  have hload' : t.loadVirt core (t.asidOf g) (t.context g.ctx).tsvc.toNat headerBytes = .ok (t1, bs) := hload
  refine (if_neg h0).trans ?_
  simp only [hload', hbad]
  rfl

theorem State.startService_sound (hload : t.loadVirt core (t.asidOf g) (t.context g.ctx).tsvc.toNat 64 = .ok (t1, bs))
    (hgood : goodService bs = true) : t.startService core slot g
      = ((({ t1 with nextUid := t1.nextUid + 1 } : State).setCore core { t1.core core with serving := slot }).setGroup
        (groupKey core slot) { g with svcPend := false }).setGroup (groupKey core 64)
          (serviceGroup t1 core slot g bs (t.context g.ctx).tsvc.toNat) := by
  have hload' : t.loadVirt core (t.asidOf g) (t.context g.ctx).tsvc.toNat headerBytes = .ok (t1, bs) := hload
  refine (if_neg h0).trans ?_
  simp only [hload', hgood]
  rfl

end Service

/-- The scalars of a service group name the trap: its record, its slot and its cause (07 Table 7-4). -/
theorem sr_serviceGroup (s : State) (core slot : Nat) (g : Group) (bs : List Byte) (tsvc r : Nat) :
    (serviceGroup s core slot g bs tsvc).sr r
      = if r = 2 then BitVec.ofNat 32 (s.recordAddr g.ctx core slot) else if r = 3 then BitVec.ofNat 32 (s.recordAddr g.ctx core slot / 2 ^ 32)
        else if r = 4 then BitVec.ofNat 32 slot else if r = 5 then BitVec.ofNat 32 g.cause else 0 := by
  rw [serviceGroup, Group.sr_start]
  rcases Nat.lt_or_ge r 6 with h | h
  · interval_cases r <;> rfl
  · rw [List.getD_eq_default _ _ (by simpa using h), if_neg (by omega), if_neg (by omega), if_neg (by omega), if_neg (by omega)]

/-! ### Traps at the boundary -/

theorem exec_machineCheck {core slot : Nat} {s : State} {g : Group} {pc addr : DWord} {ps : PSlot} {rest : List (DWord × PSlot × DWord)}
    (hg : s.group (groupKey core slot) = some g) (hm : g.mcheck = (pc, ps, addr) :: rest) (hrun : g.status = .running)
    (hissue : g.inIssue = false) (hr : s.trapReady g = true) :
    exec (.machineCheck core slot) s
      = .next ((s.setGroup (groupKey core slot) { g with mcheck := rest }).raiseTrap (groupKey core slot) ps (dataTrap pc addr)) := by
  change execMachineCheck core slot s = _
  simp only [execMachineCheck, hg, hm]
  exact if_pos ⟨hrun, by rw [hissue]; rfl, hr⟩

section Fetching
variable {s : State} {g : Group} {p : Path} (hg : s.group s.cur.key = some g) (hp : g.path s.cur.pslot = some p) (hrun : g.status = .running)
  (hissue : g.inIssue = false) (hmay : g.mayIssue s.cur.pslot = true)
include hg hp hrun hissue hmay

theorem State.fetching_some : s.fetching = some (g, p) := by
  simp only [State.fetching, hg, hp]
  exact if_pos ⟨hrun, by rw [hissue]; rfl, hmay⟩

variable (hr : s.trapReady g = true)
include hr

theorem exec_fetchTrap {k : XKind} (hcode : s.codeAt s.cur.core (s.asidOf g) p.pc.toNat = .error k) :
    exec .fetchTrap s = .next (s.trapIssue s.cur.key s.cur.pslot { Trap.of cFetch with detail := k.code }) := by
  change execFetchTrap s = _
  simp only [execFetchTrap, State.fetching_some hg hp hrun hissue hmay, hcode]
  exact congrArg _ (if_pos hr)

theorem exec_unassignedEncoding {w : BitVec 32} (hcode : s.codeAt s.cur.core (s.asidOf g) p.pc.toNat = .ok (.error (.unassigned w))) :
    exec (.unassignedEncoding w) s = .next (s.trapIssue s.cur.key s.cur.pslot (Trap.of cIllegal)) := by
  change execUnassignedEncoding w s = _
  simp only [execUnassignedEncoding, State.fetching_some hg hp hrun hissue hmay, hcode, if_true]
  exact congrArg _ (if_pos hr)

end Fetching

end Sys2Proof.Machine

open Sys2Proof Sys2Proof.Machine in
/-- Settles O37: the oldest waiting trap starts its service, or halts its context; the other events raise their trap. -/
theorem serviceAndFetchTraps : Obligations.ServiceAndFetchTraps := by
  intro core s
  refine ⟨fun slot rest g hslot hq hfree hg hstatus hpend => ?service, fun slot g pc ps addr rest hslot hg hm hrun hissue hr => ?check,
    fun g p hg hp hr hrun hissue hmay => ?fetch⟩
  case service =>
    intro t tsvc record
    have he := exec_trapServiceStart hq hfree hg hstatus hpend
    refine ⟨fun h0 => ?_, fun k h0 hload => ?_, fun t1 bs h0 hload hbad => ?_, fun t1 bs h0 hload hgood hctx => ?_⟩
    · exact he.trans (congrArg _ (State.startService_disabled (t := t) h0))
    · exact he.trans (congrArg _ (State.startService_unreadable (t := t) h0 hload))
    · exact he.trans (congrArg _ (State.startService_unsound (t := t) h0 hload hbad))
    · have hrecord : t1.recordAddr g.ctx core slot = record := by rw [State.recordAddr, hctx]
      refine ⟨_, he.trans (congrArg _ (State.startService_sound (t := t) h0 hload hgood)), rfl, rfl, rfl, rfl, rfl, rfl, rfl, rfl, rfl,
        rfl, rfl, fun r => ?_, fun r l hl => Group.vr_start _ _ _ _ _ hl⟩
      rw [← hrecord]
      exact sr_serviceGroup ..
  case check => exact exec_machineCheck hg hm hrun hissue hr
  case fetch =>
    intro at_
    exact ⟨fun k hk => exec_fetchTrap hg hp hrun hissue hmay hr hk, fun w hw => exec_unassignedEncoding hg hp hrun hissue hmay hr hw⟩

/-! ## Translation, shootdown, migration and hot lines (07 R245; 09 R289, R294 to R296; 11 R330 to R332) -/

namespace Sys2Proof

theorem SMap.getD_map {α β : Type} (m : SMap α) (f : α → β) (j : Nat) (d : α) :
    SMap.getD (m.map fun e => (e.1, f e.2)) j (f d) = f (SMap.getD m j d) := by
  have hfind : SMap.find (m.map fun e => (e.1, f e.2)) j = (SMap.find m j).map f := by
    induction m with
    | nil => rfl
    | cons e m ih =>
      obtain ⟨k, x⟩ := e
      simp only [List.map_cons, SMap.find]
      split
      · rfl
      · exact ih
  rw [SMap.getD, SMap.getD, hfind]
  cases SMap.find m j <;> rfl

end Sys2Proof

namespace Sys2Proof.Machine

/-! ### TRANSLATION_REQUEST and REMAP_ANSWER -/

theorem homeSlice_lt (asid va : Nat) : homeSlice asid va < 64 := Nat.mod_lt _ (by decide)

theorem proxyOf_eq {h : Nat} (hlt : h < 64) : proxyOf h = (h + 32) % 64 := by
  have hdie : dieOf h = h / 32 := rfl
  rcases Nat.lt_or_ge h 32 with h0 | h1
  · rw [proxyOf, partialHolder, hdie, if_neg (by omega)]
    omega
  · rw [proxyOf, partialHolder, hdie, if_neg (by omega)]
    omega

theorem exec_translationRequest {mc asid va : Nat} {s : State} {l : Leaf}
    (hserves : mc = homeSlice asid va ∨ mc = (homeSlice asid va + 32) % 64) (hleaf : s.entryAt mc asid va = .leaf l) :
    exec (.translationRequest mc asid va) s = .next (s.setSlice mc ((s.slice mc).keepLeaf l)) := by
  rw [← proxyOf_eq (homeSlice_lt asid va)] at hserves
  change execTranslationRequest mc asid va s = _
  refine (if_neg fun hc => hserves.elim hc.1 hc.2).trans ?_
  simp only [hleaf]

theorem exec_translationRequest_idle {mc asid va : Nat} {s : State}
    (h : (mc ≠ homeSlice asid va ∧ mc ≠ (homeSlice asid va + 32) % 64) ∨ s.entryAt mc asid va = .bad) :
    exec (.translationRequest mc asid va) s = .next s := by
  rw [← proxyOf_eq (homeSlice_lt asid va)] at h
  change execTranslationRequest mc asid va s = _
  unfold execTranslationRequest
  dsimp only
  split
  · rfl
  · next hserves => rw [h.resolve_left hserves]

/-- Keeping a leaf changes no remap entry. -/
theorem State.remap_noteTranslation {s : State} {ni asid va n ca cb : Nat} {r w x : Bool}
    (hsyn : s.entryBy (some (ni / 32)) asid va = .synonym n ca cb r w x) : (s.noteTranslation ni asid va).remap
      = SMap.insert s.remap ni ((⟨asid, va / 2 ^ n * 2 ^ n, n, ca, cb, r, w, x⟩ ::
          (SMap.getD s.remap ni []).filter fun k => k != ⟨asid, va / 2 ^ n * 2 ^ n, n, ca, cb, r, w, x⟩).take 256) := by
  simp only [State.noteTranslation, hsyn]
  split <;> rfl

theorem exec_remapAnswer {node asid va n ca cb : Nat} {r w x : Bool} {s : State} (hnode : node < 64)
    (hsyn : s.entryBy (some (node / 32)) asid va = .synonym n ca cb r w x) :
    exec (.remapAnswer node asid va) s = .next (s.noteTranslation node asid va) := by
  change execRemapAnswer node asid va s = _
  simp only [execRemapAnswer, hsyn]
  rw [if_pos hnode]

/-! ### SHOOTDOWN_BROADCAST and SHOOTDOWN_ACK -/

section Shootdown
variable {s : State} {d : Shootdown}

theorem Shootdown.madeBy_iff (k : Shootdown) (uid : Nat) (ps : PSlot) : k.madeBy uid ps = true ↔ k.uid = uid ∧ k.slot = ps := by
  simp [Shootdown.madeBy]

/-- A shootdown an agent has processed and is still to acknowledge. -/
def Shootdown.processed (k : Shootdown) (agent : Nat) : Shootdown :=
  { k with todo := k.todo.filter (· != agent), acks := k.acks ++ [agent] }

theorem State.shoot_of_todo {agent : Nat} (hagent : agent ∈ d.todo) :
    let s1 := if agent < 64 then s.shootSlice agent d else s.shootNode (agent - 64) d
    s.shoot agent d = { s1 with
      shootdowns := s1.shootdowns.map fun k => if k.uid = d.uid ∧ k.slot = d.slot then k.processed agent else k } := by
  have hmove : (fun k : Shootdown => if k.madeBy d.uid d.slot then k.processed agent else k)
      = fun k => if k.uid = d.uid ∧ k.slot = d.slot then k.processed agent else k :=
    funext fun k => if_congr (k.madeBy_iff ..) rfl rfl
  rw [← hmove]
  exact if_pos (List.contains_iff_mem.mpr hagent)

theorem State.shoot_of_done {agent : Nat} (hagent : agent ∉ d.todo) : s.shoot agent d = s :=
  if_neg fun hc => hagent (List.contains_iff_mem.mp hc)

theorem exec_shootdownBroadcast (hs : s.shootdowns = [d]) (agent : Nat) : exec (.shootdownBroadcast agent) s = .next (s.shoot agent d) := by
  change execShootdownBroadcast agent s = _
  rw [execShootdownBroadcast, hs]
  rfl

theorem exec_shootdownAck (hs : s.shootdowns = [d]) (agent : Nat) : exec (.shootdownAck agent) s = .next { s with
    shootdowns := [if d.acks.contains agent && s.drainedFor d then { d with acks := d.acks.filter (· != agent) } else d] } := by
  change execShootdownAck agent s = _
  simp only [execShootdownAck, hs, List.map_cons, List.map_nil]

end Shootdown

/-! ### What revoking a hot line leaves unchanged (11 R332) -/

/-- Two machines with the same memory, groups, teams, contexts and cores. -/
structure SameMachine (s t : State) : Prop where
  mem : t.mem = s.mem
  groups : t.groups = s.groups
  teams : t.teams = s.teams
  contexts : t.contexts = s.contexts
  cores : t.cores = s.cores

/-- Two machines that differ in no hot line and no redirect entry either. -/
structure SameHot (s t : State) : Prop extends SameMachine s t where
  redirect : t.redirect = s.redirect
  hot : ∀ k, (t.slice k).hot = (s.slice k).hot

theorem SameMachine.refl (s : State) : SameMachine s s := ⟨rfl, rfl, rfl, rfl, rfl⟩

theorem SameMachine.trans {s t u : State} (h : SameMachine s t) (k : SameMachine t u) : SameMachine s u :=
  ⟨k.mem.trans h.mem, k.groups.trans h.groups, k.teams.trans h.teams, k.contexts.trans h.contexts, k.cores.trans h.cores⟩

theorem SameHot.refl (s : State) : SameHot s s := ⟨.refl s, rfl, fun _ => rfl⟩

theorem SameHot.trans {s t u : State} (h : SameHot s t) (k : SameHot t u) : SameHot s u :=
  ⟨h.toSameMachine.trans k.toSameMachine, k.redirect.trans h.redirect, fun n => (k.hot n).trans (h.hot n)⟩

theorem SameMachine.foldl {β : Type} {f : State → β → State} (h : ∀ u b, SameMachine u (f u b)) (l : List β) (s : State) :
    SameMachine s (l.foldl f s) := by
  induction l generalizing s with
  | nil => exact .refl s
  | cons b l ih => exact (h s b).trans (ih (f s b))

theorem SameHot.foldl {β : Type} {f : State → β → State} (h : ∀ u b, SameHot u (f u b)) (l : List β) (s : State) :
    SameHot s (l.foldl f s) := by
  induction l generalizing s with
  | nil => exact .refl s
  | cons b l ih => exact (h s b).trans (ih (f s b))

theorem State.slice_setSlice (s : State) (n k : Nat) (x : Slice) : (s.setSlice n x).slice k = if k = n then x else s.slice k :=
  SMap.getD_insert ..

/-- Replacing a slice's state by one with the same hot lines. -/
theorem SameHot.setSlice (s : State) (n : Nat) {x : Slice} (hx : x.hot = (s.slice n).hot) : SameHot s (s.setSlice n x) := by
  refine ⟨⟨rfl, rfl, rfl, rfl, rfl⟩, rfl, fun k => ?_⟩
  rw [State.slice_setSlice]
  split
  · next hk => rw [hx, hk]
  · rfl

theorem SameHot.setCache (s : State) (n : Nat) (c : Cache) : SameHot s (s.setCache n c) := ⟨⟨rfl, rfl, rfl, rfl, rfl⟩, rfl, fun _ => rfl⟩

theorem SameHot.toHolder (s : State) (n cls key : Nat) : SameHot s (s.toHolder n cls key) := by
  unfold State.toHolder
  split
  · exact .refl s
  · exact ⟨⟨rfl, rfl, rfl, rfl, rfl⟩, rfl, fun _ => rfl⟩

theorem SameHot.mirrorDie (s : State) (key d : Nat) : SameHot s (s.mirrorDie key d) := by
  obtain h | ⟨st, v, r, w, h⟩ | h := s.mirrorDie_eq key d
  · rw [h]
    exact .refl s
  · rw [h]
    exact .setCache ..
  · rw [h]
    exact .setCache ..

theorem SameHot.syncDir (s : State) (key : Nat) : SameHot s (s.syncDir key) := by
  have hmirror : SameHot s (s.mirror key) := by
    rw [State.mirror_eq]
    exact (SameHot.mirrorDie s key 1).trans (.mirrorDie _ key 0)
  exact hmirror.trans (.setSlice _ _ rfl)

/-- A sector's sharers leave their caches. -/
def State.dropSharers (s : State) (key : Nat) : State :=
  ((s.holders key).foldl (fun u e => if e.2.1 = .s then (u.toHolder e.1 1 key).setCache e.1 ((u.cache e.1).drop key) else u) s).syncDir key

theorem SameHot.dropSharers (s : State) (key : Nat) : SameHot s (s.dropSharers key) := by
  refine SameHot.trans (.foldl (fun u e => ?_) _ s) (.syncDir ..)
  split
  · exact (SameHot.toHolder ..).trans (.setCache ..)
  · exact .refl u

/-- A helper serves a hot line no more (11 R332). -/
def State.dropReplica (s : State) (tag helper : Nat) : State :=
  s.setSlice helper { s.slice helper with
    replica := (s.slice helper).replica.filter (fun e => e.1 / 4 != tag), helped := SMap.erase (s.slice helper).helped tag }

theorem SameHot.dropReplica (s : State) (tag helper : Nat) : SameHot s (s.dropReplica tag helper) := .setSlice _ _ rfl

/-- The home lists a line as hot no more, and no interface redirects it. -/
def State.unlistHot (s : State) (tag : Nat) : State :=
  { s.setSlice (s.homeAt (4 * tag)) { s.slice (s.homeAt (4 * tag)) with hot := (s.slice (s.homeAt (4 * tag))).hot.filter (· != tag) } with
    redirect := s.redirect.map fun e => (e.1, e.2.filter fun r => r.tag != tag) }

theorem State.revokeHot_of_hot {s : State} {tag : Nat} (h : tag ∈ (s.slice (s.homeAt (4 * tag))).hot) :
    s.revokeHot tag = (run (4 * tag) 4).foldl State.dropSharers
      ((helpersOf (s.homeAt (4 * tag))).foldl (fun st k => st.dropReplica tag k) (s.unlistHot tag)) :=
  if_pos (List.contains_iff_mem.mpr h)

theorem State.revokeHot_of_not_hot {s : State} {tag : Nat} (h : tag ∉ (s.slice (s.homeAt (4 * tag))).hot) : s.revokeHot tag = s :=
  if_neg fun hc => h (List.contains_iff_mem.mp hc)

theorem sameHot_revokeHot {s : State} {tag : Nat} (h : tag ∈ (s.slice (s.homeAt (4 * tag))).hot) :
    SameHot (s.unlistHot tag) (s.revokeHot tag) := by
  rw [State.revokeHot_of_hot h]
  exact (SameHot.foldl (fun u k => .dropReplica u tag k) _ _).trans (.foldl SameHot.dropSharers _ _)

theorem sameMachine_revokeHot (s : State) (tag : Nat) : SameMachine s (s.revokeHot tag) := by
  by_cases h : tag ∈ (s.slice (s.homeAt (4 * tag))).hot
  · exact SameMachine.trans (t := s.unlistHot tag) ⟨rfl, rfl, rfl, rfl, rfl⟩ (sameHot_revokeHot h).toSameMachine
  · rw [State.revokeHot_of_not_hot h]
    exact .refl s

section Revoked
variable {s : State} {tag : Nat} (h : tag ∈ (s.slice (s.homeAt (4 * tag))).hot)
include h

theorem State.hot_revokeHot : ((s.revokeHot tag).slice (s.homeAt (4 * tag))).hot
    = (s.slice (s.homeAt (4 * tag))).hot.filter (· != tag) := by
  rw [(sameHot_revokeHot h).hot]
  exact congrArg Slice.hot ((State.slice_setSlice ..).trans (if_pos rfl))

theorem State.redirect_revokeHot (i : Nat) :
    SMap.getD (s.revokeHot tag).redirect i [] = (SMap.getD s.redirect i []).filter fun r => r.tag != tag := by
  rw [(sameHot_revokeHot h).redirect]
  exact SMap.getD_map s.redirect (fun l => l.filter fun r => r.tag != tag) i []

end Revoked

end Sys2Proof.Machine

namespace Sys2Proof.Machine

/-! ### PAGE_MIGRATION (09 R296) -/

section Migration
variable {s : State} {asid va : Nat}

/-- The hot lines of a page. -/
def State.hotIn (s : State) (asid : Nat) (l : Leaf) : List Nat :=
  (s.slices.map fun h => h.2.hot.filter fun t => keyAsid (4 * t) == asid && overlaps (keyVa (4 * t)) 128 l.base (2 ^ l.bits)).flatten

theorem State.hotIn_nil (h : ∀ x ∈ s.slices, x.2.hot = []) (l : Leaf) : s.hotIn asid l = [] := by
  rw [State.hotIn, List.flatten_eq_nil_iff]
  simp only [List.mem_map]
  rintro _ ⟨x, hx, rfl⟩
  rw [h x hx, List.filter_nil]

/-- Device memory after a page has moved to a frame, its entry with it. -/
def State.movedMem (s : State) (asid va frame : Nat) (l : Leaf) : List Host.Cell :=
  let a := walkSlot s.mem asid va ptLevels (s.rootOf asid)
  let e := ofBytes (Memory.readN s.mem a 8)
  Memory.writeN (Memory.move s.mem (l.frame * 65536) (frame * 65536) (2 ^ l.bits)) a (toBytes 8 (e - bits e 16 40 * 65536 + frame * 65536))

theorem exec_pageMigration {frame : Nat} {l : Leaf} (hwalk : s.walk asid va = .leaf l) (hbits : l.bits ≠ 30) (hhost : l.host = false)
    (hdev : l.dev = s.dev) (haligned : frame * 65536 % 2 ^ l.bits = 0) (hnew : frame * 65536 + 2 ^ l.bits ≤ vaultBytes)
    (hold : l.frame * 65536 + 2 ^ l.bits ≤ vaultBytes) : ∃ slices, exec (.pageMigration asid va frame) s
      = .next { (s.hotIn asid l).foldl State.revokeHot s with mem := s.movedMem asid va frame l, slices := slices } := by
  have hmoves : ¬ (l.bits = 30 ∨ l.host ∨ l.dev ≠ s.dev ∨ frame * 65536 % 2 ^ l.bits ≠ 0 ∨ vaultBytes < frame * 65536 + 2 ^ l.bits
      ∨ vaultBytes < l.frame * 65536 + 2 ^ l.bits) := by
    rw [hhost]
    rintro (h | h | h | h | h | h)
    · exact hbits h
    · exact Bool.false_ne_true h
    · exact h hdev
    · exact h haligned
    · exact absurd h (Nat.not_lt.mpr hnew)
    · exact absurd h (Nat.not_lt.mpr hold)
  change ∃ slices, execPageMigration asid va frame s = _
  simp only [execPageMigration, hwalk]
  rw [if_neg hmoves]
  exact ⟨_, rfl⟩

end Migration

theorem translationSteps : Claims.TranslationSteps := by
  intro asid va s
  refine ⟨fun mc l hserves hleaf => ?request, fun mc h => exec_translationRequest_idle h, fun node n ca cb r w x hnode hsyn => ?remap,
    fun agent d hs => ?shootdown, fun frame l hwalk hbits hhost hdev haligned hnew hold => ?migration⟩
  case request => exact exec_translationRequest hserves hleaf
  case remap =>
    obtain ⟨hgroups, hmem, hcaches, -⟩ := s.noteTranslation_frame node asid va
    have hremap := s.remap_noteTranslation hsyn
    refine ⟨_, exec_remapAnswer hnode hsyn, hmem, hgroups, hcaches, ?_, fun m hm => ?_⟩
    · rw [hremap, SMap.find_insert, if_pos rfl]
    · rw [hremap, SMap.find_insert, if_neg hm]
  case shootdown =>
    have hcast := exec_shootdownBroadcast hs agent
    have hack := exec_shootdownAck hs agent
    have hsame : ({ s with shootdowns := [d] } : State) = s := by rw [← hs]
    refine ⟨fun htodo hslice => ?_, fun htodo hnode => ?_, fun htodo => ?_, fun hmem hdrained => ?_, fun hwaits => ?_⟩
    · rw [hcast, State.shoot_of_todo htodo, if_pos hslice]
      rfl
    · rw [hcast, State.shoot_of_todo htodo, if_neg (Nat.not_lt.mpr hnode)]
      have hd : (s.shootNode (agent - 64) d).shootdowns = [d] := hs
      rw [hd, List.map_cons, List.map_nil, if_pos ⟨rfl, rfl⟩]
      rfl
    · rw [hcast, State.shoot_of_done htodo]
    · rw [hack, if_pos (by rw [List.contains_iff_mem.mpr hmem, hdrained]; rfl)]
    · rw [hack, if_neg, hsame]
      rw [Bool.and_eq_true, List.contains_iff_mem]
      rintro ⟨hmem, hdrained⟩
      exact hwaits.elim (· hmem) fun h => Bool.false_ne_true (h.symm.trans hdrained)
  case migration =>
    obtain ⟨slices, he⟩ := exec_pageMigration hwalk hbits hhost hdev haligned hnew hold
    obtain ⟨-, hgroups, hteams, hcontexts, hcores⟩ := SameMachine.foldl sameMachine_revokeHot (s.hotIn asid l) s
    refine ⟨_, he, rfl, hgroups, hteams, hcontexts, hcores, fun hcold => ?_⟩
    change ((s.hotIn asid l).foldl State.revokeHot s).caches = s.caches
    rw [State.hotIn_nil hcold]
    rfl

/-! ### HOT_LINE_MARK (11 R330, R331) -/

/-- The machine once a home lists a line as hot. -/
def State.listHot (s : State) (h tag : Nat) : State := s.setSlice h { s.slice h with hot := (s.slice h).hot ++ [tag] }

/-- A line becomes hot: its home lists it, its helpers begin, and the interfaces of the other quadrants are redirected. -/
def State.markHot (s : State) (h tag : Nat) : State :=
  (redirects h).foldl (fun st e => st.redirectAt tag e) ((helpersOf h).foldl (fun st k => st.replicate tag k) (s.listHot h tag))

/-- The redirect entries of all interfaces with one more. -/
def addRedirect (tag : Nat) (m : SMap (List Redirect)) (e : Nat × Nat) : SMap (List Redirect) :=
  SMap.insert m e.1 (keepFirst 32 (⟨tag, e.2⟩ :: SMap.getD m e.1 []))

theorem foldl_redirectAt (tag : Nat) (l : List (Nat × Nat)) (s : State) :
    l.foldl (fun st e => st.redirectAt tag e) s = { s with redirect := l.foldl (addRedirect tag) s.redirect } := by
  induction l generalizing s with
  | nil => rfl
  | cons e l ih => exact ih (s.redirectAt tag e)

/-- An interface given a helper finds it first; every other one finds what it found before. -/
theorem head_foldl_addRedirect (tag : Nat) (helper : Nat → Nat) (l : List (Nat × Nat)) (hl : ∀ e ∈ l, e.2 = helper e.1)
    (m : SMap (List Redirect)) (i : Nat) : (SMap.getD (l.foldl (addRedirect tag) m) i []).head?
      = if i ∈ l.map Prod.fst then some ⟨tag, helper i⟩ else (SMap.getD m i []).head? := by
  induction l generalizing m with
  | nil => rfl
  | cons e l ih =>
    rw [List.foldl_cons, ih (fun x hx => hl x (List.mem_cons_of_mem _ hx)), List.map_cons]
    by_cases hi : i ∈ l.map Prod.fst
    · rw [if_pos hi, if_pos (List.mem_cons_of_mem _ hi)]
    · rw [if_neg hi, addRedirect, SMap.getD_insert]
      by_cases he : i = e.1
      · rw [if_pos he, if_pos (by rw [he]; exact List.mem_cons_self), hl e List.mem_cons_self, he]
        rfl
      · rw [if_neg he, if_neg (by simpa [he] using hi)]

/-- A redirect entry is a new one or was there before. -/
theorem mem_foldl_addRedirect {tag : Nat} {l : List (Nat × Nat)} {m : SMap (List Redirect)} {i : Nat} {e : Redirect}
    (h : e ∈ SMap.getD (l.foldl (addRedirect tag) m) i []) : e.tag = tag ∨ e ∈ SMap.getD m i [] := by
  induction l generalizing m with
  | nil => exact .inr h
  | cons x l ih =>
    refine (ih h).elim .inl fun hm => ?_
    rw [addRedirect, SMap.getD_insert] at hm
    split at hm
    · next hi =>
      rcases List.mem_cons.mp (List.mem_of_mem_take hm) with rfl | hold
      · exact .inl rfl
      · exact .inr (hi ▸ hold)
    · exact .inr hm

/-- The helper that an interface is redirected to for a line of a home (log 11). -/
def helperOf (h i : Nat) : Nat := if i % 32 / 8 = ((h % 32 / 8) ^^^ 1) then h ^^^ 8 else h ^^^ 16

theorem redirects_helper {h : Nat} : ∀ e ∈ redirects h, e.2 = helperOf h e.1 := by
  intro e he
  simp only [redirects, List.mem_map, List.mem_filter, mem_run] at he
  obtain ⟨j, ⟨⟨-, hj⟩, -⟩, rfl⟩ := he
  have hquad : (32 * dieOf h + j) % 32 / 8 = j / 8 := by omega
  simp only [helperOf, hquad]
  rfl

theorem mem_redirects (h i : Nat) : i ∈ (redirects h).map Prod.fst ↔ i / 32 = h / 32 ∧ i % 32 / 8 ≠ h % 32 / 8 := by
  have hdie : dieOf h = h / 32 := rfl
  have hquad : quadOf h = h % 32 / 8 := rfl
  simp only [redirects, List.map_map, List.mem_map, List.mem_filter, mem_run, Function.comp, bne_iff_ne, ne_eq, hdie, hquad]
  constructor
  · rintro ⟨j, ⟨⟨-, hj⟩, hne⟩, rfl⟩
    omega
  · rintro ⟨hi, hne⟩
    exact ⟨i % 32, ⟨by omega, by omega⟩, by omega⟩

section Marked
variable (s : State) (h tag : Nat)

theorem State.markHot_eq : s.markHot h tag = { ((s.listHot h tag).replicate tag (h ^^^ 8)).replicate tag (h ^^^ 16) with
    redirect := (redirects h).foldl (addRedirect tag) s.redirect } := foldl_redirectAt ..

theorem sameMachine_markHot : SameMachine s (s.markHot h tag) := by
  rw [State.markHot_eq]
  exact ⟨rfl, rfl, rfl, rfl, rfl⟩

theorem caches_markHot : (s.markHot h tag).caches = s.caches := by
  rw [State.markHot_eq]
  rfl

theorem redirect_markHot : (s.markHot h tag).redirect = (redirects h).foldl (addRedirect tag) s.redirect := by
  rw [State.markHot_eq]

/-- A helper that has begun to serve a line: its replicas are those the home reads. -/
def Slice.replicated (x : Slice) (s : State) (tag : Nat) : Slice :=
  { x with replica := (run (4 * tag) 4).foldl (fun m k => SMap.insert m k (s.homeRead k)) x.replica, helped := SMap.insert x.helped tag [] }

theorem State.slice_replicate (helper k : Nat) :
    (s.replicate tag helper).slice k = if k = helper then (s.slice helper).replicated s tag else s.slice k := State.slice_setSlice ..

theorem xor_ne_self {h n : Nat} (hn : n ≠ 0) : h ^^^ n ≠ h := fun he => hn (by simpa using he)

theorem slice_markHot (k : Nat) : (s.markHot h tag).slice k
    = if k = h ^^^ 16 then (s.slice (h ^^^ 16)).replicated ((s.listHot h tag).replicate tag (h ^^^ 8)) tag
      else if k = h ^^^ 8 then (s.slice (h ^^^ 8)).replicated (s.listHot h tag) tag
      else if k = h then { s.slice h with hot := (s.slice h).hot ++ [tag] } else s.slice k := by
  have hlisted : ∀ k, (s.listHot h tag).slice k = if k = h then { s.slice h with hot := (s.slice h).hot ++ [tag] } else s.slice k :=
    fun k => State.slice_setSlice s h k _
  have hhelpers : h ^^^ 16 ≠ h ^^^ 8 := fun he => absurd (Nat.xor_right_inj.mp he) (by decide)
  have h8 : (s.listHot h tag).slice (h ^^^ 8) = s.slice (h ^^^ 8) := (hlisted _).trans (if_neg (xor_ne_self (by decide)))
  have h16 : (s.listHot h tag).slice (h ^^^ 16) = s.slice (h ^^^ 16) := (hlisted _).trans (if_neg (xor_ne_self (by decide)))
  have hmark : (s.markHot h tag).slice k = (((s.listHot h tag).replicate tag (h ^^^ 8)).replicate tag (h ^^^ 16)).slice k := by
    rw [State.markHot_eq]
    rfl
  rw [hmark, State.slice_replicate, State.slice_replicate, State.slice_replicate, if_neg hhelpers, h8, h16, hlisted]

theorem hot_markHot : ((s.markHot h tag).slice h).hot = (s.slice h).hot ++ [tag] := by
  rw [slice_markHot, if_neg (xor_ne_self (by decide)).symm, if_neg (xor_ne_self (by decide)).symm, if_pos rfl]

theorem slice_markHot_other {k : Nat} (hh : k ≠ h) (h8 : k ≠ h ^^^ 8) (h16 : k ≠ h ^^^ 16) : (s.markHot h tag).slice k = s.slice k := by
  rw [slice_markHot, if_neg h16, if_neg h8, if_neg hh]

theorem slice_markHot_helper {k : Nat} (hk : k = h ^^^ 8 ∨ k = h ^^^ 16) :
    ∃ u, (s.markHot h tag).slice k = (s.slice k).replicated u tag := by
  rw [slice_markHot]
  by_cases h16 : k = h ^^^ 16
  · exact ⟨_, by rw [if_pos h16, h16]⟩
  · have h8 := hk.resolve_right h16
    exact ⟨_, by rw [if_neg h16, if_pos h8, h8]⟩

end Marked

/-- A line that HOT_LINE_MARK makes hot. -/
structure MayBeHot (s : State) (key tag h : Nat) : Prop where
  cold : tag ∉ (s.slice h).hot
  unsubscribed : s.subscribed key = false
  shared : s.onlyShared tag = true
  read : s.readsEnough h tag = true

theorem readsEnough_iff (s : State) (h tag : Nat) : s.readsEnough h tag = true ↔
    256 ≤ ((s.slice h).reads.filter fun r => decide (s.fabric < r.1 + 4096) && r.2.1 == tag).length
    ∧ 3 ≤ (((s.slice h).reads.filter fun r => decide (s.fabric < r.1 + 4096) && r.2.1 == tag).map fun r => r.2.2).eraseDups.length := by
  unfold State.readsEnough
  rw [Bool.and_eq_true, decide_eq_true_eq, decide_eq_true_eq]
  rfl

theorem mayBeHot_iff (s : State) (key tag h : Nat) : MayBeHot s key tag h ↔
    ((s.slice h).hot.contains tag || s.subscribed key || !s.onlyShared tag || !s.readsEnough h tag) = false := by
  have hcold : (s.slice h).hot.contains tag = false ↔ tag ∉ (s.slice h).hot := by
    rw [Bool.eq_false_iff, ne_eq, List.contains_iff_mem]
  simp only [Bool.or_eq_false_iff, Bool.not_eq_false', hcold]
  exact ⟨fun ⟨h1, h2, h3, h4⟩ => ⟨⟨⟨h1, h2⟩, h3⟩, h4⟩, fun ⟨⟨⟨h1, h2⟩, h3⟩, h4⟩ => ⟨h1, h2, h3, h4⟩⟩

/-- The machine with room for one more hot line at a slice: of sixteen the oldest is revoked (11 R330). -/
def State.roomForHot (s : State) (h : Nat) : State :=
  match (s.slice h).hot with
  | t :: _ => if 16 ≤ (s.slice h).hot.length then s.revokeHot t else s
  | [] => s

section Mark
variable {asid va : Nat} {s : State} (key tag h : Nat) (hkey : s.tagFor asid va / 32 = key) (htag : key / 4 = tag) (hh : s.homeAt key = h)
include hkey htag hh

theorem exec_hotLineMark : exec (.hotLineMark asid va) s
    = if ((s.slice h).hot.contains tag || s.subscribed key || !s.onlyShared tag || !s.readsEnough h tag) = true then .next s
      else .next ((s.roomForHot h).markHot h tag) := by
  subst hkey htag hh
  rfl

theorem exec_hotLineMark_may (hmay : MayBeHot s key tag h) : exec (.hotLineMark asid va) s = .next ((s.roomForHot h).markHot h tag) :=
  (exec_hotLineMark key tag h hkey htag hh).trans (if_neg (Bool.eq_false_iff.mp ((mayBeHot_iff ..).mp hmay)))

theorem exec_hotLineMark_not (hmay : ¬ MayBeHot s key tag h) : exec (.hotLineMark asid va) s = .next s :=
  (exec_hotLineMark key tag h hkey htag hh).trans
    (if_pos (by rw [← Bool.not_eq_false]; exact fun hc => hmay ((mayBeHot_iff ..).mpr hc)))

end Mark

theorem State.roomForHot_of_room {s : State} {h : Nat} (hroom : (s.slice h).hot.length < 16) : s.roomForHot h = s := by
  unfold State.roomForHot
  split
  · exact if_neg (Nat.not_le.mpr hroom)
  · rfl

theorem State.roomForHot_of_full {s : State} {h old : Nat} {rest : List Nat} (hhot : (s.slice h).hot = old :: rest)
    (hfull : 16 ≤ (s.slice h).hot.length) : s.roomForHot h = s.revokeHot old := by
  unfold State.roomForHot
  rw [hhot] at hfull ⊢
  exact if_pos hfull

theorem hotLineRule : Claims.HotLineRule := by
  intro asid va s key tag h reads may
  have hiff : may ↔ MayBeHot s key tag h := by
    constructor
    · rintro ⟨hcold, hsub, hshared, hreads⟩
      exact ⟨hcold, hsub, hshared, (readsEnough_iff ..).mpr hreads⟩
    · rintro ⟨hcold, hsub, hshared, hreads⟩
      exact ⟨hcold, hsub, hshared, (readsEnough_iff ..).mp hreads⟩
  refine ⟨fun hno => exec_hotLineMark_not key tag h rfl rfl rfl fun hm => hno (hiff.mpr hm), fun hmay hroom => ?room,
    fun hmay old rest hhot hfull hhome => ?full⟩
  case room =>
    have he := exec_hotLineMark_may key tag h rfl rfl rfl (hiff.mp hmay)
    rw [State.roomForHot_of_room hroom] at he
    have hsame := sameMachine_markHot s h tag
    refine ⟨_, he, hot_markHot s h tag, fun k hh h8 h16 => slice_markHot_other s h tag hh h8 h16, fun k hk => ?_, hsame.mem, hsame.groups,
      caches_markHot s h tag, fun i hi => ?_⟩
    · obtain ⟨u, hu⟩ := slice_markHot_helper s h tag hk
      rw [hu]
      exact ⟨(SMap.find_insert ..).trans (if_pos rfl), rfl⟩
    · rw [redirect_markHot, head_foldl_addRedirect tag (helperOf h) _ redirects_helper]
      exact if_congr (mem_redirects h i) rfl rfl
  case full =>
    have he := exec_hotLineMark_may key tag h rfl rfl rfl (hiff.mp hmay)
    rw [State.roomForHot_of_full hhot hfull] at he
    have hold : old ∈ (s.slice (s.homeAt (4 * old))).hot := by
      rw [hhome, hhot]
      exact List.mem_cons_self
    have hne : tag ≠ old := fun hc => hmay.1 (by rw [hc, hhot]; exact List.mem_cons_self)
    have hrevoked : ((s.revokeHot old).slice h).hot = rest.filter (· != old) := by
      have hfilter := State.hot_revokeHot hold
      rw [hhome, hhot] at hfilter
      rw [hfilter, List.filter_cons_of_neg (by simp)]
    have hsame := (sameMachine_revokeHot s old).trans (sameMachine_markHot (s.revokeHot old) h tag)
    refine ⟨_, he, ?_, fun i e hmem => ?_, hsame.mem, hsame.groups⟩
    · rw [hot_markHot, hrevoked]
    · rw [redirect_markHot] at hmem
      rcases mem_foldl_addRedirect hmem with hnew | hbefore
      · rw [hnew]
        exact hne
      · rw [State.redirect_revokeHot hold, List.mem_filter] at hbefore
        exact bne_iff_ne.mp hbefore.2

end Sys2Proof.Machine

open Sys2Proof Sys2Proof.Machine in
/-- Settles O50: each step acts as its condition says, and revoking a hot line changes caches and directories alone, so that a page
migrates, and a line becomes hot, in the machine as it was. -/
theorem translationRules : Obligations.TranslationRules := ⟨translationSteps, hotLineRule⟩

/-! ## Moving a run of device memory (09 R296) -/

namespace Sys2Proof

/-- A key that some entry lists is found. -/
theorem SMap.find_isSome_of_mem {α : Type} {m : SMap α} {e : Nat × α} (he : e ∈ m) : (SMap.find m e.1).isSome := by
  induction m with
  | nil => cases he
  | cons f r ih =>
    simp only [SMap.find]
    split
    · rfl
    · rename_i hne
      rcases List.mem_cons.1 he with rfl | he
      · exact absurd rfl hne
      · exact ih he

/-- Where the keys rise, a lookup finds just the entry that is listed. -/
theorem SMap.find_of_mem_sorted {α : Type} {m : SMap α} (hm : SMap.sorted m = true) {e : Nat × α} (he : e ∈ m) :
    SMap.find m e.1 = some e.2 := by
  rw [SMap.sorted_iff] at hm
  induction m with
  | nil => cases he
  | cons f r ih =>
    obtain ⟨hfr, hr⟩ := List.pairwise_cons.1 hm
    rcases List.mem_cons.1 he with rfl | he
    · simp [SMap.find]
    · simp only [SMap.find, (Nat.ne_of_gt (hfr e he)), if_false]
      exact ih hr he

/-- What a lookup finds is listed. -/
theorem SMap.mem_of_find {α : Type} {m : SMap α} {j : Nat} {x : α} (h : SMap.find m j = some x) : (j, x) ∈ m := by
  induction m with
  | nil => cases h
  | cons f r ih =>
    simp only [SMap.find] at h
    split at h
    · rename_i hj
      obtain rfl := Option.some.inj h
      exact hj ▸ List.mem_cons_self
    · exact List.mem_cons_of_mem _ (ih h)

/-- Leaving entries out keeps the canonical form. -/
theorem SMap.canonical_filter {α : Type} [DecidableEq α] {d : α} {m : SMap α} (f : Nat × α → Bool) (h : SMap.canonical d m = true) :
    SMap.canonical d (m.filter f) = true := by
  simp only [SMap.canonical, Bool.and_eq_true, List.all_eq_true, SMap.sorted_iff] at h ⊢
  obtain ⟨hsorted, hne⟩ := h
  exact ⟨hsorted.filter f, fun e he => hne e (List.mem_of_mem_filter he)⟩

open Machine

/-- Does a cell's address lie in a run? -/
def Memory.inRun (lo n : Nat) (a : Nat) : Bool := decide (lo ≤ a) && decide (a < lo + n)

/-- The cells of a run as they stand after the move. -/
def Memory.movedCells (m : List Host.Cell) (old new n : Nat) : List Host.Cell :=
  (m.filter fun e => Memory.inRun old n e.1).map fun e => (e.1 - old + new, e.2)

/-- A move is an update of the cells outside the new place by the moved ones. -/
theorem Memory.move_eq_putAll (m : List Host.Cell) (old new n : Nat) :
    Memory.move m old new n
      = SMap.putAll 0 (m.filter fun e => !Memory.inRun new n e.1) (Memory.movedCells m old new n) := by
  have hfold : ∀ (l k : List Host.Cell), l.foldl (fun k e => Memory.write k (e.1 - old + new) e.2) k
      = SMap.putAll 0 k (l.map fun e => (e.1 - old + new, e.2)) := fun l => by
    induction l with
    | nil => exact fun _ => rfl
    | cons e l ih => exact fun k => ih _
  exact hfold _ _

/-- A move keeps the canonical form. -/
theorem Memory.wf_move {m : List Host.Cell} (old new n : Nat) (h : Memory.wf m = true) : Memory.wf (Memory.move m old new n) = true := by
  rw [Memory.move_eq_putAll]
  exact SMap.canonical_putAll _ (SMap.canonical_filter _ h)

/-- A byte reads after a move as the moved cells say, and else as before outside the new place and as 0 in it. -/
theorem Memory.read_move {m : List Host.Cell} (old new n : Nat) (h : Memory.wf m = true) (a : Nat) :
    Memory.read (Memory.move m old new n) a
      = if a ∈ (Memory.movedCells m old new n).map Prod.fst then Memory.read m (a - new + old)
        else if Memory.inRun new n a then 0 else Memory.read m a := by
  have hval : ∀ e ∈ Memory.movedCells m old new n, e.2 = Memory.read m (e.1 - new + old) := fun e he => by
    obtain ⟨c, hc, rfl⟩ := List.mem_map.1 he
    obtain ⟨hcm, hin⟩ := List.mem_filter.1 hc
    have hle : old ≤ c.1 := by simp [Memory.inRun] at hin; exact hin.1
    simp only [SMap.canonical, Bool.and_eq_true] at h
    have hback : c.1 - old + new - new + old = c.1 := by omega
    simp only [hback, Memory.read, SMap.getD, SMap.find_of_mem_sorted h.1 hcm]
  have hrest : SMap.getD (m.filter fun e => !Memory.inRun new n e.1) a 0
      = if Memory.inRun new n a then 0 else Memory.read m a := by
    unfold Memory.read SMap.getD
    rw [SMap.find_filter m (fun j => !Memory.inRun new n j)]
    cases Memory.inRun new n a <;> rfl
  rw [Memory.move_eq_putAll, Memory.read, Machine.SMap.getD_putAll 0 (fun j => Memory.read m (j - new + old)) _ hval, hrest]

theorem Memory.mem_movedCells {m : List Host.Cell} {old new n a : Nat} :
    a ∈ (Memory.movedCells m old new n).map Prod.fst ↔ ∃ c ∈ m, old ≤ c.1 ∧ c.1 < old + n ∧ c.1 - old + new = a := by
  simp [Memory.movedCells, Memory.inRun, and_assoc]

/-- At the new place a moved run reads as it read at the old one. -/
theorem Memory.read_move_of_in {m : List Host.Cell} (old new : Nat) {n i : Nat} (h : Memory.wf m = true) (hi : i < n) :
    Memory.read (Memory.move m old new n) (new + i) = Memory.read m (old + i) := by
  have hback : new + i - new + old = old + i := by omega
  have hin : Memory.inRun new n (new + i) = true := by simp [Memory.inRun, hi]
  rw [Memory.read_move old new n h, hback, if_pos hin]
  split
  · rfl
  · rename_i hnone
    rw [Memory.mem_movedCells] at hnone
    cases hf : SMap.find m (old + i) with
    | none => simp [Memory.read, SMap.getD, hf]
    | some x => exact absurd ⟨_, SMap.mem_of_find hf, by omega, by simpa using hi, by omega⟩ hnone

/-- Outside the new place every byte reads after a move as before. -/
theorem Memory.read_move_of_out {m : List Host.Cell} (old : Nat) {new n a : Nat} (h : Memory.wf m = true) (ha : a < new ∨ new + n ≤ a) :
    Memory.read (Memory.move m old new n) a = Memory.read m a := by
  have hin : Memory.inRun new n a = false := by
    simp only [Memory.inRun, Bool.and_eq_false_iff, decide_eq_false_iff_not]
    omega
  have hnot : ¬ ∃ c ∈ m, old ≤ c.1 ∧ c.1 < old + n ∧ c.1 - old + new = a := by
    rintro ⟨c, -, hlo, hhi, rfl⟩
    omega
  rw [Memory.read_move old new n h, hin, if_neg (Memory.mem_movedCells.not.2 hnot)]
  rfl

namespace Machine

/-! ## What a shootdown drops at a network interface (09 R295) -/

theorem Shootdown.covers_eq_false (d : Shootdown) (asid va n : Nat) :
    (!d.covers asid va n) = true ↔ ¬ (asid = d.asid ∧ va < d.base + d.bytes ∧ d.base < va + n) := by
  simp [Shootdown.covers, overlaps, imp_iff_not_or]

theorem State.mem_remap_shootNode (s : State) (n : Nat) (d : Shootdown) (e : RemapEntry) :
    e ∈ SMap.getD (s.shootNode n d).remap n [] ↔ e ∈ SMap.getD s.remap n []
      ∧ (!d.covers e.asid e.base (2 ^ e.bits)) = true ∧ (!d.covers e.casid e.cbase (2 ^ e.bits)) = true := by
  simp only [State.shootNode, SMap.getD_insert, if_true, List.mem_filter, Bool.and_eq_true]

theorem State.find_remap_shootNode {s : State} {n m : Nat} (d : Shootdown) (h : m ≠ n) :
    SMap.find (s.shootNode n d).remap m = SMap.find s.remap m :=
  (SMap.find_insert ..).trans (if_neg h)

end Machine
end Sys2Proof

open Sys2Proof Sys2Proof.Machine in
/-- Settles O51: the entries kept are those a filter keeps; a moved run is read through the map that the move updates. -/
theorem remapAndMigrationRules : Obligations.RemapAndMigrationRules := by
  unfold Obligations.RemapAndMigrationRules Claims.ShootdownDropsRemaps Claims.MovedPageReadsBack
  refine ⟨fun s n d => ⟨fun e => ?_, fun m hm => State.find_remap_shootNode d hm, rfl⟩, fun m old new n hm _ => ?_⟩
  · rw [State.mem_remap_shootNode, Shootdown.covers_eq_false, Shootdown.covers_eq_false]
  · exact ⟨fun i hi => Memory.read_move_of_in old new hm hi, fun a ha => Memory.read_move_of_out old hm ha, Memory.wf_move old new n hm⟩

/-! ## Device memory in its canonical form (09 R289)

Only four functions of the model write device memory: `State.writePlace`, `State.keepCollective`, `execPageMigration` and
`State.winPhysical`, all by `Memory.writeN` or `Memory.move`; bring-up empties it. Every other one keeps it, or composes those that keep
its form. So each function of the model that makes a state has one lemma here, in the order of the model's files: its result is
canonical where its state is. The lemmas are named so that a composition of functions is proved by the same composition of lemmas. -/

namespace Sys2Proof.Machine

/-- Is device memory in its canonical form (09 R289; log 9)? -/
structure State.Canonical (s : State) : Prop where
  mem : Memory.wf s.mem = true

/-- Has a path that issues an instruction a canonical machine? -/
structure Ctx.Canonical (c : Ctx) : Prop where
  state : c.s.Canonical

/-- Is the machine that an instruction leaves, if it leaves one, canonical? -/
inductive Out.Canonical : Out → Prop where
  | next {t : State} (ht : t.Canonical) : Out.Canonical (.next t)
  | fault {f : Fault} : Out.Canonical (.fault f)
  | refused {r : Refusal} : Out.Canonical (.refused r)

/-- What holds of both branches holds of the choice. -/
theorem ifElse {α : Type} {P : α → Prop} {c : Prop} [Decidable c] {a b : α} (ha : P a) (hb : P b) : P (if c then a else b) := by
  split
  · exact ha
  · exact hb

theorem State.Canonical.foldl {β : Type} {f : State → β → State} {l : List β} {s : State} (hs : s.Canonical)
    (hf : ∀ u b, u.Canonical → (f u b).Canonical) : (l.foldl f s).Canonical :=
  List.foldlRecOn (motive := State.Canonical) l f hs fun u hu b _ => hf u b hu

theorem State.Canonical.of_pair {α : Type} {p : State × α} {t : State} {a : α} (h : p = (t, a)) (hp : p.1.Canonical) : t.Canonical := by
  subst h
  exact hp

open State.Canonical Ctx.Canonical Out.Canonical

variable {s : State} {c : Ctx}

/-! ### Links (Machine/Link) -/

theorem State.Canonical.setLink {k : Nat} {l : Link} (hs : s.Canonical) : (s.setLink k l).Canonical := ⟨hs.mem⟩

theorem State.Canonical.packet {d e cls spread : Nat} {payload : BitVec 432} (hs : s.Canonical) :
    (s.packet d e cls spread payload).Canonical :=
  ⟨hs.mem⟩

theorem State.Canonical.newPacket {d e cls spread : Nat} (hs : s.Canonical) : (s.newPacket d e cls spread).Canonical := ⟨hs.mem⟩

theorem State.Canonical.sendTo {die dev tag : Nat} {m : Msg} (hs : s.Canonical) : (s.sendTo die dev tag m).Canonical :=
  ifElse ⟨hs.mem⟩ ⟨hs.mem⟩

/-! ### Translation (Machine/Translate) -/

theorem State.Canonical.setSlice {h : Nat} {x : Slice} (hs : s.Canonical) : (s.setSlice h x).Canonical := ⟨hs.mem⟩

theorem State.Canonical.keepAt {ni asid va : Nat} {l : Leaf} (hs : s.Canonical) : (s.keepAt ni asid va l).Canonical := ⟨hs.mem⟩

theorem State.Canonical.noteTranslation {ni asid va : Nat} (hs : s.Canonical) : (s.noteTranslation ni asid va).Canonical := by
  dsimp only [State.noteTranslation]
  split
  · exact ⟨hs.mem⟩
  · split
    · exact ⟨hs.mem⟩
    · exact ⟨hs.mem⟩
  · exact hs

theorem State.Canonical.useRemap {ni asid va : Nat} (hs : s.Canonical) : (s.useRemap ni asid va).Canonical := by
  unfold State.useRemap
  split
  · exact ⟨hs.mem⟩
  · exact hs

theorem State.Canonical.setPort {p : Nat} {x : Port} (hs : s.Canonical) : (s.setPort p x).Canonical := ⟨hs.mem⟩

theorem State.Canonical.writePlace {asid : Nat} {p : Place} {bs : List Byte} (hs : s.Canonical) : (s.writePlace asid p bs).Canonical := by
  unfold State.writePlace
  split
  · exact ⟨Memory.wf_writeN _ _ hs.mem⟩
  · exact ⟨hs.mem⟩
  · exact ⟨hs.mem⟩

/-! ### Caches and homes (Machine/Cache) -/

theorem State.Canonical.setCache {n : Nat} {c : Cache} (hs : s.Canonical) : (s.setCache n c).Canonical := ⟨hs.mem⟩

theorem State.Canonical.anchor {key : Nat} (hs : s.Canonical) : (s.anchor key).Canonical := by
  dsimp only [State.anchor]
  split
  · exact ⟨hs.mem⟩
  · exact hs

theorem State.Canonical.homePut {key : Nat} {d : SectorData} (hs : s.Canonical) : (s.homePut key d).Canonical := by
  dsimp only [State.homePut]
  split
  · exact hs.writePlace
  · exact hs.writePlace
  · exact ⟨hs.anchor.mem⟩

theorem State.Canonical.flushHome {key : Nat} (hs : s.Canonical) : (s.flushHome key).Canonical := by
  dsimp only [State.flushHome]
  split
  · split
    · exact writePlace ⟨hs.mem⟩
    · exact hs
  · exact hs

theorem State.Canonical.linePacket {die dev cls key : Nat} (hs : s.Canonical) : (s.linePacket die dev cls key).Canonical := ⟨hs.mem⟩

theorem State.Canonical.toHome {cls key : Nat} (hs : s.Canonical) : (s.toHome cls key).Canonical := by
  unfold State.toHome
  split
  · exact ⟨hs.mem⟩
  · exact hs

theorem State.Canonical.toHolder {n cls key : Nat} (hs : s.Canonical) : (s.toHolder n cls key).Canonical := ifElse hs ⟨hs.mem⟩

theorem State.Canonical.dropHome {key : Nat} (hs : s.Canonical) : (s.dropHome key).Canonical := ⟨hs.flushHome.mem⟩

theorem State.Canonical.hold {n key : Nat} {st : SecState} {d : SectorData} (hs : s.Canonical) : (s.hold n key st d).Canonical := ⟨hs.mem⟩

theorem State.Canonical.mirror {key : Nat} (hs : s.Canonical) : (s.mirror key).Canonical := by
  unfold State.mirror
  refine foldl hs fun _ _ hu => ?_
  refine ifElse hu ?_
  split
  · exact ⟨hu.mem⟩
  · exact ⟨hu.mem⟩

theorem State.Canonical.syncDir {s0 : State} {key : Nat} (hs : s0.Canonical) : (s0.syncDir key).Canonical := ⟨hs.mirror.mem⟩

theorem State.Canonical.setCollapse {key : Nat} {c : Option Collapse} (hs : s.Canonical) : (s.setCollapse key c).Canonical :=
  syncDir ⟨hs.mem⟩

theorem State.Canonical.clearU {key : Nat} (hs : s.Canonical) : (s.clearU key).Canonical := by
  dsimp only [State.clearU]
  refine setCollapse ?_
  refine setSlice ?_
  refine setSlice ?_
  refine foldl hs fun _ _ hu => ?_
  split
  · exact ⟨hu.mem⟩
  · exact hu

theorem State.Canonical.collapseBy {write : State → Nat → SectorData → State} {key : Nat}
    (hf : ∀ (u : State) x y, u.Canonical → (write u x y).Canonical) (hs : s.Canonical) : (State.collapseBy write s key).Canonical := by
  dsimp only [State.collapseBy]
  split
  · exact hs
  · exact syncDir (hf _ _ _ (clearU (ifElse hs (foldl hs fun _ _ hu => hu.toHolder))))

theorem State.Canonical.evictUBy {write : State → Nat → SectorData → State} {n key : Nat} {op : UOp} {d : SectorData}
    (hf : ∀ (u : State) x y, u.Canonical → (write u x y).Canonical) (hs : s.Canonical) : (State.evictUBy write s n key op d).Canonical :=
  ifElse (syncDir ⟨hs.mem⟩) (ifElse (syncDir ⟨hs.mem⟩) (collapseBy hf ⟨hs.mem⟩))

theorem State.Canonical.flushBy {write : State → Nat → SectorData → State} {n : Nat} {f : Nat → Bool}
    (hf : ∀ (u : State) x y, u.Canonical → (write u x y).Canonical) (hs : s.Canonical) : (State.flushBy write s n f).Canonical :=
  setCache (foldl hs fun _ _ hu => ifElse hu (hf _ _ _ hu))

theorem State.Canonical.roomBy {write : State → Nat → SectorData → State} {n tag : Nat}
    (hf : ∀ (u : State) x y, u.Canonical → (write u x y).Canonical) (hs : s.Canonical) : (State.roomBy write s n tag).Canonical := by
  dsimp only [State.roomBy]
  refine ifElse hs ?_
  split
  · exact flushBy hf hs
  · exact hs

theorem State.Canonical.evictBy {write : State → Nat → SectorData → State} {n key : Nat}
    (hf : ∀ (u : State) x y, u.Canonical → (write u x y).Canonical) (hs : s.Canonical) : (State.evictBy write s n key).Canonical := by
  dsimp only [State.evictBy]
  split
  · exact syncDir (setCache (roomBy hf hs))
  · exact evictUBy hf hs
  · exact syncDir ⟨hs.mem⟩
  · exact hs

theorem State.Canonical.useWay {h : Nat} {die : Bool} {tag : Nat} (hs : s.Canonical) : (s.useWay h die tag).Canonical := ⟨hs.mem⟩

theorem State.Canonical.mergeDieBy {write : State → Nat → SectorData → State} {h key : Nat}
    (hf : ∀ (u : State) x y, u.Canonical → (write u x y).Canonical) (hs : s.Canonical) : (State.mergeDieBy write s h key).Canonical := by
  dsimp only [State.mergeDieBy]
  split
  · exact hf _ _ _ ⟨hs.mem⟩
  · exact hs

theorem State.Canonical.homePass {key : Nat} {d : SectorData} (hs : s.Canonical) : (s.homePass key d).Canonical := by
  unfold State.homePass
  split
  · exact ifElse hs.homePut hs.writePlace
  · exact hs.homePut.toHome

theorem State.Canonical.evictHome {h tag : Nat} (hs : s.Canonical) : (s.evictHome h tag).Canonical :=
  foldl ⟨hs.mem⟩ fun _ _ hu => dropHome (mergeDieBy (fun _ _ _ hu2 => hu2.homePass) hu)

theorem State.Canonical.evictDie {h tag : Nat} (hs : s.Canonical) : (s.evictDie h tag).Canonical := by
  unfold State.evictDie
  extract_lets d one
  refine foldl hs.setSlice fun u k hu => ?_
  dsimp -zeta only [one]
  extract_lets mine u1 u2
  have h1 : u1.Canonical := foldl hu fun _ _ hv => evictBy (fun _ _ _ hw => hw.homePass) hv
  have h2 : u2.Canonical := foldl h1 fun _ _ hv => hv.setCache
  exact mergeDieBy (fun _ _ _ hw => hw.homePass) h2.syncDir

theorem State.Canonical.useLine {h : Nat} {die : Bool} {tag : Nat} (hs : s.Canonical) : (s.useLine h die tag).Canonical := by
  dsimp only [State.useLine]
  split
  · exact evictHome ⟨hs.mem⟩
  · exact evictDie ⟨hs.mem⟩
  · exact ⟨hs.mem⟩

theorem State.Canonical.homeSet {key : Nat} {d : SectorData} (hs : s.Canonical) : (s.homeSet key d).Canonical :=
  ifElse hs.homePut.useLine hs.homePut

theorem State.Canonical.homeWrite {key : Nat} {d : SectorData} (hs : s.Canonical) : (s.homeWrite key d).Canonical := hs.homeSet.toHome

theorem State.Canonical.homeKeep {key : Nat} (hs : s.Canonical) : (s.homeKeep key).Canonical := by
  dsimp only [State.homeKeep]
  split
  · exact useLine (ifElse hs.anchor ⟨hs.anchor.mem⟩)
  · exact hs

theorem State.Canonical.collapseNow {key : Nat} (hs : s.Canonical) : (s.collapseNow key).Canonical :=
  collapseBy (fun _ _ _ hu => hu.homeSet.toHome) hs

theorem State.Canonical.keepDie {n key : Nat} (hs : s.Canonical) : (s.keepDie n key).Canonical := ifElse hs.useLine hs

theorem State.Canonical.evictU {n key : Nat} {op : UOp} {d : SectorData} (hs : s.Canonical) : (s.evictU n key op d).Canonical :=
  keepDie (evictUBy (fun _ _ _ hu => hu.homeWrite) hs)

theorem State.Canonical.flushWb {n : Nat} (hs : s.Canonical) : (s.flushWb n).Canonical := flushBy (fun _ _ _ hu => hu.homeWrite) hs

theorem State.Canonical.evictSector {n key : Nat} (hs : s.Canonical) : (s.evictSector n key).Canonical :=
  keepDie (evictBy (fun _ _ _ hu => hu.homeWrite) hs)

theorem State.Canonical.evictLine {n tag : Nat} (hs : s.Canonical) : (s.evictLine n tag).Canonical := foldl hs fun _ _ hu => hu.evictSector

theorem State.Canonical.makeRoom {n tag : Nat} (hs : s.Canonical) : (s.makeRoom n tag).Canonical := by
  dsimp only [State.makeRoom]
  refine ifElse hs ?_
  refine ifElse hs ?_
  split
  · exact ifElse hs.evictLine hs
  · exact hs

theorem State.Canonical.drainWb {key : Nat} (hs : s.Canonical) : (s.drainWb key).Canonical := by
  dsimp only [State.drainWb]
  refine foldl hs fun _ _ hu => ?_
  split
  · exact ⟨hu.homeWrite.mem⟩
  · exact hu

theorem State.Canonical.shareAt {key : Nat} {f : Nat → Bool} (hs : s.Canonical) : (s.shareAt key f).Canonical := by
  unfold State.shareAt
  refine foldl hs fun _ _ hu => ?_
  split
  · exact hu.toHolder.homeWrite.setCache
  · exact hu.toHolder.setCache
  · exact hu

theorem State.Canonical.shareOut {key : Nat} (hs : s.Canonical) : (s.shareOut key).Canonical := hs.drainWb.shareAt

theorem State.Canonical.revokeHot {tag : Nat} (hs : s.Canonical) : (s.revokeHot tag).Canonical := by
  unfold State.revokeHot
  extract_lets h x y s1 s2
  have h1 : s1.Canonical := ⟨hs.mem⟩
  have h2 : s2.Canonical := foldl h1 fun _ _ hu => hu.setSlice
  exact ifElse (foldl h2 fun _ _ hu => syncDir (foldl hu fun _ _ hv => ifElse hv.toHolder.setCache hv)) hs

theorem State.Canonical.discover {tag : Nat} (hs : s.Canonical) : (s.discover tag).Canonical :=
  foldl (foldl hs fun _ _ hu => ⟨hu.mem⟩) fun _ _ hu => syncDir (foldl hu.drainWb fun _ _ hu2 => ifElse hu2.homeWrite hu2)

theorem State.Canonical.found {key : Nat} (hs : s.Canonical) : (s.found key).Canonical := ifElse hs hs.discover

theorem State.Canonical.invalidateAll {key : Nat} (hs : s.Canonical) : (s.invalidateAll key).Canonical :=
  syncDir (foldl hs.revokeHot.drainWb fun _ _ hu => setCache (ifElse hu.toHolder.homeWrite hu.toHolder))

theorem State.Canonical.fill {n key : Nat} {st : SecState} {d : SectorData} (hs : s.Canonical) : (s.fill n key st d).Canonical :=
  syncDir (hold (foldl hs.anchor.makeRoom fun _ _ hu => hu.useLine))

theorem State.Canonical.noteRead {n key : Nat} {byDie : Bool} (hs : s.Canonical) : (s.noteRead n key byDie).Canonical := ifElse ⟨hs.mem⟩ hs

theorem State.Canonical.missAtHome {n key : Nat} (hs : s.Canonical) : (s.missAtHome n key).1.Canonical :=
  hs.toHome.found.collapseNow.shareOut.homeKeep.noteRead.fill

theorem State.Canonical.missAtHelper {n key helper : Nat} {d : SectorData} (hs : s.Canonical) :
    (s.missAtHelper n key helper d).1.Canonical :=
  fill ⟨hs.mem⟩

theorem State.Canonical.readSec {n key : Nat} (hs : s.Canonical) : (s.readSec n key).1.Canonical := by
  unfold State.readSec
  split
  · exact ⟨hs.mem⟩
  · exact ⟨hs.mem⟩
  · exact ⟨hs.mem⟩
  · split
    · exact hs.missAtHelper
    · exact hs.missAtHome

theorem State.Canonical.ownSec {n key : Nat} (hs : s.Canonical) : (s.ownSec n key).1.Canonical := by
  dsimp only [State.ownSec]
  split
  · exact ⟨hs.mem⟩
  · exact ⟨hs.mem⟩
  · exact hs.toHome.found.collapseNow.invalidateAll.homeKeep.fill

theorem State.Canonical.sendPush {h idx : Nat} {e : SubEntry} {p : Push} (hs : s.Canonical) : (s.sendPush h idx e p).Canonical :=
  ifElse hs.sendTo ⟨hs.sendTo.mem⟩

theorem State.Canonical.genPush {h idx : Nat} {e : SubEntry} (hs : s.Canonical) : (s.genPush h idx e).Canonical := by
  dsimp only [State.genPush]
  refine ifElse (ifElse hs (ifElse (sendPush ⟨hs.mem⟩) (ifElse ⟨hs.mem⟩ ⟨hs.mem⟩))) ?_
  refine ifElse hs ?_
  refine ifElse ?_ (sendPush ⟨hs.mem⟩)
  split
  · exact ⟨hs.mem⟩
  · exact ⟨hs.mem⟩

theorem State.Canonical.pushes {key : Nat} {writes : List (Nat × Nat)} (hs : s.Canonical) : (s.pushes key writes).Canonical :=
  foldl hs fun _ _ hu => ifElse hu.genPush hu

theorem State.Canonical.homeRmw {a n : Nat} {f : List Byte → Option (List Byte)} (hs : s.Canonical) : (s.homeRmw a n f).1.Canonical := by
  have h1 : (((s.toHome 0 (a / 32)).collapseNow (a / 32)).invalidateAll (a / 32)).Canonical := hs.toHome.collapseNow.invalidateAll
  unfold State.homeRmw
  dsimp only
  split <;> dsimp only
  · exact h1
  · exact h1.homeSet.pushes

theorem State.Canonical.homeStore {a : Nat} {bs : List Byte} (hs : s.Canonical) : (s.homeStore a bs).Canonical := by
  unfold State.homeStore
  exact hs.toHome.collapseNow.invalidateAll.homeSet

theorem State.Canonical.storeBytes {n a : Nat} {bs : List Byte} (hs : s.Canonical) : (s.storeBytes n a bs).Canonical :=
  ifElse hs.homeStore (syncDir ⟨hs.ownSec.mem⟩)

theorem State.Canonical.nearRmw {n a len : Nat} {f : List Byte → Option (List Byte)} (hs : s.Canonical) :
    (s.nearRmw n a len f).1.Canonical :=
  syncDir ⟨hs.ownSec.mem⟩

theorem State.Canonical.pushAll {ws : List (Nat × List Byte)} (hs : s.Canonical) : (s.pushAll ws).Canonical :=
  foldl hs fun _ _ hu => ifElse hu.pushes hu

theorem State.Canonical.storeAll {n : Nat} {ws : List (Nat × List Byte)} (hs : s.Canonical) : (s.storeAll n ws).Canonical :=
  pushAll (foldl hs fun _ _ hu => hu.storeBytes)

theorem State.Canonical.homeAll {ws : List (Nat × List Byte)} (hs : s.Canonical) : (s.homeAll ws).Canonical :=
  pushAll (foldl hs fun _ _ hu => hu.homeStore)

theorem State.Canonical.loadBytes {n a len : Nat} (hs : s.Canonical) : (s.loadBytes n a len).1.Canonical := hs.readSec

theorem State.Canonical.loadRun {n a len : Nat} (hs : s.Canonical) : (s.loadRun n a len).1.Canonical :=
  List.foldlRecOn (motive := fun r : State × List Byte => r.1.Canonical) _ _ hs fun _ hr _ _ => hr.readSec

theorem State.Canonical.storeRun {n a : Nat} {bs : List Byte} (hs : s.Canonical) : (s.storeRun n a bs).Canonical := hs.storeAll

theorem State.Canonical.homeRun {a : Nat} {bs : List Byte} (hs : s.Canonical) : (s.homeRun a bs).Canonical := hs.homeAll

theorem State.Canonical.homeRmwRun {ps : List (Nat × Nat)} {f : List Byte → List Byte} (hs : s.Canonical) : (s.homeRmwRun ps f).Canonical :=
  homeAll (foldl hs fun _ _ hu => hu.collapseNow.invalidateAll)

theorem State.Canonical.grantU {s0 : State} {n key : Nat} {op : UOp} (hs : s0.Canonical) : (s0.grantU n key op).Canonical := by
  unfold State.grantU
  extract_lets s s1 h us s2 ph x start s3 s4 y
  have hhome : s.Canonical := hs.toHome
  have h1 : s1.Canonical := by
    dsimp only [s1]
    split
    · exact ifElse hhome.found hhome.found.collapseNow
    · exact hhome.found.invalidateAll
  have h2 : s2.Canonical := by
    dsimp only [s2]
    refine ifElse h1 ?_
    split
    · exact foldl h1 fun _ _ hu => hu.collapseNow
    · exact h1
  exact setSlice (fill (ifElse h2 h2.setSlice))

theorem State.Canonical.updateCopy {n a : Nat} {op : UOp} {x : Nat} (hs : s.Canonical) : (s.updateCopy n a op x).Canonical := by
  dsimp only [State.updateCopy]
  split
  · refine setCache ?_
    split
    · exact ifElse hs hs.grantU
    · exact hs.grantU
  · split
    · exact ifElse hs hs.grantU
    · exact hs.grantU

/-! ### Groups, cores and teams (Machine/Group) -/

theorem State.Canonical.setGroup {key : Nat} {g : Group} (hs : s.Canonical) : (s.setGroup key g).Canonical := ⟨hs.mem⟩

theorem State.Canonical.setCore {n : Nat} {c : Core} (hs : s.Canonical) : (s.setCore n c).Canonical := ⟨hs.mem⟩

theorem State.Canonical.setTeam {t : Nat} {x : Team} (hs : s.Canonical) : (s.setTeam t x).Canonical := ⟨hs.mem⟩

theorem State.Canonical.setContext {c : Nat} {x : Context} (hs : s.Canonical) : (s.setContext c x).Canonical := ⟨hs.mem⟩

theorem State.Canonical.setSegment {t k : Nat} {x : Segment} (hs : s.Canonical) : (s.setSegment t k x).Canonical := by
  unfold State.setSegment
  split
  · exact ⟨hs.mem⟩
  · exact hs

theorem State.Canonical.fresh (hs : s.Canonical) : s.fresh.1.Canonical := ⟨hs.mem⟩

/-! ### Loads, atomics, traps and the common checks (Machine/Ops) -/

theorem State.Canonical.performLoad {key : Nat} {g : Group} {x : Load} (hs : s.Canonical) : (s.performLoad key g x).1.Canonical := by
  refine List.foldlRecOn (motive := fun r : State × List LaneLoad => r.1.Canonical) _ _ hs fun r hr k _ => ?_
  split
  · exact hr
  · exact hr.readSec

theorem State.Canonical.landLoad {key : Nat} (hs : s.Canonical) : (s.landLoad key).Canonical := by
  dsimp only [State.landLoad]
  split
  · exact hs
  · split
    · exact hs
    · exact ⟨hs.performLoad.mem⟩

theorem State.Canonical.returnLoad {key : Nat} (hs : s.Canonical) : (s.returnLoad key).Canonical := by
  dsimp only [State.returnLoad]
  refine ifElse hs ?_
  split
  · exact ifElse ⟨hs.landLoad.mem⟩ hs.landLoad
  · exact hs.landLoad

theorem State.Canonical.landLoads {key n : Nat} (hs : s.Canonical) : (s.landLoads key n).Canonical := by
  induction n generalizing s with
  | zero => exact hs
  | succ n ih => exact ih hs.landLoad

theorem State.Canonical.writeRegs {uid : Nat} {xs : List ((Nat × Nat) × Word)} (hs : s.Canonical) : (s.writeRegs uid xs).Canonical :=
  ⟨hs.mem⟩

theorem State.Canonical.performFar {op : FarOp} (hs : s.Canonical) : (s.performFar op).Canonical := by
  unfold State.performFar
  split
  · exact ⟨hs.homeRmw.mem⟩
  · exact hs.homeRmw
  · exact hs.homeAll

theorem State.Canonical.scAt {core : Nat} {keys : List Nat} (hs : s.Canonical) : (s.scAt core keys).Canonical := ⟨hs.mem⟩

theorem State.Canonical.scEvent {core ord : Nat} {keys : List Nat} (hs : s.Canonical) : (s.scEvent core ord keys).Canonical :=
  ifElse ⟨hs.mem⟩ hs

theorem State.Canonical.performFor {uid : Nat} {op : FarOp} (hs : s.Canonical) : (s.performFor uid op).Canonical := by
  unfold State.performFor
  split
  · exact hs.performFar.scEvent
  · exact hs.performFar

theorem State.Canonical.atomLaneNow {n uid op : Nat} {wide : Bool} {vd ord : Nat} {k : AtomLane} (hs : s.Canonical) :
    (s.atomLaneNow n uid op wide vd ord k).Canonical := by
  unfold State.atomLaneNow
  refine ifElse hs.performFar ?_
  split
  next he => exact (of_pair he hs.nearRmw).writeRegs

theorem State.Canonical.drainEntry {key : Nat} {g : Group} {e : QEntry} (hs : s.Canonical) : (s.drainEntry key g e).Canonical := by
  dsimp only [State.drainEntry]
  refine ifElse ⟨hs.mem⟩ ?_
  split
  · exact hs.storeAll.scEvent
  · exact foldl hs fun _ _ hu => hu.atomLaneNow

theorem State.Canonical.drainOne {key : Nat} (hs : s.Canonical) : (s.drainOne key).Canonical := by
  unfold State.drainOne
  split
  · exact hs
  · split
    · exact hs
    · exact drainEntry ⟨hs.mem⟩

theorem State.Canonical.landFar {uid : Nat} (hs : s.Canonical) : (s.landFar uid).Canonical := foldl ⟨hs.mem⟩ fun _ _ hu => hu.performFor

theorem State.Canonical.landCollapses {uid : Nat} (hs : s.Canonical) : (s.landCollapses uid).Canonical :=
  foldl hs fun _ _ hu => hu.collapseNow

theorem State.Canonical.landBefore {key uid : Nat} (hs : s.Canonical) : (s.landBefore key uid).Canonical := by
  unfold State.landBefore
  split
  · exact ifElse hs.landCollapses hs
  · exact hs

theorem State.Canonical.landQueue {key uid n : Nat} (hs : s.Canonical) : (s.landQueue key uid n).Canonical := by
  induction n generalizing s with
  | zero => exact hs.landFar
  | succ n ih => exact ih hs.landFar.landBefore.drainOne

theorem State.Canonical.landAll {key : Nat} (hs : s.Canonical) : (s.landAll key).Canonical := by
  unfold State.landAll
  split
  · exact hs
  · exact hs.landLoads.landQueue

theorem State.Canonical.storeVirt {t : State} {core asid va : Nat} {bs : List Byte} (hs : s.Canonical)
    (h : s.storeVirt core asid va bs = some t) : t.Canonical := by
  unfold State.storeVirt at h
  split at h
  · exact Option.some.inj h ▸ hs.noteTranslation.storeRun
  · cases h

theorem State.Canonical.loadVirt {r : State × List Byte} {core asid va n : Nat} (hs : s.Canonical) (h : s.loadVirt core asid va n = .ok r) :
    r.1.Canonical := by
  unfold State.loadVirt at h
  split at h
  · exact Except.ok.inj h ▸ hs.noteTranslation.loadRun
  · cases h

theorem State.Canonical.notify {vector what : Nat} (hs : s.Canonical) : (s.notify vector what).Canonical := ⟨hs.mem⟩

theorem State.Canonical.haltContext {ctx core cause : Nat} (hs : s.Canonical) : (s.haltContext ctx core cause).Canonical := by
  unfold State.haltContext
  dsimp only
  split_ifs
  · exact notify ⟨hs.mem⟩
  · exact notify ⟨hs.mem⟩

theorem State.Canonical.queueService {key : Nat} (hs : s.Canonical) : (s.queueService key).Canonical := ⟨hs.mem⟩

theorem State.Canonical.freezeOnStep {g : Group} (hs : s.Canonical) : (s.freezeOnStep g).Canonical := ifElse ⟨hs.mem⟩ hs

theorem State.Canonical.raiseTrap {key : Nat} {ps : PSlot} {t : Trap} (hs : s.Canonical) : (s.raiseTrap key ps t).Canonical := by
  unfold State.raiseTrap
  dsimp only
  split
  · exact hs.landAll
  · refine ifElse hs.landAll.haltContext ?_
    split
    · exact hs.landAll.haltContext
    next he =>
      have h2 := hs.landAll.storeVirt he
      exact ifElse h2.setGroup.queueService.freezeOnStep h2.setGroup.queueService

theorem State.Canonical.trapIssue {key : Nat} {ps : PSlot} {t : Trap} (hs : s.Canonical) : (s.trapIssue key ps t).Canonical := by
  unfold State.trapIssue
  split
  · exact raiseTrap ⟨hs.mem⟩
  · exact hs

theorem State.Canonical.fetchFill {core asid va : Nat} (hs : s.Canonical) : (s.fetchFill core asid va).Canonical := by
  dsimp only [State.fetchFill]
  refine foldl hs fun _ _ hu => ?_
  split
  · exact hu
  · exact ifElse hu ⟨hu.mem⟩

theorem State.Canonical.issue {i : Instr} {k : Ctx → Out} (hs : s.Canonical) (hf : ∀ (c : Ctx), c.Canonical → Out.Canonical (k c)) :
    Out.Canonical (issue i s k) := by
  unfold Machine.issue
  split
  · exact fault
  · split
    · exact fault
    · split
      · exact next hs.trapIssue
      · exact next ⟨hs.mem⟩
      · exact next ⟨hs.mem⟩
      · exact hf _ ⟨hs⟩

theorem Ctx.Canonical.retireAt {g : Group} {pc : DWord} (hc : c.Canonical) : (c.retireAt g pc).Canonical := ⟨hc.state.mem⟩

theorem Ctx.Canonical.done {g : Group} (hc : c.Canonical) : Out.Canonical (c.done g) := next ⟨hc.state.mem⟩

theorem Ctx.Canonical.trap {t : Trap} (hc : c.Canonical) : Out.Canonical (c.trap t) := by
  unfold Ctx.trap
  split
  · exact fault
  · exact ifElse (next hc.state.trapIssue) (next ⟨hc.state.mem⟩)

theorem Ctx.Canonical.trapNext {t : Trap} (hc : c.Canonical) : Out.Canonical (c.trapNext t) := by
  unfold Ctx.trapNext
  split
  · exact fault
  · exact ifElse (next (trapIssue ⟨hc.state.mem⟩)) (next ⟨hc.state.mem⟩)

theorem Ctx.Canonical.stall {w : Wait} (hc : c.Canonical) : Out.Canonical (c.stall w) := by
  unfold Ctx.stall
  split
  · exact fault
  · exact next ⟨hc.state.mem⟩

theorem Ctx.Canonical.hold {op : HeldOp} (hc : c.Canonical) : Out.Canonical (c.hold op) := hc.stall

theorem State.Canonical.clearRestart {team : Nat} (hs : s.Canonical) : (s.clearRestart team).Canonical := by
  unfold State.clearRestart
  split
  · exact ifElse ⟨hs.mem⟩ hs
  · exact hs

theorem Ctx.Canonical.publish (hc : c.Canonical) : c.publish.Canonical := ⟨hc.state.clearRestart⟩

/-! ### Results and their flags (Machine/Flags) -/

theorem Ctx.Canonical.deliver {w : BitVec 1} {d : Nat} {xs : List (Nat × Word)} {flags : Word} (hc : c.Canonical) :
    Out.Canonical (c.deliver w d xs flags) := by
  dsimp only [Ctx.deliver]
  split
  · exact hc.done
  · exact done ⟨⟨hc.state.mem⟩⟩

theorem Ctx.Canonical.write {d : Nat} {xs : List (Nat × Word)} {flags : Word} (hc : c.Canonical) : Out.Canonical (c.write d xs flags) :=
  hc.done

theorem Ctx.Canonical.writeMany {xs : List ((Nat × Nat) × Word)} {flags : Word} (hc : c.Canonical) : Out.Canonical (c.writeMany xs flags) :=
  hc.done

/-! ### Operands (Machine/Operands) -/

theorem Ctx.Canonical.lane1 {a : Nat} {w : BitVec 1} {d : Nat} {f : Word → Word} (hc : c.Canonical) : Out.Canonical (c.lane1 a w d f) :=
  hc.deliver

theorem Ctx.Canonical.lane2 {b a : Nat} {w : BitVec 1} {d : Nat} {f : Word → Word → Word} (hc : c.Canonical) :
    Out.Canonical (c.lane2 b a w d f) :=
  hc.deliver

theorem Ctx.Canonical.lane3 {b a : Nat} {w : BitVec 1} {d : Nat} {f : Word → Word → Word → Word} (hc : c.Canonical) :
    Out.Canonical (c.lane3 b a w d f) :=
  hc.deliver

theorem Ctx.Canonical.floatLanes {w : BitVec 1} {d : Nat} {f : Nat → Nat × Word} (hc : c.Canonical) : Out.Canonical (c.floatLanes w d f) :=
  hc.deliver

theorem Ctx.Canonical.pend {ls : List (Nat × Nat)} {op : MemOp} (hc : c.Canonical) : Out.Canonical (c.pend ls op) := next ⟨hc.state.mem⟩

theorem Ctx.Canonical.access {align : Nat} {ls : List (Nat × Nat)} {op : MemOp} (hc : c.Canonical) :
    Out.Canonical (c.access align ls op) := by
  unfold Ctx.access
  exact ifElse hc.trap (ifElse hc.done hc.pend)

theorem Ctx.Canonical.queued {align : Nat} {ls : List (Nat × Nat)} {op : MemOp} (hc : c.Canonical) :
    Out.Canonical (c.queued align ls op) := by
  unfold Ctx.queued
  exact ifElse hc.trap (ifElse hc.done (ifElse hc.stall hc.publish.pend))

theorem Ctx.Canonical.accessOne {align addr : Nat} {op : MemOp} (hc : c.Canonical) : Out.Canonical (c.accessOne align addr op) :=
  ifElse hc.trap hc.pend

theorem Ctx.Canonical.spCheck {k n align : Nat} {ls : List (Nat × Nat)} {f : Out} (hc : c.Canonical) (ho : Out.Canonical f) :
    Out.Canonical (c.spCheck k n align ls f) := by
  unfold Ctx.spCheck
  exact ifElse hc.trap (ifElse hc.trap ho)

theorem Ctx.Canonical.scalar {d : Nat} {x : Word} (hc : c.Canonical) : Out.Canonical (c.scalar d x) := hc.done

/-! ### Batches (Machine/Batch) -/

theorem State.Canonical.execBwait {cls : BitVec 6} {a : BitVec 8} (hs : s.Canonical) : Out.Canonical (execBwait cls a s) :=
  issue hs fun _ hc => ifElse hc.hold (ifElse (done ⟨⟨hc.state.mem⟩⟩) hc.done)

/-! ### Control flow (Machine/Control) -/

theorem State.Canonical.freeArena {ctx : Nat} {slots : List Nat} (hs : s.Canonical) : (s.freeArena ctx slots).Canonical := ⟨hs.mem⟩

theorem State.Canonical.reapTeam {t : Nat} (hs : s.Canonical) : (s.reapTeam t).Canonical := by
  dsimp only [State.reapTeam]
  split
  · exact hs
  · exact ifElse hs (ifElse ⟨hs.mem⟩ hs)

theorem State.Canonical.groupEnd {key : Nat} (hs : s.Canonical) : (s.groupEnd key).Canonical := by
  unfold State.groupEnd
  split
  · exact hs
  · exact ifElse (ifElse ⟨hs.mem⟩ (reapTeam ⟨hs.mem⟩)) hs

theorem State.Canonical.endAll (hs : s.Canonical) : s.endAll.Canonical := foldl hs fun _ _ hu => hu.groupEnd

theorem State.Canonical.checkBarriers {t : Nat} (hs : s.Canonical) : (s.checkBarriers t).Canonical := by
  dsimp only [State.checkBarriers]
  split
  · exact hs
  · exact ⟨hs.mem⟩

theorem State.Canonical.pushEntries {t : State} {core n : Nat} {g : Group} {es : List StackEntry} (hs : s.Canonical)
    (h : s.pushEntries core g n es = .ok t) : t.Canonical := by
  induction es generalizing s n with
  | nil => exact Except.ok.inj h ▸ hs
  | cons e r ih =>
    unfold State.pushEntries at h
    dsimp only at h
    split at h
    · cases h
    · exact ih hs.noteTranslation.storeRun h

theorem Ctx.Canonical.push {es : List StackEntry} {k : Ctx → Group → Out} (hc : c.Canonical)
    (hk : ∀ c g, c.Canonical → Out.Canonical (k c g)) : Out.Canonical (c.push es k) := by
  unfold Ctx.push
  refine ifElse hc.trap ?_
  split
  · exact hc.trap
  next he => exact hk _ _ ⟨hc.state.pushEntries he⟩

theorem Ctx.Canonical.goto {g : Group} {t : ℤ} (hc : c.Canonical) : Out.Canonical (c.goto g t) := next ⟨hc.state.mem⟩

theorem State.Canonical.execBra {o : BitVec 18} {p : BitVec 5} {n u : BitVec 1} (hs : s.Canonical) : Out.Canonical (execBra o p n u s) := by
  dsimp only [Machine.execBra]
  refine issue hs fun _ hc => ?_
  refine ifElse hc.trap ?_
  refine ifElse hc.trap ?_
  refine ifElse hc.done ?_
  refine ifElse hc.goto ?_
  split
  · exact hc.done
  · exact push hc fun _ _ hc2 => hc2.done

theorem State.Canonical.execJoinpt {o : BitVec 18} (hs : s.Canonical) : Out.Canonical (execJoinpt o s) := by
  dsimp only [Machine.execJoinpt]
  refine issue hs fun _ hc => ?_
  refine ifElse hc.trap ?_
  split
  · exact push hc fun _ _ hc2 => hc2.done
  · exact ifElse hc.stall (push hc (fun _ _ hc2 => hc2.done))

/-! ### Machine-check records (Machine/Checks) -/

theorem State.Canonical.foldAt {asid va : Nat} {op : UOp} {bs : List Byte} (hs : s.Canonical) : (s.foldAt asid va op bs).Canonical :=
  hs.homeRmwRun

theorem State.Canonical.refuseAbroad {dev tag va : Nat} {k : XKind} (hs : s.Canonical) : (s.refuseAbroad dev tag va k).Canonical :=
  hs.sendTo

theorem State.Canonical.writeVirt {asid va : Nat} {bs : List Byte} (hs : s.Canonical) : (s.writeVirt asid va bs).Canonical := by
  unfold State.writeVirt
  split
  · exact hs.homeRun
  · exact hs

theorem State.Canonical.logCheck {ctx : Nat} {k : Check} (hs : s.Canonical) : (s.logCheck ctx k).Canonical :=
  notify (setContext (ifElse hs hs.writeVirt))

theorem State.Canonical.answered {f : Msg → Bool} (hs : s.Canonical) : (s.answered f).Canonical := by
  unfold State.answered
  split
  · exact ⟨hs.mem⟩
  · exact hs

theorem State.Canonical.answerScalar {uid sd : Nat} {w : Word} (hs : s.Canonical) : (s.answerScalar uid sd w).Canonical := ⟨hs.mem⟩

theorem State.Canonical.takeMsg {f : Msg → Bool} {n : Nat} {r : Msg × State} (hs : s.Canonical) (h : s.takeMsg f n = some r) :
    r.2.Canonical := by
  unfold State.takeMsg at h
  split at h
  · exact Option.some.inj h ▸ ⟨hs.mem⟩
  · cases h

theorem State.Canonical.takeOrdered {f : Msg → Bool} {n : Nat} {r : Msg × State} (hs : s.Canonical) (h : s.takeOrdered f n = some r) :
    r.2.Canonical := by
  unfold State.takeOrdered at h
  split at h
  next he =>
    split_ifs at h
    exact Option.some.inj h ▸ hs.takeMsg he
  · cases h

/-! ### Integer lane instructions (Machine/LaneInt) -/

theorem Ctx.Canonical.convert {t : Nat} {w : BitVec 1} {d : Nat} {f : Nat → Nat × Word} (hc : c.Canonical) :
    Out.Canonical (c.convert t w d f) :=
  ifElse hc.writeMany hc.deliver

/-! ### Global memory instructions (Machine/GlobalMemory) -/

theorem State.Canonical.execLdReg {x b : BitVec 7} {k : BitVec 1} {z : BitVec 3} {d : BitVec 7} (hs : s.Canonical) :
    Out.Canonical (execLdReg x b k z d s) := by
  unfold Machine.execLdReg
  exact issue hs fun _ hc => hc.access

theorem State.Canonical.execLdImm {x b : BitVec 7} {k : BitVec 1} {z : BitVec 3} {d : BitVec 7} (hs : s.Canonical) :
    Out.Canonical (execLdImm x b k z d s) := by
  unfold Machine.execLdImm
  exact issue hs fun _ hc => hc.access

theorem State.Canonical.execStReg {x b : BitVec 7} {k : BitVec 1} {z : BitVec 3} {d : BitVec 7} (hs : s.Canonical) :
    Out.Canonical (execStReg x b k z d s) := by
  unfold Machine.execStReg
  exact issue hs fun _ hc => hc.queued

theorem State.Canonical.execStImm {x b : BitVec 7} {k : BitVec 1} {z : BitVec 3} {d : BitVec 7} (hs : s.Canonical) :
    Out.Canonical (execStImm x b k z d s) := by
  unfold Machine.execStImm
  exact issue hs fun _ hc => hc.queued

theorem State.Canonical.execLdStrong {o sc : BitVec 3} {b : BitVec 7} {k : BitVec 1} {z : BitVec 3} {d : BitVec 7} (hs : s.Canonical) :
    Out.Canonical (execLdStrong o sc b k z d s) := by
  unfold Machine.execLdStrong
  exact issue hs fun _ hc => hc.access

theorem State.Canonical.execStStrong {o sc : BitVec 3} {b : BitVec 7} {k : BitVec 1} {z : BitVec 3} {d : BitVec 7} (hs : s.Canonical) :
    Out.Canonical (execStStrong o sc b k z d s) := by
  unfold Machine.execStStrong
  exact issue hs fun _ hc => hc.queued

theorem State.Canonical.execAtom {e : BitVec 1} {o : BitVec 2} {sc : BitVec 3} {b : BitVec 7} {k : BitVec 1} {p : BitVec 4} {d : BitVec 7}
    (hs : s.Canonical) : Out.Canonical (execAtom e o sc b k p d s) := by
  unfold Machine.execAtom
  exact issue hs fun _ hc => hc.queued

theorem Ctx.Canonical.update {op : Nat} {ls : List (Nat × Nat)} {vd : Nat} (hc : c.Canonical) : Out.Canonical (c.update op ls vd) := by
  unfold Ctx.update
  exact ifElse hc.trap (ifElse hc.done hc.publish.pend)

theorem State.Canonical.execUpdScalarBase {i b : BitVec 7} {p : BitVec 4} {d : BitVec 7} (hs : s.Canonical) :
    Out.Canonical (execUpdScalarBase i b p d s) := by
  unfold Machine.execUpdScalarBase
  exact issue hs fun _ hc => hc.update

theorem State.Canonical.execUpdVectorBase {b : BitVec 7} {p : BitVec 4} {d : BitVec 7} (hs : s.Canonical) :
    Out.Canonical (execUpdVectorBase b p d s) := by
  unfold Machine.execUpdVectorBase
  exact issue hs fun _ hc => hc.update

theorem State.Canonical.prefetch {core n asid va : Nat} (hs : s.Canonical) : (s.prefetch core n asid va).Canonical := by
  dsimp only [State.prefetch]
  split
  · exact hs
  · exact setCache (foldl hs.noteTranslation fun _ _ hu => ifElse hu hu.readSec)

theorem State.Canonical.prefetchHome {core asid va : Nat} (hs : s.Canonical) : (s.prefetchHome core asid va).Canonical := by
  unfold State.prefetchHome
  split
  · exact hs
  · exact foldl hs.noteTranslation fun _ _ hu => hu.homeKeep

theorem State.Canonical.execPrefL1 {b : BitVec 7} {k : BitVec 1} (hs : s.Canonical) : Out.Canonical (execPrefL1 b k s) :=
  issue hs fun _ hc => done ⟨foldl hc.state fun _ _ hu => hu.prefetch⟩

theorem State.Canonical.execPrefL2 {b : BitVec 7} {k : BitVec 1} (hs : s.Canonical) : Out.Canonical (execPrefL2 b k s) :=
  issue hs fun _ hc => done ⟨foldl hc.state fun _ _ hu => hu.prefetchHome⟩

theorem State.Canonical.execCollapse {b : BitVec 7} {k : BitVec 1} (hs : s.Canonical) : Out.Canonical (execCollapse b k s) := by
  unfold Machine.execCollapse
  exact issue hs fun _ hc => hc.access

theorem State.Canonical.execCctlClean {sc : BitVec 3} {b : BitVec 7} {k : BitVec 1} (hs : s.Canonical) :
    Out.Canonical (execCctlClean sc b k s) := by
  unfold Machine.execCctlClean
  exact issue hs fun _ hc => hc.access

theorem State.Canonical.execCctlInv {sc : BitVec 3} {b : BitVec 7} {k : BitVec 1} (hs : s.Canonical) :
    Out.Canonical (execCctlInv sc b k s) := by
  unfold Machine.execCctlInv
  exact issue hs fun _ hc => hc.access

theorem State.Canonical.execCctlClinv {sc : BitVec 3} {b : BitVec 7} {k : BitVec 1} (hs : s.Canonical) :
    Out.Canonical (execCctlClinv sc b k s) := by
  unfold Machine.execCctlClinv
  exact issue hs fun _ hc => hc.access

theorem State.Canonical.execFence {o src k : BitVec 3} (hs : s.Canonical) : Out.Canonical (execFence o src k s) := by
  refine issue hs fun c hc => ?_
  extract_lets ok c1
  have h1 : c1.Canonical := ifElse hc ⟨hc.state.scEvent⟩
  exact ifElse h1.hold h1.done

theorem State.Canonical.execStld {x b : BitVec 7} {k : BitVec 1} {d : BitVec 7} (hs : s.Canonical) :
    Out.Canonical (execStld x b k d s) := by
  unfold Machine.execStld
  exact issue hs fun _ hc => hc.access

theorem State.Canonical.execStst {x b : BitVec 7} {k : BitVec 1} {d : BitVec 7} (hs : s.Canonical) :
    Out.Canonical (execStst x b k d s) := by
  unfold Machine.execStst
  exact issue hs fun _ hc => hc.queued

theorem State.Canonical.execSubscr {l : BitVec 8} {b : BitVec 7} {z : BitVec 2} {m : BitVec 1} {d : BitVec 7} (hs : s.Canonical) :
    Out.Canonical (execSubscr l b z m d s) :=
  issue hs fun _ hc => ifElse hc.trap (ifElse hc.trap (ifElse hc.trap hc.publish.pend))

/-! ### Accesses and their commits (Machine/Access) -/

theorem State.Canonical.noteAll {core asid : Nat} {op : MemOp} {ls : List (Nat × Nat)} (hs : s.Canonical) :
    (s.noteAll core asid op ls).Canonical :=
  foldl hs fun _ _ hu => ifElse hu.noteTranslation hu.useRemap

theorem State.Canonical.resume {key : Nat} {ps : PSlot} {g : Group} (hs : s.Canonical) : (s.resume key ps g).Canonical := ⟨hs.mem⟩

theorem State.Canonical.park {key : Nat} {ps : PSlot} {g : Group} {w : Wait} (hs : s.Canonical) : (s.park key ps g w).Canonical := ⟨hs.mem⟩

theorem State.Canonical.blockAccess {key : Nat} {pd : Pending} {g : Group} (hs : s.Canonical) : (s.blockAccess key pd g).Canonical :=
  ⟨hs.mem⟩

theorem State.Canonical.finishAccess {key : Nat} {ps : PSlot} {g : Group} {one : Bool} {fail : List (Nat × XKind × Nat)}
    (hs : s.Canonical) : (s.finishAccess key ps g one fail).Canonical :=
  ifElse ⟨hs.mem⟩ (raiseTrap ⟨hs.mem⟩)

theorem State.Canonical.ordered {key : Nat} {must : Bool} (hs : s.Canonical) : (s.ordered key must).Canonical := by
  unfold State.ordered
  split
  · exact ifElse hs.landQueue hs
  · exact hs

theorem State.Canonical.loadOwn {key : Nat} {g : Group} {a n : Nat} (hs : s.Canonical) : (s.loadOwn key g a n).1.Canonical :=
  hs.ordered.loadRun

theorem State.Canonical.commitLoad {key : Nat} {pd : Pending} {dst : LoadDst} {plain : Bool} {ck : Checked} (hs : s.Canonical) :
    (s.commitLoad key pd dst plain ck).Canonical := by
  dsimp only [State.commitLoad]
  split
  · exact hs
  · refine ifElse ?_ hs.performLoad.finishAccess
    split
    · exact hs
    · exact ⟨hs.performLoad.performLoad.mem⟩

theorem State.Canonical.commitStore {key : Nat} {pd : Pending} {bytes : Group → Nat → List Byte} {ord scope : Nat} {ck : Checked}
    (hs : s.Canonical) : (s.commitStore key pd bytes ord scope ck).Canonical := by
  dsimp only [State.commitStore]
  split
  · exact hs
  · exact hs.finishAccess

theorem State.Canonical.commitAtom {key : Nat} {pd : Pending} {op : Nat} {wide : Bool} {vd ord scope : Nat} {ck : Checked}
    (hs : s.Canonical) : (s.commitAtom key pd op wide vd ord scope ck).Canonical := by
  dsimp only [State.commitAtom]
  split
  · exact hs
  · exact hs.finishAccess

theorem State.Canonical.commitUpd {key : Nat} {pd : Pending} {op : UOp} {vd : Nat} {ck : Checked} (hs : s.Canonical) :
    (s.commitUpd key pd op vd ck).Canonical := by
  dsimp only [State.commitUpd]
  split
  · exact hs
  · split
    · exact foldl hs.ordered fun _ _ hu => ifElse ⟨hu.mem⟩ hu.landFar.updateCopy
    · exact finishAccess (foldl hs.ordered fun _ _ hu => ifElse ⟨hu.mem⟩ hu.landFar.updateCopy)

theorem State.Canonical.startCollapse {uid key : Nat} (hs : s.Canonical) : (s.startCollapse uid key).Canonical := by
  dsimp only [State.startCollapse]
  split
  · exact ifElse hs.collapseNow hs
  · exact setCollapse (foldl (ifElse hs.collapseNow hs) fun _ _ hu => hu.toHolder)

theorem State.Canonical.commitCollapse {key : Nat} {pd : Pending} {ck : Checked} (hs : s.Canonical) :
    (s.commitCollapse key pd ck).Canonical := by
  dsimp only [State.commitCollapse]
  split
  · exact hs
  · split
    · exact foldl hs fun _ _ hu => hu.startCollapse
    · exact finishAccess (foldl hs fun _ _ hu => hu.startCollapse)

theorem State.Canonical.cctlSector {fn : Nat} {ns : List Nat} {vault : Bool} {key : Nat} (hs : s.Canonical) :
    (s.cctlSector fn ns vault key).Canonical := by
  unfold State.cctlSector
  extract_lets s1 s2 s3
  have h2 : s2.Canonical := foldl hs.collapseNow.drainWb fun u h hu => by
    refine ifElse ?_ hu
    extract_lets u1
    have hu1 : u1.Canonical := ifElse hu.homeWrite hu
    exact ifElse (ifElse hu1.setCache hu1) hu1.setCache
  have h3 : s3.Canonical := ifElse h2.flushHome h2
  exact h3.syncDir

theorem State.Canonical.commitCctl {key : Nat} {pd : Pending} {fn scope : Nat} {ck : Checked} (hs : s.Canonical) :
    (s.commitCctl key pd fn scope ck).Canonical := by
  dsimp only [State.commitCctl]
  split
  · exact hs
  · split
    · exact foldl hs.ordered fun _ _ hu => foldl hu fun _ _ hu2 => hu2.cctlSector
    · exact finishAccess (foldl hs.ordered fun _ _ hu => foldl hu fun _ _ hu2 => hu2.cctlSector)

theorem State.Canonical.watchSec {addr : Nat} (hs : s.Canonical) : (s.watchSec addr).Canonical := hs.shareOut.syncDir

theorem State.Canonical.commitWaita {key : Nat} {pd : Pending} {sd : Nat} {away timeout : Word} {ck : Checked} (hs : s.Canonical) :
    (s.commitWaita key pd sd away timeout ck).Canonical := by
  unfold State.commitWaita
  extract_lets s0
  have h0 : s0.Canonical := hs.ordered
  split
  · exact ifElse h0.readSec.resume h0.readSec.watchSec.park
  · exact h0.finishAccess
  · exact h0

theorem State.Canonical.takePos {key cls : Nat} (hs : s.Canonical) : (s.takePos key cls).1.Canonical := by
  dsimp only [State.takePos]
  split
  · exact hs
  · exact ⟨hs.mem⟩

theorem State.Canonical.donePos {uid pos : Nat} (hs : s.Canonical) : (s.donePos uid pos).Canonical := by
  dsimp only [State.donePos]
  split
  · exact reapTeam ⟨hs.mem⟩
  · exact ⟨hs.mem⟩

theorem State.Canonical.commitSubscr {key : Nat} {pd : Pending} {sd line size : Nat} {strict : Bool} {ck : Checked} (hs : s.Canonical) :
    (s.commitSubscr key pd sd line size strict ck).Canonical := by
  dsimp only [State.commitSubscr]
  split
  · split
    · exact hs
    · refine ifElse ⟨hs.mem⟩ ?_
      split
      · exact hs.setSegment.takePos
      · exact ⟨hs.setSegment.takePos.mem⟩
  · exact hs.finishAccess
  · exact hs

theorem State.Canonical.commit {key : Nat} {pd : Pending} {ck : Checked} (hs : s.Canonical) : (s.commit key pd ck).Canonical := by
  unfold State.commit
  split
  · exact hs
  · split
    · exact hs.ordered.commitLoad
    · exact hs.ordered.commitLoad.scEvent
    · exact hs.commitStore
    · exact hs.commitStore
    · exact hs.commitAtom
    · exact hs.commitUpd
    · exact hs.ordered.commitCollapse
    · exact hs.commitCctl
    · exact hs.ordered.commitLoad
    · exact hs.commitWaita
    · exact hs.ordered.commitSubscr
    · exact hs.ordered.commitLoad
    · exact hs.commitStore
    · exact hs

/-! ### Matrix instructions (Machine/Matrix) -/

theorem Ctx.Canonical.queueMat {tile : Nat} {g : Group} {op : MatOp} {k : Ctx → Group → Out} (hc : c.Canonical)
    (hf : ∀ (c : Ctx) x, c.Canonical → Out.Canonical (k c x)) : Out.Canonical (c.queueMat tile g op k) :=
  ifElse hc.stall (hf _ _ ⟨⟨hc.state.mem⟩⟩)

theorem State.Canonical.execMxloop {f : BitVec 7} {a : BitVec 8} {t : BitVec 2} (hs : s.Canonical) :
    Out.Canonical (execMxloop f a t s) := by
  dsimp only [Machine.execMxloop]
  refine issue hs fun _ hc => ?_
  refine ifElse hc.trap ?_
  refine ifElse hc.stall ?_
  refine ifElse hc.trap ?_
  split
  · exact hc.trap
  · exact ifElse hc.trap (queueMat hc (fun _ _ hc2 => hc2.done))

theorem State.Canonical.execMxrd {f : BitVec 7} {a : BitVec 8} {t : BitVec 2} (hs : s.Canonical) : Out.Canonical (execMxrd f a t s) :=
  issue hs fun _ hc => ifElse hc.trap (ifElse hc.trap (ifElse hc.stall (queueMat hc (fun _ _ hc2 => done ⟨⟨hc2.state.mem⟩⟩))))

theorem State.Canonical.execMxcfg {a : BitVec 8} {t : BitVec 2} (hs : s.Canonical) : Out.Canonical (execMxcfg a t s) :=
  issue hs fun _ hc => ifElse hc.trap (queueMat hc (fun _ _ hc2 => hc2.done))

theorem State.Canonical.execMxepi {f : BitVec 7} {a : BitVec 8} {t : BitVec 2} (hs : s.Canonical) : Out.Canonical (execMxepi f a t s) := by
  refine issue hs fun c hc => ?_
  extract_lets
  refine ifElse hc.trap (ifElse hc.stall (ifElse hc.trap ?_))
  split
  · exact hc.trap
  · refine ifElse hc.trap (ifElse hc.trap (ifElse (ifElse hc.stall hc.publish.pend) ?_))
    exact queueMat hc fun _ _ hk => done (ifElse hk.publish hk)

theorem State.Canonical.commitEpi {key : Nat} {pd : Pending} {tile : Nat} {ep : EpiCtl} (hs : s.Canonical) :
    (s.commitEpi key pd tile ep).Canonical := by
  dsimp only [State.commitEpi]
  split
  · exact hs
  · split
    · exact hs.finishAccess
    · exact ifElse ⟨hs.mem⟩ ⟨hs.mem⟩

/-! ### The matrix unit (Machine/MatrixUnit) -/

theorem State.Canonical.unqueueMat {core pos : Nat} (hs : s.Canonical) : (s.unqueueMat core pos).Canonical := ⟨hs.mem⟩

theorem State.Canonical.completeMat {core : Nat} {e : MatPos} (hs : s.Canonical) : (s.completeMat core e).Canonical := donePos ⟨hs.mem⟩

theorem State.Canonical.spoilTile {e : MatPos} (hs : s.Canonical) : (s.spoilTile e).Canonical := by
  dsimp only [State.spoilTile]
  split
  · exact hs
  · exact ⟨hs.setSegment.mem⟩

theorem State.Canonical.execMatrixKStep {core : Nat} (hs : s.Canonical) : Out.Canonical (execMatrixKStep core s) := by
  dsimp only [Machine.execMatrixKStep]
  split
  · exact next hs
  · split
    · exact next hs
    · exact ifElse (next (completeMat (ifElse hs.setSegment hs.setSegment.spoilTile))) (next ⟨hs.setSegment.mem⟩)

theorem State.Canonical.execTileConfigApply {core : Nat} (hs : s.Canonical) : Out.Canonical (execTileConfigApply core s) := by
  dsimp only [Machine.execTileConfigApply]
  split
  · split
    · exact next hs.setSegment.completeMat
    · exact next hs
  · exact next hs

theorem State.Canonical.execTileZeroApply {core : Nat} (hs : s.Canonical) : Out.Canonical (execTileZeroApply core s) := by
  unfold Machine.execTileZeroApply
  split
  · split
    · exact next hs.setSegment.completeMat
    · exact next hs
  · exact next hs

theorem State.Canonical.handRead {uid pos : Nat} {xs : List ((Nat × Nat) × Word)} (hs : s.Canonical) : (s.handRead uid pos xs).Canonical :=
  ⟨hs.mem⟩

theorem State.Canonical.execTileReadDeliver {core : Nat} (hs : s.Canonical) : Out.Canonical (execTileReadDeliver core s) := by
  dsimp only [Machine.execTileReadDeliver]
  split
  · split
    · exact next (completeMat ⟨hs.mem⟩)
    · exact next hs
  · exact next hs

theorem State.Canonical.toMemory {c : EpiCtl} {core asid : Nat} {g : Segment} {tile : Nat} (hs : s.Canonical) :
    (c.toMemory s core asid g tile).Canonical :=
  foldl hs fun _ _ hu => foldl hu fun _ _ hu2 => ifElse hu2.storeAll hu2.foldAt

theorem State.Canonical.postContribution {c : Contribution} (hs : s.Canonical) : (s.postContribution c).Canonical := hs.sendTo

theorem State.Canonical.sendContribution {c : Contribution} (hs : s.Canonical) : (s.sendContribution c).Canonical :=
  ifElse hs.donePos.logCheck ⟨hs.postContribution.mem⟩

theorem State.Canonical.runEpilogue {core : Nat} {e : MatPos} {c : EpiCtl} {g : Segment} (hs : s.Canonical) :
    (s.runEpilogue core e c g).Canonical := by
  dsimp only [State.runEpilogue]
  refine ifElse ?_ ?_
  · refine sendContribution ?_
    refine unqueueMat ?_
    split
    · refine ifElse ?_ ?_
      · refine setSegment ?_
        split
        · exact hs.setSegment
        · exact hs.toMemory
        · exact hs
      · split
        · exact hs.setSegment
        · exact hs.toMemory
        · exact hs
    · split
      · exact hs.setSegment
      · exact hs.toMemory
      · exact hs
  · refine completeMat ?_
    split
    · refine ifElse ?_ ?_
      · refine setSegment ?_
        split
        · exact hs.setSegment
        · exact hs.toMemory
        · exact hs
      · split
        · exact hs.setSegment
        · exact hs.toMemory
        · exact hs
    · split
      · exact hs.setSegment
      · exact hs.toMemory
      · exact hs

theorem State.Canonical.execEpilogueRun {core : Nat} (hs : s.Canonical) : Out.Canonical (execEpilogueRun core s) := by
  dsimp only [Machine.execEpilogueRun]
  split
  · split
    · exact next hs.runEpilogue
    · exact next hs
  · exact next hs

/-! ### Copies (Machine/Copy) -/

theorem Ctx.Canonical.copy {out : Bool} {x r l : Nat} (hc : c.Canonical) : Out.Canonical (c.copy out x r l) :=
  ifElse hc.trap (ifElse hc.publish.pend hc.pend)

theorem State.Canonical.commitCopy {key : Nat} {pd : Pending} {out : Bool} {l x : Nat} {ck : Checked} (hs : s.Canonical) :
    (s.commitCopy key pd out l x ck).Canonical := by
  obtain ⟨load, hl⟩ : ∃ f, f = State.loadOwn := ⟨_, rfl⟩
  have hload : ∀ g a n, (load s key g a n).1.Canonical := fun _ _ _ => hl ▸ hs.loadOwn
  rw [State.commitCopy, ← hl]
  split
  · split
    next he =>
      have h1 := of_pair he (hload ..)
      split
      · extract_lets ls xs j0 size lines seg1 c job taken s2
        have h2 : s2.Canonical := ⟨h1.mem⟩
        split
        · exact h1.setGroup.raiseTrap
        · exact ifElse h1.blockAccess h2.setSegment.setCore.resume
      · exact h1
  · exact hs.finishAccess
  · exact hs

theorem State.Canonical.touch {team seg : Nat} {bytes : List Nat} (hs : s.Canonical) : (s.touch team seg bytes).Canonical := by
  dsimp only [State.touch]
  split
  · exact hs
  · exact ifElse ⟨hs.mem⟩ hs

theorem State.Canonical.setCopy {core pos : Nat} {j : Option CopyJob} (hs : s.Canonical) : (s.setCopy core pos j).Canonical := ⟨hs.mem⟩

theorem State.Canonical.copyLoad {core : Nat} {j : CopyJob} {a : Int} (hs : s.Canonical) : (s.copyLoad core j a).1.Canonical := by
  unfold State.copyLoad
  dsimp only
  split
  · exact hs.loadRun
  · exact hs.newPacket

theorem State.Canonical.copyLine {core : Nat} {j : CopyJob} {line : Nat} (hs : s.Canonical) : (s.copyLine core j line).Canonical := by
  unfold State.copyLine
  refine foldl hs fun u e hu => ?_
  have hload : (match e.2 with
      | some a => u.copyLoad core j a
      | none => (u, (run 0 j.shape.unit).map fun _ => (0 : Byte))).1.Canonical := by
    split
    · exact hu.copyLoad
    · exact hu
  dsimp only
  split
  · exact hload.setSegment
  · exact hload

theorem State.Canonical.execCopyInLine {core : Nat} (hs : s.Canonical) : Out.Canonical (execCopyInLine core s) := by
  dsimp only [Machine.execCopyInLine]
  split
  · exact next hs
  · split
    · exact next (donePos ⟨hs.mem⟩)
    · refine ifElse ?_ ?_
      · refine next ?_; refine donePos ?_
        refine setCopy ?_
        split
        · exact hs.copyLine.touch.setSegment
        · exact hs.copyLine.touch
      · refine next ?_; refine setCopy ?_
        split
        · exact hs.copyLine.touch.setSegment
        · exact hs.copyLine.touch

theorem State.Canonical.noteReplica {j : CopyJob} {dev va : Nat} {old : List Byte} (hs : s.Canonical) :
    (s.noteReplica j dev va old).Canonical :=
  ifElse ⟨hs.mem⟩ ⟨hs.mem⟩

theorem State.Canonical.copyStore {core : Nat} {j : CopyJob} {red dev va : Nat} {bs : List Byte} (hs : s.Canonical) :
    (s.copyStore core j red dev va bs).Canonical :=
  ifElse (ifElse hs.storeAll hs.performFar) hs.noteReplica.sendTo.writePlace

theorem State.Canonical.copyRun {core : Nat} {j : CopyJob} {es : List (Nat × Option ℤ)} {dev : Nat} (hs : s.Canonical) :
    (s.copyRun core j es dev).Canonical := by
  unfold State.copyRun
  refine foldl hs fun _ _ hu => ?_
  split
  · exact hu.copyStore
  · exact hu

theorem State.Canonical.spoilCopy {j : CopyJob} {dev : Nat} (hs : s.Canonical) : (s.spoilCopy j dev).Canonical := by
  unfold State.spoilCopy
  refine foldl hs fun u a hu => ⟨?_⟩
  dsimp only
  split
  · exact hu.homeStore.mem
  · exact hu.writePlace.mem

theorem State.Canonical.takeCopyFault {pos dev va : Nat} (hs : s.Canonical) : (s.takeCopyFault pos dev va).Canonical := by
  dsimp only [State.takeCopyFault]
  split
  · exact hs
  · refine ifElse ?_ ?_
    · split
      · exact writePlace ⟨hs.mem⟩
      · exact ⟨hs.mem⟩
    · refine logCheck ?_
      split
      · exact writePlace ⟨hs.mem⟩
      · exact ⟨hs.mem⟩

theorem State.Canonical.execCopyOutElements {core : Nat} (hs : s.Canonical) : Out.Canonical (execCopyOutElements core s) := by
  unfold Machine.execCopyOutElements
  split
  · exact next hs
  · extract_lets bad es j1 live s1 s2
    have h1 : s1.Canonical := foldl hs fun _ _ hu => hu.logCheck
    have h2 : s2.Canonical := foldl h1 fun _ _ hu => hu.copyRun
    exact ifElse (next (donePos (setCopy (foldl h2 fun _ _ hu => hu.spoilCopy)))) (next h2.setCopy)

/-! ### Cross-lane instructions (Machine/CrossLane) -/

theorem Ctx.Canonical.shuffle {b a d : Nat} {f : ℤ → ℤ → ℤ} (hc : c.Canonical) : Out.Canonical (c.shuffle b a d f) := hc.write

theorem State.Canonical.execRdlane {i : BitVec 7} {r : BitVec 8} {a : BitVec 7} (hs : s.Canonical) :
    Out.Canonical (execRdlane i r a s) := by
  unfold Machine.execRdlane
  refine issue hs fun _ hc => ?_
  split
  · exact hc.done
  · exact hc.scalar

/-! ### Cache events (Machine/EvCache) -/

theorem State.Canonical.serveAbroad {n tag va : Nat} {need : Need} {f : State → Xl → State} (hs : s.Canonical)
    (hf : ∀ (u : State) x, u.Canonical → (f u x).Canonical) : (s.serveAbroad n tag va need f).Canonical := by
  unfold State.serveAbroad
  split
  · exact ifElse hs.refuseAbroad hs
  · exact ifElse (toHolder (hf _ _ hs)) hs

theorem State.Canonical.freeSector (hs : s.Canonical) : s.freeSector.1.Canonical :=
  List.foldlRecOn (motive := fun r : State × Nat => r.1.Canonical) _ _ hs fun _ hr _ _ => hr.fresh

theorem State.Canonical.foreignBytes {n key : Nat} {f : SecState → SecState} (hs : s.Canonical) : (s.foreignBytes n key f).Canonical := by
  dsimp only [State.foreignBytes]
  split
  · exact syncDir ⟨hs.freeSector.mem⟩
  · exact hs

theorem State.Canonical.execMissRequest {cache asid va : Nat} {write : Bool} (hs : s.Canonical) :
    Out.Canonical (execMissRequest cache asid va write s) := by
  dsimp only [Machine.execMissRequest]
  refine ifElse (next (serveAbroad hs (fun _ _ hu => ifElse (ifElse hu hu.ownSec.foreignBytes) hu.readSec))) ?_
  split
  · exact next hs
  · exact ifElse (next (ifElse hs.ownSec hs)) (next (ifElse hs.readSec hs))

theorem State.Canonical.execUGrantRequest {cache asid va : Nat} {op : BitVec 4} (hs : s.Canonical) :
    Out.Canonical (execUGrantRequest cache asid va op s) := by
  dsimp only [Machine.execUGrantRequest]
  refine ifElse (next (ifElse (serveAbroad hs (fun _ _ hu => ifElse hu.grantU.foreignBytes hu)) hs)) ?_
  split
  · exact next hs
  · exact next (ifElse hs.grantU hs)

theorem State.Canonical.execFarAccess {n : Nat} (hs : s.Canonical) : Out.Canonical (execFarAccess n s) := by
  dsimp only [Machine.execFarAccess]
  split
  · exact ifElse (next hs) (next (endAll (performFor ⟨hs.mem⟩)))
  · exact next hs

theorem State.Canonical.supply {n key : Nat} {d : SectorData} (hs : s.Canonical) : (s.supply n key d).Canonical := ⟨hs.homeWrite.mem⟩

theorem State.Canonical.execForwardedRead {cache asid va : Nat} (hs : s.Canonical) : Out.Canonical (execForwardedRead cache asid va s) := by
  dsimp only [Machine.execForwardedRead]
  split
  · exact next (ifElse hs.shareAt.syncDir (ifElse hs.missAtHome hs))
  · refine ifElse (next hs) ?_
    refine ifElse (next hs.shareAt.syncDir) ?_
    split
    · exact next hs.supply
    · exact next hs

theorem State.Canonical.writtenAbroad {key : Nat} (hs : s.Canonical) : (s.writtenAbroad key).Canonical := by
  dsimp only [State.writtenAbroad]
  split
  · exact hs.invalidateAll.freeSector.writePlace
  · exact hs.invalidateAll.freeSector

theorem State.Canonical.takeBack {key : Nat} {f : Nat → Bool} (hs : s.Canonical) : (s.takeBack key f).Canonical :=
  syncDir (foldl hs fun _ _ hu => ifElse (setCache (ifElse hu.toHolder.homeWrite hu.toHolder)) hu)

theorem State.Canonical.execInvalidate {cache asid va : Nat} (hs : s.Canonical) : Out.Canonical (execInvalidate cache asid va s) := by
  dsimp only [Machine.execInvalidate]
  refine ifElse (next hs) ?_
  refine ifElse (next hs.writtenAbroad) ?_
  refine ifElse (next hs) ?_
  refine ifElse (next hs.takeBack) ?_
  split
  · exact next hs.supply
  · exact next hs

theorem State.Canonical.execWriteBack {cache : Nat} (hs : s.Canonical) : Out.Canonical (execWriteBack cache s) := by
  unfold Machine.execWriteBack
  split
  · exact next hs
  · exact next hs.supply

theorem State.Canonical.execWriteBackAck {cache : Nat} (hs : s.Canonical) : Out.Canonical (execWriteBackAck cache s) := by
  dsimp only [Machine.execWriteBackAck]
  split
  · exact next hs
  · exact next ⟨hs.mem⟩

theorem State.Canonical.execRecallForCollapse {cache asid va : Nat} (hs : s.Canonical) :
    Out.Canonical (execRecallForCollapse cache asid va s) := by
  dsimp only [Machine.execRecallForCollapse]
  refine ifElse (next hs.collapseNow.endAll) ?_
  split
  · exact next hs
  · refine ifElse (next hs) ?_
    split
    · exact next (setCollapse ⟨hs.mem⟩)
    · exact next hs.setCollapse

theorem State.Canonical.foldUpTo {key : Nat} {c : Collapse} {d n : Nat} (hs : s.Canonical) : (s.foldUpTo key c d n).Canonical :=
  setCollapse ⟨hs.mem⟩

theorem State.Canonical.execUCopyArrival {cache asid va : Nat} (hs : s.Canonical) : Out.Canonical (execUCopyArrival cache asid va s) := by
  dsimp only [Machine.execUCopyArrival]
  split
  · exact next hs
  · exact ifElse (next hs.foldUpTo) (next hs)

theorem State.Canonical.execPartialArrival {_die asid va : Nat} (hs : s.Canonical) : Out.Canonical (execPartialArrival _die asid va s) := by
  dsimp only [Machine.execPartialArrival]
  split
  · exact next hs
  · exact next (ifElse hs.collapseNow.endAll hs)

theorem State.Canonical.execUCopyEviction {cache asid va : Nat} (hs : s.Canonical) : Out.Canonical (execUCopyEviction cache asid va s) := by
  dsimp only [Machine.execUCopyEviction]
  split
  · exact next (ifElse hs.evictU hs)
  · exact next hs

/-! ### Barriers and events (Machine/Sync) -/

theorem State.Canonical.arriveAt {g : Group} {n : Nat} {m : Word} (hs : s.Canonical) : (s.arriveAt g n m).Canonical := by
  unfold State.arriveAt
  split
  · exact hs
  · exact ⟨hs.mem⟩

theorem State.Canonical.execBarArv {n : BitVec 4} (hs : s.Canonical) : Out.Canonical (execBarArv n s) :=
  issue hs fun _ hc => ifElse hc.trap (ifElse hc.hold (done ⟨hc.state.arriveAt⟩))

theorem Ctx.Canonical.barrierWait {n : Nat} (hc : c.Canonical) : Out.Canonical (c.barrierWait n) := by
  unfold Ctx.barrierWait
  refine ifElse hc.done ?_
  split
  · exact fault
  · exact next ⟨hc.state.mem⟩

theorem State.Canonical.execBarSync {n : BitVec 4} (hs : s.Canonical) : Out.Canonical (execBarSync n s) :=
  issue hs fun _ hc => ifElse hc.barrierWait (ifElse hc.trap (ifElse hc.hold (barrierWait ⟨hc.state.arriveAt⟩)))

theorem State.Canonical.eventNow {ctx : Nat} {clear set : BitVec 256} (hs : s.Canonical) : (s.eventNow ctx clear set).Canonical := ⟨hs.mem⟩

theorem State.Canonical.execEvset {a : BitVec 8} (hs : s.Canonical) : Out.Canonical (execEvset a s) :=
  issue hs fun _ hc => ifElse hc.publish.hold (done ⟨⟨hc.publish.state.mem⟩⟩)

theorem State.Canonical.execEvclr {a : BitVec 8} (hs : s.Canonical) : Out.Canonical (execEvclr a s) :=
  issue hs fun _ hc => ifElse hc.stall (done ⟨⟨hc.publish.state.mem⟩⟩)

theorem State.Canonical.releaseAll {key : Nat} (hs : s.Canonical) : (s.releaseAll key).Canonical := by
  unfold State.releaseAll
  split
  · exact hs
  · exact hs.landQueue.landCollapses

theorem State.Canonical.submit {g : Group} {sd : Nat} {p : BitVec 1024} {r : State × Group} (hs : s.Canonical)
    (h : s.submit g sd p = some r) : r.1.Canonical := by
  unfold State.submit at h
  dsimp only at h
  split_ifs at h
  · exact Option.some.inj h ▸ hs
  · exact Option.some.inj h ▸ hs.setContext

theorem State.Canonical.execLaunch {a d : BitVec 8} (hs : s.Canonical) : Out.Canonical (execLaunch a d s) := by
  refine issue hs fun c hc => ?_
  split
  · split
    next he => exact done ⟨hc.state.submit he⟩
    · exact hc.hold
  · exact hc.accessOne

theorem State.Canonical.commitLaunch {key : Nat} {pd : Pending} {sd : Nat} {ck : Checked} (hs : s.Canonical) :
    (s.commitLaunch key pd sd ck).Canonical := by
  obtain ⟨load, hl⟩ : ∃ f, f = State.loadOwn := ⟨_, rfl⟩
  have hload : ∀ g a n, (load s key g a n).1.Canonical := fun _ _ _ => hl ▸ hs.loadOwn
  rw [State.commitLaunch, ← hl]
  split
  · split
    next he =>
      extract_lets s2
      have h2 : s2.Canonical := (of_pair he (hload ..)).releaseAll
      split
      · exact h2
      · refine ifElse h2.resume ?_
        split
        next he2 => exact resume (h2.submit he2)
        · exact h2.park
  · exact hs.finishAccess
  · exact hs

theorem State.Canonical.execSendam {n : BitVec 3} {a d : BitVec 8} (hs : s.Canonical) : Out.Canonical (execSendam n a d s) :=
  issue hs fun _ hc => ifElse hc.publish.hold (ifElse hc.publish.done (ifElse hc.publish.done (done ⟨hc.publish.state.sendTo⟩)))

/-! ### Core events (Machine/EvCore) -/

theorem State.Canonical.execOperandArrival {core slot : Nat} (hs : s.Canonical) : Out.Canonical (execOperandArrival core slot s) := by
  dsimp only [Machine.execOperandArrival]
  split
  · exact next hs
  · exact next ⟨hs.mem⟩

theorem State.Canonical.takeRefusals {tag : Nat} {lanes : List (Nat × Nat)} (hs : s.Canonical) : (s.takeRefusals tag lanes).Canonical :=
  ⟨hs.mem⟩

theorem State.Canonical.answerAccess {key : Nat} {g : Group} {pd : Pending} (hs : s.Canonical) : (s.answerAccess key g pd).Canonical := by
  dsimp only [State.answerAccess]
  split
  · exact commitCopy (noteAll ⟨hs.mem⟩)
  · exact commitLaunch (noteAll ⟨hs.mem⟩)
  · exact commitEpi (noteAll ⟨hs.mem⟩)
  · exact commit (noteAll ⟨hs.mem⟩)

theorem State.Canonical.execTranslationAck {core slot : Nat} (hs : s.Canonical) : Out.Canonical (execTranslationAck core slot s) := by
  dsimp only [Machine.execTranslationAck]
  split
  · exact next hs
  · split
    · exact next hs
    · exact ifElse (next hs) (next hs.answerAccess)

theorem State.Canonical.execStoreQueueDrain {core slot : Nat} (hs : s.Canonical) : Out.Canonical (execStoreQueueDrain core slot s) := by
  dsimp only [Machine.execStoreQueueDrain]
  split
  · exact next hs
  · exact ifElse (next hs.groupEnd) (ifElse (next hs.drainOne.groupEnd) (next hs))

theorem State.Canonical.execLineFillWake {core slot : Nat} (hs : s.Canonical) : Out.Canonical (execLineFillWake core slot s) := by
  dsimp only [Machine.execLineFillWake]
  split
  · exact next hs
  · exact next ⟨hs.mem⟩

theorem State.Canonical.execEmptyLineTimeout {core slot : Nat} (hs : s.Canonical) : Out.Canonical (execEmptyLineTimeout core slot s) := by
  dsimp only [Machine.execEmptyLineTimeout]
  split
  · exact next hs
  · split
    · exact ifElse (next hs.raiseTrap) (next hs)
    · exact next hs

theorem State.Canonical.wake {key : Nat} {ps : PSlot} {sd : Nat} {code : Word} (hs : s.Canonical) : (s.wake key ps sd code).Canonical := by
  dsimp only [State.wake]
  split
  · exact hs
  · split
    · exact hs
    · exact ⟨hs.mem⟩

theorem State.Canonical.checkWatch {core asid : Nat} {w : Watch} {r : State × Bool} (hs : s.Canonical)
    (h : s.checkWatch core asid w = .ok r) : r.1.Canonical := by
  unfold State.checkWatch at h
  split at h
  · cases h
  next he => exact Except.ok.inj h ▸ hs.loadVirt he

theorem State.Canonical.watchFault {key : Nat} {g : Group} {ps : PSlot} {k : XKind} {va : Nat} (hs : s.Canonical) :
    (s.watchFault key g ps k va).Canonical :=
  ifElse (raiseTrap ⟨hs.mem⟩) hs

theorem State.Canonical.checkedNow {key : Nat} {ps : PSlot} {w : Watch} (hs : s.Canonical) : (s.checkedNow key ps w).Canonical := by
  unfold State.checkedNow
  split
  · exact ⟨hs.mem⟩
  · exact hs

theorem State.Canonical.execWaitaCheck {core slot : Nat} {slotB : Bool} (hs : s.Canonical) :
    Out.Canonical (execWaitaCheck core slot slotB s) := by
  unfold Machine.execWaitaCheck
  dsimp only
  split
  · exact next hs
  · split
    · exact next hs
    · refine ifElse (next hs) ?_
      split
      · exact next hs.watchFault
      next he =>
        have h1 := hs.checkWatch he
        exact next (ifElse h1.wake h1.checkedNow.watchSec)

theorem State.Canonical.execWaitaTimeout {core slot : Nat} {slotB : Bool} (hs : s.Canonical) :
    Out.Canonical (execWaitaTimeout core slot slotB s) := by
  unfold Machine.execWaitaTimeout
  dsimp only
  split
  · exact next hs
  · split
    · exact next hs
    · refine ifElse (next hs) ?_
      split
      · exact next hs.watchFault
      next he => exact next (hs.checkWatch he).wake

theorem State.Canonical.startService {core slot : Nat} {g : Group} (hs : s.Canonical) : (s.startService core slot g).Canonical := by
  unfold State.startService
  refine ifElse hs.haltContext ?_
  split
  · exact hs.haltContext
  next he =>
    have h1 := hs.loadVirt he
    exact ifElse h1.haltContext ⟨h1.mem⟩

theorem State.Canonical.execTrapServiceStart {core : Nat} (hs : s.Canonical) : Out.Canonical (execTrapServiceStart core s) := by
  dsimp only [Machine.execTrapServiceStart]
  split
  · split
    · exact next (ifElse (startService ⟨hs.mem⟩) ⟨hs.mem⟩)
    · exact next ⟨hs.mem⟩
  · exact next hs

theorem State.Canonical.execMachineCheck {core slot : Nat} (hs : s.Canonical) : Out.Canonical (execMachineCheck core slot s) := by
  dsimp only [Machine.execMachineCheck]
  split
  · exact next hs
  · split
    · exact next hs
    · exact ifElse (next (raiseTrap ⟨hs.mem⟩)) (next hs)

theorem State.Canonical.trapHere {g : Group} {t : Trap} (hs : s.Canonical) : (s.trapHere g t).Canonical := ifElse hs.trapIssue ⟨hs.mem⟩

theorem State.Canonical.execFetchTrap (hs : s.Canonical) : Out.Canonical (execFetchTrap s) := by
  dsimp only [Machine.execFetchTrap]
  split
  · exact next hs
  · split
    · exact next hs.trapHere
    · exact next hs

theorem State.Canonical.execUnassignedEncoding {word : BitVec 32} (hs : s.Canonical) : Out.Canonical (execUnassignedEncoding word s) := by
  unfold Machine.execUnassignedEncoding
  split
  · exact next hs
  · split
    · exact next (ifElse hs.trapHere hs)
    · exact next hs

/-! ### Placement (Machine/Placement) -/

theorem State.Canonical.emptyCache {n : Nat} (hs : s.Canonical) : (s.emptyCache n).Canonical :=
  flushWb (foldl hs fun _ _ hu => hu.evictLine)

theorem State.Canonical.clusterMode {fused : Bool} {core : Nat} (hs : s.Canonical) : (s.clusterMode fused core).Canonical := by
  unfold State.clusterMode
  extract_lets c s1
  have h1 : s1.Canonical := foldl hs fun _ _ hu => hu.emptyCache
  clear_value s1
  exact ifElse hs ⟨h1.mem⟩

theorem State.Canonical.prepareCore {fused : Bool} {core : Nat} (hs : s.Canonical) : (s.prepareCore fused core).Canonical :=
  ⟨hs.clusterMode.mem⟩

theorem State.Canonical.startGroup {ctx team : Nat} {p : BitVec 1024} {cores : List Nat} {arena : Option Nat} {n : Nat} (hs : s.Canonical) :
    (s.startGroup ctx team p cores arena n).Canonical := by
  dsimp only [State.startGroup]
  split
  · exact hs
  · exact ⟨hs.mem⟩

theorem State.Canonical.startGroups {ctx team : Nat} {p : BitVec 1024} {cores arena : List Nat} (hs : s.Canonical) :
    (s.startGroups ctx team p cores arena).Canonical :=
  foldl (foldl hs fun _ _ hu => hu.prepareCore) fun _ _ hu => hu.startGroup

/-! ### The distributor (Machine/EvDistributor) -/

theorem State.Canonical.homePiece {asid va n : Nat} {r : State × List Byte} (hs : s.Canonical) (h : s.homePiece asid va n = .ok r) :
    r.1.Canonical := by
  unfold State.homePiece at h
  split at h
  · cases h
  · exact Except.ok.inj h ▸ hs.collapseNow.shareOut.syncDir

theorem State.Canonical.homeLoad {asid va n : Nat} {r : State × List Byte} (hs : s.Canonical) (h : s.homeLoad asid va n = .ok r) :
    r.1.Canonical := by
  refine List.foldlRecOn (motive := fun acc : Except XKind (State × List Byte) => ∀ r, acc = .ok r → r.1.Canonical) _ _
    (fun r hr => Except.ok.inj hr ▸ hs) (fun acc hacc p _ r hr => ?_) r h
  split at hr
  · cases hr
  next st bs =>
    have hst : st.Canonical := hacc (st, bs) rfl
    split at hr
    · cases hr
    next he =>
      cases hr
      exact (hst.homePiece he :)

theorem State.Canonical.setQueue {p q : Nat} {x : HostQueue} (hs : s.Canonical) : (s.setQueue p q x).Canonical := ⟨hs.mem⟩

theorem State.Canonical.readEntry {p : Nat} {x : HostQueue} {r : State × List Byte} (hs : s.Canonical) (h : s.readEntry p x = some r) :
    r.1.Canonical := by
  unfold State.readEntry at h
  dsimp only at h
  split_ifs at h
  · split at h
    next he => exact Option.some.inj h ▸ hs.homeLoad he
    · cases h
  · exact Option.some.inj h ▸ hs

theorem State.Canonical.msix {p vector what : Nat} (hs : s.Canonical) : (s.msix p vector what).Canonical := ⟨hs.mem⟩

theorem State.Canonical.complete {p q : Nat} {n : Word} {num code : Nat} (hs : s.Canonical) : (s.complete p q n num code).Canonical :=
  msix (ifElse hs.writeVirt.writeVirt ⟨hs.mem⟩)

theorem State.Canonical.answerLaunch {o : Option DevPacket} {p q : Nat} {n : Word} {code : Nat} (hs : s.Canonical) :
    (s.answerLaunch o p q n code).Canonical := by
  unfold State.answerLaunch
  split
  · exact ⟨hs.mem⟩
  · exact hs.complete

theorem State.Canonical.checkPacket {ctx : Nat} {host : Bool} {p : BitVec 1024} (hs : s.Canonical) :
    (s.checkPacket ctx host p).1.Canonical := by
  unfold State.checkPacket
  dsimp only
  split_ifs
  · exact hs
  · split
    · exact hs
    next he => exact hs.homeLoad he

theorem State.Canonical.accept {ctx : Nat} {p : BitVec 1024} {o : Origin} (hs : s.Canonical) : (s.accept ctx p o).Canonical := ⟨hs.mem⟩

theorem State.Canonical.takeHost {ctx p q : Nat} (hs : s.Canonical) : (s.takeHost ctx p q).Canonical := by
  unfold State.takeHost
  extract_lets x
  split
  · exact hs.setQueue
  next s1 _ he =>
    have h1 : s1.Canonical := hs.readEntry he
    exact ifElse (accept (checkPacket h1.setQueue)) (answerLaunch (checkPacket h1.setQueue))

theorem State.Canonical.takeDevice {ctx : Nat} (hs : s.Canonical) : (s.takeDevice ctx).Canonical := by
  dsimp only [State.takeDevice]
  split
  · exact hs
  · refine ifElse ?_ (answerLaunch (checkPacket ⟨hs.mem⟩))
    split
    · exact clearRestart (answerScalar (accept (checkPacket ⟨hs.mem⟩)))
    · exact answerScalar (accept (checkPacket ⟨hs.mem⟩))

theorem State.Canonical.execLaunchIntake {ctx : Nat} (hs : s.Canonical) : Out.Canonical (execLaunchIntake ctx s) := by
  unfold Machine.execLaunchIntake
  refine ifElse (next hs) ?_
  split
  · exact next hs
  · exact next hs.takeHost
  · exact next hs.takeDevice

theorem State.Canonical.reserveFor {o : Nat × Nat} (hs : s.Canonical) : (s.reserveFor o).Canonical := by
  unfold State.reserveFor
  split
  · exact hs
  · exact ⟨hs.mem⟩

theorem State.Canonical.serveAwaiting (hs : s.Canonical) : s.serveAwaiting.Canonical := foldl hs fun _ _ hu => hu.reserveFor

theorem State.Canonical.release {f : Nat × Nat → Bool} (hs : s.Canonical) : (s.release f).Canonical := serveAwaiting ⟨hs.mem⟩

theorem State.Canonical.place {w : Work} {cores arena : List Nat} (hs : s.Canonical) : (s.place w cores arena).Canonical := by
  dsimp only [State.place]
  split
  · exact startGroups ⟨hs.release.mem⟩
  · exact startGroups ⟨hs.release.mem⟩

theorem State.Canonical.execTeamPlacement (hs : s.Canonical) : Out.Canonical (execTeamPlacement s) := by
  unfold Machine.execTeamPlacement
  split
  · exact next hs
  · split
    · exact next hs
    · exact next hs.place

theorem State.Canonical.execQuadrantReservation {ctx num : Nat} (hs : s.Canonical) : Out.Canonical (execQuadrantReservation ctx num s) := by
  unfold Machine.execQuadrantReservation
  split
  · exact next hs
  · exact next (serveAwaiting ⟨hs.mem⟩)

theorem State.Canonical.execLaunchRetire {ctx num : Nat} (hs : s.Canonical) : Out.Canonical (execLaunchRetire ctx num s) := by
  dsimp only [Machine.execLaunchRetire]
  split
  · exact next hs
  · refine next ?_; split
    · exact complete (release ⟨hs.mem⟩)
    · exact release ⟨hs.mem⟩

/-! ### The scratchpad (Machine/Scratchpad) -/

theorem State.Canonical.emptyLines {t k : Nat} {lines : List Nat} (hs : s.Canonical) : (s.emptyLines t k lines).Canonical := by
  unfold State.emptyLines
  split
  · exact hs
  · exact foldl hs.setSegment fun _ _ hu => hu.sendTo

theorem Ctx.Canonical.waitLines {k : Nat} {ls : List (Nat × Nat)} {take : Bool} (hc : c.Canonical) :
    Out.Canonical (c.waitLines k ls take) :=
  hc.stall

theorem Ctx.Canonical.splitLds {k z vd : Nat} {seg : Segment} {hit miss : List (Nat × Nat)} (hc : c.Canonical) :
    Out.Canonical (c.splitLds k z vd seg hit miss) :=
  hc.done

theorem Ctx.Canonical.inOrder {k : Nat} {f : Out} (hc : c.Canonical) (ho : Out.Canonical f) : Out.Canonical (c.inOrder k f) :=
  ifElse hc.stall ho

theorem State.Canonical.execLds {x : BitVec 7} {w : BitVec 1} {i : BitVec 7} {z : BitVec 3} {d : BitVec 7} (hs : s.Canonical) :
    Out.Canonical (execLds x w i z d s) := by
  refine issue hs fun c hc => hc.spCheck (hc.inOrder ?_)
  split
  · exact hc.done
  · exact ifElse hc.writeMany (ifElse hc.splitLds hc.waitLines)

theorem State.Canonical.execSts {x : BitVec 7} {w : BitVec 1} {i : BitVec 7} {z : BitVec 3} {d : BitVec 7} (hs : s.Canonical) :
    Out.Canonical (execSts x w i z d s) := by
  refine issue hs fun c hc => hc.spCheck (hc.inOrder ?_)
  split
  · exact hc.done
  · exact done ⟨hc.state.setSegment.touch⟩

theorem State.Canonical.execLdsTake {x : BitVec 7} {w : BitVec 1} {i : BitVec 7} {z : BitVec 3} {d : BitVec 7} (hs : s.Canonical) :
    Out.Canonical (execLdsTake x w i z d s) := by
  refine issue hs fun c hc => hc.spCheck (hc.inOrder ?_)
  split
  · exact hc.done
  · exact ifElse (writeMany ⟨hc.state.emptyLines⟩) hc.waitLines

theorem State.Canonical.execSpfill {x : BitVec 7} {w : BitVec 1} {i : BitVec 7} (hs : s.Canonical) :
    Out.Canonical (execSpfill x w i s) := by
  dsimp only [Machine.execSpfill]
  refine issue hs fun _ hc => ?_
  refine spCheck hc ?_
  refine ifElse hc.done ?_
  refine ifElse hc.stall ?_
  split
  · exact hc.done
  · exact done ⟨hc.state.setSegment⟩

theorem State.Canonical.execSpclear {x : BitVec 7} {w : BitVec 1} {i : BitVec 7} (hs : s.Canonical) : Out.Canonical (execSpclear x w i s) :=
  issue hs fun _ hc => hc.spCheck (hc.inOrder (done ⟨hc.state.emptyLines⟩))

/-! ### Preemption (Machine/EvPreempt) -/

theorem State.Canonical.mapTeam {t : Nat} {f : Group → Group} (hs : s.Canonical) : (s.mapTeam t f).Canonical := ⟨hs.mem⟩

theorem State.Canonical.requestPreempt {t : Nat} {cmd : Option Nat} (hs : s.Canonical) : (s.requestPreempt t cmd).Canonical := by
  dsimp only [State.requestPreempt]
  split
  · exact hs
  · exact ifElse hs (ifElse ⟨hs.mem⟩ ⟨hs.mem⟩)

theorem State.Canonical.askHomes {t : Nat} (hs : s.Canonical) : (s.askHomes t).Canonical := foldl ⟨hs.mem⟩ fun _ _ hu => hu.sendTo

theorem State.Canonical.parkIn {h dev t : Nat} (hs : s.Canonical) : (s.parkIn h dev t).Canonical := ⟨hs.mem⟩

theorem State.Canonical.rebind {h : Nat} {cores : List (Nat × Nat)} {e : Nat × SubEntry} (hs : s.Canonical) :
    (s.rebind h cores e).Canonical := by
  dsimp only [State.rebind]
  split
  · exact sendPush ⟨hs.mem⟩
  · exact ⟨hs.mem⟩

theorem State.Canonical.unparkHere {dev t : Nat} {cores : List (Nat × Nat)} (hs : s.Canonical) : (s.unparkHere dev t cores).Canonical :=
  foldl hs fun _ _ hu => foldl hu fun _ _ hu2 => hu2.rebind

theorem State.Canonical.unpark {t : Nat} {segs : SMap Segment} (hs : s.Canonical) : (s.unpark t segs).Canonical :=
  foldl hs.unparkHere fun _ _ hu => hu.sendTo

theorem State.Canonical.parkAsked {m : Msg} (hs : s.Canonical) : (s.parkAsked m).Canonical := by
  unfold State.parkAsked
  split
  · exact foldl hs fun _ _ hu => hu.parkIn
  · exact hs

theorem State.Canonical.takePark {m : Msg} (hs : s.Canonical) : (s.takePark m).Canonical := by
  unfold State.takePark
  split
  · exact hs.sendTo
  · exact hs.unparkHere
  · exact ⟨hs.mem⟩
  · exact hs

theorem State.Canonical.execSubscriptionPark {slice team : Nat} (hs : s.Canonical) : Out.Canonical (execSubscriptionPark slice team s) := by
  unfold Machine.execSubscriptionPark
  extract_lets s1 s2
  have h1 : s1.Canonical := ifElse hs.parkIn hs
  have h2 : s2.Canonical := foldl h1 fun _ _ hu => hu.parkAsked
  split
  next he => exact next (h2.takeMsg he).takePark
  · exact next h2

theorem State.Canonical.homeWriteRun {t : State} {asid va : Nat} {bs : List Byte} (hs : s.Canonical)
    (h : s.homeWriteRun asid va bs = .ok t) : t.Canonical := by
  refine List.foldlRecOn (motive := fun acc : Except XKind State => ∀ t, acc = .ok t → t.Canonical) _ _
    (fun r hr => Except.ok.inj hr ▸ hs) (fun acc hacc w _ t ht => ?_) t h
  split at ht
  · cases ht
  · split at ht
    · exact Except.ok.inj ht ▸ (hacc _ rfl).homeRun
    · cases ht

theorem State.Canonical.spoilRun {asid va size : Nat} (hs : s.Canonical) : (s.spoilRun asid va size).Canonical :=
  ⟨(foldl hs fun _ _ hu => hu.writeVirt).mem⟩

theorem State.Canonical.vacate {t : Nat} (hs : s.Canonical) : (s.vacate t).Canonical := ⟨hs.mem⟩

theorem State.Canonical.discard {t : Nat} {x : Team} (hs : s.Canonical) : (s.discard t x).Canonical := ⟨hs.mem⟩

theorem State.Canonical.endPreempt {t result : Nat} (hs : s.Canonical) : (s.endPreempt t result).Canonical :=
  ifElse ⟨hs.mem⟩ (ifElse ⟨hs.mem⟩ (foldl ⟨hs.mem⟩ fun _ _ hu => hu.haltContext))

theorem State.Canonical.tell {n : FwNote} (hs : s.Canonical) : (s.tell n).Canonical := ifElse hs ⟨hs.mem⟩

theorem State.Canonical.giveBack {t result : Nat} (hs : s.Canonical) : (s.giveBack t result).Canonical := endPreempt ⟨hs.unpark.mem⟩

theorem State.Canonical.cannotSave {t result : Nat} (hs : s.Canonical) : (s.cannotSave t result).Canonical := hs.giveBack.tell

theorem State.Canonical.save {t : Nat} {x : Team} (hs : s.Canonical) : (s.save t x).Canonical := by
  unfold State.save
  extract_lets c img
  split
  · exact hs.cannotSave
  · refine ifElse hs.cannotSave ?_
    split
    · exact hs.spoilRun.cannotSave
    next s1 he =>
      extract_lets gs mats cps c1 s2 y f s3
      have h2 : s2.Canonical := (hs.homeWriteRun he).vacate.setContext
      have h3 : s3.Canonical := ⟨h2.mem⟩
      exact h3.endPreempt

theorem State.Canonical.execPreemptDecide {team : Nat} (hs : s.Canonical) : Out.Canonical (execPreemptDecide team s) := by
  unfold Machine.execPreemptDecide
  split
  · exact next hs
  · split
    · exact next hs.endPreempt
    · exact ifElse (next hs.giveBack) (ifElse (ifElse (next (endPreempt ⟨hs.mem⟩)) (next hs.save)) (next hs))

theorem State.Canonical.putRestored {core : Nat} {g : Group} {bs : List Byte} (hs : s.Canonical) : (s.putRestored core g bs).Canonical := by
  unfold State.putRestored
  dsimp only
  split
  · exact hs
  · refine ifElse ?_ hs.setGroup
    split
    · exact hs.setGroup.haltContext
    next he =>
      have h2 := hs.setGroup.homeWriteRun he
      exact ifElse h2.queueService h2

theorem State.Canonical.restoreOn {t : Nat} {x : Team} {slot : Nat} {img : List Byte} {cores : List Nat} (hs : s.Canonical) :
    (s.restoreOn t x slot img cores).Canonical :=
  unpark (foldl (foldl (foldl ⟨hs.release.mem⟩ fun _ _ hu => hu.prepareCore) fun _ _ hu => hu.putRestored) fun _ _ hu => ⟨hu.mem⟩)

theorem State.Canonical.execTeamRestore {team : Nat} (hs : s.Canonical) : Out.Canonical (execTeamRestore team s) := by
  unfold Machine.execTeamRestore
  split
  · exact next hs
  · split
    · exact next hs
    · split
      · exact next hs.tell
      · split
        · exact next hs
        · refine ifElse (next hs) ?_
          split
          · exact next hs.tell
          next he => exact next (hs.homeLoad he).restoreOn

/-! ### Collectives (Machine/EvCollective) -/

theorem State.Canonical.performRows {asid : Nat} {c : Contribution} (hs : s.Canonical) : (s.performRows asid c).Canonical := by
  unfold State.performRows
  refine foldl hs fun u r hu => ifElse ?_ (foldl hu fun _ _ hv => hv.foldAt)
  split
  next he => exact hu.homeWriteRun he
  · exact hu

theorem State.Canonical.performFlag {asid : Nat} {c : Contribution} (hs : s.Canonical) : (s.performFlag asid c).Canonical := by
  unfold State.performFlag
  split
  · exact hs.foldAt
  · exact hs

theorem State.Canonical.performFrom {asid n : Nat} {k : Collective} {c : Contribution} (hs : s.Canonical) :
    (s.performFrom asid k c n).1.Canonical := by
  induction n generalizing s k c with
  | zero => exact hs
  | succ n ih =>
    unfold State.performFrom
    dsimp only
    split
    · exact ih hs.performRows.performFlag
    · exact hs.performRows.performFlag

theorem State.Canonical.keepCollective {asid cid : Nat} {k : Collective} (hs : s.Canonical) : (s.keepCollective asid cid k).Canonical :=
  ifElse (spoilRun ⟨Memory.wf_writeN _ _ hs.mem⟩) ⟨hs.mem⟩

theorem State.Canonical.acceptContribution {k : Collective} {ctx : Nat} {c : Contribution} (hs : s.Canonical) :
    (s.acceptContribution k ctx c).Canonical := by
  have hfrom : ∀ asid k c n, (s.performFrom asid k c n).1.Canonical := fun _ _ _ _ => hs.performFrom
  unfold State.acceptContribution
  extract_lets r bitMask mine k1
  split
  · split
    next he => exact keepCollective (of_pair he (hfrom ..))
  · exact hs.keepCollective

theorem State.Canonical.serveContribution {c : Contribution} {a : Answer} (hs : s.Canonical) : (s.serveContribution c a).Canonical := by
  unfold State.serveContribution
  split
  · split
    · exact hs.acceptContribution
    · exact ifElse hs.logCheck hs
    · exact hs
  · exact hs

theorem State.Canonical.execContributionArrival {n : Nat} (hs : s.Canonical) : Out.Canonical (execContributionArrival n s) := by
  unfold Machine.execContributionArrival
  extract_lets isC
  split
  next he => exact ifElse (next hs) (next (hs.takeMsg he).serveContribution.sendTo)
  · exact next hs

theorem State.Canonical.finishContribution {c : Contribution} (hs : s.Canonical) : (s.finishContribution c).Canonical := donePos ⟨hs.mem⟩

theorem State.Canonical.takeAnswer {c : Contribution} {a : Answer} (hs : s.Canonical) : (s.takeAnswer c a).Canonical := by
  unfold State.takeAnswer
  refine ifElse hs ?_
  split
  · exact hs.finishContribution
  · exact hs.finishContribution
  · exact hs
  · exact hs.finishContribution.logCheck
  · exact hs.finishContribution.logCheck
  · exact hs.finishContribution.logCheck
  · exact hs.finishContribution.logCheck

theorem State.Canonical.execContributionAnswer {n : Nat} (hs : s.Canonical) : Out.Canonical (execContributionAnswer n s) := by
  unfold Machine.execContributionAnswer
  split
  next he => exact next (hs.takeMsg he).answered.takeAnswer
  · exact next hs

theorem State.Canonical.resendContribution {n : Nat} (hs : s.Canonical) : (s.resendContribution n).Canonical := by
  unfold State.resendContribution
  split
  · exact hs.postContribution
  · exact hs

/-! ### UNSUB and SUBST (Machine/Standing) -/

theorem State.Canonical.answerHere {m : Msg} (hs : s.Canonical) : (s.answerHere m).Canonical := by
  unfold State.answerHere
  split
  · exact ⟨hs.mem⟩
  · exact ⟨hs.mem⟩
  · exact hs

theorem State.Canonical.sendHome {core tag : Nat} {h : Word} {m : Msg} (hs : s.Canonical) : (s.sendHome core tag h m).Canonical := by
  unfold State.sendHome
  split
  · exact ifElse hs.sendTo hs.answerHere
  · exact hs.sendTo

/-! ### Subscriptions (Machine/EvSubs) -/

theorem State.Canonical.settleLine {key : Nat} (hs : s.Canonical) : (s.settleLine key).Canonical :=
  foldl hs.revokeHot fun _ _ hu => hu.collapseNow.shareOut.syncDir

theorem State.Canonical.install {r : SubReq} {asid n : Nat} (hs : s.Canonical) : (s.install r asid n).Canonical :=
  sendTo (sendPush (foldl ⟨hs.mem⟩ fun _ _ hu => hu.syncDir))

theorem State.Canonical.refuse {r : SubReq} {code : Nat} (hs : s.Canonical) : (s.refuse r code).Canonical := hs.sendTo

theorem State.Canonical.subscribeIn {r : SubReq} {asid : Nat} (hs : s.Canonical) : (s.subscribeIn r asid).Canonical := by
  dsimp only [State.subscribeIn]
  split
  · exact hs.refuse
  · exact ifElse hs.sendTo hs.refuse
  · split
    · exact hs.settleLine.install
    · exact hs.settleLine.refuse

theorem State.Canonical.subscribe {r : SubReq} (hs : s.Canonical) : (s.subscribe r).Canonical := by
  unfold State.subscribe
  refine ifElse hs.subscribeIn ?_
  refine ifElse hs.refuse ?_
  split
  · exact hs.subscribeIn
  · exact hs.refuseAbroad

theorem State.Canonical.execSubscribeRequest {n : Nat} (hs : s.Canonical) : Out.Canonical (execSubscribeRequest n s) := by
  unfold Machine.execSubscribeRequest
  split
  next he => exact next (hs.takeMsg he).subscribe
  · exact next hs

theorem State.Canonical.mapBound {uid pos : Nat} {f : Bound → Option Bound} (hs : s.Canonical) : (s.mapBound uid pos f).Canonical :=
  ⟨hs.mem⟩

theorem State.Canonical.unbindHandle {team seg : Nat} {w : Word} (hs : s.Canonical) : (s.unbindHandle team seg w).Canonical := ⟨hs.mem⟩

theorem State.Canonical.settleAbroad {b : Bound} (hs : s.Canonical) : (s.settleAbroad b).Canonical := ifElse hs.settleLine hs

theorem State.Canonical.disown {uid pos : Nat} {w : Word} (hs : s.Canonical) : (s.disown uid pos w).Canonical := by
  unfold State.disown
  split
  · exact hs.sendTo
  · exact hs

theorem State.Canonical.execSubscribeAnswer {n : Nat} (hs : s.Canonical) : Out.Canonical (execSubscribeAnswer n s) := by
  unfold Machine.execSubscribeAnswer
  split
  next s1 he =>
    extract_lets s2
    have h1 := hs.takeMsg he
    have h2 : s2.Canonical := answerScalar (answered (ifElse h1 h1.disown))
    exact next (ifElse h2.mapBound.donePos (mapBound (foldl h2 fun _ _ hu => hu.settleAbroad)))
  next he => exact next (ifElse hs (hs.takeMsg he).answered.unbindHandle.donePos)
  next he => exact next (hs.takeMsg he).answered.answerScalar
  · exact next hs

theorem State.Canonical.deliverPush {team seg line : Nat} {strict : Bool} {p : Push} {handle : Word} (hs : s.Canonical) :
    (s.deliverPush team seg line strict p handle).Canonical := by
  dsimp only [State.deliverPush]
  split
  · exact hs
  · split
    · exact ifElse hs (ifElse hs.setSegment.settleAbroad.donePos hs.setSegment.settleAbroad)
    · exact hs.setSegment

theorem State.Canonical.reportWritten {d team : Nat} {handle : Word} (hs : s.Canonical) : (s.reportWritten d team handle).Canonical :=
  ifElse hs hs.sendTo

theorem State.Canonical.execPushArrival {n : Nat} (hs : s.Canonical) : Out.Canonical (execPushArrival n s) := by
  unfold Machine.execPushArrival
  split
  next he => exact next (ifElse hs (hs.takeOrdered he).deliverPush.reportWritten)
  · exact next hs

theorem State.Canonical.takeNotice {h idx : Nat} {gen : BitVec 6} (hs : s.Canonical) : (s.takeNotice h idx gen).Canonical := by
  dsimp only [State.takeNotice]
  split
  · exact hs
  · refine ifElse hs ?_
    split
    · exact ⟨hs.mem⟩
    · exact foldl (sendPush ⟨hs.mem⟩) fun _ _ hu => hu.syncDir

theorem State.Canonical.execEmptyNoticeArrival {n : Nat} (hs : s.Canonical) : Out.Canonical (execEmptyNoticeArrival n s) := by
  unfold Machine.execEmptyNoticeArrival
  split
  next he => exact next (hs.takeOrdered he).takeNotice
  · exact next hs

theorem State.Canonical.removeEntry {h idx : Nat} {e : SubEntry} (hs : s.Canonical) : (s.removeEntry h idx e).Canonical :=
  foldl ⟨hs.mem⟩ fun _ _ hu => hu.syncDir

theorem State.Canonical.dropSubscribers {f : SubEntry → Bool} (hs : s.Canonical) : (s.dropSubscribers f).Canonical :=
  foldl hs fun _ _ hu => foldl hu fun _ _ hu2 => hu2.removeEntry

theorem State.Canonical.unsubscribe {dev team seg : Nat} {w : Word} (hs : s.Canonical) : (s.unsubscribe dev team seg w).Canonical := by
  unfold State.unsubscribe
  split
  · exact hs
  · exact hs.removeEntry

theorem State.Canonical.execUnsubscribeRequest {n : Nat} (hs : s.Canonical) : Out.Canonical (execUnsubscribeRequest n s) := by
  unfold Machine.execUnsubscribeRequest
  split
  next he => exact next (ifElse hs (ifElse hs.unsubscribe (hs.takeMsg he).unsubscribe.sendTo))
  · exact next hs

theorem State.Canonical.execStatusQuery {n : Nat} (hs : s.Canonical) : Out.Canonical (execStatusQuery n s) := by
  unfold Machine.execStatusQuery
  split
  next he => exact next (ifElse (hs.takeMsg he).answerScalar (hs.takeMsg he).sendTo)
  · exact next hs

/-! ### The fabric (Machine/EvFabric) -/

theorem State.Canonical.onLink {k : Nat} {f : Link → Link} (hs : s.Canonical) : (s.onLink k f).Canonical := ifElse ⟨hs.mem⟩ hs

theorem State.Canonical.moveFrom {k : Nat} {f : Nat → Nat → Bool} (hs : s.Canonical) : (s.moveFrom k f).Canonical :=
  foldl ⟨hs.mem⟩ fun _ _ hu => ⟨hu.mem⟩

theorem State.Canonical.failOver {k : Nat} (hs : s.Canonical) : (s.failOver k).Canonical := ifElse hs.moveFrom hs

theorem State.Canonical.failBack {k : Nat} (hs : s.Canonical) : (s.failBack k).Canonical := foldl hs fun _ _ hu => hu.moveFrom

theorem State.Canonical.trainLink {link : Nat} {portNum : BitVec 8} (hs : s.Canonical) : (s.trainLink link portNum).Canonical :=
  failBack ⟨hs.mem⟩

theorem State.Canonical.renumber {portNum : BitVec 8} (hs : s.Canonical) : (s.renumber portNum).Canonical :=
  foldl ⟨hs.mem⟩ fun _ _ hu => ifElse (failOver ⟨hu.mem⟩) hu

theorem State.Canonical.execLinkBringUp {link : Nat} {portNum : BitVec 8} (hs : s.Canonical) :
    Out.Canonical (execLinkBringUp link portNum s) :=
  ifElse (next hs) (ifElse (next hs.renumber.trainLink) (ifElse (next ⟨hs.mem⟩) (next hs.trainLink)))

theorem State.Canonical.lapseHomed {dev : Nat} (hs : s.Canonical) : (s.lapseHomed dev).Canonical := ⟨hs.mem⟩

theorem State.Canonical.answerLost {m : Msg} (hs : s.Canonical) : (s.answerLost m).Canonical := by
  unfold State.answerLost
  split
  · exact ifElse ⟨hs.mem⟩ hs
  · exact ifElse (donePos ⟨hs.mem⟩) hs
  · exact ifElse ⟨hs.mem⟩ hs
  · exact donePos ⟨hs.mem⟩
  · exact hs

theorem State.Canonical.failContributions {dev : Nat} (hs : s.Canonical) : (s.failContributions dev).Canonical :=
  foldl ⟨hs.mem⟩ fun _ _ hu => hu.donePos.logCheck

theorem State.Canonical.logLine {kind core key : Nat} (hs : s.Canonical) : (s.logLine kind core key).Canonical := by
  dsimp only [State.logLine]
  split
  · exact hs.logCheck
  · exact hs

theorem State.Canonical.loseSector {n key : Nat} (hs : s.Canonical) : (s.loseSector n key).Canonical := by
  dsimp only [State.loseSector]
  split
  · exact hs
  · split
    · exact logLine (syncDir ⟨hs.mem⟩)
    · exact logLine (syncDir ⟨hs.mem⟩)
    · exact syncDir ⟨hs.mem⟩

theorem State.Canonical.loseInCollapses {n : Nat} (hs : s.Canonical) : (s.loseInCollapses n).Canonical :=
  foldl ⟨hs.mem⟩ fun _ _ hu => hu.logLine

theorem State.Canonical.loseIncarnation {dev : Nat} (hs : s.Canonical) : (s.loseIncarnation dev).Canonical := by
  unfold State.loseIncarnation
  extract_lets r s1 mine s2 n s3 gone s4
  have h2 : s2.Canonical := foldl ⟨hs.mem⟩ fun _ _ hu => hu.answerLost
  have h3 : s3.Canonical := loseInCollapses (foldl h2 fun _ _ hu => hu.loseSector)
  have h4 : s4.Canonical := ⟨h3.mem⟩
  exact h4.lapseHomed.dropSubscribers

theorem State.Canonical.loseDevice {dev : Nat} (hs : s.Canonical) : (s.loseDevice dev).Canonical := hs.loseIncarnation.failContributions

theorem State.Canonical.rejoinDevice {dev : Nat} (hs : s.Canonical) : (s.rejoinDevice dev).Canonical := by
  unfold State.rejoinDevice
  extract_lets s1 r
  have h1 : s1.Canonical := hs.loseIncarnation
  clear_value s1
  exact ⟨h1.mem⟩

theorem State.Canonical.farAbroad {dev tag : Nat} {op : FarOp} (hs : s.Canonical) : (s.farAbroad dev tag op).Canonical := by
  dsimp only [State.farAbroad]
  split
  · exact hs.refuseAbroad
  · split
    · refine linePacket ?_
      split
      · exact hs.homeRmw
      · exact hs.performFar
    · split
      · exact hs.homeRmw
      · exact hs.performFar

theorem State.Canonical.takeElement {dev tag pos va red : Nat} {bs : List Byte} (hs : s.Canonical) :
    (s.takeElement dev tag pos va red bs).Canonical := by
  unfold State.takeElement
  split
  · exact hs.sendTo
  · exact ifElse hs.homeRun hs.foldAt

theorem State.Canonical.arrive {p : Parcel} (hs : s.Canonical) : (s.arrive p).Canonical := by
  unfold State.arrive
  extract_lets s1
  have h1 : s1.Canonical := ifElse hs.rejoinDevice hs
  refine ifElse h1 ?_
  split
  · exact h1.farAbroad
  · exact h1.takeElement
  · exact h1.takeCopyFault
  · exact ⟨h1.mem⟩
  · exact ifElse ⟨h1.mem⟩ h1
  · exact ifElse ⟨h1.mem⟩ h1

/-! ### Bring-up (Machine/Boot) -/

theorem State.Canonical.countCorrected {i : Nat} (hs : s.Canonical) : (s.countCorrected i).Canonical := ⟨hs.mem⟩

theorem State.Canonical.loseRecords {f : Nat → Bool} (hs : s.Canonical) : (s.loseRecords f).Canonical :=
  foldl ⟨hs.mem⟩ fun _ _ hu => foldl hu fun _ _ hu2 => hu2.logCheck

theorem State.Canonical.bringUp {cold : Bool} : (s.bringUp cold).Canonical := ⟨rfl⟩

theorem State.Canonical.deviceCheck (hs : s.Canonical) : s.deviceCheck.Canonical := foldl hs fun _ _ hu => hu.logCheck

/-! ### Translation events (Machine/EvTranslation) -/

theorem State.Canonical.execTranslationRequest {mc asid va : Nat} (hs : s.Canonical) :
    Out.Canonical (execTranslationRequest mc asid va s) := by
  dsimp only [Machine.execTranslationRequest]
  refine ifElse (next hs) ?_
  split
  · exact next ⟨hs.mem⟩
  · exact next hs

theorem State.Canonical.execRemapAnswer {node asid va : Nat} (hs : s.Canonical) : Out.Canonical (execRemapAnswer node asid va s) := by
  unfold Machine.execRemapAnswer
  split
  · exact next (ifElse hs.noteTranslation hs)
  · exact next hs

theorem State.Canonical.purge {key : Nat} (hs : s.Canonical) : (s.purge key).Canonical := hs.collapseNow.invalidateAll.dropHome

theorem State.Canonical.lapse {h idx : Nat} {e : SubEntry} (hs : s.Canonical) : (s.lapse h idx e).Canonical :=
  ifElse hs (ifElse ⟨hs.mem⟩ (ifElse ⟨hs.mem⟩ (sendPush ⟨hs.mem⟩)))

theorem State.Canonical.shootSlice {h : Nat} {d : Shootdown} (hs : s.Canonical) : (s.shootSlice h d).Canonical := by
  unfold State.shootSlice
  extract_lets s1 s2 s3 keep x s4
  have h1 : s1.Canonical := foldl hs fun _ _ hu => hu.lapse
  have h2 : s2.Canonical := foldl h1 fun _ _ hu => hu.purge
  have h3 : s3.Canonical := foldl h2 fun _ _ hu => hu.revokeHot
  have h4 : s4.Canonical := foldl h3.setSlice fun _ _ hu => hu.setSlice
  clear_value s4
  exact ⟨h4.mem⟩

theorem State.Canonical.shootNode {n : Nat} {d : Shootdown} (hs : s.Canonical) : (s.shootNode n d).Canonical := ⟨hs.mem⟩

theorem State.Canonical.shoot {agent : Nat} {d : Shootdown} (hs : s.Canonical) : (s.shoot agent d).Canonical := by
  unfold State.shoot
  extract_lets s1 move
  have h1 : s1.Canonical := ifElse hs.shootSlice hs.shootNode
  exact ifElse ⟨h1.mem⟩ hs

theorem State.Canonical.execPageMigration {asid va frame : Nat} (hs : s.Canonical) : Out.Canonical (execPageMigration asid va frame s) := by
  unfold Machine.execPageMigration
  split
  · exact ifElse (next hs) (next ⟨Memory.wf_writeN _ _ (Memory.wf_move _ _ _ hs.mem)⟩)
  · exact next hs

theorem State.Canonical.replicate {tag helper : Nat} (hs : s.Canonical) : (s.replicate tag helper).Canonical := ⟨hs.mem⟩

theorem State.Canonical.redirectAt {tag : Nat} {e : Nat × Nat} (hs : s.Canonical) : (s.redirectAt tag e).Canonical := ⟨hs.mem⟩

theorem State.Canonical.execHotLineMark {asid va : Nat} (hs : s.Canonical) : Out.Canonical (execHotLineMark asid va s) := by
  dsimp only [Machine.execHotLineMark]
  refine ifElse (next hs) ?_
  refine next ?_; refine foldl ?_ fun _ _ hu => ⟨hu.mem⟩
  refine foldl ?_ fun _ _ hu => ⟨hu.mem⟩
  refine setSlice ?_
  split
  · exact ifElse hs.revokeHot hs
  · exact hs

/-! ### The host (Machine/EvHost) -/

theorem State.Canonical.fromPort {p : BitVec 1} (hs : s.Canonical) : (s.fromPort p).Canonical := ifElse hs ⟨hs.mem⟩

theorem State.Canonical.semErr {p : BitVec 1} (hs : s.Canonical) : (s.semErr p).Canonical := ⟨hs.mem⟩

theorem State.Canonical.guarded {p : BitVec 1} {sem : Nat} {k : State → State} (hs : s.Canonical)
    (hf : ∀ (u : State), u.Canonical → (k u).Canonical) : (s.guarded p sem k).Canonical :=
  ifElse (hf _ hs) ⟨hs.mem⟩

theorem State.Canonical.whenReady {p : BitVec 1} {k : State → State} (hs : s.Canonical)
    (hf : ∀ (u : State), u.Canonical → (k u).Canonical) : (s.whenReady p k).Canonical :=
  ifElse (hf _ hs.fromPort) hs.fromPort

theorem State.Canonical.semTie {sem : BitVec 3} (hs : s.Canonical) : (s.semTie sem).Canonical := ifElse hs ⟨hs.mem⟩

theorem State.Canonical.cmdDone {result : Nat} (hs : s.Canonical) : (s.cmdDone result).Canonical := ⟨hs.mem⟩

theorem State.Canonical.command {p : BitVec 1} {code : Nat} {states : List Nat} {k : State → Nat → State} (hs : s.Canonical)
    (hf : ∀ (u : State) x, u.Canonical → (k u x).Canonical) : (s.command p code states k).Canonical :=
  whenReady hs fun _ hu => guarded hu fun _ hu3 => ifElse hu3 (ifElse (hf _ _ ⟨hu3.mem⟩) ⟨hu3.mem⟩)

theorem State.Canonical.setFreeze {ctx : Nat} {all : Bool} {f : Freeze → Freeze} (hs : s.Canonical) : (s.setFreeze ctx all f).Canonical :=
  ⟨hs.mem⟩

theorem State.Canonical.preemptAll {port ctx : Nat} (hs : s.Canonical) : (s.preemptAll port ctx).Canonical :=
  ifElse ⟨(foldl hs fun _ _ hu => hu.requestPreempt).mem⟩ (cmdDone (foldl hs fun _ _ hu => hu.requestPreempt))

theorem State.Canonical.shootAll {asid : Nat} (hs : s.Canonical) : (s.shootAll asid).Canonical :=
  foldl (foldl hs fun _ _ hu => hu.shootSlice) fun _ _ hu => hu.shootNode

theorem State.Canonical.endSubscriptions {n : Nat} (hs : s.Canonical) : (s.endSubscriptions n).Canonical := by
  dsimp only [State.endSubscriptions]
  refine foldl ⟨hs.dropSubscribers.mem⟩ fun _ _ hu => ?_
  split
  · exact ifElse hu hu.sendTo
  · exact hu

theorem State.Canonical.terminate {n : Nat} (hs : s.Canonical) : (s.terminate n).Canonical := by
  unfold State.terminate
  extract_lets c0 s1 keys uids teams slots s2 s3 s4 s5 c5
  have h1 : s1.Canonical := foldl hs.setContext fun _ _ hu => hu.landAll.landCollapses
  have h2 : s2.Canonical := h1.endSubscriptions
  have h3 : s3.Canonical := ⟨h2.mem⟩
  have h4 : s4.Canonical := foldl h3.release fun _ _ hu => hu.endPreempt
  have h5 : s5.Canonical := h4.shootAll
  exact h5.setContext

theorem State.Canonical.execCtxBadCode {port : BitVec 1} {code : BitVec 32} (hs : s.Canonical) :
    Out.Canonical (execCtxBadCode port code s) :=
  ifElse (next hs) (next (whenReady hs (fun _ hu => guarded hu (fun _ hu2 => ifElse hu2 ⟨hu2.mem⟩))))

theorem State.Canonical.writeDesc {p : BitVec 1} {slot : Nat} {f : DescField} {v : Nat} (hs : s.Canonical) :
    (s.writeDesc p slot f v).Canonical :=
  ifElse ⟨hs.mem⟩ ⟨hs.mem⟩

theorem State.Canonical.execDescriptorWrite {port : BitVec 1} {slot : BitVec 6} {field : DescField} {val : BitVec 256} (hs : s.Canonical) :
    Out.Canonical (execDescriptorWrite port slot field val s) :=
  next (whenReady hs (fun _ hu => guarded hu (fun _ hu2 => hu2.writeDesc)))

theorem State.Canonical.execQueueEnable {port : BitVec 1} {q : BitVec 4} {val : BitVec 32} (hs : s.Canonical) :
    Out.Canonical (execQueueEnable port q val s) :=
  next (whenReady hs (fun _ hu => ifElse hu (ifElse ⟨hu.mem⟩ ⟨hu.mem⟩)))

theorem State.Canonical.execQtailWrite {port : BitVec 1} {q : BitVec 4} {val : BitVec 32} (hs : s.Canonical) :
    Out.Canonical (execQtailWrite port q val s) :=
  next (whenReady hs (fun _ hu => ifElse hu (ifElse ⟨hu.mem⟩ ⟨hu.mem⟩)))

theorem State.Canonical.winFail {p : BitVec 1} {write : Bool} (hs : s.Canonical) : (s.winFail p write).Canonical := ⟨hs.mem⟩

theorem State.Canonical.winData {p : BitVec 1} {bs : List Byte} (hs : s.Canonical) : (s.winData p bs).Canonical := ⟨hs.mem⟩

theorem State.Canonical.rebindCids {pa n : Nat} (hs : s.Canonical) : (s.rebindCids pa n).Canonical := ⟨hs.mem⟩

theorem State.Canonical.setCbtbase {v : BitVec 64} (hs : s.Canonical) : (s.setCbtbase v).Canonical := by
  unfold State.setCbtbase
  exact ⟨hs.mem⟩

theorem State.Canonical.rebindAt {asid va n : Nat} (hs : s.Canonical) : (s.rebindAt asid va n).Canonical := by
  unfold State.rebindAt
  refine foldl hs fun _ _ hu => ?_
  split
  · split
    · exact ⟨hu.mem⟩
    · exact hu
  · exact hu

theorem State.Canonical.winPhysical {p : BitVec 1} {pa n : Nat} {w : Option (List Byte)} (hs : s.Canonical) :
    (s.winPhysical p pa n w).Canonical := by
  unfold State.winPhysical
  refine ifElse hs.winFail ?_
  split
  · exact rebindCids ⟨Memory.wf_writeN _ _ hs.mem⟩
  · exact hs.winData

theorem State.Canonical.winVirtual {p : BitVec 1} {slot va n : Nat} {w : Option (List Byte)} (hs : s.Canonical) :
    (s.winVirtual p slot va n w).Canonical := by
  unfold State.winVirtual
  refine ifElse hs.winFail ?_
  split
  · split
    next he => exact (hs.homeWriteRun he).rebindAt
    · exact hs.winFail
  · split
    next he => exact (hs.homeLoad he).winData
    · exact hs.winFail

theorem State.Canonical.window {port : BitVec 1} {offset : BitVec 28} {n : Nat} {w : Option (List Byte)} (hs : s.Canonical) :
    (s.window port offset n w).Canonical :=
  ifElse (ifElse hs.fromPort ⟨hs.fromPort.mem⟩) (ifElse hs.fromPort.winPhysical hs.fromPort.winVirtual)

theorem State.Canonical.windowOf {port : BitVec 1} {offset : BitVec 28} {n : Nat} {w : Option (List Byte)} (hs : s.Canonical) :
    (s.windowOf port offset n w).Canonical :=
  ifElse hs hs.window

theorem State.Canonical.writeDescBytes {p : BitVec 1} {slot off : Nat} {bs : List Byte} (hs : s.Canonical) :
    (s.writeDescBytes p slot off bs).Canonical :=
  foldl hs fun _ _ hu => hu.writeDesc

theorem State.Canonical.writeReg {p : BitVec 1} {off : Nat} {v : BitVec 64} (hs : s.Canonical) : (s.writeReg p off v).Canonical := by
  unfold State.writeReg
  refine ifElse (guarded hs fun _ hu => hu.setCbtbase) ?_
  refine ifElse (guarded hs fun _ hu => ⟨hu.mem⟩) ?_
  refine ifElse (guarded hs fun _ hu => hu.writeDescBytes) ?_
  refine ifElse hs.setQueue ?_
  refine ifElse hs.setPort ?_
  refine ifElse (guarded hs fun _ hu => ⟨hu.mem⟩) ?_
  split
  · exact guarded hs fun _ hu => hu
  · exact hs

theorem State.Canonical.execRegisterWrite {port : BitVec 1} {offset : BitVec 26} {val : BitVec 64} (hs : s.Canonical) :
    Out.Canonical (execRegisterWrite port offset val s) :=
  ifElse (next (guarded hs.fromPort (fun _ hu => ⟨hu.mem⟩))) (next (whenReady hs (fun _ hu => hu.writeReg)))

theorem State.Canonical.hostRead {p : BitVec 1} {off n : Nat} (hs : s.Canonical) : (s.hostRead p off n).Canonical := ⟨hs.fromPort.mem⟩

/-! ### Firmware (Machine/EvFirmware) -/

theorem State.Canonical.mbDone {result : Nat} (hs : s.Canonical) : (s.mbDone result).Canonical := ⟨hs.mem⟩

theorem State.Canonical.mailbox {p : BitVec 1} {code : Word} {inRecovery : Bool} {k : State → State} (hs : s.Canonical)
    (hf : ∀ (u : State), u.Canonical → (k u).Canonical) : (s.mailbox p code inRecovery k).Canonical :=
  guarded hs.fromPort fun _ hu => ifElse hu (ifElse ⟨hu.mem⟩ (hf _ ⟨hu.mem⟩))

theorem State.Canonical.setFirmware {f : Firmware} (hs : s.Canonical) : (s.setFirmware f).Canonical := ⟨hs.mem⟩

theorem State.Canonical.imgBegin (hs : s.Canonical) : s.imgBegin.Canonical := ifElse ⟨hs.mem⟩ ⟨hs.mem⟩

theorem State.Canonical.imgData (hs : s.Canonical) : s.imgData.Canonical := by
  dsimp only [State.imgData]
  split
  · exact ⟨hs.mem⟩
  · exact ifElse ⟨hs.mem⟩ ⟨hs.mem⟩

theorem State.Canonical.imgCommit (hs : s.Canonical) : s.imgCommit.Canonical := by
  dsimp only [State.imgCommit]
  split
  · exact ⟨hs.mem⟩
  · exact ifElse ⟨hs.mem⟩ (ifElse ⟨hs.mem⟩ (ifElse ⟨hs.mem⟩ ⟨hs.mem⟩))

theorem State.Canonical.svnAdv (hs : s.Canonical) : s.svnAdv.Canonical := ifElse ⟨hs.mem⟩ ⟨hs.mem⟩

theorem State.Canonical.attest (hs : s.Canonical) : s.attest.Canonical := by
  unfold State.attest
  exact ifElse hs.mbDone hs.setFirmware.mbDone

/-! ### Active messages (Machine/EvMessage) -/

theorem State.Canonical.handlerOf {ctx core h : Nat} (hs : s.Canonical) : (s.handlerOf ctx core h).1.Canonical := by
  unfold State.handlerOf
  dsimp only
  split_ifs
  · exact hs
  · split
    · exact hs
    next he =>
      have h1 := hs.loadVirt he
      split_ifs
      · exact h1
      · split
        · exact h1
        next he2 => exact h1.loadVirt he2

theorem State.Canonical.receive {m : ActiveMsg} (hs : s.Canonical) : (s.receive m).1.Canonical := by
  unfold State.receive
  split
  · exact hs
  · split
    next he => exact of_pair he hs.handlerOf
    next he =>
      have h1 := of_pair he hs.handlerOf
      dsimp only
      split_ifs
      · exact h1
      · exact h1.setCore

theorem State.Canonical.execActiveMessageArrival {n : Nat} (hs : s.Canonical) : Out.Canonical (execActiveMessageArrival n s) := by
  unfold Machine.execActiveMessageArrival
  split
  next he => exact next (hs.takeOrdered he).receive.sendTo
  · exact next hs

theorem State.Canonical.execActiveMessageAnswer {n : Nat} (hs : s.Canonical) : Out.Canonical (execActiveMessageAnswer n s) := by
  unfold Machine.execActiveMessageAnswer
  split
  next he => exact next (hs.takeOrdered he).answered.answerScalar
  · exact next hs

theorem State.Canonical.startHandler {core slot : Nat} {j : HandlerJob} {arena : List Nat} (hs : s.Canonical) :
    (s.startHandler core slot j arena).Canonical := by
  unfold State.startHandler
  extract_lets h b c s1 s2
  have h1 : s1.Canonical := hs.setContext.clusterMode
  have h2 : s2.Canonical := h1.setTeam.setGroup
  exact ⟨h2.mem⟩

theorem State.Canonical.execHandlerStart {core : Nat} (hs : s.Canonical) : Out.Canonical (execHandlerStart core s) := by
  dsimp only [Machine.execHandlerStart]
  split
  · exact next hs
  · split
    · exact next (startHandler ⟨hs.mem⟩)
    · exact next hs

/-! ### Power (Machine/EvPower) -/

theorem State.Canonical.execTelemetryUpdate {power temp : List Nat} {s0 : State} (hs : s0.Canonical) :
    Out.Canonical (execTelemetryUpdate power temp s0) := by
  unfold Machine.execTelemetryUpdate
  extract_lets s p
  have h1 : s.Canonical := foldl hs fun _ _ hu => hu.countCorrected
  exact next ⟨h1.mem⟩

theorem State.Canonical.execCommit {port : BitVec 1} {val : BitVec 32} (hs : s.Canonical) : Out.Canonical (execCommit port val s) :=
  next (whenReady hs (fun _ hu => guarded hu (fun _ hu2 => ifElse hu2 (ifElse ⟨hu2.mem⟩ ⟨hu2.mem⟩))))

/-! ### Reliability (Machine/EvReliability) -/

theorem State.Canonical.loseWb {n : Nat} (hs : s.Canonical) : (s.loseWb n).Canonical := foldl ⟨hs.mem⟩ fun _ _ hu => hu.logLine

theorem State.Canonical.losePartials {d : Nat} (hs : s.Canonical) : (s.losePartials d).Canonical := foldl ⟨hs.mem⟩ fun _ _ hu => hu.logLine

theorem State.Canonical.discardRequest {m : Msg} (hs : s.Canonical) : (s.discardRequest m).Canonical := by
  unfold State.discardRequest
  split
  · exact hs.fresh.answerScalar.mapBound.donePos
  · exact hs.answerLost

theorem State.Canonical.loseRequests {n : Nat} (hs : s.Canonical) : (s.loseRequests n).Canonical :=
  foldl ⟨hs.mem⟩ fun _ _ hu => hu.discardRequest

theorem State.Canonical.loseFar {n : Nat} (hs : s.Canonical) : (s.loseFar n).Canonical := foldl ⟨hs.mem⟩ fun _ _ hu => ⟨hu.mem⟩

theorem State.Canonical.loseCache {n : Nat} (hs : s.Canonical) : (s.loseCache n).Canonical := by
  unfold State.loseCache
  extract_lets s1
  have h1 : s1.Canonical := foldl hs fun _ _ hu => hu.loseSector
  exact h1.loseWb.loseFar.loseRequests.loseInCollapses.dropSubscribers

theorem State.Canonical.loseDie {d : Nat} (hs : s.Canonical) : (s.loseDie d).Canonical := by
  unfold State.loseDie
  extract_lets s1 s2
  have h1 : s1.Canonical := foldl hs fun _ _ hu => foldl hu fun _ _ hv => hv.loseSector
  have h2 : s2.Canonical := foldl h1 fun _ _ hu => hu.loseSector
  exact h2.loseWb.losePartials.loseRecords

theorem State.Canonical.nextInc {n : Nat} (hs : s.Canonical) : (s.nextInc n).Canonical := ⟨hs.mem⟩

theorem State.Canonical.execAgentRejoin {agent : Nat} {rejoins : Bool} (hs : s.Canonical) :
    Out.Canonical (execAgentRejoin agent rejoins s) := by
  unfold Machine.execAgentRejoin
  extract_lets n s1 d
  have h1 : s1.Canonical := ifElse hs.loseCache hs.loseDie
  exact ifElse (next (ifElse h1.nextInc h1)) (next (ifElse hs.rejoinDevice hs.loseDevice))

theorem State.Canonical.freeBytes {n : Nat} (hs : s.Canonical) : (s.freeBytes n).1.Canonical := ⟨hs.mem⟩

theorem State.Canonical.damage {key : Nat} {pc : DWord} {ps : PSlot} {addr : DWord} (hs : s.Canonical) :
    (s.damage key pc ps addr).Canonical := by
  dsimp only [State.damage]
  split
  · exact hs
  · exact logCheck ⟨hs.mem⟩

theorem State.Canonical.spoilRegs {key r n l : Nat} (hs : s.Canonical) : (s.spoilRegs key r n l).Canonical := by
  dsimp only [State.spoilRegs]
  split
  · exact hs
  · exact ifElse ⟨hs.mem⟩ ⟨hs.mem⟩

theorem State.Canonical.damageLoad {core slot addr : Nat} (hs : s.Canonical) : (s.damageLoad core slot addr).Canonical := by
  dsimp only [State.damageLoad]
  split
  · exact hs
  · split
    · exact hs
    · exact damage (foldl hs.landAll fun _ _ hu => hu.spoilRegs)

theorem State.Canonical.damageTeam {t : Nat} (hs : s.Canonical) : (s.damageTeam t).Canonical := foldl hs fun _ _ hu => damage ⟨hu.mem⟩

theorem State.Canonical.spoilSector {key : Nat} (hs : s.Canonical) : (s.spoilSector key).Canonical := by
  unfold State.spoilSector
  dsimp only
  split
  · exact hs.revokeHot.freeBytes.setCache.syncDir
  · exact hs.revokeHot.freeBytes.drainWb.homeWrite

theorem State.Canonical.onSegment {t k : Nat} {f : Segment → Segment} (hs : s.Canonical) : (s.onSegment t k f).Canonical := by
  unfold State.onSegment
  split
  · exact hs.setSegment
  · exact hs

theorem State.Canonical.damageU {n key : Nat} (hs : s.Canonical) : (s.damageU n key).Canonical :=
  ifElse (logLine (syncDir (ifElse (setCache (ifElse ⟨hs.mem⟩ hs)) (ifElse ⟨hs.mem⟩ hs)))) hs

theorem State.Canonical.deviceFail : s.deviceFail.Canonical := bringUp

theorem State.Canonical.execUncorrectableError {site : ErrSite} (hs : s.Canonical) : Out.Canonical (execUncorrectableError site s) := by
  dsimp only [Machine.execUncorrectableError]
  split
  · exact next hs.damageLoad
  · split
    · exact next hs.spoilRegs.damageTeam
    · exact next hs
  · exact next (damageTeam (onSegment ⟨hs.mem⟩))
  · exact next (damageTeam (onSegment ⟨hs.mem⟩))
  · split
    · exact next (damageTeam ⟨hs.mem⟩)
    · exact next hs
  · exact next hs.spoilSector.logLine
  · exact next hs.damageU
  · exact ifElse (next (logLine (syncDir ⟨hs.mem⟩))) (next hs)
  · exact next deviceFail

/-! ### Narrow lane instructions (Machine/LaneNarrow) -/

theorem Ctx.Canonical.formats {f : Nat} {k : Out} (hc : c.Canonical) (ho : Out.Canonical k) : Out.Canonical (c.formats f k) :=
  ifElse hc.trap ho

/-! ### Predicates (Machine/Predicate) -/

theorem Ctx.Canonical.setP {d : BitVec 5} {x : Word} (hc : c.Canonical) : Out.Canonical (c.setP d x) := hc.done

/-! ### Scalars (Machine/Scalar) -/

theorem Ctx.Canonical.scalar2 {b a d : BitVec 8} {f : Word → Word → Word} (hc : c.Canonical) : Out.Canonical (c.scalar2 b a d f) :=
  hc.scalar

/-! ### Statistics (Machine/Statistics) -/

theorem Ctx.Canonical.views {d : Nat} {f : Nat → Triple × Word} (hc : c.Canonical) : Out.Canonical (c.views d f) := hc.writeMany

theorem Ctx.Canonical.drain {opt : Drain} {eps a d : Nat} (hc : c.Canonical) : Out.Canonical (c.drain opt eps a d) := hc.write

/-! ### System instructions (Machine/System) -/

theorem State.Canonical.thawStep {team : Nat} (hs : s.Canonical) : (s.thawStep team).Canonical := ⟨hs.mem⟩

theorem State.Canonical.putReloaded {key : Nat} {g : Group} {bs : List Byte} (hs : s.Canonical) : (s.putReloaded key g bs).Canonical :=
  ifElse ⟨hs.mem⟩ ⟨hs.mem⟩

theorem State.Canonical.execEret {a : BitVec 8} (hs : s.Canonical) : Out.Canonical (execEret a s) := by
  refine issue hs fun c hc => ?_
  extract_lets x
  split
  · exact hc.done
  · refine ifElse hc.stall ?_
    split
    · exact hc.trap
    next he => exact done ⟨(hc.state.loadVirt he).putReloaded⟩

theorem State.Canonical.execTlbsd {z : BitVec 2} {a : BitVec 8} (hs : s.Canonical) : Out.Canonical (execTlbsd z a s) := by
  refine issue hs fun c hc => ?_
  split
  · exact ifElse (done ⟨⟨hc.state.mem⟩⟩) hc.hold
  · exact ifElse hc.trap (Ctx.Canonical.hold ⟨⟨hc.state.mem⟩⟩)

theorem State.Canonical.execHalt (hs : s.Canonical) : Out.Canonical (execHalt s) :=
  issue hs fun _ hc => next (ifElse ⟨hc.state.mem⟩ (haltContext ⟨hc.state.mem⟩))

theorem State.Canonical.execWrpeer {n : BitVec 2} {a : BitVec 8} (hs : s.Canonical) : Out.Canonical (execWrpeer n a s) := by
  dsimp only [Machine.execWrpeer]
  refine issue hs fun _ hc => ?_
  split
  · exact hc.done
  · exact done ⟨hc.state.setSegment⟩

/-! ### Every instruction and event (Machine/Dispatch) -/

theorem State.Canonical.exec {i : Instr} (hs : s.Canonical) : Out.Canonical (exec i s) := by
  unfold Machine.exec
  cases i with
  | iadd | isub | imul | imulhS32 | imulhW32 | iminS32 | iminW32 | imaxS32 | imaxW32 | and | or | xor | shl | shr | sar | bfeW32
    | bfeS32 | iadd16 | isub16 | and16 | or16 | xor16 | shl16 | shr16 | sar16 | imin16 | imax16 => exact issue hs fun _ hc => hc.lane2
  | imad | bfi => exact issue hs fun _ hc => hc.lane3
  | iabs | ineg | popc | clz | not | brev | mov | movh | iaddImm | andImm | mov16 => exact issue hs fun _ hc => hc.lane1
  | sel | movi | bcast | moviF32 | moviF16 => exact issue hs fun _ hc => hc.deliver
  | iaddc | icmp | fcmp | slea64 | scmp | yield | nop | bclose => exact issue hs fun _ hc => hc.done
  | lea64 => exact issue hs fun _ hc => hc.writeMany
  | cvt | fcvt => exact issue hs fun _ hc => hc.convert
  | shflIdx | shflUp | shflDn | shflXor => exact issue hs fun _ hc => hc.shuffle
  | redl | scanlInc | scanlExc | matchLanes => exact issue hs fun _ hc => hc.write
  | rdlane => exact hs.execRdlane
  | voteBallot | actmask => exact issue hs fun _ hc => ifElse hc.done hc.scalar
  | pand | por | pxor | pnot | pmov | voteAll | voteAny | voteUni => exact issue hs fun _ hc => hc.setP
  | grd => exact issue hs fun _ hc => next ⟨hc.state.mem⟩
  | fadd | fsub | fmul | ffma | fmin | fmax | frcp | frsq | fsqrt | fexp2 | flog2 | fsin | fcos | hadd2 | hmul2 | hfma2 | faddImm
    | fmulImm | fadd16 | fmul16 | fmin16 | fmax16 | ffma16 => exact issue hs fun _ hc => hc.floatLanes
  | qcvtQ | qcvtF32 | qpack => exact issue hs fun _ hc => formats hc hc.write
  | qunpk => exact issue hs fun _ hc => formats hc hc.writeMany
  | tunpk => exact issue hs fun _ hc => ifElse hc.trap hc.write
  | sadd | ssub | smul | sand | sor | sxor | sshl | sshr => exact issue hs fun _ hc => hc.scalar2
  | smov | smovi | smoviH | rdsys => exact issue hs fun _ hc => hc.scalar
  | sld | waita => exact issue hs fun _ hc => hc.accessOne
  | bra => exact hs.execBra
  | jmp | brx => exact issue hs fun _ hc => ifElse hc.trap hc.goto
  | call | ret => exact issue hs fun _ hc => ifElse hc.trap (ifElse hc.trap hc.goto)
  | joinpt => exact hs.execJoinpt
  | exit => exact issue hs fun _ hc => next (groupEnd (checkBarriers ⟨hc.state.mem⟩))
  | barArv => exact hs.execBarArv
  | barWait => exact issue hs fun _ hc => hc.barrierWait
  | barSync => exact hs.execBarSync
  | ldReg => exact hs.execLdReg
  | ldImm => exact hs.execLdImm
  | stReg => exact hs.execStReg
  | stImm => exact hs.execStImm
  | ldStrong => exact hs.execLdStrong
  | stStrong => exact hs.execStStrong
  | atom => exact hs.execAtom
  | updScalarBase => exact hs.execUpdScalarBase
  | updVectorBase => exact hs.execUpdVectorBase
  | prefL1 => exact hs.execPrefL1
  | prefL2 => exact hs.execPrefL2
  | collapse => exact hs.execCollapse
  | cctlClean => exact hs.execCctlClean
  | cctlInv => exact hs.execCctlInv
  | cctlClinv => exact hs.execCctlClinv
  | fence => exact hs.execFence
  | lds => exact hs.execLds
  | sts => exact hs.execSts
  | ldsTake => exact hs.execLdsTake
  | spfill => exact hs.execSpfill
  | spclear => exact hs.execSpclear
  | subscr => exact hs.execSubscr
  | mxloop => exact hs.execMxloop
  | mxzero => exact issue hs fun _ hc => queueMat hc fun _ _ hc2 => hc2.done
  | mxrd => exact hs.execMxrd
  | mxepi => exact hs.execMxepi
  | mxcfg => exact hs.execMxcfg
  | opfence => exact issue hs fun _ hc => ifElse hc.hold hc.done
  | stinit | stacc | stwacc | stmerge | stxl => exact issue hs fun _ hc => hc.views
  | stdrainMean | stdrainPvar | stdrainSvar | stdrainRdev | stdrainNorm => exact issue hs fun _ hc => hc.drain
  | stld => exact hs.execStld
  | stst => exact hs.execStst
  | tcopyIn | tcopyOut => exact issue hs fun _ hc => hc.copy
  | bwait => exact hs.execBwait
  | unsub => exact issue hs fun _ hc => done ⟨sendHome ⟨hc.publish.state.mem⟩⟩
  | subst => exact issue hs fun _ hc => done ⟨hc.state.sendHome⟩
  | evset => exact hs.execEvset
  | evclr => exact hs.execEvclr
  | launch => exact hs.execLaunch
  | sendam => exact hs.execSendam
  | trap | bkpt => exact issue hs fun _ hc => hc.trapNext
  | eret => exact hs.execEret
  | tlbsd => exact hs.execTlbsd
  | halt => exact hs.execHalt
  | wrpeer => exact hs.execWrpeer
  | wrsys => exact issue hs fun _ hc => ifElse hc.done (done ⟨⟨hc.state.mem⟩⟩)
  | operandArrival => exact hs.execOperandArrival
  | loadDataReturn => exact next hs.returnLoad.groupEnd
  | translationAck => exact hs.execTranslationAck
  | storeQueueDrain => exact hs.execStoreQueueDrain
  | lineFillWake => exact hs.execLineFillWake
  | emptyLineTimeout => exact hs.execEmptyLineTimeout
  | waitaCheck => exact hs.execWaitaCheck
  | waitaTimeout => exact hs.execWaitaTimeout
  | trapServiceStart => exact hs.execTrapServiceStart
  | machineCheck => exact hs.execMachineCheck
  | matrixKStep => exact hs.execMatrixKStep
  | tileConfigApply => exact hs.execTileConfigApply
  | tileZeroApply => exact hs.execTileZeroApply
  | tileReadDeliver => exact hs.execTileReadDeliver
  | epilogueRun => exact hs.execEpilogueRun
  | copyInLine => exact hs.execCopyInLine
  | copyOutElements => exact hs.execCopyOutElements
  | launchIntake => exact hs.execLaunchIntake
  | launchUnblock | eventUnitApply | shootdownAck | portLinkDown | powerGrant | overcurrentClamp | thermalHalve => exact next ⟨hs.mem⟩
  | teamPlacement => exact hs.execTeamPlacement
  | quadrantReservation => exact hs.execQuadrantReservation
  | launchRetire => exact hs.execLaunchRetire
  | preemptRequest => exact next hs.requestPreempt
  | engineAck => exact ifElse (next (ifElse (askHomes ⟨hs.mem⟩) ⟨hs.mem⟩)) (next hs)
  | preemptDecide => exact hs.execPreemptDecide
  | teamRestore => exact hs.execTeamRestore
  | subscriptionPark => exact hs.execSubscriptionPark
  | activeMessageArrival => exact hs.execActiveMessageArrival
  | handlerStart => exact hs.execHandlerStart
  | activeMessageAnswer => exact hs.execActiveMessageAnswer
  | missRequest => exact hs.execMissRequest
  | uGrantRequest => exact hs.execUGrantRequest
  | farAccess => exact hs.execFarAccess
  | forwardedRead => exact hs.execForwardedRead
  | invalidate => exact hs.execInvalidate
  | discoveryBroadcast => exact next hs.discover
  | writeBack => exact hs.execWriteBack
  | writeBackAck => exact hs.execWriteBackAck
  | recallForCollapse => exact hs.execRecallForCollapse
  | uCopyArrival => exact hs.execUCopyArrival
  | partialArrival => exact hs.execPartialArrival
  | uCopyEviction => exact hs.execUCopyEviction
  | subscribeRequest => exact hs.execSubscribeRequest
  | subscribeAnswer => exact hs.execSubscribeAnswer
  | unsubscribeRequest => exact hs.execUnsubscribeRequest
  | statusQuery => exact hs.execStatusQuery
  | pushArrival => exact hs.execPushArrival
  | emptyNoticeArrival => exact hs.execEmptyNoticeArrival
  | translationRequest => exact hs.execTranslationRequest
  | remapAnswer => exact hs.execRemapAnswer
  | shootdownBroadcast => exact next (foldl hs fun _ _ hu => hu.shoot)
  | pageMigration => exact hs.execPageMigration
  | hotLineMark => exact hs.execHotLineMark
  | contributionArrival => exact hs.execContributionArrival
  | contributionAnswer => exact hs.execContributionAnswer
  | busyResend | answerTimeout => exact next hs.resendContribution
  | flitReceive => exact next (ifElse hs.onLink hs)
  | nakReceive | nakResendTimeout | ackStallTimeout | linkRetrain => exact next hs.onLink
  | linkDown => exact ifElse (next (failOver ⟨hs.mem⟩)) (next hs)
  | deviceUnreachable => exact next (ifElse hs hs.loseDevice)
  | bridgeFailure => exact ifElse (next deviceFail) (next hs)
  | agentRejoin => exact hs.execAgentRejoin
  | uncorrectableError => exact hs.execUncorrectableError
  | patrolScrub => exact next (ifElse ⟨hs.mem⟩ hs)
  | ctxCreate => exact next (command hs fun _ _ hu => ifElse ⟨hu.mem⟩ ⟨hu.mem⟩)
  | ctxHalt => exact next (command hs fun _ _ hu => cmdDone hu.haltContext)
  | ctxResume | ctxFreeze | ctxThaw => exact next (command hs fun _ _ hu => ⟨hu.mem⟩)
  | ctxTerminate => exact next (command hs fun _ _ hu => cmdDone hu.terminate)
  | ctxPreempt => exact next (command hs fun _ _ hu => hu.preemptAll)
  | ctxBadCode => exact hs.execCtxBadCode
  | imgbegin => exact next (mailbox hs fun _ hu => hu.imgBegin)
  | imgdata => exact next (mailbox hs fun _ hu => hu.imgData)
  | imgcommit => exact next (mailbox hs fun _ hu => hu.imgCommit)
  | svnadv => exact next (mailbox hs fun _ hu => hu.svnAdv)
  | attest => exact next (mailbox hs fun _ hu => hu.attest)
  | reset => exact next (mailbox hs fun _ hu => ifElse bringUp ⟨hu.mem⟩)
  | mbBadCode => exact ifElse (next hs) (next (mailbox hs (fun _ hu => ⟨hu.mem⟩)))
  | semaphoreWrite | pstatClear => exact next ⟨hs.fromPort.mem⟩
  | descriptorWrite => exact hs.execDescriptorWrite
  | queueEnable => exact hs.execQueueEnable
  | queueDisable => exact next (whenReady hs fun _ hu => ifElse ⟨hu.mem⟩ hu)
  | qtailWrite => exact hs.execQtailWrite
  | cheadWrite => exact next (whenReady hs fun _ hu => ifElse hu ⟨hu.mem⟩)
  | windowAccess => exact next hs.window
  | commit => exact hs.execCommit
  | registerWrite => exact hs.execRegisterWrite
  | thermalTrip => exact next ⟨hs.deviceCheck.mem⟩
  | telemetryUpdate => exact hs.execTelemetryUpdate
  | coldReset => exact next bringUp
  | deviceReset => exact next (ifElse hs bringUp)
  | linkBringUp => exact hs.execLinkBringUp
  | fetchTrap => exact hs.execFetchTrap
  | unassignedEncoding => exact hs.execUnassignedEncoding

/-! ### The issue point (Machine/Issue) -/

theorem State.Canonical.stepTrap {key : Nat} {g : Group} {e : PSlot × DWord} (hs : s.Canonical) : (s.stepTrap key g e).Canonical :=
  raiseTrap ⟨hs.mem⟩

theorem State.Canonical.fetchRun {g : Group} {p : Path} (hs : s.Canonical) : Out.Canonical (s.fetchRun g p) := by
  dsimp only [State.fetchRun]
  refine ifElse (next hs.trapHere) ?_
  split
  · exact hs.fetchFill.execFetchTrap
  · exact hs.fetchFill.execUnassignedEncoding
  · exact next hs.fetchFill
  · exact hs.fetchFill.exec

theorem State.Canonical.firstTrap {p : IssuePoint} {g : Group} (hs : s.Canonical) : Out.Canonical (s.firstTrap p g) := by
  unfold State.firstTrap
  refine ifElse hs.execMachineCheck ?_
  split
  · exact next hs.stepTrap
  · exact next hs

theorem State.Canonical.atPoint {p : IssuePoint} {g : Group} (hs : s.Canonical) : (s.atPoint p g).Canonical := ⟨hs.mem⟩

theorem State.Canonical.issueAt {p : IssuePoint} (hs : s.Canonical) : Out.Canonical (s.issueAt p) := by
  dsimp only [State.issueAt]
  split
  · exact next hs
  · refine ifElse (next hs) ?_
    refine ifElse (firstTrap ⟨hs.mem⟩) ?_
    split
    · exact next ⟨hs.mem⟩
    · refine ifElse ?_ (next ⟨hs.mem⟩)
      split
      · exact exec ⟨hs.mem⟩
      · exact fetchRun ⟨hs.mem⟩

theorem State.Canonical.eventTurn {i : Instr} (hs : s.Canonical) : Out.Canonical (s.eventTurn i) := ifElse hs.exec (next hs)

theorem State.Canonical.tick (hs : s.Canonical) : s.tick.Canonical := ifElse hs ⟨hs.mem⟩

/-! ### Turns (Machine/Policy) -/

theorem State.Canonical.renew (hs : s.Canonical) : s.renew.Canonical := ⟨hs.mem⟩

theorem State.Canonical.turn {t : Turn} (hs : s.Canonical) : Out.Canonical (s.turn t) := by
  unfold State.turn
  split
  · exact hs.eventTurn
  · exact ifElse (next hs) hs.issueAt
  · exact next (ifElse hs hs.arrive)
  · exact next (ifElse hs hs.semTie)
  · exact next (ifElse hs hs.hostRead)
  · exact next (ifElse hs hs.windowOf)
  · exact next (ifElse hs hs.windowOf)

theorem State.Canonical.ownTurn {t : Turn} (hs : s.Canonical) : Out.Canonical (s.ownTurn t) := turn ⟨hs.mem⟩

theorem State.Canonical.oneTurn (hs : s.Canonical) : Out.Canonical s.oneTurn := by
  unfold State.oneTurn
  split
  · exact turn ⟨hs.mem⟩
  · refine ifElse (next hs) ?_
    split
    · exact hs.ownTurn
    · exact next hs

/-! ### The step (Machine/Step) -/

theorem State.Canonical.step (hs : s.Canonical) : Out.Canonical (step s) := oneTurn ⟨hs.tick.mem⟩

end Sys2Proof.Machine

open Sys2Proof Sys2Proof.Machine in
/-- Settles O32: a step composes functions of the model that each keep the canonical form. -/
theorem stepKeepsMemoryForm : Obligations.StepKeepsMemoryForm := by
  unfold Obligations.StepKeepsMemoryForm
  intro s t hs hstep
  have hout : Out.Canonical (step s) := State.Canonical.step ⟨hs⟩
  rw [hstep] at hout
  cases hout with
  | next ht => exact ht.mem

namespace Sys2Proof.Machine

/-! ## Loss of devices and agents, errors, resets (09 R285, R286; 11 R334, R342; 12 R362, R368, R370) -/

section Agents

variable (s : State)

theorem State.localCache_of_here {a : Nat} (h : a / 512 = s.dev) : s.localCache a = a % 512 := if_pos h

/-- A cache of this device, by its number across devices. -/
theorem State.localCache_here {n : Nat} (hn : n < 512) : s.localCache (512 * s.dev + n) = n := by
  rw [State.localCache_of_here s (by omega)]
  omega

theorem exec_agentRejoin_cache {a : Nat} (ha : a / 512 = s.dev) (hn : a % 512 < 256) (rejoins : Bool) :
    exec (.agentRejoin a rejoins) s
      = .next (if rejoins then (s.loseCache (a % 512)).nextInc (a % 512) else s.loseCache (a % 512)) := by
  have hhere : a % 512 < 512 := by omega
  change execAgentRejoin a rejoins s = _
  simp only [execAgentRejoin, State.localCache_of_here s ha, if_pos hhere, if_pos hn]

theorem exec_agentRejoin_die {a : Nat} (ha : a / 512 = s.dev) (hn : a % 512 = 256 ∨ a % 512 = 257) (rejoins : Bool) :
    exec (.agentRejoin a rejoins) s
      = .next (if rejoins then (s.loseDie (a % 512 - 256)).nextInc (a % 512) else s.loseDie (a % 512 - 256)) := by
  have hhere : a % 512 < 512 := by omega
  have hdie : ¬ a % 512 < 256 := by omega
  have hparity : a % 512 % 2 = a % 512 - 256 := by omega
  change execAgentRejoin a rejoins s = _
  simp only [execAgentRejoin, State.localCache_of_here s ha, if_pos hhere, if_neg hdie, hparity]

theorem exec_agentRejoin_device {a : Nat} (ha : a / 512 ≠ s.dev) (rejoins : Bool) :
    exec (.agentRejoin a rejoins) s = .next (if rejoins then s.rejoinDevice (a / 512) else s.loseDevice (a / 512)) := by
  have hlocal : s.localCache a = 512 + a := if_neg ha
  have haway : ¬ 512 + a < 512 := by omega
  change execAgentRejoin a rejoins s = _
  simp only [execAgentRejoin, hlocal, if_neg haway]

/-- What counting corrected errors changes: one free value is used, and the island's count rises by it, saturating. -/
theorem State.icorr_countCorrected (j i : Nat) :
    (SMap.getD (s.countCorrected j).power.icorr i 0).toNat = if i = j
      then min ((SMap.getD s.power.icorr j 0).toNat + (Config.freeWord s.free).toNat) (2 ^ 32 - 1)
      else (SMap.getD s.power.icorr i 0).toNat := by
  change (SMap.getD (SMap.put 0 s.power.icorr j _) i 0).toNat = _
  rw [SMap.getD_put]
  split
  · rw [BitVec.toNat_ofNat]
    exact Nat.mod_eq_of_lt (by omega)
  · rfl

theorem reliabilitySteps : Claims.ReliabilitySteps := by
  unfold Claims.ReliabilitySteps
  intro s
  refine ⟨fun d hd => congrArg Host.Outcome.next (if_neg hd), congrArg Host.Outcome.next (if_pos rfl),
    fun a ha => ⟨fun hn => ?cache, fun hn => ?die⟩, fun a ha => ?device, rfl, fun c hc => congrArg Host.Outcome.next (if_neg ?beyond),
    fun c hc => ?vault, fun b hb => if_pos hb, fun h => congrArg Host.Outcome.next (if_neg ?cool),
    fun h => congrArg Host.Outcome.next (if_pos h), rfl⟩
  case cache => exact ⟨exec_agentRejoin_cache s ha hn false, exec_agentRejoin_cache s ha hn true⟩
  case die => exact ⟨exec_agentRejoin_die s ha hn false, exec_agentRejoin_die s ha hn true⟩
  case device => exact ⟨exec_agentRejoin_device s ha false, rfl, exec_agentRejoin_device s ha true⟩
  case beyond => omega
  case vault =>
    refine ⟨s.countCorrected (vaultIsland c), congrArg Host.Outcome.next (if_pos hc), rfl, rfl, fun i => ?_⟩
    rw [State.icorr_countCorrected]
    split
    next hi => exact (if_pos hi).symm ▸ hi ▸ rfl
    next hi => exact (if_neg hi).symm
  case cool => simp [h]

end Agents

section Damage

variable (s : State)

theorem exec_uncorrectableError (site : ErrSite) : exec (.uncorrectableError site) s = execUncorrectableError site s := rfl

theorem State.damageLoad_of_no_group {core slot addr : Nat} (h : s.group (groupKey core slot) = none) :
    s.damageLoad core slot addr = s := by
  simp only [State.damageLoad, h]

theorem State.damageLoad_of_no_receiver {core slot addr : Nat} {g : Group} (h : s.group (groupKey core slot) = some g)
    (hr : s.receiver g addr = none) : s.damageLoad core slot addr = s := by
  simp only [State.damageLoad, h, hr]

theorem exec_uncorrectableError_vreg {core slot : Nat} {g : Group} (h : s.group (groupKey core slot) = some g) (r l : Nat) :
    exec (.uncorrectableError (.vreg core slot r l)) s
      = .next ((({ s with free := s.free + 1 } : State).setGroup (groupKey core slot)
          (g.setMany [((r, l), Config.freeWord s.free)])).damageTeam g.team) := by
  simp only [exec_uncorrectableError, execUncorrectableError, State.spoilRegs, h]
  rfl

theorem exec_uncorrectableError_vreg_none {core slot : Nat} (h : s.group (groupKey core slot) = none) (r l : Nat) :
    exec (.uncorrectableError (.vreg core slot r l)) s = .next s := by
  simp only [exec_uncorrectableError, execUncorrectableError, h]

/-- A change of a segment that exists, in a machine that has used some free values. -/
theorem State.onSegment_of_segment {t k : Nat} {g : Segment} (h : s.segment t k = some g) (n : Nat) (f : Segment → Segment) :
    ({ s with free := s.free + n } : State).onSegment t k f = ({ s with free := s.free + n } : State).setSegment t k (f g) := by
  have hfree : ({ s with free := s.free + n } : State).segment t k = some g := h
  rw [State.onSegment, hfree]

theorem exec_uncorrectableError_spad {t k : Nat} {g : Segment} (h : s.segment t k = some g) (i : Nat) :
    exec (.uncorrectableError (.spad t k i)) s = .next ((({ s with free := s.free + 4 } : State).setSegment t k
      (g.write (4 * i) ((run s.free 4).map Config.freeByte))).damageTeam t) :=
  congrArg (fun u : State => Host.Outcome.next (u.damageTeam t)) (State.onSegment_of_segment s h 4 _)

theorem exec_uncorrectableError_tile {t k : Nat} {g : Segment} (h : s.segment t k = some g) (i : Nat) :
    exec (.uncorrectableError (.tile t k i)) s = .next ((({ s with free := s.free + 1 } : State).setSegment t k
      { g with tiles := SMap.put 0 g.tiles i (Config.freeWord s.free) }).damageTeam t) :=
  congrArg (fun u : State => Host.Outcome.next (u.damageTeam t)) (State.onSegment_of_segment s h 1 _)

theorem exec_uncorrectableError_barrier {t : Nat} {x : Team} (h : s.team t = some x) (n g : Nat) :
    exec (.uncorrectableError (.barrier t n g)) s = .next ((({ s with free := s.free + 1 } : State).setTeam t { x with
      bars := SMap.insert x.bars n { x.barrier n with ac := SMap.put 0 (x.barrier n).ac g (Config.freeWord s.free) } }).damageTeam t) := by
  have hfree : ({ s with free := s.free + 1 } : State).team t = some x := h
  simp only [exec_uncorrectableError, execUncorrectableError, State.fresh, hfree]

theorem exec_uncorrectableError_barrier_none {t : Nat} (h : s.team t = none) (n g : Nat) :
    exec (.uncorrectableError (.barrier t n g)) s = .next s := by
  have hfree : ({ s with free := s.free + 1 } : State).team t = none := h
  simp only [exec_uncorrectableError, execUncorrectableError, State.fresh, hfree]

theorem exec_uncorrectableError_uCopy {n : Nat} (hn : n < 512) (asid va : Nat) :
    exec (.uncorrectableError (.uCopy (512 * s.dev + n) asid va)) s = .next (s.damageU n (s.tagFor asid va / 32)) := by
  change Host.Outcome.next (s.damageU (s.localCache (512 * s.dev + n)) _) = _
  rw [State.localCache_here s hn]

/-- Does a cache hold a sector in U? -/
def Cache.holdsU (c : Cache) (key : Nat) : Bool :=
  match c.sector key with
  | some (.u _, _) => true
  | _ => false

theorem Cache.holdsU_of_sector {c : Cache} {key : Nat} {op : UOp} {d : SectorData} (h : c.sector key = some (.u op, d)) :
    c.holdsU key = true := by
  rw [Cache.holdsU, h]

theorem Cache.holdsU_eq_false {c : Cache} {key : Nat} (h : ∀ op d, c.sector key ≠ some (.u op, d)) : c.holdsU key = false := by
  unfold Cache.holdsU
  split
  next hu => exact absurd hu (h _ _)
  · rfl

/-- The machine without the die copy of a sector at a slice, if a condition holds. -/
def State.withoutDie (s : State) (c : Bool) (h key : Nat) : State :=
  if c then s.setSlice h { s.slice h with die := SMap.erase (s.slice h).die key } else s

theorem State.damageU_eq (n key : Nat) :
    let h := s.holderOf key (n - 256)
    let die := decide (n / 2 = 128) && SMap.has (s.slice h).die key
    let t := s.withoutDie die h key
    s.damageU n key = if (s.cache n).holdsU key || die
      then ((if (s.cache n).holdsU key then t.setCache n ((t.cache n).drop key) else t).syncDir key).logLine 2 (coreField n) key
      else s := rfl

/-- A damaged U copy of an L1 is dropped and recorded. -/
theorem State.damageU_of_l1 {n : Nat} (hn : n < 256) (key : Nat) : s.damageU n key = if (s.cache n).holdsU key
    then ((s.setCache n ((s.cache n).drop key)).syncDir key).logLine 2 (coreField n) key else s := by
  have hdie : decide (n / 2 = 128) = false := decide_eq_false (by omega)
  rw [State.damageU_eq, hdie]
  cases (s.cache n).holdsU key <;> rfl

/-- A damaged U copy of a die-level cache is dropped with the die copy, and recorded. -/
theorem State.damageU_of_die {n : Nat} (hn : n = 256 ∨ n = 257) (key : Nat) :
    let h := s.holderOf key (n - 256)
    let t := s.withoutDie (SMap.has (s.slice h).die key) h key
    s.damageU n key = if (s.cache n).holdsU key then ((t.setCache n ((t.cache n).drop key)).syncDir key).logLine 2 (coreField n) key
      else if SMap.has (s.slice h).die key then (t.syncDir key).logLine 2 (coreField n) key else s := by
  have hdie : decide (n / 2 = 128) = true := decide_eq_true (by omega)
  rw [State.damageU_eq, hdie]
  cases (s.cache n).holdsU key <;> rfl

theorem exec_uncorrectableError_parked {n : Nat} (hn : n < 512) (asid va : Nat) :
    let key := s.tagFor asid va / 32
    let h := s.holderOf key (n / 128)
    exec (.uncorrectableError (.parked (512 * s.dev + n) asid va)) s = if (s.slice h).park.any fun e => e.1 == (key, n)
      then .next (((s.setSlice h { s.slice h with park := (s.slice h).park.filter fun e => e.1 != (key, n) }).syncDir key).logLine 2
        (coreField n) key)
      else .next s := by
  intro key h
  simp only [exec_uncorrectableError, execUncorrectableError, State.localCache_here s hn]
  rfl

theorem damagedState : Claims.DamagedState := by
  unfold Claims.DamagedState
  intro s one w
  refine ⟨fun _ _ _ => rfl, fun _ _ _ => State.damageLoad_of_no_group s, fun _ _ _ _ => State.damageLoad_of_no_receiver s,
    fun core slot r l => ⟨fun g h => exec_uncorrectableError_vreg s h r l, fun h => exec_uncorrectableError_vreg_none s h r l⟩,
    fun t k i g h => ⟨exec_uncorrectableError_spad s h i, exec_uncorrectableError_tile s h i⟩,
    fun t n g x h => exec_uncorrectableError_barrier s h n g, fun t n g h => exec_uncorrectableError_barrier_none s h n g,
    fun asid va => ⟨rfl, fun n hn => ?l1, fun n hn => ?die, fun n hn => ?parked⟩⟩
  case l1 =>
    rw [exec_uncorrectableError_uCopy s (by omega), State.damageU_of_l1 s hn]
    exact ⟨fun op d h => by rw [if_pos (Cache.holdsU_of_sector h)],
      fun h => by rw [Cache.holdsU_eq_false h]; rfl⟩
  case die =>
    rw [exec_uncorrectableError_uCopy s (by omega), State.damageU_of_die s hn]
    refine ⟨fun op d h => by rw [if_pos (Cache.holdsU_of_sector h)]; rfl, fun h => ?_⟩
    rw [Cache.holdsU_eq_false h]
    exact ⟨fun hheld => by rw [if_neg Bool.false_ne_true, if_pos hheld]; rfl,
      fun hnone => by rw [if_neg Bool.false_ne_true, hnone]; rfl⟩
  case parked =>
    rw [exec_uncorrectableError_parked s (by omega)]
    simp only [List.any_eq_true, beq_iff_eq]
    exact ⟨fun h => if_neg fun ⟨e, he, hkey⟩ => h e he hkey, fun h => if_pos h⟩

end Damage
section BringUp

theorem State.loseRecords_of_none {s : State} (h : s.collectives = []) (f : Nat → Bool) : s.loseRecords f = s := by
  simp only [State.loseRecords, h, List.filter_nil, SMap.keys, List.map_nil, List.foldl_nil]
  rw [← h]

/-- Every cache after bring-up is empty, in its next incarnation. -/
theorem State.cache_bringUp (s : State) (cold : Bool) {n : Nat} (hn : n < 258) :
    (s.bringUp cold).cache n = { Cache.empty with inc := ((s.loseRecords fun _ => true).cache n).inc + 1 } := by
  have hcaches : (s.bringUp cold).caches = (s.loseRecords fun _ => true).nextCaches := rfl
  rw [State.cache, hcaches, State.nextCaches, SMap.getD, SMap.find_map_run, if_pos ⟨Nat.zero_le n, by omega⟩]

/-- A port after bring-up is its restart. -/
theorem State.port_bringUp (s : State) (cold : Bool) (p : Nat) :
    (s.bringUp cold).port p = ((s.loseRecords fun _ => true).port p).restart :=
  SMap.getD_map (s.loseRecords fun _ => true).ports Port.restart p Port.reset

/-- READY after bring-up. -/
theorem State.ready_bringUp (s : State) (cold : Bool) :
    let u := s.loseRecords fun _ => true
    (s.bringUp cold).ready = true ↔ (u.firmware.restart cold).bootCode = 0 ∧ ∀ q, q < 4 → cold = true ∨ u.bridge q = true := by
  intro u
  have hready : (s.bringUp cold).ready = ((u.firmware.restart cold).bootCode == 0
    && (run 0 4).all fun q => SMap.getD (if cold then [] else u.bridgesUp) q true) := rfl
  have hmem : ∀ q, q ∈ run 0 4 ↔ q < 4 := fun q => by simp [mem_run]
  rw [hready]
  cases cold <;> simp [hmem, State.bridge, SMap.getD, SMap.find]

/-- The firmware after a boot that succeeds. -/
theorem State.firmware_bringUp (s : State) (cold : Bool) :
    let f := (s.loseRecords fun _ => true).firmware.restart cold
    (s.bringUp cold).firmware = if f.bootCode = 0 then f.boot else f := rfl

theorem Firmware.boot_kept (f : Firmware) : f.boot.staging = f.staging ∧ f.boot.busy = f.busy ∧ f.boot.svn = f.svn := by
  unfold Firmware.boot
  split <;> exact ⟨rfl, rfl, rfl⟩

theorem Firmware.digests_boot (f : Firmware) : ∃ d, f.boot.digests = f.digests ++ [d] := by
  unfold Firmware.boot
  split <;> exact ⟨_, rfl⟩

theorem Firmware.boot_of_committed {f : Firmware} {m : Image} (h : f.committed = some m) :
    f.boot.active = some m ∧ f.boot.committed = none := by
  unfold Firmware.boot
  simp [h]

theorem bringUpState : Claims.BringUpState := by
  unfold Claims.BringUpState
  intro s0 cold t s code
  have hfw : t.firmware = if code = 0 then (s.firmware.restart cold).boot else s.firmware.restart cold := s0.firmware_bringUp cold
  obtain ⟨hstaging, hbusy, hsvn⟩ := (s.firmware.restart cold).boot_kept
  refine ⟨fun h => State.loseRecords_of_none h _, rfl, rfl, rfl, rfl, rfl, rfl, rfl, rfl, rfl, rfl, rfl, fun n hn => ?caches,
    s0.ready_bringUp cold, rfl, fun h => if_pos h, fun h => if_neg (by simp [h]), ?staging, ?busy, ?svn, fun h => ?kept,
    fun m h hm => ?committed, fun h => ?digests, fun p _ => ?ports⟩
  case caches =>
    rw [show t.cache n = _ from s0.cache_bringUp cold hn]
    exact ⟨rfl, rfl, rfl⟩
  case staging => rw [hfw]; exact ifElse (P := fun f : Firmware => f.staging = none) hstaging rfl
  case busy => rw [hfw]; exact ifElse (P := fun f : Firmware => f.busy = false) hbusy rfl
  case svn => rw [hfw]; exact ifElse (P := fun f : Firmware => f.svn = s.firmware.svn) hsvn rfl
  case kept =>
    rw [hfw, if_neg h]
    exact ⟨rfl, rfl⟩
  case committed =>
    rw [hfw, if_pos h]
    exact Firmware.boot_of_committed hm
  case digests =>
    rw [hfw, if_pos h]
    exact Firmware.digests_boot _
  case ports =>
    rw [show t.port p = _ from s0.port_bringUp cold p]
    exact ⟨rfl, rfl⟩

end BringUp
end Sys2Proof.Machine

open Sys2Proof Sys2Proof.Machine in
/-- Settles O54: each event is its branch of the model at the agent, the site or the vault that it names, and bring-up writes each
component of the state it leaves. -/
theorem reliabilityRules : Obligations.ReliabilityRules := ⟨reliabilitySteps, damagedState, bringUpState⟩

namespace Sys2Proof.Machine

/-! ## What a collapse leaves of a sector (09 R279, R280) -/

/-! ### Pages, and the slice that keeps a sector's records -/

/-- Two machines that agree on what decides a sector's place: memory, contexts, and the leaves that the slices keep. -/
structure SamePages (s t : State) : Prop where
  mem : t.mem = s.mem
  contexts : t.contexts = s.contexts
  dev : t.dev = s.dev
  tcache : ∀ k, (t.slice k).tcache = (s.slice k).tcache
  frames : ∀ k, (t.slice k).frames = (s.slice k).frames

namespace SamePages

theorem refl (s : State) : SamePages s s := ⟨rfl, rfl, rfl, fun _ => rfl, fun _ => rfl⟩

theorem trans {s t u : State} (h : SamePages s t) (k : SamePages t u) : SamePages s u :=
  ⟨k.mem.trans h.mem, k.contexts.trans h.contexts, k.dev.trans h.dev, fun n => (k.tcache n).trans (h.tcache n),
    fun n => (k.frames n).trans (h.frames n)⟩

section Places
variable {s t : State} (h : SamePages s t)
include h

theorem entryAt (mc asid va : Nat) : t.entryAt mc asid va = s.entryAt mc asid va := by
  simp only [State.entryAt, State.walk, State.ctxOfAsid, h.mem, h.contexts, h.tcache]

theorem lookup (asid va : Nat) : t.lookup asid va = s.lookup asid va := by
  have hentry : t.entryAt = s.entryAt := funext fun mc => funext fun a => funext fun v => h.entryAt mc a v
  unfold State.lookup State.lookupBy State.entryBy State.hasFrame
  rw [hentry, h.dev]

theorem keyPlace (key : Nat) : t.keyPlace key = s.keyPlace key := by
  simp only [State.keyPlace, State.frameOf, State.placeOf, h.lookup, h.frames, h.dev]

theorem homeAt (key : Nat) : t.homeAt key = s.homeAt key := by
  simp only [State.homeAt, h.keyPlace]

end Places

theorem setCache (s : State) (n : Nat) (c : Cache) : SamePages s (s.setCache n c) := ⟨rfl, rfl, rfl, fun _ => rfl, fun _ => rfl⟩

/-- Replacing a slice's state by one with the same leaves. -/
theorem setSlice (s : State) (n : Nat) {x : Slice} (htcache : x.tcache = (s.slice n).tcache) (hframes : x.frames = (s.slice n).frames) :
    SamePages s (s.setSlice n x) := by
  refine ⟨rfl, rfl, rfl, fun k => ?_, fun k => ?_⟩
  · rw [State.slice_setSlice]
    split
    next hk => rw [htcache, hk]
    · rfl
  · rw [State.slice_setSlice]
    split
    next hk => rw [hframes, hk]
    · rfl

theorem mirrorDie (s : State) (key d : Nat) : SamePages s (s.mirrorDie key d) := by
  obtain h | ⟨st, v, r, w, h⟩ | h := s.mirrorDie_eq key d
  · rw [h]
    exact .refl s
  · rw [h]
    exact .setCache ..
  · rw [h]
    exact .setCache ..

theorem syncDir (s : State) (key : Nat) : SamePages s (s.syncDir key) := by
  have hmirror : SamePages s (s.mirror key) := by
    rw [State.mirror_eq]
    exact (mirrorDie s key 1).trans (mirrorDie _ key 0)
  exact hmirror.trans (setSlice _ _ rfl rfl)

end SamePages

theorem State.slice_mirrorDie (s : State) (key d k : Nat) : (s.mirrorDie key d).slice k = s.slice k := by
  obtain h | ⟨st, v, r, w, h⟩ | h := s.mirrorDie_eq key d
  · rw [h]
  · rw [h]
    rfl
  · rw [h]
    rfl

/-- Bringing the records up to date changes a slice in its directory and its list of U lines alone. -/
theorem State.slice_syncDir (s : State) (key k : Nat) :
    ∃ dir us, (s.syncDir key).slice k = { s.slice k with dir := dir, uLines := us } := by
  have hmirror : ∀ j, (s.mirror key).slice j = s.slice j := fun j => by
    rw [State.mirror_eq, State.slice_mirrorDie, State.slice_mirrorDie]
  unfold State.syncDir
  extract_lets u h x dir us
  rw [State.slice_setSlice]
  split
  next hk =>
    have hx : x = s.slice k := hk ▸ hmirror h
    exact ⟨dir, us, congrArg (fun y : Slice => { y with dir := dir, uLines := us }) hx⟩
  · exact ⟨(s.slice k).dir, (s.slice k).uLines, hmirror k⟩

/-- Removing a collapse record changes a slice in its collapses, its directory and its list of U lines alone. -/
theorem State.slice_setCollapse (s : State) (key k : Nat) (c : Option Collapse) :
    ∃ colls dir us, (s.setCollapse key c).slice k = { s.slice k with colls := colls, dir := dir, uLines := us } := by
  unfold State.setCollapse
  extract_lets h x
  obtain ⟨dir, us, hsync⟩ := State.slice_syncDir (s.setSlice h { x with colls := x.colls.filter (fun k => k.key != key) ++ c.toList }) key k
  rw [hsync, State.slice_setSlice]
  split
  next hk =>
    subst hk
    exact ⟨_, dir, us, rfl⟩
  · exact ⟨(s.slice k).colls, dir, us, rfl⟩

theorem State.collapseRec_setCollapse_none (s : State) (key : Nat) : (s.setCollapse key none).collapseRec key = none := by
  let x := s.slice (s.homeAt key)
  let u := s.setSlice (s.homeAt key) { x with colls := x.colls.filter (fun k => k.key != key) ++ [] }
  have hpages : SamePages s (u.syncDir key) := SamePages.trans (t := u) (.setSlice s _ rfl rfl) (.syncDir u key)
  have hcolls : ((u.syncDir key).slice (s.homeAt key)).colls = x.colls.filter fun k => k.key != key := by
    obtain ⟨dir, us, hsync⟩ := u.slice_syncDir key (s.homeAt key)
    rw [hsync, State.slice_setSlice, if_pos rfl]
    exact List.append_nil _
  change (u.syncDir key).collapseRec key = none
  rw [State.collapseRec, hpages.homeAt, hcolls, List.find?_eq_none]
  intro k hk
  simpa using (List.mem_filter.1 hk).2

/-! ### No U copy stays -/

/-- Every U copy of a sector leaves its cache. -/
def State.dropU (s : State) (key : Nat) : State :=
  (s.holders key).foldl (fun st e =>
    match e.2.1 with
    | .u _ => st.setCache e.1 ((st.cache e.1).drop key)
    | _ => st) s

/-- The parked copies and the die copy of a sector leave a slice. -/
def State.dropParts (s : State) (key n : Nat) : State :=
  s.setSlice n { s.slice n with park := (s.slice n).park.filter (fun e => e.1.1 != key), die := SMap.erase (s.slice n).die key }

theorem State.clearU_eq (s : State) (key : Nat) : s.clearU key
    = (((s.dropU key).dropParts key (s.holderOf key 0)).dropParts key (s.holderOf key 1)).setCollapse key none := rfl

/-- A sector removed from a cache is not held there. -/
theorem Cache.sector_drop_self (c : Cache) (key : Nat) : (c.drop key).sector key = none := by
  unfold Cache.sector
  cases hl : (c.drop key).line (key / 4) with
  | none => rfl
  | some l =>
    have hmem : l ∈ (c.drop key).lines := List.mem_of_find?_eq_some hl
    have htag : l.tag = key / 4 := eq_of_beq (List.find?_some (p := fun l : Line => l.tag == key / 4) hl)
    obtain ⟨l', -, rfl⟩ := List.mem_map.1 (List.mem_of_mem_filter hmem)
    by_cases h' : l'.tag = key / 4
    · simp [h', SMap.find_erase]
    · rw [if_neg h'] at htag
      exact absurd htag h'

/-- Does no cache hold the sector in U? -/
def State.NoU (s : State) (key : Nat) : Prop := ∀ n op d, (s.cache n).sector key ≠ some (.u op, d)

theorem State.mem_holders_of_sector {s : State} {key n : Nat} {st : SecState} {d : SectorData}
    (h : (s.cache n).sector key = some (st, d)) : (n, st, d) ∈ s.holders key := by
  unfold State.cache SMap.getD at h
  cases hf : SMap.find s.caches n with
  | none =>
    rw [hf] at h
    cases h
  | some c =>
    rw [hf] at h
    exact List.mem_filterMap.2 ⟨(n, c), SMap.mem_of_find hf, by rw [h]⟩

theorem State.sector_of_mem_holders {s : State} (hsorted : SMap.sorted s.caches = true) {key n : Nat} {st : SecState} {d : SectorData}
    (h : (n, st, d) ∈ s.holders key) : (s.cache n).sector key = some (st, d) := by
  obtain ⟨⟨m, c⟩, hmem, hsec⟩ := List.mem_filterMap.1 h
  cases hc : c.sector key with
  | none => simp [hc] at hsec
  | some x =>
    simp only [hc, Option.some.injEq, Prod.mk.injEq] at hsec
    obtain ⟨rfl, rfl, rfl⟩ := hsec
    rw [State.cache, SMap.getD, SMap.find_of_mem_sorted hsorted hmem]
    exact hc

/-- One holder's copy leaves its cache, if it is in U. -/
def State.dropUOf (s : State) (key : Nat) (e : Nat × SecState × SectorData) : State :=
  match e.2.1 with
  | .u _ => s.setCache e.1 ((s.cache e.1).drop key)
  | _ => s

theorem State.dropU_eq (s : State) (key : Nat) : s.dropU key = (s.holders key).foldl (fun st e => st.dropUOf key e) s := rfl

/-- It keeps each cache's sector, or drops it; and a U copy of the holder goes. -/
theorem State.sector_dropUOf (s : State) (key n : Nat) (e : Nat × SecState × SectorData) :
    (((s.dropUOf key e).cache n).sector key = (s.cache n).sector key ∨ ((s.dropUOf key e).cache n).sector key = none)
      ∧ ∀ op d, e = (n, .u op, d) → ((s.dropUOf key e).cache n).sector key = none := by
  obtain ⟨m, st, d⟩ := e
  have hdrop : m = n → ((s.setCache m ((s.cache m).drop key)).cache n).sector key = none := fun hm => by
    rw [hm, State.cache_setCache, if_pos rfl, Cache.sector_drop_self]
  cases st with
  | u op =>
    by_cases hm : m = n
    · exact ⟨.inr (hdrop hm), fun _ _ _ => hdrop hm⟩
    · refine ⟨.inl ?_, fun _ _ he => absurd (congrArg Prod.fst he) hm⟩
      exact congrArg (Cache.sector · key) ((State.cache_setCache ..).trans (if_neg (Ne.symm hm)))
  | _ => exact ⟨.inl rfl, fun _ _ he => by cases he⟩

/-- What dropping the U copies of a list of holders leaves in each cache. -/
theorem State.sector_foldl_dropUOf (key n : Nat) (l : List (Nat × SecState × SectorData)) (s : State) :
    let t := l.foldl (fun st e => st.dropUOf key e) s
    ((t.cache n).sector key = (s.cache n).sector key ∨ (t.cache n).sector key = none)
      ∧ ∀ op d, (n, .u op, d) ∈ l → (t.cache n).sector key = none := by
  induction l generalizing s with
  | nil => exact ⟨.inl rfl, fun _ _ h => by cases h⟩
  | cons e l ih =>
    obtain ⟨hkeep, hgone⟩ := ih (s.dropUOf key e)
    obtain ⟨hone, hmine⟩ := s.sector_dropUOf key n e
    have hnone : ((s.dropUOf key e).cache n).sector key = none →
        ((l.foldl (fun st e => st.dropUOf key e) (s.dropUOf key e)).cache n).sector key = none := fun h =>
      hkeep.elim (fun hsame => hsame.trans h) id
    refine ⟨hkeep.elim (fun hsame => hone.imp hsame.trans hnone) .inr, fun op d h => ?_⟩
    rcases List.mem_cons.1 h with he | h
    · exact hnone (hmine op d he.symm)
    · exact hgone op d h

theorem State.noU_dropU (s : State) (key : Nat) : (s.dropU key).NoU key := by
  intro n op d h
  rw [State.dropU_eq] at h
  obtain ⟨hsame | hnone, hgone⟩ := State.sector_foldl_dropUOf key n (s.holders key) s
  · rw [hgone op d (State.mem_holders_of_sector (hsame.symm.trans h))] at h
    cases h
  · rw [hnone] at h
    cases h

theorem State.sorted_dropU {s : State} (hsorted : SMap.sorted s.caches = true) (key : Nat) : SMap.sorted (s.dropU key).caches = true := by
  rw [State.dropU_eq]
  refine List.foldlRecOn (motive := fun t : State => SMap.sorted t.caches = true) _ _ hsorted fun t ht e _ => ?_
  unfold State.dropUOf
  split
  · exact SMap.sorted_insert _ _ ht
  · exact ht

/-- What a die-level cache takes up of a sector that no cache holds in U is no U copy. -/
theorem State.dieSector_ne_u {s : State} (hsorted : SMap.sorted s.caches = true) {key : Nat} (hnoU : s.NoU key) (d : Nat) (op : UOp)
    (v : SectorData) : s.dieSector key d ≠ some (.u op, v) := by
  unfold State.dieSector
  extract_lets hs
  have hheld : ∀ n k x, (n, .u k, x) ∉ hs := fun n k x h => hnoU n k x (State.sector_of_mem_holders hsorted (List.mem_of_mem_filter h))
  clear_value hs
  intro h
  split at h
  next hfind => exact hheld _ _ _ (List.mem_of_find?_eq_some hfind)
  next hfind =>
    obtain ⟨rfl, rfl⟩ := Prod.mk.inj (Option.some.inj h)
    exact hheld _ _ _ (List.mem_of_find?_eq_some hfind)
  · split at h
    · obtain ⟨rfl, rfl⟩ := Prod.mk.inj (Option.some.inj h)
      exact hheld _ _ _ List.mem_cons_self
    · split at h <;> cases h

theorem State.noU_setCache {s : State} {key n : Nat} {c : Cache} (hnoU : s.NoU key) (hc : ∀ op d, c.sector key ≠ some (.u op, d)) :
    (s.setCache n c).NoU key := by
  intro m op d
  rw [State.cache_setCache]
  split
  · exact hc op d
  · exact hnoU m op d

theorem State.mirrorDie_noU {s : State} (hsorted : SMap.sorted s.caches = true) {key : Nat} (hnoU : s.NoU key) (d : Nat) :
    SMap.sorted (s.mirrorDie key d).caches = true ∧ (s.mirrorDie key d).NoU key := by
  unfold State.mirrorDie
  split
  · exact ⟨hsorted, hnoU⟩
  · split
    next x v hdie =>
      refine ⟨SMap.sorted_insert _ _ hsorted, State.noU_setCache hnoU fun op y => ?_⟩
      rw [Cache.sector_grant, Cache.sector_put, if_pos rfl]
      intro h
      obtain ⟨rfl, rfl⟩ := Prod.mk.inj (Option.some.inj h)
      exact State.dieSector_ne_u hsorted hnoU d op _ hdie
    · refine ⟨SMap.sorted_insert _ _ hsorted, State.noU_setCache hnoU fun op y h => ?_⟩
      rw [Cache.sector_drop_self] at h
      cases h

theorem State.noU_syncDir {s : State} (hsorted : SMap.sorted s.caches = true) {key : Nat} (hnoU : s.NoU key) : (s.syncDir key).NoU key := by
  have hmirror : (s.mirror key).NoU key := by
    obtain ⟨hsorted1, hnoU1⟩ := State.mirrorDie_noU hsorted hnoU 1
    rw [State.mirror_eq]
    exact (State.mirrorDie_noU hsorted1 hnoU1 0).2
  exact hmirror

theorem State.noU_setSlice {s : State} {key : Nat} (hnoU : s.NoU key) (n : Nat) (x : Slice) : (s.setSlice n x).NoU key :=
  fun m op d => hnoU m op d

theorem State.noU_setCollapse {s : State} (hsorted : SMap.sorted s.caches = true) {key : Nat} (hnoU : s.NoU key) (c : Option Collapse) :
    (s.setCollapse key c).NoU key := by
  unfold State.setCollapse
  extract_lets h x
  exact State.noU_syncDir (s := s.setSlice h _) hsorted (State.noU_setSlice hnoU h _)

/-- After a collapse no cache holds the sector in U. -/
theorem State.noU_clearU {s : State} (hsorted : SMap.sorted s.caches = true) (key : Nat) : (s.clearU key).NoU key := by
  have hdrop := State.sorted_dropU hsorted key
  have hnoU := s.noU_dropU key
  rw [State.clearU_eq]
  generalize s.dropU key = t at hdrop hnoU ⊢
  exact State.noU_setCollapse (s := (t.dropParts key _).dropParts key _) hdrop (State.noU_setSlice (State.noU_setSlice hnoU _ _) _ _) none

/-! ### No part of a die stays -/

/-- Does a slice keep no parked copy and no die copy of a sector? -/
def Slice.Clear (x : Slice) (key : Nat) : Prop := SMap.find x.die key = none ∧ x.parked key = []

theorem State.clear_dropParts_self (s : State) (key n : Nat) : ((s.dropParts key n).slice n).Clear key := by
  rw [State.dropParts, State.slice_setSlice, if_pos rfl]
  refine ⟨(SMap.find_erase ..).trans (if_pos rfl), ?_⟩
  rw [Slice.parked, List.filterMap_eq_nil_iff]
  intro e he
  exact if_neg (by simpa using (List.mem_filter.1 he).2)

theorem State.clear_dropParts {s : State} {key k : Nat} (n : Nat) (h : (s.slice k).Clear key) : ((s.dropParts key n).slice k).Clear key := by
  by_cases hk : k = n
  · subst hk
    exact s.clear_dropParts_self key k
  · rw [State.dropParts, State.slice_setSlice, if_neg hk]
    exact h

/-- After a collapse the partial holders keep no part of the sector. -/
theorem State.clear_clearU (s : State) (key : Nat) {d : Nat} (hd : d < 2) : ((s.clearU key).slice (s.holderOf key d)).Clear key := by
  have hparts : ∀ u : State,
      (((u.dropParts key (s.holderOf key 0)).dropParts key (s.holderOf key 1)).slice (s.holderOf key d)).Clear key := fun u => by
    obtain rfl | rfl : d = 0 ∨ d = 1 := by omega
    · exact State.clear_dropParts _ (State.clear_dropParts_self ..)
    · exact State.clear_dropParts_self ..
  rw [State.clearU_eq]
  obtain ⟨colls, dir, us, hset⟩ := State.slice_setCollapse _ key (s.holderOf key d) none
  rw [hset]
  exact hparts _

/-! ### What a collapse writes -/

/-- The machine whose holders have been recalled, where no collapse was in progress. -/
def State.called (s : State) (key : Nat) : State :=
  if (s.collapseRec key).isSome then s else (s.holders key).foldl (fun st h => st.toHolder h.1 4 key) s

theorem State.collapseNow_of_no_u {s : State} {key : Nat} (h : s.uOp key = none) : s.collapseNow key = s := by
  simp only [State.collapseNow, State.collapseBy, h]

theorem State.collapseNow_of_u {s : State} {key : Nat} {op : UOp} (h : s.uOp key = some op) : s.collapseNow key
    = ((((s.called key).clearU key).homeSet key ((s.called key).collapseValue key op)).toHome 4 key).syncDir key := by
  simp only [State.collapseNow, State.collapseBy, h]
  rfl

/-- On a line of this device the home's die folds first, then the other die, then other devices in their order. -/
theorem State.collapseValue_of_vault {s : State} {key a : Nat} (hplace : s.keyPlace key = some (.vault a))
    (hdie : dieOf (s.homeAt key) < 2) (op : UOp) : s.collapseValue key op = (s.devicePartials key).foldl op.merge
      (foldPart op (foldPart op (s.homeRead key) (s.diePartial key op (dieOf (s.homeAt key))))
        (s.diePartial key op (1 - dieOf (s.homeAt key)))) := by
  simp only [State.collapseValue, hplace]
  obtain hnear | hnear : dieOf (s.homeAt key) = 0 ∨ dieOf (s.homeAt key) = 1 := by omega
  · rw [if_pos hnear, hnear]
  · rw [if_neg (by omega), hnear]

theorem State.collapseValue_of_remote {s : State} {key d a : Nat} (hplace : s.keyPlace key = some (.remote d a)) (op : UOp) :
    s.collapseValue key op = op.merge (s.homeRead key)
      (foldPart op (foldPart op op.identity (s.diePartial key op 0)) (s.diePartial key op 1)) := by
  simp only [State.collapseValue, hplace]

theorem foldPart_eq (op : UOp) (x : SectorData) (p : Option SectorData) : foldPart op x p = match p with
    | some p => op.merge x p
    | none => x := by
  cases p <;> rfl

theorem collapseFolds : Claims.CollapseFolds := by
  unfold Claims.CollapseFolds
  intro s key c part near writes
  have hcalled : s.called key = c := rfl
  have hpart : ∀ op d x, foldPart op x (c.diePartial key op d) = part op d x := fun op d x => foldPart_eq op x _
  refine ⟨State.collapseNow_of_no_u, fun op hop => ⟨fun a hplace hnear => ?_, fun d a hplace => ?_⟩, fun hsorted => ?_,
    State.collapseRec_setCollapse_none _ key, fun d hd => s.clear_clearU key hd⟩
  · rw [State.collapseNow_of_u hop, hcalled, State.collapseValue_of_vault hplace hnear, hpart, hpart]
  · rw [State.collapseNow_of_u hop, hcalled, State.collapseValue_of_remote hplace, hpart, hpart]
  · exact State.noU_clearU ((SMap.sorted_iff _).2 hsorted) key

/-! ## Steps of write-backs and collapses (09 R266, R277, R279 to R281, R284) -/

/-! ### Discovery and write-backs -/

/-- The devices that a discovery broadcast reaches. -/
theorem State.mem_discovered (s : State) (tag d : Nat) : d ∈ s.discovered tag ↔
    ∃ t c, s.lookup (keyAsid (4 * tag)) (keyVa (4 * tag)) = .ok t ∧ s.ctxOfAsid (keyAsid (4 * tag)) = some c
      ∧ t.leaf.xdev = true ∧ s.remoteLine (4 * tag) = false
      ∧ d < 256 ∧ (s.context c).devset.getLsbD d = true ∧ d ≠ s.dev ∧ (s.remote d).reachable = true := by
  unfold State.discovered
  cases hl : s.lookup (keyAsid (4 * tag)) (keyVa (4 * tag)) with
  | error k => simp
  | ok t =>
    cases hc : s.ctxOfAsid (keyAsid (4 * tag)) with
    | none => simp
    | some c =>
      by_cases hx : t.leaf.xdev = true ∧ s.remoteLine (4 * tag) = false
      · simp [hx, mem_run, State.context, and_assoc]
      · have hno : ¬ (t.leaf.xdev && !s.remoteLine (4 * tag)) = true := by simpa using hx
        dsimp only
        rw [if_neg hno]
        refine ⟨fun h => (List.not_mem_nil h).elim, fun ⟨t', _, ht, _, hxdev, hhome, _⟩ => ?_⟩
        obtain rfl := Except.ok.inj ht
        exact (hx ⟨hxdev, hhome⟩).elim

/-- The first entry of a buffer whose acknowledgement flag is as asked. -/
theorem wbuf_find {before after : List (Nat × SectorData × Bool)} {k : Nat} {d : SectorData} {f : SectorData × Bool → Bool} {b : Bool}
    (hb : f (d, b) = true) (hbefore : ∀ e ∈ before, f e.2 = false) :
    (before ++ (k, d, b) :: after).find? (fun e => f e.2) = some (k, d, b) := by
  have hnone : before.find? (fun e => f e.2) = none := List.find?_eq_none.2 fun e he => by simp [hbefore e he]
  rw [List.find?_append, hnone, Option.none_or]
  exact List.find?_cons_of_pos hb

theorem exec_writeBack {s : State} {cache k : Nat} {d : SectorData} {before after : List (Nat × SectorData × Bool)}
    (h : (s.cache (s.localCache cache)).wbuf = before ++ (k, d, false) :: after) (hbefore : ∀ e ∈ before, e.2.2 = true) :
    exec (.writeBack cache) s = .next (s.supply (s.localCache cache) k d) := by
  have hfind : (s.cache (s.localCache cache)).wbuf.find? (fun e => !e.2.2) = some (k, d, false) := by
    rw [h]
    exact wbuf_find (f := fun e => !e.2) rfl fun e he => by simp [hbefore e he]
  change execWriteBack cache s = _
  rw [execWriteBack, hfind]

theorem exec_writeBackAck {s : State} {cache k : Nat} {d : SectorData} {before after : List (Nat × SectorData × Bool)}
    (h : (s.cache (s.localCache cache)).wbuf = before ++ (k, d, true) :: after) (hbefore : ∀ e ∈ before, e.2.2 = false) :
    exec (.writeBackAck cache) s = .next (s.setCache (s.localCache cache)
      { s.cache (s.localCache cache) with wbuf := SMap.erase (s.cache (s.localCache cache)).wbuf k }) := by
  have hfind : (s.cache (s.localCache cache)).wbuf.find? (fun e => e.2.2) = some (k, d, true) := by
    rw [h]
    exact wbuf_find (f := fun e => e.2) rfl hbefore
  change execWriteBackAck cache s = _
  simp only [execWriteBackAck, hfind]

/-! ### The collapse tree -/

section Collapse
variable {s : State} {cache asid va : Nat} {c : Collapse}

theorem exec_recallForCollapse_abroad (h : s.fromAbroad (s.localCache cache) (s.tagFor asid va / 32) = true) :
    exec (.recallForCollapse cache asid va) s = .next (s.collapseNow (s.tagFor asid va / 32)).endAll := if_pos h

/-- A recall in a collapse of this device, by what the cache holds. -/
theorem exec_recallForCollapse (hc : s.collapseRec (s.tagFor asid va / 32) = some c)
    (hhere : s.fromAbroad (s.localCache cache) (s.tagFor asid va / 32) = false) :
    let key := s.tagFor asid va / 32
    let n := s.localCache cache
    let c1 := { c with asked := c.asked.filter (· != n) }
    exec (.recallForCollapse cache asid va) s = if c.asked.contains n then (match (s.cache n).sector key with
        | some (.u _, d) =>
          .next ((s.setCache n ((s.cache n).drop key)).setCollapse key (some { c1 with copies := SMap.insert c.copies n d }))
        | _ => .next (s.setCollapse key (some c1)))
      else .next s := by
  intro key n c1
  change execRecallForCollapse cache asid va s = _
  unfold execRecallForCollapse State.sectorOf
  extract_lets
  rw [if_neg (ne_true_of_eq_false hhere), hc]
  change (if !c.asked.contains n then _ else _) = _
  cases c.asked.contains n <;> rfl

/-- Is a copy of a lower cache number in the die still to come? -/
def Collapse.lowerToCome (c : Collapse) (n : Nat) : Bool :=
  let lower := fun m : Nat => m / 128 == n / 128 && decide (m < n)
  c.asked.any lower || (SMap.keys c.copies).any lower

theorem Collapse.lowerToCome_iff (c : Collapse) (n : Nat) :
    c.lowerToCome n = true ↔ ∃ m, (m ∈ c.asked ∨ m ∈ SMap.keys c.copies) ∧ m / 128 = n / 128 ∧ m < n := by
  simp only [Collapse.lowerToCome, Bool.or_eq_true, List.any_eq_true, Bool.and_eq_true, beq_iff_eq, decide_eq_true_eq,
    or_and_right, exists_or]

theorem exec_uCopyArrival (hc : s.collapseRec (s.tagFor asid va / 32) = some c) :
    let key := s.tagFor asid va / 32
    let n := s.localCache cache
    exec (.uCopyArrival cache asid va) s = if n < 256 ∧ SMap.has c.copies n = true ∧ ¬ c.lowerToCome n = true
      then .next (s.foldUpTo key c (n / 128) n) else .next s := by
  intro key n
  change execUCopyArrival cache asid va s = _
  unfold execUCopyArrival State.sectorOf
  extract_lets
  rw [hc]
  refine if_congr ?_ rfl rfl
  simp only [Collapse.lowerToCome, Bool.or_eq_true, Bool.and_eq_true, Bool.not_eq_true', decide_eq_true_eq, not_or,
    Bool.not_eq_true, and_assoc]
  rfl

theorem exec_partialArrival (die : Nat) (hc : s.collapseRec (s.tagFor asid va / 32) = some c) :
    exec (.partialArrival die asid va) s = if c.asked = [] ∧ ∀ e ∈ c.copies, 512 ≤ e.1
      then .next (s.collapseNow (s.tagFor asid va / 32)).endAll else .next s := by
  change execPartialArrival die asid va s = _
  unfold execPartialArrival State.sectorOf
  simp only [hc, Bool.and_eq_true, List.isEmpty_iff, List.all_eq_true, decide_eq_true_eq]
  split <;> rfl

/-- The line that leaves a set of an L1. -/
theorem State.victim_eq (s : State) (n set tag : Nat) :
    let same := (s.cache n).lines.filter fun l => l.tag % s.setsOf n == set
    s.victim n set = some tag ↔ 8 ≤ same.length ∧ same.getLast?.map Line.tag = some tag := by
  intro same
  unfold State.victim
  extract_lets
  split
  · simp
    omega
  · simp
    omega

theorem exec_uCopyEviction {op : UOp} {d : SectorData}
    (h : (s.cache (s.localCache cache)).sector (s.tagFor asid va / 32) = some (.u op, d)) :
    let key := s.tagFor asid va / 32
    let n := s.localCache cache
    let set := key / 4 % s.setsOf n
    exec (.uCopyEviction cache asid va) s = if n < 256 ∧ s.victim n set = some (key / 4) ∧ s.fillsSet n set = true
      then .next (s.evictU n key op d) else .next s := by
  intro key n set
  change execUCopyEviction cache asid va s = _
  unfold execUCopyEviction State.sectorOf
  simp only [h, Bool.and_eq_true, decide_eq_true_eq, beq_iff_eq, and_assoc]
  split <;> rfl

end Collapse

theorem writeBackAndCollapseSteps : Claims.WriteBackAndCollapseSteps := by
  unfold Claims.WriteBackAndCollapseSteps
  intro cache asid va s key n
  refine ⟨rfl, s.mem_discovered (key / 4), fun _ _ _ _ h hbefore => exec_writeBack h hbefore,
    fun _ _ _ _ h hbefore => exec_writeBackAck h hbefore, exec_recallForCollapse_abroad, fun c hc hhere => ?collapse, fun op d h => ?eviction⟩
  case collapse =>
    intro c1
    have hrecall := exec_recallForCollapse hc hhere
    refine ⟨fun op d hasked hheld => ?sends, fun hasked hheld => ?none, fun hasked => ?notAsked, ?arrival, fun die => ?partials⟩
    case sends =>
      refine (hrecall.trans (if_pos (List.contains_iff_mem.mpr hasked))).trans ?_
      rw [show (s.cache (s.localCache cache)).sector (s.tagFor asid va / 32) = some (.u op, d) from hheld]
    case none =>
      refine (hrecall.trans (if_pos (List.contains_iff_mem.mpr hasked))).trans ?_
      rw [show (s.cache (s.localCache cache)).sector (s.tagFor asid va / 32) = none from hheld]
    case notAsked => rw [hrecall, if_neg (mt List.contains_iff_mem.mp hasked)]
    case arrival =>
      intro lower
      have hlower : c.lowerToCome n = true ↔ lower := c.lowerToCome_iff n
      rw [exec_uCopyArrival hc]
      refine ⟨fun hn hhas hno => if_pos ⟨hn, hhas, mt hlower.mp hno⟩, fun h => if_neg ?_⟩
      rintro ⟨hn, hhas, hno⟩
      rcases h with hbig | hnone | hlow
      · omega
      · exact Bool.false_ne_true (hnone.symm.trans hhas)
      · exact hno (hlower.mpr hlow)
    case partials => exact ⟨fun h => (exec_partialArrival die hc).trans (if_pos h), fun h => (exec_partialArrival die hc).trans (if_neg h)⟩
  case eviction =>
    intro set same leaves
    have hleaves : (s.victim n set = some (key / 4) ∧ s.fillsSet n set = true) ↔ leaves :=
      (and_congr_left' (s.victim_eq n set (key / 4))).trans and_assoc
    rw [exec_uCopyEviction h]
    refine ⟨fun hl hn => if_pos ⟨hn, hleaves.mpr hl⟩, fun h => if_neg ?_⟩
    rintro ⟨hn, hl⟩
    rcases h with hno | hbig
    · exact hno (hleaves.mp hl)
    · omega

end Sys2Proof.Machine

open Sys2Proof Sys2Proof.Machine in
/-- Settles O49: each event acts as the first copy, buffered sector or record that meets its condition says; a collapse writes the fold of
the partials in the order of the dies, and clears the sector in every cache and at both partial holders. -/
theorem collapseRules : Obligations.CollapseRules := ⟨writeBackAndCollapseSteps, collapseFolds⟩

/-! ## Taking a trap (07 R240, R246; 10 R309 to R311, Tables 10-4 and 10-5) -/

namespace Sys2Proof

/-- A lookup in a map whose values were changed entry by entry. -/
theorem SMap.find_map_entries {α β : Type} {f : Nat × α → Nat × β} (hf : ∀ e, (f e).1 = e.1) (m : SMap α) (j : Nat) :
    SMap.find (m.map f) j = (SMap.find m j).map fun x => (f (j, x)).2 := by
  induction m with
  | nil => rfl
  | cons e m ih =>
    obtain ⟨k, v⟩ := e
    have hk : f (k, v) = (k, (f (k, v)).2) := Prod.ext (hf (k, v)) rfl
    rw [List.map_cons, hk]
    by_cases hj : j = k
    · simp [SMap.find, hj]
    · simp [SMap.find, hj, ih]

/-- Digits below a place are those of the part below it. -/
theorem digits_below {b w o m : Nat} (hb : 0 < b) (a r : Nat) (h : o + m ≤ w) :
    (a + r * b ^ w) / b ^ o % b ^ m = a / b ^ o % b ^ m := by
  obtain ⟨k, rfl⟩ := Nat.exists_eq_add_of_le h
  have hsplit : r * b ^ (o + m + k) = b ^ o * (b ^ m * (b ^ k * r)) := by rw [Nat.pow_add, Nat.pow_add]; ring
  rw [hsplit, Nat.add_mul_div_left _ _ (Nat.pow_pos hb), Nat.add_mul_mod_self_left]

/-- Digits from a place on are those of the part from it on. -/
theorem digits_from {b w a : Nat} (ha : a < b ^ w) (r o : Nat) : (a + r * b ^ w) / b ^ (w + o) = r / b ^ o := by
  rw [Nat.pow_add, ← Nat.div_div_eq_div_mul, Nat.add_mul_div_right _ _ (Nat.zero_lt_of_lt ha), Nat.div_eq_of_lt ha, Nat.zero_add]

namespace Machine

/-! ### The bytes of a trap record -/

/-- The number that the fields of a layout add up to. -/
def layoutSum (fs : List (Nat × Nat)) : Nat := (fs.map fun f => f.2 * 256 ^ f.1).sum

theorem layout_eq (n : Nat) (fs : List (Nat × Nat)) : layout n fs = toBytes n (layoutSum fs) := by
  rw [layout, layoutSum, List.sum_eq_foldl, List.foldl_map]

theorem layoutSum_append (fs ks : List (Nat × Nat)) : layoutSum (fs ++ ks) = layoutSum fs + layoutSum ks := by
  simp [layoutSum]

/-- The number whose bytes a path record is (10 Table 10-5). -/
def pathNumber : Option Path → Nat
  | none => 0
  | some p => p.mask.toNat + p.depth.toNat * 256 ^ 4 + p.gk * 256 ^ 5 + 256 ^ 6 + p.pc.toNat * 256 ^ 8 + joinCode p.jp * 256 ^ 16
      + (if p.gk = 0 then 0 else p.gg.toNat) * 256 ^ 24

theorem pathFields_some (off : Nat) (p : Path) : pathFields off (some p)
    = [(off, p.mask.toNat), (off + 4, p.depth.toNat), (off + 5, p.gk), (off + 6, 1), (off + 8, p.pc.toNat), (off + 16, joinCode p.jp),
      (off + 24, if p.gk = 0 then 0 else p.gg.toNat)] := rfl

theorem layoutSum_pathFields (off : Nat) (p : Option Path) : layoutSum (pathFields off p) = pathNumber p * 256 ^ off := by
  cases p with
  | none => simp [layoutSum, pathFields, pathNumber]
  | some p =>
    simp only [layoutSum, pathFields_some, pathNumber, List.map_cons, List.map_nil, List.sum_cons, List.sum_nil]
    ring

/-- The fields of a path record do not overlap: each reads back from the record's number. -/
theorem pathNumber_fields {p : Path} (hgk : p.gk < 256) :
    pathNumber (some p) < 256 ^ 32 ∧ pathNumber (some p) / 256 ^ 0 % 256 ^ 4 = p.mask.toNat
    ∧ pathNumber (some p) / 256 ^ 4 % 256 ^ 1 = p.depth.toNat ∧ pathNumber (some p) / 256 ^ 5 % 256 ^ 1 = p.gk
    ∧ pathNumber (some p) / 256 ^ 6 % 256 ^ 1 = 1 ∧ pathNumber (some p) / 256 ^ 8 % 256 ^ 8 = p.pc.toNat
    ∧ pathNumber (some p) / 256 ^ 16 % 256 ^ 8 = joinCode p.jp
    ∧ pathNumber (some p) / 256 ^ 24 % 256 ^ 4 = if p.gk = 0 then 0 else p.gg.toNat := by
  have hmask := p.mask.isLt
  have hdepth := p.depth.isLt
  have hpc := p.pc.isLt
  have hjp := joinCode_lt p.jp
  have hgg : (if p.gk = 0 then 0 else p.gg.toNat) < 2 ^ 32 := by
    split
    · decide
    · exact p.gg.isLt
  simp only [pathNumber]
  generalize (if p.gk = 0 then 0 else p.gg.toNat) = gg at hgg ⊢
  refine ⟨?_, ?_, ?_, ?_, ?_, ?_, ?_, ?_⟩ <;> omega

theorem pathNumber_lt {p : Option Path} (h : ∀ q, p = some q → q.gk < 256) : pathNumber p < 256 ^ 32 := by
  cases p with
  | none => decide
  | some q => exact (pathNumber_fields (h q rfl)).1

/-- A path as its record gives it back: ready, without a replay mask, and without lanes of a guard that is over (log 78). -/
def Path.recorded (p : Path) : Path := { p with gg := if p.gk = 0 then 0 else p.gg, replay := none, wait := .ready }

/-- A path reads back from bytes that hold its record's number. -/
theorem pathOf_of_number {bs : List Byte} {off : Nat} {p : Option Path}
    (h : ∀ o m, o + m ≤ 32 → fieldAt bs (off + o) m = pathNumber p / 256 ^ o % 256 ^ m)
    (hp : ∀ q, p = some q → q.gk < 256 ∧ q.jp ≠ some 0x00FFFFFFFFFFFFFF) : pathOf bs off = p.map Path.recorded := by
  cases p with
  | none =>
    have hvalid : fieldAt bs (off + 6) 1 = 0 := h 6 1 (by decide)
    simp only [pathOf, hvalid, if_true, Option.map_none]
  | some q =>
    obtain ⟨hgk, hjp⟩ := hp q rfl
    obtain ⟨-, hmask, hdepth, hguard, hvalid, hpc, hcode, hgg⟩ := pathNumber_fields hgk
    have h0 := h 0 4 (by decide)
    rw [Nat.add_zero] at h0
    have hlanes : BitVec.ofNat 32 (if q.gk = 0 then 0 else q.gg.toNat) = if q.gk = 0 then 0 else q.gg := by split <;> simp
    simp only [pathOf, h0, h 4 1 (by decide), h 5 1 (by decide), h 6 1 (by decide), h 8 8 (by decide), h 16 8 (by decide),
      h 24 4 (by decide), hmask, hdepth, hguard, hvalid, hpc, hcode, hgg, hlanes, joinOf_joinCode hjp, BitVec.ofNat_toNat,
      BitVec.setWidth_eq, Nat.one_ne_zero, if_false, Option.map_some, Path.recorded]

/-- FLAGS of a trap record (10 Table 10-4). -/
def Trap.flagsNumber (t : Trap) (ps : PSlot) (split : Bool) : Nat :=
  (if t.precise then 1 else 0) + (if split then 2 else 0) + (if ps = .b then 4 else 0) + (if t.chain then 8 else 0)

/-- The number whose bytes the first 32 bytes of a trap record are: everything before the paths. -/
def Trap.headNumber (t : Trap) (g : Group) (ps : PSlot) (split : Bool) (pc : DWord) : Nat :=
  t.cause + t.detail * 256 ^ 1 + t.flagsNumber ps split * 256 ^ 2 + t.pos * 256 ^ 3
    + (if resumesNext t.cause then 0 else t.lanes.toNat) * 256 ^ 4 + pc.toNat * 256 ^ 8 + t.va * 256 ^ 16 + t.info.toNat * 256 ^ 24
    + g.gstat.toNat * 256 ^ 28

/-- The number of EX and DSP, which follow the paths. -/
def Group.tailNumber (g : Group) : Nat := g.ex.toNat + g.dsp * 256 ^ 4

/-- The sum behind the fields of a trap record before and after its paths. The base is a variable, so that checking a proof never
computes its powers. -/
theorem sum_headAndTail (base cause detail flags pos lanes pc va info gstat ex dsp : Nat) :
    (List.map (fun f => f.2 * base ^ f.1) [(0, cause), (1, detail), (2, flags), (3, pos), (4, lanes), (8, pc), (16, va), (24, info),
        (28, gstat), (96, ex), (100, dsp)]).sum
      = cause + detail * base ^ 1 + flags * base ^ 2 + pos * base ^ 3 + lanes * base ^ 4 + pc * base ^ 8 + va * base ^ 16
        + info * base ^ 24 + gstat * base ^ 28 + (ex + dsp * base ^ 4) * base ^ 96 := by
  simp only [List.map_cons, List.map_nil, List.sum_cons, List.sum_nil]
  ring

/-- Four parts at every 32nd place, nested. -/
theorem four_parts (base a b c d : Nat) : a + d * base ^ 96 + b * base ^ 32 + c * base ^ 64
    = a + (b + (c + d * base ^ 32) * base ^ 32) * base ^ 32 := by ring

/-- A trap record is four numbers of 32 bytes: its head, the two paths, its tail. -/
theorem Trap.record_eq {t : Trap} {g : Group} {ps : PSlot} {p : Path} (hp : g.path ps = some p) (hpc : t.pc = none) (split : Bool) :
    t.record g ps split = toBytes 256 (t.headNumber g ps split p.pc
      + (pathNumber g.slotA + (pathNumber g.slotB + g.tailNumber * 256 ^ 32) * 256 ^ 32) * 256 ^ 32) := by
  simp only [Trap.record, hpc, hp]
  rw [layout_eq, layoutSum_append, layoutSum_append, layoutSum_pathFields, layoutSum_pathFields]
  refine congrArg (toBytes 256) (Eq.trans ?_ (four_parts 256 _ _ _ _))
  exact congrArg (fun n => n + pathNumber g.slotA * 256 ^ 32 + pathNumber g.slotB * 256 ^ 64) (sum_headAndTail 256 ..)

/-- Fields of four numbers of 32 bytes each read back from the bytes of all four. -/
theorem fieldAt_four {a b c : Nat} (ha : a < 256 ^ 32) (hb : b < 256 ^ 32) (hc : c < 256 ^ 32) (d : Nat) :
    let bs := toBytes 256 (a + (b + (c + d * 256 ^ 32) * 256 ^ 32) * 256 ^ 32)
    (∀ o m, o + m ≤ 32 → fieldAt bs o m = a / 256 ^ o % 256 ^ m) ∧ (∀ o m, o + m ≤ 32 → fieldAt bs (32 + o) m = b / 256 ^ o % 256 ^ m)
    ∧ (∀ o m, o + m ≤ 32 → fieldAt bs (64 + o) m = c / 256 ^ o % 256 ^ m)
    ∧ ∀ o m, o + m ≤ 32 → fieldAt bs (96 + o) m = d / 256 ^ o % 256 ^ m := by
  refine ⟨fun o m h => ?_, fun o m h => ?_, fun o m h => ?_, fun o m h => ?_⟩
  · rw [fieldAt_toBytes (by omega), digits_below (by decide) _ _ h]
  · rw [fieldAt_toBytes (by omega), digits_from ha, digits_below (by decide) _ _ h]
  · rw [fieldAt_toBytes (by omega), show 64 + o = 32 + (32 + o) by omega, digits_from ha, digits_from hb,
      digits_below (by decide) _ _ h]
  · rw [fieldAt_toBytes (by omega), show 96 + o = 32 + (32 + (32 + o)) by omega, digits_from ha, digits_from hb, digits_from hc]

theorem Trap.flagsNumber_lt (t : Trap) (ps : PSlot) (split : Bool) : t.flagsNumber ps split < 16 := by
  unfold Trap.flagsNumber
  split_ifs <;> decide

/-- The fields of the head do not overlap: each reads back from its number. -/
theorem Trap.headNumber_fields {t : Trap} (g : Group) (ps : PSlot) (split : Bool) (pc : DWord) (hcause : t.cause < 256)
    (hdetail : t.detail < 256) (hpos : t.pos < 16) (hva : t.va < 2 ^ 64) :
    let n := t.headNumber g ps split pc
    n < 256 ^ 32 ∧ n / 256 ^ 0 % 256 ^ 1 = t.cause ∧ n / 256 ^ 1 % 256 ^ 1 = t.detail ∧ n / 256 ^ 3 % 256 ^ 1 = t.pos
    ∧ n / 256 ^ 2 % 256 ^ 1 = t.flagsNumber ps split ∧ n / 256 ^ 4 % 256 ^ 4 = (if resumesNext t.cause then 0 else t.lanes.toNat)
    ∧ n / 256 ^ 8 % 256 ^ 8 = pc.toNat ∧ n / 256 ^ 16 % 256 ^ 8 = t.va ∧ n / 256 ^ 24 % 256 ^ 4 = t.info.toNat
    ∧ n / 256 ^ 28 % 256 ^ 4 = g.gstat.toNat := by
  have hflags := t.flagsNumber_lt ps split
  have hlanes : (if resumesNext t.cause then 0 else t.lanes.toNat) < 2 ^ 32 := by
    split
    · decide
    · exact t.lanes.isLt
  have hpc := pc.isLt
  have hinfo := t.info.isLt
  have hgstat := g.gstat.isLt
  unfold Trap.headNumber
  generalize (if resumesNext t.cause then 0 else t.lanes.toNat) = lanes at hlanes ⊢
  refine ⟨?_, ?_, ?_, ?_, ?_, ?_, ?_, ?_, ?_, ?_⟩ <;> omega

theorem Group.tailNumber_fields {g : Group} (hdsp : g.dsp < 256) :
    g.tailNumber / 256 ^ 0 % 256 ^ 4 = g.ex.toNat ∧ g.tailNumber / 256 ^ 4 % 256 ^ 1 = g.dsp := by
  have hex := g.ex.isLt
  unfold Group.tailNumber
  exact ⟨by omega, by omega⟩

/-! ### What a trap does to its group and its context -/

section Raise
variable {s t : State} {key : Nat} {ps : PSlot} {tr : Trap} {g : Group} (hg : s.group key = some g) (hland : s.landAll key = s)
include hg hland

/-- A trapped group: it waits for service, its chain and pending access are over, its registers and paths as they were. -/
def Group.trappedBy (g : Group) (ps : PSlot) (tr : Trap) : Group :=
  { g with status := .trapped, svcPend := true, cause := tr.cause, trapSlot := ps, pending := none, chain := none, fuse := none,
           stop := none, stepDue := g.stepDue.filter fun e => g.heldIn e.1 }

/-- A trap at U writes its record and queues the group for service (10 R310; 07 R240). -/
theorem State.raiseTrap_user (hpriv : g.priv = .user) (hstep : tr.cause ≠ cStep)
    (hstore : s.storeVirt (key / 128) (s.asidOf g) (s.recordAddr g.ctx (key / 128) (key % 128)) (tr.record g ps g.split.isSome) = some t) :
    s.raiseTrap key ps tr = (t.setGroup key (g.trappedBy ps tr)).queueService key := by
  have hu : g.priv ≠ .supervisor := by rw [hpriv]; decide
  simp only [State.raiseTrap, hland, hg, if_neg hu, hstore, if_neg hstep, Group.trappedBy]

/-- A trap at S halts the context (07 R246). -/
theorem State.raiseTrap_supervisor (hpriv : g.priv = .supervisor) : s.raiseTrap key ps tr = s.haltContext g.ctx (key / 128) tr.cause := by
  simp only [State.raiseTrap, hland, hg, if_pos hpriv]

end Raise

/-- Halting stops a running context. -/
theorem State.context_haltContext {s : State} {ctx : Nat} (h : (s.context ctx).state = 1) (core cause : Nat) :
    (s.haltContext ctx core cause).context ctx = { s.context ctx with state := 2 } := by
  simp only [State.haltContext, h, if_true]
  exact SMap.getD_insert _ _ _ _ _ |>.trans (if_pos rfl)

theorem State.groups_haltContext (s : State) (ctx core cause : Nat) :
    (s.haltContext ctx core cause).groups = s.groups.map fun e =>
      if e.2.ctx = ctx then (e.1, { e.2 with freeze := { e.2.freeze with halt := true } }) else e := by
  simp only [State.haltContext]
  split <;> rfl

/-- Halting freezes every group of the context. -/
theorem State.halt_of_haltContext {s : State} {ctx core cause k : Nat} {h : Group} (hk : (s.haltContext ctx core cause).group k = some h)
    (hctx : h.ctx = ctx) : h.freeze.halt = true := by
  rw [State.group, State.groups_haltContext, SMap.find_map_entries (fun e => by split <;> rfl)] at hk
  obtain ⟨x, -, rfl⟩ := Option.map_eq_some_iff.mp hk
  by_cases hx : x.ctx = ctx
  · simp only [hx, if_true]
  · simp only [hx, if_false] at hctx

/-- Halting changes no memory, cache or core. -/
theorem State.haltContext_frame (s : State) (ctx core cause : Nat) :
    (s.haltContext ctx core cause).mem = s.mem ∧ (s.haltContext ctx core cause).caches = s.caches
    ∧ (s.haltContext ctx core cause).cores = s.cores := by
  simp only [State.haltContext]
  split <;> exact ⟨rfl, rfl, rfl⟩

theorem trapRecordAndService : Claims.TrapRecordAndService := by
  refine ⟨fun s t key ps tr g hg hland hpriv hcause hstore => ?raise, fun s key ps tr g hg => State.trapIssue_eq hg ps tr,
    fun tr g ps split p hp hpc hcause hdetail hpos hva hdsp hpaths => ?record⟩
  case raise =>
    rw [State.raiseTrap_user hg hland hpriv hcause hstore]
    refine ⟨⟨g.trappedBy ps tr, (State.group_setGroup t key key _).trans (if_pos rfl), ?_⟩, ?_, rfl, rfl⟩
    · exact ⟨rfl, rfl, rfl, rfl, rfl, rfl, rfl, rfl, rfl, rfl⟩
    · simp only [State.queueService, State.core_setGroup]
      exact congrArg Core.trapq ((SMap.getD_insert _ _ _ _ _).trans (if_pos rfl))
  case record =>
    have hA : ∀ q, g.slotA = some q → q.gk < 256 ∧ q.jp ≠ some 0x00FFFFFFFFFFFFFF := fun q hq => hpaths q (.inl hq)
    have hB : ∀ q, g.slotB = some q → q.gk < 256 ∧ q.jp ≠ some 0x00FFFFFFFFFFFFFF := fun q hq => hpaths q (.inr hq)
    obtain ⟨hhead, hc, hd, hps, hf, hl, hpcs, hv, hi, hgs⟩ := tr.headNumber_fields g ps split p.pc hcause hdetail hpos hva
    obtain ⟨hex, hds⟩ := Group.tailNumber_fields hdsp
    obtain ⟨hhd, hpathA, hpathB, htail⟩ := fieldAt_four hhead (pathNumber_lt fun q hq => (hA q hq).1)
      (pathNumber_lt fun q hq => (hB q hq).1) g.tailNumber
    intro r
    have hr : r = _ := Trap.record_eq hp hpc split
    rw [hr]
    exact ⟨length_toBytes _ _, (hhd 0 1 (by decide)).trans hc, (hhd 1 1 (by decide)).trans hd, (hhd 3 1 (by decide)).trans hps,
      (hhd 2 1 (by decide)).trans hf, (hhd 4 4 (by decide)).trans hl, (hhd 8 8 (by decide)).trans hpcs,
      (hhd 16 8 (by decide)).trans hv, (hhd 24 4 (by decide)).trans hi, (hhd 28 4 (by decide)).trans hgs,
      (htail 0 4 (by decide)).trans hex, (htail 4 1 (by decide)).trans hds,
      pathOf_of_number hpathA hA, pathOf_of_number hpathB hB⟩

theorem supervisorTrapHalts : Claims.SupervisorTrapHalts := by
  intro s key ps tr g hg hland hpriv t
  have ht : t = s.haltContext g.ctx (key / 128) tr.cause := State.raiseTrap_supervisor hg hland hpriv
  rw [ht]
  refine ⟨fun h => ?_, fun k h => State.halt_of_haltContext, State.haltContext_frame s g.ctx (key / 128) tr.cause⟩
  rw [State.context_haltContext h]

end Machine
end Sys2Proof

open Sys2Proof Sys2Proof.Machine in
/-- Settles O29: a trap at U takes the one branch that writes its record; the record is four numbers of 32 bytes whose fields do not
overlap; a trap at S halts the context. -/
theorem trapEntry : Obligations.TrapEntry := ⟨trapRecordAndService, supervisorTrapHalts⟩

/-! ## Launches: intake, dependences, unblocking (07 R233, R234; 10 R298 to R301; 12 R357, R358) -/

namespace Sys2Proof.Machine

/-! ### The least of a list -/

section Least
variable {α : Type} {f : α → Nat}

theorem leastBy_mem {l : List α} {x : α} (h : leastBy f l = some x) : x ∈ l := by
  induction l with
  | nil => cases h
  | cons y l ih =>
    cases hrest : leastBy f l with
    | none =>
      simp only [leastBy, hrest, Option.some.injEq] at h
      exact h ▸ List.mem_cons_self
    | some z =>
      by_cases hlt : f z < f y
      · simp only [leastBy, hrest, hlt, if_true] at h
        exact List.mem_cons_of_mem _ (ih (hrest.trans h))
      · simp only [leastBy, hrest, hlt, if_false, Option.some.injEq] at h
        exact h ▸ List.mem_cons_self

/-- An element below all before it, and not above any after it, is the least one, and the first of those. -/
theorem leastBy_first {before after : List α} {x : α} (hbefore : ∀ y ∈ before, f x < f y) (hafter : ∀ y ∈ after, f x ≤ f y) :
    leastBy f (before ++ x :: after) = some x := by
  induction before with
  | nil =>
    rw [List.nil_append, leastBy]
    cases hrest : leastBy f after with
    | none => rfl
    | some y => exact if_neg (Nat.not_lt.mpr (hafter y (leastBy_mem hrest)))
  | cons z before ih =>
    rw [List.cons_append, leastBy, ih fun y hy => hbefore y (List.mem_cons_of_mem _ hy)]
    exact if_pos (hbefore z List.mem_cons_self)

end Least

/-! ### Intake -/

section Intake
variable {ctx : Nat} {s : State}

theorem exec_launchIntake_closed (h : s.intakeOpen ctx = false) : exec (.launchIntake ctx) s = .next s :=
  if_pos (by rw [h]; rfl)

variable (hopen : s.intakeOpen ctx = true) {n : Nat}
include hopen

theorem exec_launchIntake_host {p q : Nat} (h : leastBy Prod.fst (s.heads ctx) = some (n, some (p, q))) :
    exec (.launchIntake ctx) s = .next (s.takeHost ctx p q) := by
  change execLaunchIntake ctx s = _
  simp only [execLaunchIntake, hopen, h, Bool.not_true, Bool.false_eq_true, if_false]

theorem exec_launchIntake_device (h : leastBy Prod.fst (s.heads ctx) = some (n, none)) :
    exec (.launchIntake ctx) s = .next (s.takeDevice ctx) := by
  change execLaunchIntake ctx s = _
  simp only [execLaunchIntake, hopen, h, Bool.not_true, Bool.false_eq_true, if_false]

end Intake

theorem State.takeHost_unreadable {s : State} {p q : Nat} (h : s.readEntry p ((s.port p).queue q) = none) (ctx : Nat) :
    s.takeHost ctx p q = s.setQueue p q (((s.port p).queue q).stop true) := by
  simp only [State.takeHost, h]

/-- The machine once a readable entry has left its host queue. -/
def State.pastEntry (s s1 : State) (p q : Nat) : State :=
  s1.setQueue p q { (s.port p).queue q with qhead := ((s.port p).queue q).qhead + 1, since := s.now }

/-- A readable entry is accepted, or answered with its code by a completion record (10 R299). -/
theorem State.takeHost_readable {s s1 : State} {p q : Nat} {bs : List Byte} (h : s.readEntry p ((s.port p).queue q) = some (s1, bs))
    (ctx : Nat) :
    let r := (s.pastEntry s1 p q).checkPacket ctx true (BitVec.ofNat 1024 (ofBytes bs))
    s.takeHost ctx p q
      = if r.2 = 0 then r.1.accept ctx (BitVec.ofNat 1024 (ofBytes bs)) (.host p q ((s.port p).queue q).qhead)
        else r.1.complete p q ((s.port p).queue q).qhead 0xFFFFFFFF r.2 := by
  simp only [State.takeHost, h]
  rfl

/-- The requests behind the head of a device queue, once the head has left: the next one is the head from then on. -/
def behindHead (rest : List DevPacket) (now : Nat) : List DevPacket :=
  match rest with
  | [] => []
  | e :: es => { e with since := now } :: es

/-- The machine with the flag of a launching group's team cleared, where the group is still there (10 R317). -/
def State.clearLauncher (s : State) (uid : Nat) : State :=
  match s.teamOf uid with
  | some t => s.clearRestart t
  | none => s

/-- The head of a device queue is accepted, or answered with its code to the launching group (07 R234; 10 R299). -/
theorem State.takeDevice_cons {s : State} {ctx : Nat} {d : DevPacket} {rest : List DevPacket} (h : (s.context ctx).devq = d :: rest) :
    let r := (s.setContext ctx { s.context ctx with devq := behindHead rest s.now }).checkPacket ctx false d.packet
    s.takeDevice ctx
      = if r.2 = 0 then ((r.1.accept ctx d.packet .device).answerScalar d.uid d.sd 0).clearLauncher d.uid
        else r.1.answerScalar d.uid d.sd (BitVec.ofNat 32 (0x100 + r.2)) := by
  simp only [State.takeDevice, h]
  rfl

theorem launchIntakeRule : Claims.LaunchIntakeRule := by
  intro ctx s n src before after hheads hbefore hafter accepted
  have hleast : leastBy Prod.fst (s.heads ctx) = some (n, src) := by
    rw [hheads]
    exact leastBy_first hbefore hafter
  refine ⟨exec_launchIntake_closed, fun hopen p q hsrc => ?host, fun hopen hsrc d rest hdevq => ?device⟩
  case host =>
    intro x
    have hexec := exec_launchIntake_host hopen (hleast.trans (by rw [hsrc]))
    refine ⟨fun hread => hexec.trans (congrArg _ (State.takeHost_unreadable hread ctx)), fun s1 bs hread => ?_⟩
    have htake := State.takeHost_readable hread ctx
    exact ⟨fun h => hexec.trans (congrArg _ (htake.trans (if_pos h))), fun h => hexec.trans (congrArg _ (htake.trans (if_neg h)))⟩
  case device =>
    intro behind r told
    have hexec := exec_launchIntake_device hopen (hleast.trans (by rw [hsrc]))
    have htake := State.takeDevice_cons hdevq
    exact ⟨fun h => hexec.trans (congrArg _ (htake.trans (if_pos h))), fun h => hexec.trans (congrArg _ (htake.trans (if_neg h)))⟩

/-! ### Dependences -/

/-- A launch may leave Blocked when it is eligible and conflicts with no launch of a smaller number (10 R301). -/
theorem Context.mayStart_iff (c : Context) (l : Launch) :
    c.mayStart l = true ↔ l.state = .blocked ∧ l.eligible = true
      ∧ ∀ e ∈ c.launches, smaller e.num l.num = true → conflicts e.packet l.packet = false := by
  simp [Context.mayStart, and_assoc]

theorem Context.launches_unblock (c : Context) (num now k : Nat) {l : Launch} (h : c.launches[k]? = some l) :
    (c.unblock num now).launches[k]?
      = some (if l.num == num && c.mayStart l then { l with state := .active, since := now } else l) := by
  simp only [Context.unblock, List.getElem?_map, h, Option.map_some]

theorem shares_iff (a b : Nat × Nat) : shares a b = true ↔ ∃ x, a.1 ≤ x ∧ x < a.2 ∧ b.1 ≤ x ∧ x < b.2 := by
  simp only [shares, Bool.and_eq_true, decide_eq_true_eq]
  constructor
  · rintro ⟨⟨⟨ha, hb⟩, hab⟩, hba⟩
    exact ⟨max a.1 b.1, by omega, by omega, by omega, by omega⟩
  · rintro ⟨x, h1, h2, h3, h4⟩
    omega

theorem conflicts_iff (e l : BitVec 1024) :
    conflicts e l = true ↔ ∃ i j x, 4 ≤ i ∧ i < 8 ∧ j < 8 ∧ (granules e i).1 ≤ x ∧ x < (granules e i).2
      ∧ (granules l j).1 ≤ x ∧ x < (granules l j).2 := by
  simp only [conflicts, List.any_eq_true, mem_run, shares_iff]
  constructor
  · rintro ⟨i, ⟨h4, h8⟩, j, ⟨-, hj⟩, x, hx⟩
    exact ⟨i, j, x, h4, h8, by omega, hx⟩
  · rintro ⟨i, j, x, h4, h8, hj, hx⟩
    exact ⟨i, ⟨h4, h8⟩, j, ⟨Nat.zero_le j, by omega⟩, x, hx⟩

theorem launchDependences : Claims.LaunchDependences := by
  refine ⟨fun _ _ _ => rfl, fun c num now k l hk => ?unblock, fun _ _ _ => rfl, fun a b => ?smaller, conflicts_iff⟩
  case unblock =>
    intro free
    have hfree : (l.num == num && c.mayStart l) = true ↔ free := by
      rw [Bool.and_eq_true, beq_iff_eq, c.mayStart_iff]
    rw [c.launches_unblock num now k hk]
    exact ⟨fun h => by rw [if_pos (hfree.mpr h)], fun h => by rw [if_neg (mt hfree.mp h)]⟩
  case smaller =>
    rw [smaller, Bool.and_eq_true, decide_eq_true_eq, decide_eq_true_eq]

end Sys2Proof.Machine

open Sys2Proof Sys2Proof.Machine in
/-- Settles O41: the head that reached its place first is taken as its queue says; a launch becomes active under the condition that
`Context.mayStart_iff` spells out, and granule intervals share a granule where the larger of their starts lies in both. -/
theorem launchRules : Obligations.LaunchRules := ⟨launchIntakeRule, launchDependences⟩

/-! ## A step at a path's turn (01 R24; 02 R55, R72; 04 R145; 10 R306, R308, R309) -/

namespace Sys2Proof.Machine

/-! ### The turn that an issue at the head of the agenda takes -/

theorem State.agenda_tick (s : State) : s.tick.agenda = s.agenda := by
  unfold State.tick
  split <;> rfl

theorem State.thermtrip_tick (s : State) : s.tick.thermtrip = s.thermtrip := by
  unfold State.tick
  split <;> rfl

theorem State.turn_issue {s : State} {q : IssuePoint} (htrip : s.thermtrip = false) (hpick : s.picks q = true) :
    s.turn (.issue q) = s.issueAt q := by
  simp only [State.turn, htrip, hpick, Bool.not_true, Bool.or_self, Bool.false_eq_true, if_false]

/-- An issue at the head of the agenda that its scheduler picks is taken once time has passed. -/
theorem step_issue {s : State} {q : IssuePoint} {rest : List Turn} (hagenda : s.agenda = .issue q :: rest) (htrip : s.thermtrip = false)
    (hpick : ({ s.tick.renew with agenda := rest } : State).picks q = true) :
    step s = ({ s.tick.renew with agenda := rest } : State).issueAt q := by
  have hhead : s.tick.renew.agenda = .issue q :: rest := s.agenda_tick.trans hagenda
  have hturn : step s = ({ s.tick.renew with agenda := rest } : State).turn (.issue q) := by
    simp only [step, State.oneTurn, hhead]
  exact hturn.trans (State.turn_issue (s.thermtrip_tick.trans htrip) hpick)

section Turn
variable {s : State} {q : IssuePoint} {g : Group} {p : Path} (hg : s.group q.key = some g) (htakes : g.takesTurn q.pslot = true)
  (hgoes : s.stopped g q.pslot = false) (hfirst : (s.atBoundary g).trapsFirst q.pslot = false)
  (hp : (s.atBoundary g).path q.pslot = some p) (hmay : (s.atBoundary g).mayIssue q.pslot = true)
include hg htakes hgoes hfirst hp hmay

/-- The next member of the chain or fused sequence in issue goes on without a fetch. -/
theorem State.issueAt_inHand {i : Instr} (hi : (s.atBoundary g).inHand = some i) :
    s.issueAt q = exec i (s.atPoint q ((s.atBoundary g).unstop q.pslot)) := by
  simp only [State.issueAt, hg, htakes, hgoes, hfirst, hp, hmay, hi, Bool.not_true, Bool.or_self, Bool.false_eq_true, if_false, if_true]

/-- A path with nothing in hand fetches at its PC. -/
theorem State.issueAt_fetch (hi : (s.atBoundary g).inHand = none) :
    s.issueAt q = (s.atPoint q ((s.atBoundary g).unstop q.pslot)).fetchRun ((s.atBoundary g).unstop q.pslot) p := by
  simp only [State.issueAt, hg, htakes, hgoes, hfirst, hp, hmay, hi, Bool.not_true, Bool.or_self, Bool.false_eq_true, if_false, if_true]

end Turn

theorem Group.takesTurn_iff (g : Group) (ps : PSlot) :
    g.takesTurn ps = true ↔ g.status = .running ∨ g.status = .translation ∧ g.finishes ps = true := by
  simp [Group.takesTurn]

/-- No trap comes before a path's issue where no machine check and no single-step trap is due. -/
theorem Group.trapsFirst_eq_false {g : Group} {ps : PSlot}
    (h : g.inIssue = false → g.finishes ps = false → g.mcheck = [] ∧ g.dueStep = none) : g.trapsFirst ps = false := by
  cases hissue : g.inIssue with
  | true => simp [Group.trapsFirst, hissue]
  | false =>
    cases hfin : g.finishes ps with
    | true => simp [Group.trapsFirst, hfin]
    | false =>
      obtain ⟨hchecks, hstep⟩ := h hissue hfin
      simp [Group.trapsFirst, hchecks, hstep]

/-! ### Fetching -/

theorem badPc_iff (pc : DWord) : badPc pc = true ↔ pc.toNat % 2 = 1 ∨ 2 ^ 56 ≤ pc.toNat := by
  rw [badPc, Bool.or_eq_true, beq_iff_eq, decide_eq_true_eq, vaBits]

theorem badPc_eq_false {pc : DWord} (heven : pc.toNat % 2 = 0) (hlow : pc.toNat < 2 ^ 56) : badPc pc = false := by
  rw [Bool.eq_false_iff, ne_eq, badPc_iff]
  omega

section Fetch
variable {s : State} {g : Group} {p : Path}

theorem State.fetchRun_bad (h : badPc p.pc = true) : s.fetchRun g p = .next (s.trapHere g { Trap.of cInstrAddr with va := p.pc.toNat }) :=
  if_pos h

variable (h : badPc p.pc = false)
include h

theorem State.fetchRun_decoded {i : Instr}
    (hcode : (s.fetchFill s.cur.core (s.asidOf g) p.pc.toNat).codeAt s.cur.core (s.asidOf g) p.pc.toNat = .ok (.ok i)) :
    s.fetchRun g p = exec i (s.fetchFill s.cur.core (s.asidOf g) p.pc.toNat) := by
  simp only [State.fetchRun, h, hcode, Bool.false_eq_true, if_false]

theorem State.fetchRun_fails {k : XKind}
    (hcode : (s.fetchFill s.cur.core (s.asidOf g) p.pc.toNat).codeAt s.cur.core (s.asidOf g) p.pc.toNat = .error k) :
    s.fetchRun g p = execFetchTrap (s.fetchFill s.cur.core (s.asidOf g) p.pc.toNat) := by
  simp only [State.fetchRun, h, hcode, Bool.false_eq_true, if_false]

theorem State.fetchRun_unassigned {w : BitVec 32}
    (hcode : (s.fetchFill s.cur.core (s.asidOf g) p.pc.toNat).codeAt s.cur.core (s.asidOf g) p.pc.toNat = .ok (.error (.unassigned w))) :
    s.fetchRun g p = execUnassignedEncoding w (s.fetchFill s.cur.core (s.asidOf g) p.pc.toNat) := by
  simp only [State.fetchRun, h, hcode, Bool.false_eq_true, if_false]

end Fetch

/-- Filling an instruction cache changes the cores alone. -/
theorem State.fetchFill_eq (s : State) (core asid va : Nat) : ∃ cores, s.fetchFill core asid va = { s with cores := cores } := by
  unfold State.fetchFill
  induction run 0 8 generalizing s with
  | nil => exact ⟨s.cores, rfl⟩
  | cons i l ih =>
    rw [List.foldl_cons]
    split
    · exact ih s
    · dsimp only
      split
      · exact ih s
      · obtain ⟨cores, hcores⟩ := ih (s.setCore core _)
        exact ⟨cores, hcores⟩

/-! ### The trap of a fetch -/

theorem Group.path_unstop (g : Group) (ps x : PSlot) : (g.unstop ps).path x = g.path x := by
  unfold Group.unstop
  split <;> rfl

theorem Group.mayIssue_unstop (g : Group) (ps x : PSlot) : (g.unstop ps).mayIssue x = g.mayIssue x := by
  unfold Group.unstop
  split <;> rfl

theorem Group.inIssue_unstop (g : Group) (ps : PSlot) : (g.unstop ps).inIssue = g.inIssue := by
  unfold Group.unstop
  split <;> rfl

theorem Group.status_unstop (g : Group) (ps : PSlot) : (g.unstop ps).status = g.status := by
  unfold Group.unstop
  split <;> rfl

theorem PathsOnly.status {g k : Group} (h : PathsOnly g k) : k.status = g.status := by rw [← h]

section Raised
variable {s : State} {g : Group} {p : Path} (hg : s.group s.cur.key = some g) (hp : g.path s.cur.pslot = some p) (hrun : g.status = .running)
  (hissue : g.inIssue = false) (hmay : g.mayIssue s.cur.pslot = true)
include hg hp hrun hissue hmay

theorem execFetchTrap_fetching {k : XKind} (hcode : s.codeAt s.cur.core (s.asidOf g) p.pc.toNat = .error k) :
    execFetchTrap s = .next (s.trapHere g { Trap.of cFetch with detail := k.code }) := by
  simp only [execFetchTrap, State.fetching_some hg hp hrun hissue hmay, hcode]

theorem execUnassignedEncoding_fetching {w : BitVec 32} (hcode : s.codeAt s.cur.core (s.asidOf g) p.pc.toNat = .ok (.error (.unassigned w))) :
    execUnassignedEncoding w s = .next (s.trapHere g (Trap.of cIllegal)) := by
  simp only [execUnassignedEncoding, State.fetching_some hg hp hrun hissue hmay, hcode, if_true]

end Raised

/-- A trap at the issue point is raised when what the group has issued allows it, and waits with its path until then. -/
theorem State.trapHere_cases (s : State) (g : Group) (t : Trap) :
    (s.trapReady g = true → s.trapHere g t = s.trapIssue s.cur.key s.cur.pslot t)
    ∧ (s.trapReady g = false → s.trapHere g t = s.setGroup s.cur.key (g.stopAt s.cur.pslot .operand)) :=
  ⟨fun h => if_pos h, fun h => if_neg (by rw [h]; exact Bool.false_ne_true)⟩

/-- A step that takes a trap at an issue point raises it, or lets it wait. -/
theorem raised_of_trapHere {s t : State} {q : IssuePoint} {g : Group} {tr : Trap} (hcur : t.cur = q)
    (h : step s = .next (t.trapHere g tr)) :
    (t.trapReady g = true → step s = .next (t.trapIssue q.key q.pslot tr))
    ∧ (t.trapReady g = false → step s = .next (t.setGroup q.key (g.stopAt q.pslot .operand))) := by
  subst hcur
  exact ⟨fun hr => h.trans (congrArg _ ((t.trapHere_cases g tr).1 hr)), fun hr => h.trans (congrArg _ ((t.trapHere_cases g tr).2 hr))⟩

theorem stepRunsDecoded : Claims.StepRunsDecoded := by
  intro s q rest g0 p i hagenda htrip s0 hpick hg hstatus hgoes g h s1 hfirst hp hmay
  have hstep : step s = s0.issueAt q := step_issue hagenda htrip hpick
  have htakes := (g0.takesTurn_iff q.pslot).mpr hstatus
  have hfirst' : g.trapsFirst q.pslot = false := Group.trapsFirst_eq_false hfirst
  refine ⟨fun hi => ?_, fun hi heven hlow hcode => ?_⟩
  · exact hstep.trans (State.issueAt_inHand hg htakes hgoes hfirst' hp hmay hi)
  · exact hstep.trans ((State.issueAt_fetch hg htakes hgoes hfirst' hp hmay hi).trans
      (State.fetchRun_decoded (badPc_eq_false heven hlow) hcode))

theorem Group.inHand_of_not_inIssue {g : Group} (h : g.inIssue = false) : g.inHand = none := by
  obtain ⟨hchain, hfuse⟩ : g.chain = none ∧ g.fuse = none := by simpa [Group.inIssue] using h
  simp only [Group.inHand, hchain, hfuse]

theorem fetchTraps : Claims.FetchTraps := by
  intro s q rest g0 p hagenda htrip s0 hpick hg hrun hgoes g h s1 hissue hfirst hp hmay s2 raised
  have hfetch : step s = s1.fetchRun h p := (step_issue hagenda htrip hpick).trans
    (State.issueAt_fetch hg ((g0.takesTurn_iff q.pslot).mpr (.inl hrun)) hgoes (Group.trapsFirst_eq_false fun _ => hfirst) hp hmay
      (Group.inHand_of_not_inIssue hissue))
  obtain ⟨cores, hfill⟩ : ∃ cores, s2 = { s1 with cores := cores } := s1.fetchFill_eq q.core (s1.asidOf h) p.pc.toNat
  have hcur : s2.cur = q := by rw [hfill]
  have hasid : s2.asidOf h = s1.asidOf h := by rw [hfill]; rfl
  have hg2 : s2.group s2.cur.key = some h := by
    rw [hfill]
    exact (State.group_setGroup s0 q.key q.key h).trans (if_pos rfl)
  have hp2 : h.path s2.cur.pslot = some p := by rw [hcur, Group.path_unstop, hp]
  have hrun2 : h.status = .running := by rw [Group.status_unstop, (s0.atBoundary_paths g0).status, hrun]
  have hissue2 : h.inIssue = false := by rw [Group.inIssue_unstop, hissue]
  have hmay2 : h.mayIssue s2.cur.pslot = true := by rw [hcur, Group.mayIssue_unstop, hmay]
  refine ⟨fun hbad => ?_, fun heven hlow => ⟨fun k hcode => ?_, fun w hcode => ?_⟩⟩
  · exact raised_of_trapHere rfl (hfetch.trans (State.fetchRun_bad ((badPc_iff p.pc).mpr hbad)))
  · have hcode2 : s2.codeAt s2.cur.core (s2.asidOf h) p.pc.toNat = .error k := by rw [hcur, hasid, hcode]
    exact raised_of_trapHere hcur (hfetch.trans ((State.fetchRun_fails (badPc_eq_false heven hlow) hcode).trans
      (execFetchTrap_fetching hg2 hp2 hrun2 hissue2 hmay2 hcode2)))
  · have hcode2 : s2.codeAt s2.cur.core (s2.asidOf h) p.pc.toNat = .ok (.error (.unassigned w)) := by rw [hcur, hasid, hcode]
    exact raised_of_trapHere hcur (hfetch.trans ((State.fetchRun_unassigned (badPc_eq_false heven hlow) hcode).trans
      (execUnassignedEncoding_fetching hg2 hp2 hrun2 hissue2 hmay2 hcode2)))

end Sys2Proof.Machine

open Sys2Proof Sys2Proof.Machine in
/-- Settles O27: the head of the agenda is taken as an issue of its path, which goes on with what it has in hand or fetches at its PC;
a fetch that fails raises its trap, or lets it wait. -/
theorem stepRunsDecodedInstruction : Obligations.StepRunsDecodedInstruction := ⟨stepRunsDecoded, fetchTraps⟩

/-! ## Placement, reservation, retirement (01 R17; 09 R271; 10 R302 to R304, R316; 12 R358) -/

namespace Sys2Proof.Machine

/-! ### The first in rank -/

theorem rankBefore_asymm {a b : List Nat} (h : rankBefore a b = true) : rankBefore b a = false := by
  induction a generalizing b with
  | nil => cases h
  | cons x r ih =>
    cases b with
    | nil => cases h
    | cons y q =>
      by_cases hxy : x = y
      · simp only [rankBefore, hxy, if_true] at h ⊢
        exact ih h
      · simp only [rankBefore, hxy, Ne.symm hxy, if_false, decide_eq_true_eq, decide_eq_false_iff_not] at h ⊢
        omega

section First
variable {α : Type} {rank : α → List Nat}

theorem firstBy_mem {l : List α} {x : α} (h : firstBy rank l = some x) : x ∈ l := by
  induction l with
  | nil => cases h
  | cons y l ih =>
    cases hrest : firstBy rank l with
    | none =>
      simp only [firstBy, hrest, Option.some.injEq] at h
      exact h ▸ List.mem_cons_self
    | some z =>
      by_cases hz : rankBefore (rank z) (rank y) = true
      · simp only [firstBy, hrest, hz, if_true] at h
        exact List.mem_cons_of_mem _ (ih (hrest.trans h))
      · simp only [firstBy, hrest, hz, Bool.false_eq_true, if_false, Option.some.injEq] at h
        exact h ▸ List.mem_cons_self

/-- An element whose rank goes before that of every other one is the first. -/
theorem firstBy_first {l : List α} {x : α} (hx : x ∈ l) (h : ∀ y ∈ l, y = x ∨ rankBefore (rank x) (rank y) = true) :
    firstBy rank l = some x := by
  induction l with
  | nil => cases hx
  | cons y l ih =>
    have hrest : ∀ z ∈ l, z = x ∨ rankBefore (rank x) (rank z) = true := fun z hz => h z (List.mem_cons_of_mem _ hz)
    by_cases hyx : y = x
    · subst hyx
      cases hl : firstBy rank l with
      | none => simp only [firstBy, hl]
      | some z =>
        rcases hrest z (firstBy_mem hl) with rfl | hz
        · simp only [firstBy, hl, ite_self]
        · simp only [firstBy, hl, rankBefore_asymm hz, Bool.false_eq_true, if_false]
    · have hxl : x ∈ l := (List.mem_cons.mp hx).resolve_left (Ne.symm hyx)
      have hxy : rankBefore (rank x) (rank y) = true := (h y List.mem_cons_self).resolve_left hyx
      simp only [firstBy, ih hxl hrest, hxy, if_true]

end First

/-! ### Sites -/

/-- The arena slots a team's groups take: none without a divergence stack, those it holds, or the lowest free ones (10 R305). -/
theorem State.arenaFor_eq (s : State) (w : Work) : s.arenaFor w
    = if (Header.ofPacket w.launch.packet).divstack = 0 then some []
      else match w.again with
        | some t => some (t.2.held.filterMap fun e => e.2.arena)
        | none => (s.context w.ctx).freeSlots (teamGrps w.launch.packet) := by
  unfold State.arenaFor
  cases w.again <;> rfl

theorem State.siteOf_iff (s : State) (w : Work) (cs as : List Nat) :
    s.siteOf w = some (cs, as) ↔ s.fitsDevice w.owner w.launch.packet = some cs ∧ s.arenaFor w = some as := by
  unfold State.siteOf
  cases s.fitsDevice w.owner w.launch.packet <;> cases s.arenaFor w <;> simp

theorem State.chooseCores_sublist (s : State) (p : BitVec 1024) (k : Nat) (l : List Nat) : (s.chooseCores p k l).Sublist l := by
  induction l generalizing k with
  | nil => exact List.Sublist.refl _
  | cons c l ih =>
    rw [State.chooseCores]
    split
    · exact (ih (k + 1)).cons_cons c
    · exact (ih k).cons c

/-- Each chosen core takes its segment, and its cluster the launch's mode. -/
theorem State.chooseCores_fits (s : State) (p : BitVec 1024) {k i c : Nat} {l : List Nat} (h : (s.chooseCores p k l)[i]? = some c) :
    s.segFits p (k + i) c = true ∧ s.modeFits p c = true := by
  induction l generalizing k i with
  | nil => simp [State.chooseCores] at h
  | cons d l ih =>
    rw [State.chooseCores] at h
    split at h
    · next hd =>
      obtain ⟨-, hmode, hseg⟩ := hd
      cases i with
      | zero =>
        obtain rfl : d = c := by simpa using h
        exact ⟨hseg, hmode⟩
      | succ i =>
        obtain ⟨hs, hm⟩ := ih (k := k + 1) (i := i) (by simpa using h)
        exact ⟨by rw [show k + (i + 1) = k + 1 + i by omega]; exact hs, hm⟩
    · exact ih h

/-- The cores a team would take in a quadrant: all its segments have one, and the quadrant is not another's. -/
theorem State.fitsQuad_some {s : State} {owner : Nat × Nat} {p : BitVec 1024} {k : Nat} {cs : List Nat} (h : s.fitsQuad owner p k = some cs) :
    (∀ o, SMap.find s.reserved k = some o → o = owner) ∧ cs.length = segCount p ∧ cs = s.chooseCores p 0 (quadCores k) := by
  simp only [State.fitsQuad] at h
  obtain ⟨hok, hcs⟩ := Option.ite_none_right_eq_some.mp h
  obtain ⟨hfree, hlen⟩ := Bool.and_eq_true_iff.mp hok
  obtain rfl := Option.some.inj hcs
  refine ⟨fun o ho => ?_, beq_iff_eq.mp hlen, rfl⟩
  rw [ho] at hfree
  exact beq_iff_eq.mp hfree

/-- The cores a team takes lie in one of the eight quadrants, which they fit. -/
theorem State.fitsDevice_some {s : State} {owner : Nat × Nat} {p : BitVec 1024} {cs : List Nat} (h : s.fitsDevice owner p = some cs) :
    ∃ k, k < 8 ∧ s.fitsQuad owner p k = some cs := by
  simp only [State.fitsDevice] at h
  split at h
  · next k hk =>
    have hmem := List.mem_of_mem_filter (leastBy_mem hk)
    rw [mem_run] at hmem
    exact ⟨k, by omega, h⟩
  · cases h

theorem run_pairwise (lo n : Nat) : (run lo n).Pairwise (· < ·) := by
  rw [run_eq_range']
  exact List.pairwise_lt_range'

theorem quadCores_div {k c : Nat} (h : c ∈ quadCores k) : c / 32 = k := by
  rw [quadCores, mem_run] at h
  omega

/-! ### Placement -/

/-- A saved team that fits goes before work of a rank. -/
theorem State.savedFirst_iff (s : State) (rank : List Nat) :
    s.savedFirst rank = true ↔
      ∃ t ∈ s.savedTeams, rankBefore (s.savedRank t.2) rank = true ∧ (s.fitsDevice (64, t.1) t.2.packet).isSome = true := by
  simp only [State.savedFirst, savedOwner, List.any_eq_true, Bool.and_eq_true]

theorem exec_teamPlacement_none {s : State} (h : s.nextWork = none) : exec .teamPlacement s = .next s := by
  change execTeamPlacement s = _
  simp only [execTeamPlacement, h]

theorem exec_teamPlacement_some {s : State} {w : Work} {cs as : List Nat} (h : s.nextWork = some w) (hsite : s.siteOf w = some (cs, as)) :
    exec .teamPlacement s = .next (s.place w cs as) := by
  change execTeamPlacement s = _
  simp only [execTeamPlacement, h, hsite]

theorem State.nextWork_of_none {s : State} (h : ∀ w ∈ s.works, s.siteOf w = none) : s.nextWork = none := by
  have hfits : (s.works.filter fun w => (s.siteOf w).isSome) = [] := by
    rw [List.filter_eq_nil_iff]
    intro w hw
    simp [h w hw]
  simp only [State.nextWork, hfits, firstBy]

/-- The first in rank of what fits is next, unless a saved team that fits goes before it. -/
theorem State.nextWork_of_first {s : State} {w : Work} (hw : w ∈ s.works) (hfits : (s.siteOf w).isSome = true)
    (hfirst : ∀ v ∈ s.works, (s.siteOf v).isSome = true → v = w ∨ rankBefore w.rank v.rank = true) :
    s.nextWork = if s.savedFirst w.rank then none else some w := by
  have hbest : firstBy Work.rank (s.works.filter fun v => (s.siteOf v).isSome) = some w :=
    firstBy_first (List.mem_filter.mpr ⟨hw, hfits⟩) fun v hv => hfirst v (List.mem_of_mem_filter hv) (List.mem_filter.mp hv).2
  simp only [State.nextWork, hbest]

theorem placementRule : Claims.PlacementRule := by
  refine ⟨fun s w cs as hw hsite hfirst => ?first, fun s h => exec_teamPlacement_none (State.nextWork_of_none h), fun s w cs as => ?site,
    fun s owner p cs h => ?cores, fun s p k core h => ?segment⟩
  case first =>
    intro waits
    have hnext := State.nextWork_of_first hw (by rw [hsite]; rfl) hfirst
    exact ⟨fun h => exec_teamPlacement_some (hnext.trans (if_neg (mt (s.savedFirst_iff w.rank).mp h))) hsite,
      fun h => exec_teamPlacement_none (hnext.trans (if_pos ((s.savedFirst_iff w.rank).mpr h)))⟩
  case site =>
    intro arena
    have harena : s.arenaFor w = arena := s.arenaFor_eq w
    rw [← harena]
    exact s.siteOf_iff w cs as
  case cores =>
    obtain ⟨k, hk, hquad⟩ := State.fitsDevice_some h
    obtain ⟨hfree, hlen, rfl⟩ := State.fitsQuad_some hquad
    have hsub := s.chooseCores_sublist p 0 (quadCores k)
    refine ⟨hlen, (run_pairwise _ _).sublist hsub, k, hk, hfree, fun i c hc => ⟨?_, ?_⟩⟩
    · exact quadCores_div (hsub.subset (List.mem_of_getElem? hc))
    · simpa only [Nat.zero_add] using s.chooseCores_fits p hc
  case segment =>
    simp only [State.segFits, Bool.and_eq_true, decide_eq_true_eq] at h
    obtain ⟨⟨⟨hregs, hslots⟩, hscratch⟩, htiles⟩ := h
    exact ⟨hregs, hslots, hscratch, htiles⟩

/-! ### Reservation -/

/-- Of a rising list the lowest of the elements with the least measure is the one picked. -/
theorem leastBy_lowest {f : Nat → Nat} {l : List Nat} (hl : l.Pairwise (· < ·)) {k : Nat} (hk : k ∈ l)
    (hleast : ∀ j ∈ l, f k < f j ∨ f k = f j ∧ k ≤ j) : leastBy f l = some k := by
  obtain ⟨before, after, rfl⟩ := List.append_of_mem hk
  obtain ⟨-, -, hcross⟩ := List.pairwise_append.mp hl
  refine leastBy_first (fun y hy => ?_) fun y hy => ?_
  · have hlow : y < k := hcross y hy k List.mem_cons_self
    have hy' := hleast y (List.mem_append_left _ hy)
    omega
  · have hy' := hleast y (List.mem_append_right _ (List.mem_cons_of_mem _ hy))
    omega

/-- The quadrant without a reservation that has the fewest resident groups, the lowest among equals, is reserved (10 R303). -/
theorem State.reserveFor_lowest {s : State} {k : Nat} (hk : k < 8) (hfree : SMap.has s.reserved k = false)
    (hleast : ∀ j, j < 8 → SMap.has s.reserved j = false → s.quadGroups k < s.quadGroups j ∨ (s.quadGroups k = s.quadGroups j ∧ k ≤ j))
    (o : Nat × Nat) :
    s.reserveFor o = { s with reserved := SMap.insert s.reserved k o, awaiting := s.awaiting.filter (· != o) } := by
  have hpick : leastBy s.quadGroups ((run 0 8).filter fun k => !SMap.has s.reserved k) = some k := by
    refine leastBy_lowest ((run_pairwise 0 8).filter _) ?_ fun j hj => ?_
    · simp [mem_run, hk, hfree]
    · obtain ⟨hj8, hjfree⟩ : j < 8 ∧ SMap.has s.reserved j = false := by simpa [mem_run] using hj
      exact hleast j hj8 hjfree
  simp only [State.reserveFor, hpick]

theorem State.reserveFor_full {s : State} (h : ∀ k, k < 8 → SMap.has s.reserved k = true) (o : Nat × Nat) : s.reserveFor o = s := by
  have hnone : ((run 0 8).filter fun k => !SMap.has s.reserved k) = [] := by
    rw [List.filter_eq_nil_iff]
    intro k hk
    rw [mem_run] at hk
    simp [h k (by omega)]
  simp only [State.reserveFor, hnone, leastBy]

theorem exec_quadrantReservation_none {ctx num : Nat} {s : State} (h : s.waiters ctx num = []) :
    exec (.quadrantReservation ctx num) s = .next s := by
  change execQuadrantReservation ctx num s = _
  simp only [execQuadrantReservation, h, leastBy]

/-- Where no team waits for a reservation, the one that has waited longest takes its turn at once. -/
theorem exec_quadrantReservation_turn {ctx num n : Nat} {s : State} {o : Nat × Nat} (h : leastBy Prod.fst (s.waiters ctx num) = some (n, o))
    (hnone : s.awaiting = []) : exec (.quadrantReservation ctx num) s = .next (({ s with awaiting := [o] } : State).reserveFor o) := by
  change execQuadrantReservation ctx num s = _
  simp only [execQuadrantReservation, h, hnone, List.nil_append, State.serveAwaiting, List.foldl_cons, List.foldl_nil]

/-! ### Retirement -/

/-- A launch is over once it is Active, all its teams have started, and none of them is left (10 R302). -/
theorem State.launchOver_iff (s : State) (ctx : Nat) (l : Launch) :
    s.launchOver ctx l = true ↔ l.state = .active ∧ gridTeams l.packet ≤ l.next
      ∧ ∀ t ∈ s.teams, t.2.ctx = ctx → t.2.launch = l.num → t.2.handler = true := by
  simp [State.launchOver, and_assoc]

section Retire
variable {ctx num : Nat} {s : State} {before after : List Launch} {l : Launch} (hl : (s.context ctx).launches = before ++ l :: after)
  (hnum : l.num = num) (hother : ∀ k ∈ before ++ after, k.num ≠ num)
include hl hnum hother

/-- The launch that a number names is found where it is over. -/
theorem State.find_launchOver : ((s.context ctx).launches.find? fun l => l.num == num && s.launchOver ctx l)
    = if s.launchOver ctx l then some l else none := by
  have hbefore : before.find? (fun l => l.num == num && s.launchOver ctx l) = none :=
    List.find?_eq_none.mpr fun k hk => by simp [hother k (List.mem_append_left _ hk)]
  have hafter : after.find? (fun l => l.num == num && s.launchOver ctx l) = none :=
    List.find?_eq_none.mpr fun k hk => by simp [hother k (List.mem_append_right _ hk)]
  rw [hl, List.find?_append, hbefore, Option.none_or, List.find?_cons, hafter, hnum, beq_self_eq_true, Bool.true_and]
  cases s.launchOver ctx l <;> rfl

theorem exec_launchRetire_not (h : ¬ s.launchOver ctx l = true) : exec (.launchRetire ctx num) s = .next s := by
  change execLaunchRetire ctx num s = _
  simp only [execLaunchRetire, State.find_launchOver hl hnum hother, if_neg h]

/-- The machine after a launch has set its events and is gone, with its reservations. -/
def State.retired (s : State) (ctx num : Nat) (l : Launch) : State :=
  let c := (s.context ctx).applyEvents 0 (l.packet.extractLsb' 768 256)
  (s.setContext ctx { c with launches := c.launches.filter fun k => k.num != num }).release (· == (ctx, num))

/-- The completion record of a host packet's launch that has retired; a device launch has none (12 R358). -/
def State.recordRetired (s : State) (num : Nat) : Origin → State
  | .host p q n => s.complete p q n num 0
  | .device => s

theorem exec_launchRetire_over (h : s.launchOver ctx l = true) :
    exec (.launchRetire ctx num) s = .next ((s.retired ctx num l).recordRetired num l.origin) := by
  have hevents : s.eventNow ctx 0 (BitVec.ofNat 256 (bits l.packet.toNat 768 256))
      = s.setContext ctx ((s.context ctx).applyEvents 0 (l.packet.extractLsb' 768 256)) := by
    rw [State.eventNow, ofNat_bits_toNat]
  have hread : ∀ x, (s.setContext ctx x).context ctx = x := fun x => (SMap.getD_insert _ _ _ _ _).trans (if_pos rfl)
  have hwrite : ∀ x y, (s.setContext ctx x).setContext ctx y = s.setContext ctx y := fun x y => by
    simp only [State.setContext, SMap.insert_insert]
  change execLaunchRetire ctx num s = _
  simp only [execLaunchRetire, State.find_launchOver hl hnum hother, if_pos h, hevents, hread, hwrite, State.retired]
  cases l.origin <;> rfl

end Retire

theorem reservationAndRetirement : Claims.ReservationAndRetirement := by
  intro ctx num s
  refine ⟨exec_quadrantReservation_none, fun before after n o hwaiters hbefore hafter hnone => ?reserve,
    fun before l after hl hnum hother => ?retire⟩
  case reserve =>
    have hleast : leastBy Prod.fst (s.waiters ctx num) = some (n, o) := by
      rw [hwaiters]
      exact leastBy_first hbefore hafter
    have hturn := exec_quadrantReservation_turn hleast hnone
    have hserved : [o].filter (· != o) = s.awaiting := by simp [hnone]
    refine ⟨fun k hk hfree hfewest => ?_, fun hfull => ?_⟩
    · rw [hturn, State.reserveFor_lowest (s := { s with awaiting := [o] }) hk hfree hfewest o, hserved]
    · rw [hturn, State.reserveFor_full (s := { s with awaiting := [o] }) hfull o]
  case retire =>
    intro ended c t
    have hended : s.launchOver ctx l = true ↔ ended := by rw [s.launchOver_iff, hnum]
    have hover := fun h : ended => exec_launchRetire_over hl hnum hother (hended.mpr h)
    exact ⟨fun h => exec_launchRetire_not hl hnum hother (mt hended.mp h), fun h ho => (hover h).trans (by rw [ho]; rfl),
      fun h p q n ho => (hover h).trans (by rw [ho]; rfl)⟩

end Sys2Proof.Machine

open Sys2Proof Sys2Proof.Machine in
/-- Settles O42: the first in rank is found since ranks before each other are asymmetric; a site's cores are a sublist of one
quadrant's; a launch that its number names alone is the one that retires. -/
theorem placementRules : Obligations.PlacementRules := ⟨placementRule, reservationAndRetirement⟩

/-! ## Pre-emption: request, acknowledgements, decision (05 R188; 10 R314, R318, Table 10-7) -/

namespace Sys2Proof.Machine

section Preempt
variable {team : Nat} {s : State} {x : Team}

theorem State.allDone_iff (s : State) (team : Nat) : s.allDone team = true ↔ ∀ e ∈ s.teamGroups team, e.2.status = .done := by
  simp only [State.allDone, List.all_eq_true, beq_iff_eq]

theorem Team.resident_iff (x : Team) : x.resident = true ↔ x.saved = none ∧ x.restart = false := by
  simp [Team.resident]

/-! ### The request -/

/-- A group that is frozen does not look at its waits. -/
theorem Group.setPreempt_true (g : Group) : g.setPreempt true = { g with freeze := { g.freeze with preempt := true } } :=
  if_pos (by simp [Group.frozen])

/-- A team that is away or over is not pre-empted (log 84). -/
theorem exec_preemptRequest_not (hx : s.team team = some x) (h : x.resident = false ∨ s.allDone team = true) :
    exec (.preemptRequest team) s = .next s := by
  have hoff : (!x.resident || s.allDone team) = true := by
    rcases h with h | h <;> simp [h]
  change Host.Outcome.next (s.requestPreempt team none) = _
  simp only [State.requestPreempt, hx, hoff, if_true]

variable (hx : s.team team = some x) (hres : x.resident = true) (hdone : s.allDone team = false)
include hx hres hdone

/-- The first request freezes the team's groups and is recorded. -/
theorem exec_preemptRequest_first (hnone : ∀ p ∈ s.preempts, p.team ≠ team) : exec (.preemptRequest team) s
    = .next { s with
        groups := s.groups.map fun e => if e.2.team = team ∧ e.1 % 128 < 64 then
          (e.1, { e.2 with freeze := { e.2.freeze with preempt := true } }) else e
        preempts := s.preempts ++ [⟨team, [], none, none⟩] } := by
  have hany : s.preempts.any (fun p => p.team == team) = false := by
    simpa only [List.any_eq_false, beq_iff_eq] using hnone
  change Host.Outcome.next (s.requestPreempt team none) = _
  simp only [State.requestPreempt, hx, hres, hdone, hany, State.mapTeam, Group.setPreempt_true, Bool.not_true, Bool.or_self,
    Bool.false_eq_true, if_false]

/-- A second request merges with the first. -/
theorem exec_preemptRequest_again (hsome : ∃ p ∈ s.preempts, p.team = team) : exec (.preemptRequest team) s = .next s := by
  have hany : s.preempts.any (fun p => p.team == team) = true := by
    simpa only [List.any_eq_true, beq_iff_eq] using hsome
  have hmerge : (s.preempts.map fun p => if p.team = team ∧ p.cmd = none then { p with cmd := none } else p) = s.preempts := by
    refine (List.map_congr_left fun p _ => ?_).trans (List.map_id _)
    split
    · next h => rw [← h.2]; rfl
    · rfl
  change Host.Outcome.next (s.requestPreempt team none) = _
  simp only [State.requestPreempt, hx, hres, hdone, hany, Bool.not_true, Bool.or_self, Bool.false_eq_true, if_false, if_true, hmerge]

end Preempt

/-! ### Acknowledgements -/

section Ack
variable {team cls : Nat} {s : State} {p : Preempt} (hp : s.preempts = [p]) (hteam : p.team = team)
include hp hteam

/-- A class acknowledges when it has stopped, is one of the six and has not done so before; every class but 0 comes after class 0. -/
theorem exec_engineAck_not (h : ¬ (cls < 6 ∧ cls ∉ p.acks ∧ (cls = 0 ∨ 0 ∈ p.acks) ∧ s.classStopped team cls = true)) :
    exec (.engineAck team cls) s = .next s := by
  change execEngineAck team cls s = _
  refine if_neg (mt (fun hmay => ?_) h)
  simpa [hp, hteam, and_assoc] using hmay

theorem exec_engineAck_may (h : cls < 6 ∧ cls ∉ p.acks ∧ (cls = 0 ∨ 0 ∈ p.acks) ∧ s.classStopped team cls = true) :
    exec (.engineAck team cls) s = .next (if cls = 0 then ({ s with preempts := [{ p with acks := p.acks ++ [cls] }] } : State).askHomes team
      else { s with preempts := [{ p with acks := p.acks ++ [cls] }] }) := by
  have hacked : (s.preempts.map fun p => if p.team = team then { p with acks := p.acks ++ [cls] } else p)
      = [{ p with acks := p.acks ++ [cls] }] := by
    simp only [hp, hteam, List.map_cons, List.map_nil, if_true]
  change execEngineAck team cls s = _
  refine (if_pos ?_).trans (by rw [hacked])
  simpa [hp, hteam, and_assoc] using h

end Ack

/-- A team without homes on other devices asks none. -/
theorem State.askHomes_none {s : State} {team : Nat} {p : Preempt} (hp : s.preempts = [p]) (hteam : p.team = team) (hhomes : p.homes = none)
    (hnone : s.homeDevices team = []) : s.askHomes team = { s with preempts := [{ p with homes := some [] }] } := by
  simp only [State.askHomes, hnone, hp, hteam, hhomes, List.foldl_nil, List.map_cons, List.map_nil, and_self, if_true]

/-! ### The decision -/

section Decide
variable {team : Nat} {s : State} {x : Team} {p : Preempt} (hx : s.team team = some x) (hp : s.preempts = [p]) (hteam : p.team = team)
include hx hp hteam

/-- What the collector decides about a team that is resident or not: over, ready, restartable (10 R314 step 4). -/
theorem exec_preemptDecide : exec (.preemptDecide team) s =
    if s.allDone team then .next (s.giveBack team 0)
    else if (run 0 6).all (fun c => p.acks.contains c) && s.teamQuiet team then
      if x.restartable && !(s.teamGroups team).any (fun e => e.2.status == .trapped) then
        .next ((s.discard team x).endPreempt team 0)
      else .next (s.save team x)
    else .next s := by
  have hfind : s.preempts.find? (fun p => p.team == team) = some p := by
    rw [hp, List.find?_cons, hteam, beq_self_eq_true]
  change execPreemptDecide team s = _
  simp only [execPreemptDecide, hfind, hx]

end Decide

/-! ### Parking -/

theorem takeNth_none {α : Type} {f : α → Bool} {l : List α} (h : ∀ y ∈ l, f y = false) (n : Nat) : takeNth f n l = none := by
  induction l generalizing n with
  | nil => cases n <;> rfl
  | cons y l ih =>
    have hy := h y List.mem_cons_self
    have hrest := ih fun z hz => h z (List.mem_cons_of_mem _ hz)
    cases n <;> simp [takeNth, hy, hrest]

/-- A subscription entry as the homes hold it while its team is parked. -/
def SubEntry.parked (e : SubEntry) (team dev : Nat) : SubEntry := if e.team = team ∧ e.dev = dev then { e with park := true } else e

/-- Parking touches the entries of the device's team in one slice. -/
theorem State.parkIn_eq (s : State) (h dev team : Nat) :
    ∃ y, s.parkIn h dev team = s.setSlice h y ∧ { y with subs := (s.slice h).subs } = s.slice h
      ∧ ∀ n, SMap.find y.subs n = (SMap.find (s.slice h).subs n).map fun e => e.parked team dev := by
  refine ⟨_, rfl, rfl, fun n => ?_⟩
  rw [SMap.find_map_entries (fun e => by split <;> rfl)]
  refine congrArg (fun k => (SMap.find (s.slice h).subs n).map k) (funext fun e => ?_)
  unfold SubEntry.parked
  split <;> rfl

/-- Without messages about parking, the event parks here what a pre-emption with quiet groups lets it. -/
theorem exec_subscriptionPark {s : State} {team : Nat} (h : Nat) (hquiet : ∀ m ∈ s.net, m.isPark team = false) :
    exec (.subscriptionPark h team) s
      = .next (if s.preempts.any (fun p => p.team == team && p.acks.contains 0) then s.parkIn h s.dev team else s) := by
  change execSubscriptionPark h team s = _
  simp only [execSubscriptionPark]
  generalize hs1 : (if s.preempts.any (fun p => p.team == team && p.acks.contains 0) then s.parkIn h s.dev team else s) = s1
  have hnet : s1.net = s.net := by
    rw [← hs1]
    split <;> rfl
  have hasked : s1.net.filter (Msg.isPark team) = [] := by
    rw [hnet, List.filter_eq_nil_iff]
    exact fun m hm => by rw [hquiet m hm]; exact Bool.false_ne_true
  have htake : ∀ f : Msg → Bool, s1.takeMsg (fun m => m.isPark team && f m) 0 = none := by
    intro f
    have hnone : takeNth (fun m => m.isPark team && f m) 0 s1.net = none :=
      takeNth_none (fun m hm => by rw [hquiet m (hnet ▸ hm), Bool.false_and]) 0
    simp only [State.takeMsg, hnone]
  simp only [hasked, List.foldl_nil, htake]

end Sys2Proof.Machine

open Sys2Proof Sys2Proof.Machine in
/-- Settles O44: each event takes the branch that its condition names; a frozen group does not look at its waits, and without messages
about parking SUBSCRIPTION_PARK touches one slice alone. -/
theorem preemptionSteps : Obligations.PreemptionSteps := by
  intro team s x hx ended frozen
  have hended : s.allDone team = true ↔ ended := s.allDone_iff team
  refine ⟨fun hsaved hrestart hnot => ?request, fun h => ?away, fun cls p hp hteam => ?ack, fun p hp hteam => ?decide, fun h hquiet => ?park⟩
  case request =>
    have hres : x.resident = true := x.resident_iff.mpr ⟨hsaved, hrestart⟩
    have hdone : s.allDone team = false := Bool.eq_false_iff.mpr (mt hended.mp hnot)
    exact ⟨exec_preemptRequest_first hx hres hdone, exec_preemptRequest_again hx hres hdone⟩
  case away =>
    refine exec_preemptRequest_not hx ?_
    rcases h with h | h | h
    · exact .inl (by simp [Team.resident, Option.isNone_eq_false_iff.mpr h])
    · exact .inl (by simp [Team.resident, h])
    · exact .inr (hended.mpr h)
  case ack =>
    intro may acked
    have hack := fun h : may => exec_engineAck_may hp hteam h
    refine ⟨fun h hcls => (hack h).trans (by rw [if_neg hcls]), fun h hcls hnone hhomes => ?_, fun h hcls => (hack h).trans (by rw [if_pos hcls]),
      exec_engineAck_not hp hteam⟩
    subst hcls
    refine (hack h).trans (congrArg _ ?_)
    exact State.askHomes_none (s := { s with preempts := [{ p with acks := p.acks ++ [0] }] }) rfl hteam hhomes hnone
  case decide =>
    intro ready noTrap
    have hdecide := exec_preemptDecide hx hp hteam
    have hready : ((run 0 6).all (fun c => p.acks.contains c) && s.teamQuiet team) = true ↔ ready := by
      simp [ready, mem_run]
    have hdiscard : (x.restartable && !(s.teamGroups team).any (fun e => e.2.status == .trapped)) = true
        ↔ x.restartable = true ∧ noTrap := by
      simp [noTrap]
    refine ⟨fun h => ?_, fun hn hr => ?_, fun hn hr hre ht => ?_, fun hn hr hno => ?_⟩
    · rw [hdecide, if_pos (hended.mpr h)]
    · rw [hdecide, if_neg (mt hended.mp hn), if_neg (mt hready.mp hr)]
    · rw [hdecide, if_neg (mt hended.mp hn), if_pos (hready.mpr hr), if_pos (hdiscard.mpr ⟨hre, ht⟩)]
    · rw [hdecide, if_neg (mt hended.mp hn), if_pos (hready.mpr hr), if_neg (mt hdiscard.mp ?_)]
      rintro ⟨hre, ht⟩
      rcases hno with h | h
      · rw [hre] at h
        cases h
      · exact h ht
  case park =>
    have hexec := exec_subscriptionPark h hquiet
    have hmay : s.preempts.any (fun p => p.team == team && p.acks.contains 0) = true ↔ ∃ p ∈ s.preempts, p.team = team ∧ 0 ∈ p.acks := by
      simp
    refine ⟨fun hyes => ?_, fun hno => by rw [hexec, if_neg (mt hmay.mp hno)]⟩
    obtain ⟨y, hy, hframe, hsubs⟩ := s.parkIn_eq h s.dev team
    exact ⟨y, by rw [hexec, if_pos (hmay.mpr hyes), hy], hframe, hsubs⟩

/-! ## Saving, discarding and restoring a team (10 R316, R318 to R320) -/

namespace Sys2Proof.Machine

/-! ### A team leaves its cores -/

theorem State.teamGroups_eq_nil_iff (s : State) (team : Nat) :
    s.teamGroups team = [] ↔ ∀ e ∈ s.groups, e.2.team = team → 64 ≤ e.1 % 128 := by
  simp [State.teamGroups]

theorem State.teamGroups_vacate (s : State) (team : Nat) : (s.vacate team).teamGroups team = [] := by
  rw [State.teamGroups_eq_nil_iff]
  intro e he hteam
  have hkept := (List.mem_filter.mp he).2
  simpa [hteam] using hkept

/-- Halting a context brings back no group. -/
theorem State.teamGroups_haltContext {s : State} {team : Nat} (h : s.teamGroups team = []) (ctx core cause : Nat) :
    (s.haltContext ctx core cause).teamGroups team = [] := by
  rw [State.teamGroups_eq_nil_iff] at h ⊢
  rw [State.groups_haltContext]
  intro e he hteam
  obtain ⟨x, hx, rfl⟩ := List.mem_map.mp he
  by_cases hctx : x.2.ctx = ctx
  · simp only [hctx, if_true] at hteam ⊢
    exact h x hx hteam
  · simp only [hctx, if_false] at hteam ⊢
    exact h x hx hteam

theorem State.teams_haltContext (s : State) (ctx core cause : Nat) : (s.haltContext ctx core cause).teams = s.teams := by
  simp only [State.haltContext]
  split <;> rfl

/-- The halts that a pre-emption held back change no team and bring back no group. -/
theorem State.halts_frame (l : List (Nat × Nat)) (s : State) :
    (l.foldl (fun st h => st.haltContext h.1 h.2 0) s).teams = s.teams
    ∧ ∀ team, s.teamGroups team = [] → (l.foldl (fun st h => st.haltContext h.1 h.2 0) s).teamGroups team = [] := by
  induction l generalizing s with
  | nil => exact ⟨rfl, fun _ h => h⟩
  | cons h l ih =>
    obtain ⟨hteams, hgroups⟩ := ih (s.haltContext h.1 h.2 0)
    exact ⟨hteams.trans (s.teams_haltContext h.1 h.2 0), fun team he => hgroups team (State.teamGroups_haltContext he h.1 h.2 0)⟩

/-- The end of a pre-emption changes no team and brings back no group. -/
theorem State.endPreempt_frame (s : State) (t result : Nat) :
    (s.endPreempt t result).teams = s.teams ∧ ∀ team, s.teamGroups team = [] → (s.endPreempt t result).teamGroups team = [] := by
  simp only [State.endPreempt]
  split
  · exact ⟨rfl, fun _ h => h⟩
  · split
    · exact ⟨rfl, fun _ h => h⟩
    · exact State.halts_frame _ _

/-! ### Saving -/

theorem State.tell_eq (s : State) (n : FwNote) :
    s.tell n = if n ∈ s.fwNotes then s else { s with fwNotes := s.fwNotes ++ [n] } := by
  simp only [State.tell, List.contains_iff_mem]

/-- A save slot is the lowest that no team has. -/
theorem Context.saveSlot_some {c : Context} {n : Nat} (h : c.saveSlot = some n) :
    n < c.saveslots.toNat ∧ n ∉ c.saveUsed ∧ ∀ m, m < n → m ∈ c.saveUsed := by
  rw [Context.saveSlot, run_zero, List.find?_range_eq_some] at h
  obtain ⟨hn, -, hlower⟩ := h
  obtain ⟨hunused, hlt⟩ : n ∉ c.saveUsed ∧ n < c.saveslots.toNat := by simpa using hn
  refine ⟨hlt, hunused, fun m hm => ?_⟩
  have hused := hlower m hm
  simp only [Bool.not_and, Bool.not_not, Bool.or_eq_true, List.contains_iff_mem, Bool.not_eq_true', decide_eq_false_iff_not] at hused
  exact hused.resolve_right (by omega)

section Save
variable {s : State} {team : Nat} {x : Team}

theorem State.save_noSlot (h : (s.context x.ctx).saveSlot = none) : s.save team x = s.cannotSave team 3 := by
  simp only [State.save, h]

variable {n : Nat} (h : (s.context x.ctx).saveSlot = some n)
include h

theorem State.save_small (hsmall : (s.context x.ctx).saveslotsz.toNat < (s.imageOf team x).length) :
    s.save team x = s.cannotSave team 3 := by
  simp only [State.save, h, if_pos hsmall]

variable (hroom : (s.imageOf team x).length ≤ (s.context x.ctx).saveslotsz.toNat)
include hroom

theorem State.save_unwritable {k : XKind}
    (hwrite : s.homeWriteRun (s.context x.ctx).asid.toNat ((s.context x.ctx).saveAddr n) (s.imageOf team x) = .error k) :
    s.save team x = (s.spoilRun (s.context x.ctx).asid.toNat ((s.context x.ctx).saveAddr n)
      (s.context x.ctx).saveslotsz.toNat).cannotSave team 4 := by
  simp only [State.save, h, if_neg (Nat.not_lt.mpr hroom), hwrite]

/-- A team in a save slot: it holds its groups, as they were when its image had been written, and its engine work. -/
def Team.inSlot (x : Team) (t : State) (team n now : Nat) : Team :=
  { x with
    saved := some n
    held := (t.inOrder team).map fun e => (e.1, { e.2 with savedFrz := bit e.2.xflags 0 })
    heldMat := (t.cores.map fun e => e.2.matq.filter fun m => m.team == team).flatten
    heldCopy := (t.cores.map fun e => e.2.copies.filter fun j => j.team == team).flatten
    since := now }

theorem State.save_written {t : State}
    (hwrite : s.homeWriteRun (s.context x.ctx).asid.toNat ((s.context x.ctx).saveAddr n) (s.imageOf team x) = .ok t) :
    s.save team x = ({ ((t.vacate team).setContext x.ctx
      { t.context x.ctx with saveUsed := (t.context x.ctx).saveUsed ++ [n] }).setTeam team (x.inSlot t team n s.now) with
      free := t.free + 4864 * x.segs.length } : State).endPreempt team 0 := by
  simp only [State.save, h, if_neg (Nat.not_lt.mpr hroom), hwrite]
  rfl

/-- A saved team has no group left on a core, and holds them in its slot. -/
theorem State.save_written_frame {t : State}
    (hwrite : s.homeWriteRun (s.context x.ctx).asid.toNat ((s.context x.ctx).saveAddr n) (s.imageOf team x) = .ok t) :
    (s.save team x).teamGroups team = [] ∧ (s.save team x).team team = some (x.inSlot t team n s.now) := by
  rw [State.save_written h hroom hwrite]
  obtain ⟨hteams, hgroups⟩ := State.endPreempt_frame ({ ((t.vacate team).setContext x.ctx
      { t.context x.ctx with saveUsed := (t.context x.ctx).saveUsed ++ [n] }).setTeam team (x.inSlot t team n s.now) with
      free := t.free + 4864 * x.segs.length } : State) team 0
  refine ⟨hgroups team (t.teamGroups_vacate team), ?_⟩
  rw [State.team, hteams]
  exact State.team_setTeam _ team _

end Save

theorem saveAndDiscard : Claims.SaveAndDiscard := by
  intro s team x c img told
  have hback : ∀ (u : State) n, u.cannotSave team n = told (u.giveBack team n) n := fun u n => State.tell_eq _ _
  refine ⟨fun h => (State.save_noSlot h).trans (hback s 3), fun n h => ⟨Context.saveSlot_some h, fun hsmall => ?_, fun k hroom hwrite => ?_,
    fun t hroom hwrite => ?_⟩, ?_, ?_⟩
  · exact (State.save_small h hsmall).trans (hback s 3)
  · exact (State.save_unwritable h hroom hwrite).trans (hback _ 4)
  · obtain ⟨hgone, hteam⟩ := State.save_written_frame h hroom hwrite
    exact ⟨hgone, x.inSlot t team n s.now, hteam, rfl, rfl, rfl, rfl⟩
  · exact s.teamGroups_vacate team
  · exact State.team_setTeam _ team _

/-! ### Restoring -/

section Image
variable {s : State} {x : Team} {slot : Nat}

theorem State.savedImage_unreadable {k : XKind}
    (h : s.homeLoad (s.context x.ctx).asid.toNat ((s.context x.ctx).saveAddr slot) 256 = .error k) : s.savedImage x slot = none := by
  simp only [State.savedImage, h]

theorem State.savedImage_read {s1 : State} {hd : List Byte}
    (h : s.homeLoad (s.context x.ctx).asid.toNat ((s.context x.ctx).saveAddr slot) 256 = .ok (s1, hd)) :
    s.savedImage x slot = if goodImage hd (x.named hd).imageSize then some (x.named hd) else none := by
  simp only [State.savedImage, h]

end Image

theorem goodImage_iff (bs : List Byte) (size : Nat) :
    goodImage bs size = true ↔ fieldAt bs 0 4 = imageMagic ∧ fieldAt bs 4 4 = Config.impl.toNat ∧ fieldAt bs 24 4 = size := by
  simp [goodImage, and_assoc]

section Restore
variable {team slot : Nat} {s : State} {x y : Team} (hx : s.team team = some x) (hslot : x.saved = some slot)
include hx hslot

theorem exec_teamRestore_unnamed (h : s.savedImage x slot = none) : exec (.teamRestore team) s = .next (s.tell (.notRestored team)) := by
  change execTeamRestore team s = _
  simp only [execTeamRestore, hx, hslot, h]

variable (hy : s.savedImage x slot = some y)
include hy

theorem exec_teamRestore_noRoom (h : s.fitsDevice (savedOwner team) y.packet = none) : exec (.teamRestore team) s = .next s := by
  change execTeamRestore team s = _
  simp only [execTeamRestore, hx, hslot, hy, h]

variable {cores : List Nat} (hcores : s.fitsDevice (savedOwner team) y.packet = some cores)
include hcores

theorem exec_teamRestore_waits (h : s.queuesFit y cores = false ∨ s.mayRestore team y = false) : exec (.teamRestore team) s = .next s := by
  have hwaits : (!s.queuesFit y cores || !s.mayRestore team y) = true := by
    rcases h with h | h <;> simp [h]
  change execTeamRestore team s = _
  simp only [execTeamRestore, hx, hslot, hy, hcores, hwaits, if_true]

variable (hqueues : s.queuesFit y cores = true) (hmay : s.mayRestore team y = true)
include hqueues hmay

theorem exec_teamRestore_unreadable {k : XKind}
    (h : s.homeLoad (s.context x.ctx).asid.toNat ((s.context x.ctx).saveAddr slot) y.imageSize = .error k) :
    exec (.teamRestore team) s = .next (s.tell (.notRestored team)) := by
  change execTeamRestore team s = _
  simp only [execTeamRestore, hx, hslot, hy, hcores, hqueues, hmay, h, Bool.not_true, Bool.or_self, Bool.false_eq_true, if_false]

theorem exec_teamRestore_done {s1 : State} {img : List Byte}
    (h : s.homeLoad (s.context x.ctx).asid.toNat ((s.context x.ctx).saveAddr slot) y.imageSize = .ok (s1, img)) :
    exec (.teamRestore team) s = .next (s1.restoreOn team y slot img cores) := by
  change execTeamRestore team s = _
  simp only [execTeamRestore, hx, hslot, hy, hcores, hqueues, hmay, h, Bool.not_true, Bool.or_self, Bool.false_eq_true, if_false]

end Restore

theorem restoreRule : Claims.RestoreRule := by
  intro team s x slot hx hslot c told at'
  have htold : s.tell (.notRestored team) = told := s.tell_eq _
  refine ⟨fun k h => State.savedImage_unreadable h, fun s1 hd h => ?named, fun h => ?unnamed,
    fun y hy => ⟨fun h => ?noRoom, fun cores hcores => ?fits⟩⟩
  case named =>
    intro y cut lead q p size good
    have hgood : goodImage hd y.imageSize = true ↔ good := goodImage_iff hd y.imageSize
    have hread : s.savedImage x slot = if goodImage hd y.imageSize then some y else none := State.savedImage_read h
    exact ⟨fun h => hread.trans (if_pos (hgood.mpr h)), fun h => hread.trans (if_neg (mt hgood.mp h)), rfl⟩
  case unnamed => rw [exec_teamRestore_unnamed hx hslot h, htold]
  case noRoom => exact exec_teamRestore_noRoom hx hslot hy h
  case fits =>
    refine ⟨exec_teamRestore_waits hx hslot hy hcores, fun hqueues hmay => ⟨fun k h => ?_, fun s1 img h => ?_⟩⟩
    · rw [exec_teamRestore_unreadable hx hslot hy hcores hqueues hmay h, htold]
    · exact exec_teamRestore_done hx hslot hy hcores hqueues hmay h

end Sys2Proof.Machine

open Sys2Proof Sys2Proof.Machine in
/-- Settles O45: what ends a pre-emption brings no group back, so a saved or discarded team has none; the restore takes the branch that
its image, its fit and its order name. -/
theorem saveAndRestoreRules : Obligations.SaveAndRestoreRules := ⟨saveAndDiscard, restoreRule⟩
